-- ==== Sys2Proof/Word.lean ====
section
/-!
DEFINITION. The bit-vector types of the SLH4810 and their plainest arithmetic: bytes, 32-bit words, the block
sequence number (R12) and the Cooler sample number (R292).
-/

namespace Sys2Proof

/-- One byte of a packet, a reply, an image or an OTP word (R4). -/
abbrev Byte := BitVec 8

/-- One 32-bit value: a PADDR or the value of a field (R201). -/
abbrev Word := BitVec 32

/-- The block sequence number, 40 bits, compared modulo 2^40 (R12, R13). -/
abbrev Bsn := BitVec 40

/-- A wake sample number, 42 bits, compared modulo 2^42 (R292). -/
abbrev Csn := BitVec 42

end Sys2Proof
end

