-- ==== Sys2Proof/Syntax.lean ====
section
/-!
DEFINITION. The commands of the block: one constructor of `Instr` per row of spec/opcode_table.json, with the row's
operands. The 66 opcode rows carry the request the host sends. Every other row is an event of a pin, a port, a unit
or a clock, and carries what the outside or the unit brings to it (a pin level, a measured value, an index).
-/

namespace Sys2Proof

/-- The three command ports (R390). -/
inductive PortId where
  | spi    -- port 0, SPI host port
  | addrA  -- port 1, two-wire ADDR_A
  | addrB  -- port 2, two-wire ADDR_B
  deriving DecidableEq, Repr

/-- One command packet as the port received it: tag, flags and payload of R391 (the opcode is the row's own). -/
structure Request where
  port    : PortId
  tag     : Byte
  flags   : Byte
  payload : List Byte
  deriving DecidableEq, Repr

/-- The kinds of repairable unit (R192). -/
inductive UnitKind where
  | oe      -- 1 operator engine
  | me      -- 2 move engine
  | bank    -- 3 bank
  | dec     -- 4 decimator
  | finger  -- 5 half-bridge finger
  | drover  -- 6 the Drover
  deriving DecidableEq, Repr

/-- One unit that a fault report can name or that can report (R158, R192). `finger` is used by kind `finger` only. -/
structure UnitRef where
  kind   : UnitKind
  index  : Nat
  finger : Nat
  deriving DecidableEq, Repr

/-- The fault classes 0x01 to 0x0D of R158. -/
inductive FaultClass where
  | residue | unitCompare | lbufUe | watchdog | moveCheck | portParity | bankWait
  | bankUe | tag | descriptor | decResidue | finger | selfTest
  deriving DecidableEq, Repr

/-- The kind of word in which a reading task met a BANK_UE or a TAG fault (R173). -/
inductive WordKind where
  | signal (buffer : Nat)
  | state
  | line
  | blob
  | paddock
  | none
  deriving DecidableEq, Repr

/-- What a detector of R158 has before it; the model makes the detector's check itself. -/
inductive Evidence where
  /-- nothing of its own: the check fails only by an injection (R200) -/
  | none
  /-- R159, R185: the samples and coefficients multiplied since the accumulator was cleared, each with what a fault of the
  multiplier, the adder or the accumulator added to the exact value -/
  | macs (l : List (Int × Int × Int))
  /-- R159, R181: the results of the two copies of a unit, or of a self-test and its fixed signature -/
  | copies (a b : Nat)
  /-- R160: a word of the local buffer, as stored: 64 data bits below 8 check bits -/
  | localWord (word : Nat) (stored : BitVec 72)
  /-- R158: the words of a transfer with their parity bits, and the words it should have -/
  | transfer (words : List (BitVec 256 × Bool)) (length : Nat)
  /-- R158: fabric cycles that one bank-port wait has lasted -/
  | waited (cycles : Nat)
  /-- R163-R165: a word that a task reads: its bank and address, the cells that have flipped since they were last told, the word's
  index in its buffer and the tag it holds -/
  | bankWord (bank addr : Nat) (flips : List Nat) (index tag : Nat)
  /-- R139: the 64 bytes of a Paddock descriptor -/
  | descriptor (bytes : List Byte)
  /-- R187: a gate-drive check has failed, or the currents of the eight fingers in successive carrier cycles, mA -/
  | shares (gate : Bool) (cycles : List (List Nat))
  deriving DecidableEq, Repr

/-- One report of a detector (R158): the class, the suspect, the reporter, the engine whose task met the fault (if
any), the kind of word it read (R173), and what the detector has before it. -/
structure FaultReport where
  cls      : FaultClass
  suspect  : UnitRef
  reporter : UnitRef
  engine   : Option UnitRef
  word     : WordKind
  found    : Evidence := .none
  deriving DecidableEq, Repr

/-- R187: a finger of a half-bridge with what the bridge die's checks have before them. -/
structure FingerReport where
  finger : Fin 8
  gate   : Bool
  cycles : List (List Nat)
  deriving DecidableEq, Repr

/-- A subframe that an S/PDIF receiver decodes: 24 audio bits, the validity bit, and whether its parity holds (R244). -/
structure Subframe where
  audio    : BitVec 24
  validity : Bool
  parityOk : Bool
  deriving DecidableEq, Repr

/-- A frame at a digital port: the two data lines of a TDM port from the frame-starting FSYNC edge on, in each bit period their
level at the rising and at the falling edge of BCLK, one period more than a frame has (R230), or the two subframes of a receiver.
Of the transmitter only the count is used. -/
inductive PortFrame where
  | tdm (line0 line1 : List (Bool × Bool))
  | spdif (a b : Subframe)
  deriving DecidableEq, Repr

/-- A sense pair in K23: one sample of a half-bridge's SNSV voltage and output current (R318), or the voltage across a load and the
current into it (R320). -/
structure SensePair where
  v : Int
  i : Int
  deriving DecidableEq, Repr

/-- What the outside and the sensors bring to a block boundary: the decimator samples of the block that ends, keyed by
source code (R216: converters and PDM microphones, 24 S32 values each), what each wake feed gets from its decimator, keyed
by microphone (4 values of a wake decimator or 24 of a DEC decimator, taken in the block that ends; R290, R292), the 1,536
sense samples of each half-bridge in the block that ends, 64 a frame (R318), the lowest PVDD sample of each frame and the
last one in mV (R328, R329), the four bridge temperatures in 0.1 °C (R330), for each Cooler word in which a double-bit
error is found the slots and lanes it holds (R301), the measured offset of each LOCKED port in 0.1 ppm (R243), the clock
readings of R384, R385 and R387, whether the boundary is a sync boundary of a follower (R380), and the die temperature and
VSTBY of R495. -/
structure BlockInput where
  sources  : List (Nat × List Int)
  feeds    : List (Nat × List Int)
  sense    : List (Nat × List SensePair)
  pvddLow  : List Nat
  pvdd     : Nat
  temps    : List Int
  badWords : List (List (Nat × Nat))
  ppm      : List (Nat × Int)
  /-- R369: a comparison of the block found an edge of the reference -/
  refEdge  : Bool
  /-- R387: the reference against REF_FREQ, 0.01 ppm -/
  refPpm   : Int
  /-- R367, R380: how many ns after a reference edge the frames' point came that the phase detector compares with it: the count of
  the feedback divider, for REF_SRC 8 the block boundary; counted on across whole periods -/
  refPhase : Int
  syncIn   : Bool
  syncMark : Bool
  coreTemp : Int
  vstby    : Nat
  /-- R164: cells of the banks that flipped during the block: bank, word and bit of its 275 -/
  upsets     : List (Nat × Nat × Nat) := []
  /-- R164: words with flipped cells that the reads of the block's tasks met: bank, word, and bits flipped since last told -/
  taskErrors : List (Nat × Nat × List Nat) := []
  /-- R160: local-buffer words with flipped cells that the block's tasks read: engine, and the word as stored -/
  lbufFixed  : List (Nat × BitVec 72) := []
  /-- R231, R244: the frames that passed at each port during the block, by port code -/
  ports      : List (Nat × List PortFrame) := []
  /-- R243: the present stage delay of a port, ns -/
  delays     : List (Nat × Nat) := []
  /-- R186: what the spare decimator that runs in parallel, or that is being crossfaded in, delivered, by source code -/
  parallel   : List (Nat × List Int) := []
  /-- R284: HPL and HPR are in current limit at the boundary -/
  hpLimit    : Bool × Bool := (false, false)
  /-- R278, R285: the reading of the microphone contact in mV, in a block in which the device takes one -/
  contact    : Option Nat := none
  /-- R326, R333: the cycle of the block that ends in which the die link last had a failing frame, and the XFAULTq pins that were
  low in it, each with the last cycle in which it was -/
  linkBad    : Option Nat := none
  xfaultLow  : List (Nat × Nat) := []
  deriving DecidableEq, Repr

/-- What a transaction reads out of a port (R424, R435): the bytes whose last clock passed, the status byte first, and the fill
bytes before each reply that was queued after the transaction began, in order. -/
structure ReadOut where
  bytes : Nat
  gaps  : List Nat
  deriving DecidableEq, Repr

/-- How a two-wire target transaction ends (R434): with a STOP, else with a repeated START; and what it read. -/
structure TwEnd where
  stop : Bool
  read : ReadOut
  deriving DecidableEq, Repr

/-- How a target transaction times out (R436): the device held TW_SDA, else TW_SCL; and what was read before. -/
structure StretchEnd where
  sdaHold : Bool
  read    : ReadOut
  deriving DecidableEq, Repr

/-- Why an alert attempt failed (R445). -/
inductive AlertFailure where
  | nack | stretch | lineLow
  deriving DecidableEq, Repr

/-- Why a LOCKED port lost lock (R242). -/
inductive LockLoss where
  | missingFrames | framing | ratio | inSlip | outSlip
  deriving DecidableEq, Repr

/-- One sense sample of R318: the target and the sensed voltage across the load in K23 V, and whether a current limit acts. -/
structure LoopSample where
  target  : Int
  sensed  : Int
  limited : Bool
  deriving DecidableEq, Repr

/-- The sense samples of one channel that a loop error is judged by, oldest first (R319). -/
structure LoopReport where
  channel : Fin 16
  samples : List LoopSample
  deriving DecidableEq, Repr

/-- A current that met the cycle-by-cycle limit (R324): whether its channel limited in the carrier period before this one too,
the current in µA, positive when sourcing, and whether the high side conducted. -/
structure LimitedPeriod where
  again : Bool
  ua    : Int
  high  : Bool
  deriving DecidableEq, Repr

/-- Shutdown causes that a channel meets by itself (R325), an overcurrent with a member's current in µA. -/
inductive ShutdownCause where
  | short
  | overcurrent (ua : Nat)
  | bootstrap
  | link
  deriving DecidableEq, Repr

/-- What holds at the start of a boot: the levels of the address straps (R432). -/
structure Straps where
  asel0 : Bool
  asel1 : Bool
  deriving DecidableEq, Repr

/-- The commands of the block, in the order of spec/opcode_table.json. -/
inductive Instr where
  -- transport (ch. 13 and 14)
  | commandPacket (p : PortId) (bytes : List Byte)
  | replyDelivered (p : PortId)
  | spiTransactionStart (sclkHigh : Bool)
  | spiTransactionEnd (bytes : List Byte) (extraBits : Fin 8) (gaps : List Nat)
  | rxFifoOverflow (byte : Byte)
  | twTargetAddress (addr : BitVec 7) (read : Bool)
  | twTransactionEnd (bytes : List Byte) (how : TwEnd)
  | stretchTimeout (how : StretchEnd)
  | controlClockStart
  | controlClockStop
  | twFieldApply
  | alertCompose
  | alertWrite
  | alertDelivered
  | alertAttemptFail (why : AlertFailure)
  | alertBackoffEnd
  | arbitrationLost (winner : Option (BitVec 7 × Bool))
  | arbLate
  | busStuck (recovered : Bool)
  | sclStuck
  | busFree
  -- session opcodes
  | ping (q : Request)
  | identify (q : Request)
  | getStatus (q : Request)
  | abort (q : Request)
  | resetDevice (q : Request)
  | portClassGet (q : Request)
  | portClassSet (q : Request)
  -- parameters and Hampers
  | paramWrite (q : Request)
  | paramRead (q : Request)
  | hamperOpen (q : Request)
  | hamperStage (q : Request)
  | hamperCommit (q : Request)
  | hamperDiscard (q : Request)
  | hamperStatus (q : Request)
  -- graphs
  | graphBegin (q : Request)
  | graphData (q : Request)
  | graphEnd (q : Request)
  | graphCheckDone (copyFault : Bool)
  | graphActivate (q : Request)
  | graphSwitch
  | graphUnload (q : Request)
  | graphStatus (q : Request)
  | loadMeter (q : Request)
  | loadMeterSet (q : Request)
  | memRead (q : Request)
  | memReadSnapshot
  | memWrite (q : Request)
  -- ports and routes
  | portStatus (q : Request)
  | spdifCsRead (q : Request)
  | routeRead (q : Request)
  | portRestart (q : Request)
  -- power and clocks
  | powerStatus (q : Request)
  | powerModeSet (q : Request)
  | wakeCfg (q : Request)
  | resetInfo (q : Request)
  | clockStatus (q : Request)
  | rootRestart (q : Request)
  | auxProfile (q : Request)
  -- events
  | eventStatus (q : Request)
  | eventRead (q : Request)
  | eventPeek (q : Request)
  | eventClear (q : Request)
  -- power stage and diagnostics
  | pstageStatus (q : Request)
  | pstageClear (q : Request)
  | pstageClearApply
  | pstageSenseRead (q : Request)
  | pstageStop (q : Request)
  | diagRun (q : Request)
  | diagResult (q : Request)
  -- OTP
  | otpStatus (q : Request)
  | otpRead (q : Request)
  | otpGenBegin (q : Request)
  | otpGenData (q : Request)
  | otpGenCommit (q : Request)
  | otpLock (q : Request)
  | otpFactoryWrite (q : Request)
  | otpWordProgrammed (verified : Bool)
  -- health and repair
  | healthStatus (q : Request)
  | faultTableRead (q : Request)
  | faultTableClear (q : Request)
  | repairLogRead (q : Request)
  | bankCounters (q : Request)
  | healthCfg (q : Request)
  | repairForce (q : Request)
  | faultInject (q : Request)
  -- wake
  | wakeStatus (q : Request)
  | coolerFetch (q : Request)
  | coolerFetchComplete
  | wakeRearm (q : Request)
  -- touch and keys
  | touchStatus (q : Request)
  | touchRecal (q : Request)
  | keyStatus (q : Request)
  -- service
  | svcRawRead (q : Request)
  | svcSpareTest (q : Request)
  -- register writes and commits
  | registerWrite (paddr value : Word)
  | paddockSizeWrite (value : Word)
  | commitApply
  | routeCrossfadeEnd (sink : Bool) (entry : Fin 68)
  | interpRampEnd (op word : Nat)
  -- the block
  | blockBoundary (i : BlockInput)
  | selfTestEnd (unit : UnitRef) (pass : Bool)
  -- Drover
  | taskGrant (port : Fin 4)
  | taskRetire (engine : UnitRef)
  | heldAdmit
  | penRefill (pen : Fin 32) (bad : List Nat)
  | engineStopEnd (engine : UnitRef)
  -- faults and repair
  | faultDetect (r : FaultReport)
  | watchdogExpire (oe : Fin 56)
  | bankWaitTimeout (bank : Fin 18) (engine : UnitRef)
  | faultTableEntry
  | aonQueueDrain
  | portResetDone (bank : Fin 18)
  | scrubRead (bank : Fin 18) (flips : List Nat)
  | strikeExpire
  | engineRetire
  | migrationBegin
  | migrationCopyEnd
  | migrationSwitch
  | decimatorParallelStart
  | decimatorSwitch
  | fingerFail (hb : Fin 16) (report : FingerReport)
  | fingerRetire
  | repairLogWrite (verified : Bool)
  -- digital ports
  | portEnable (p : Fin 7)
  | portDisable (p : Fin 7)
  | portConfigChange (p : Fin 7) (value : Word)
  | channelMapChange (output : Bool) (ch : Fin 32) (value : Word)
  | portClockFound (p : Fin 7)
  | portLock (p : Fin 7) (rate : Fin 16) (ppm : Int) (delayNs : Nat)
  | portLockLoss (p : Fin 7) (why : LockLoss) (clockLeft : Bool)
  | framingError (p : Fin 4) (consecutive : Bool)
  | spdifParityError (r : Fin 2) (biphase : Bool)
  | spdifNonpcm (r : Fin 2) (preamble : Bool)
  | spdifNonpcmExit (r : Fin 2)
  | spdifBlockCapture (r : Fin 2) (csA csB : List Byte)
  -- converters
  | adcEnable (a : Fin 6)
  | adcSettleEnd (a : Fin 6)
  | adcDisable (a : Fin 6)
  | adcMute (a : Fin 6)
  | adcUnmute (a : Fin 6)
  | pgaChange (m : Fin 2) (gain : Fin 43)
  | pgaStep (m : Fin 2)
  | micbiasEnable
  | micbiasOverload
  | classGHigh
  | classGLow
  | hpPowerUp
  | hpPowerDown
  | hpMute (line : Bool) (mute : Bool)
  | loPowerUp
  | loPowerDown
  | hpOvercurrent (left right : Bool)
  | hpFaultRetry
  | jackLevelChange (inserted : Bool)
  | jackInsert (aux : Bool)
  | jackRemove (aux : Bool)
  | classifyMeasure (mv : Nat)
  | classifyRetry
  | threePoleRepeat (mvA mvB : Nat)
  | headsetMicSwitch
  | hsButtonPress (mv : Nat)
  | hsButtonRelease
  -- microphones and wake
  | pdmClockChange (c : Fin 2)
  | setACrossfade (b : Fin 4)
  | roosterWindow (b : Fin 4) (filtered : Unit)
  -- power stage
  | channelStart (c : Fin 32)
  | channelStop (c : Fin 32)
  | vfsChange (h : Fin 16) (value : Word)
  | limitedCycle (h : Fin 16) (consecutive : LimitedPeriod)
  | channelShutdown (c : Fin 32) (why : ShutdownCause)
  | channelRetry (c : Fin 32)
  | retriesReset (c : Fin 32)
  | loopOpen (h : LoopReport)
  | dcDetect (h : Fin 16)
  | pvddFault (mv : Nat)
  | pvddAvailable (mv : Nat)
  | thermalShutdown
  | thermalRecover
  | xfault (q : Fin 4)
  | dieLinkFail
  -- diagnostics
  | diagSweepStart
  | diagBiasRiseEnd (u : Unit)
  | diagSlotEnd (u : Unit)
  | diagSweepEnd
  -- clocks
  | rootConfigWrite (freq : Bool) (value : Word)
  | pllSafeLock
  | pllRootLock
  | rootSwitchBack
  | refQualify (ppm100 : Int)
  | trackLock
  | refLoss
  | coastTimeout
  | realignBlock
  | xtalFaultSet
  | xtalFaultClear
  | auxLock (a : Fin 4)
  | auxRatioChange (a : Fin 4) (int num den : Word)
  | auxRampEnd (a : Fin 4)
  | auxProfileBegin (a : Fin 4)
  | auxSegmentEnd (a : Fin 4)
  | mclkEnable (a : Fin 4)
  | mclkDisable (a : Fin 4)
  | syncPeriodWrite (period : Fin 16)
  -- resets, boot and modes
  | powerOnReset
  | pinReset
  | supplyReset (rails : Byte)
  | thermalReset
  | bootStart
  | bootThermalRelease
  | bootComplete
  | bootFail
  | modeD1
  | fabricGate
  | modeD2
  | modeD3
  | idleReached
  | fabricUngate
  | listenRetainSwitch
  | wakeSource (code : Fin 7)
  | coreTemp120 (temp : Int)
  | chargerChange (level : Bool)
  | shipClockMeasure (periods : Nat)
  -- touch and keys
  | touchScan (raws : List Nat)
  | gestureHold (e : Fin 13)
  | touchMaxOn (e : Fin 12)
  | touchConfigChange (e : Fin 12) (value : Word)
  | sliderConfigChange (value : Word)
  | keyPress (k : Fin 6)
  | keyRelease (k : Fin 6)
  | keyLong (k : Fin 6)
  -- rows added at the end of the table
  | coreRelease (straps : Straps) (pressed : List Bool)
  | micbiasOverloadEnd
  | portClockLost (p : Fin 7)
  | otpReadDone
  | svcRawReadDone
  | testInstructionUpdate (code : BitVec 4)
  deriving DecidableEq, Repr

end Sys2Proof
end

