-- ==== Sys2Proof/Config.lean ====
section
/-!
DEFINITION. What stepping A1 fixes (R1, R411), and the free values: constants without a body for every value that the
spec leaves open, bounds without fixing, or derives by a function it does not give bit by bit. No proof can see what
they are (log entries 5 and 6).
-/

namespace Sys2Proof.Config

/-- R411: vendor code, device code, stepping, protocol version. -/
def vendorCode : Nat := 0x4E4C
def deviceCode : Nat := 0x4810
def protocolVersion : Nat := 1
/-- R15: fabric cycles per block and per frame (R11, R21). -/
def blockCycles : Nat := 294912
def frameCycles : Nat := 12288
/-- R26: fabric cycles per LISTEN tick. -/
def tickCycles : Nat := 1536

/-- A value the spec leaves open once; applied to the state's counter of free values (log entry 5). -/
opaque freeNat : Nat → Nat
/-- An open yes or no. -/
opaque freeBool : Nat → Bool
/-- R445: the backoff generator's draw, reduced to 0-24 where it is used. -/
opaque backoff : Nat → Nat
/-- What a word of a bank is for (R55): 0 nothing, 1 word `word` of the image of slot `slot`, 2 word `word` of buffer `item` of
that slot's graph, 3 half `word` of descriptor `slot` of the Paddock ring of Pen `item`. -/
structure BankPlace where
  kind : Nat
  slot : Nat
  item : Nat
  word : Nat
  deriving DecidableEq, Repr, Inhabited

/-- R55: what the device's placement, which is its own, puts at a word of one of the 16 bank addresses, by the bank address, the
word and the sizes of what is placed. -/
opaque place : Nat → Nat → List Nat → BankPlace
/-- R418: the 256 data bits of a bank word that holds nothing placed, left from earlier, by bank and word. -/
opaque staleWord : Nat → Nat → BitVec 256
/-- R164: the 275 bits that a word in poison form holds, by its data. -/
opaque poisonForm : BitVec 256 → BitVec 275
/-- R200: the device's placement lets the task of an instance and partition access a bank. -/
opaque taskBank : Nat → Nat → Nat → Bool
/-- R160: the 8 check bits of a local-buffer word: the code is not given. -/
opaque secded : BitVec 64 → BitVec 8
/-- R172: a sample that a faulted attempt left in an output word, by counter and place. -/
opaque badSample : Nat → Nat → Int
/-- R84: what the log unit answers for log2(n/d), used within its accuracy (Machine/Reals.lean). -/
opaque log2 : Nat → Nat → Int
/-- R84: what the exp unit answers for n/2^f dB in G23, and for n/2^24 dB in C31, used within its accuracy. -/
opaque dbToG23 : Int → Nat → Int
opaque dbToC31 : Int → Int
/-- R114: what the sine unit answers for 2πφ/2^32, used within its accuracy. -/
opaque sine : Nat → Int
/-- R85, R89, R104, R106, R112, R121: which neighbour a value n/d (or exp(−n/d)) takes, at `f` fraction bits, where the
spec names no rounding. -/
opaque roundUp : Int → Nat → Nat → Bool
/-- R121, step 3: coefficient of the first-order low-pass at f_lp (0.01 Hz), C31. -/
opaque lowPass : Nat → Int
/-- R77, R172: the 240 data bits of word `w` of a STATE buffer whose packing the spec does not give: by type, word and the
committed values. -/
opaque privateWord : Nat → Nat → List Int → BitVec 240
/-- R104, R106, R109, R124, R121: the values that non-zero initial contents of a STATE buffer stand for where its packing
is private: by type code, the number of values and the stored words. -/
opaque privateState : Nat → Nat → List Nat → List Int
/-- R99, R172: the ring position, in words, at which a LINE buffer of the graph is next written after an activation: by
buffer index. -/
opaque lineStart : Nat → Nat
/-- R129: the 40 operand bytes of a task's descriptor, by instance and partition. -/
opaque handles : Nat → Nat → BitVec 320
/-- R143, R144: the bank-port waits of a task, by the counter of free values at its grant. -/
opaque bankWaits : Nat → Nat
/-- R163: the lower 18 coefficients of the code's generator polynomial (the field polynomial is not given). -/
opaque bchGenerator : BitVec 18
/-- R191, R490: the retirements that a factory area which is not blank stands for, as repair-log words: the format is
private. -/
opaque factoryLog : List (Nat × Word) → List Word
/-- R240: what the polyphase filter of an ASRC makes of its history (newest sample first) at rate code and offset from
nominal (0.1 ppm): toward the fabric, for a frame of the block; toward a port, for a port frame of the block. -/
opaque asrcIn : Nat → Int → Nat → List Int → Int
opaque asrcOut : Nat → Int → Nat → List Int → Int
/-- R290: the decimation by 6 of a DEC decimator's filtered samples, newest first. -/
opaque bySix : List Int → Int
/-- R231: draw of an output channel's dither generator, in 2^−16 LSB of the word, used within ±1 LSB. -/
opaque dither : Nat → Nat → Int
/-- R368: where the loop moves the word in a block of TRACK, by its bandwidth in Hz (numerator, denominator), the reference's
frequency (0.01 ppm), the phase error (ns) and the word. -/
opaque loopWord : Nat → Nat → Int → Int → Int → Int
/-- R367, R371: the additional offset that the loop asks for to remove a phase error (ns), by the offset that stands. -/
opaque loopOffset : Int → Int → Int
/-- R314 step 5: the interpolation of a channel's samples (newest first, the last one the frame's) at one of the frame's 64 sense
samples. -/
opaque interp : List Int → Nat → Int
/-- R318, R319: the integrator of a channel's loop after a sense sample, and the modulation index that the loop asks for (31 fraction
bits), from the integrator, the target and the sensed voltage (K23 V) and LC_CFG. -/
opaque loopNext : Int → Int → Int → Nat → Int
opaque loopIndex : Int → Int → Int → Nat → Int

/-- What the boundary register holds for an IO1 or IO2 pin in a block: a level, or nothing driven (R526). It is shifted in over TDI,
for which the table has no row. -/
opaque boundaryCell : Nat → BitVec 40 → Option Bool

end Sys2Proof.Config
end

