-- ==== Sys2Proof/Machine/State.lean ====
section
/-!
DEFINITION. The state of the SLH4810 as plain data: everything the spec gives the device, unit by unit, the queue of
commands that wait, and the model's own counter of free values. Every field's docstring gives the rule that names it
and, between brackets, its width and its value at reset.
-/

namespace Sys2Proof.Machine

open Sys2Proof

/-- A sparse byte memory: (address, byte) pairs in canonical form (Machine/Ops.lean says which). -/
abbrev Memory := List Host.Cell

/-- The register file: (PADDR, value) pairs in canonical form; an unlisted PADDR holds its reset value. -/
abbrev RegFile := List (Nat × Word)

/-! ## Commands and replies (ch. 13) -/

/-- The status codes of R402. -/
inductive Status where
  | ok | accepted | busy | badOpcode | badLength | badCrc | denied | range | state | aborted | tooLate
  | unknownTag | fault | otpFail | noSpace
  deriving DecidableEq, Repr

/-- A reply in a port's reply queue (R392, R403). `reserved` marks the reply of the reserved slot (R398). -/
structure Reply where
  op       : Byte
  tag      : Byte
  status   : Status
  payload  : List Byte
  reserved : Bool
  /-- R403, a final reply: BSN and cycle in which it was produced, and its command's place in the acceptance order -/
  order    : Option (Bsn × Nat × Nat) := none
  deriving DecidableEq, Repr

/-- A change of the privilege mapping that a command has completed and that is in force from the next cycle (R409, R416, R504): the
classes of a PORT_CLASS_SET, or those of an OTP_LOCK with its flags. -/
inductive MappingDue where
  | classes (cs : List Nat)
  | lock (cs : List Nat) (flags : Nat)
  deriving DecidableEq, Repr

/-- What an outstanding command still has to do. -/
inductive Job where
  | none                                                    -- refused, or complete at acceptance
  | graphEnd (slot : Nat)
  | graphActivate
  | memRead (slot target buffer first count : Nat)
  | commit (id : Nat)                                       -- PARAM_WRITE or HAMPER_COMMIT
  | portRestart (port : Nat)
  | powerMode
  | rootRestart
  | auxProfile (a : Nat) (start : Bool) (boundary : Bsn)
  | pstageClear (mask : Nat)                                -- bits 0-15 half-bridges, 16-31 XPWM
  | pstageStop (mask : Nat)
  | diagRun
  | otp                                                     -- a programming job of `Otp.jobs`
  | otpRead (first count : Nat)
  | healthCfg
  | repair (id : Nat)
  | inject (id : Nat)
  | coolerFetch (first : Csn) (count lanes : Nat) (clamped : Bool)
  | touchRecal (mask : Nat)
  | svcRaw (bank first count : Nat)
  | svcTest (unit : UnitRef)
  deriving DecidableEq, Repr

/-- An outstanding command of a port (R397). -/
structure Outstanding where
  tag       : Byte
  op        : Byte
  /-- acceptance order over all ports (R396) -/
  seq       : Nat
  job       : Job
  /-- BSN and cycle of acceptance (R209, R200) -/
  bsn       : Bsn
  cycle     : Nat
  /-- the final reply has been produced (R399) -/
  final     : Bool
  /-- R69, R73: the slot that a MEM_READ or MEM_WRITE names, else 0xFF -/
  slot      : Nat
  deriving DecidableEq, Repr

/-- One command port (R390). -/
structure Port where
  /-- R406: present class [2 bits; boot class] -/
  cls         : Nat := 0
  /-- R407: boot class [2 bits; OTP, else R390] -/
  bootCls     : Nat := 0
  /-- R394, R426: received bytes not yet taken as packets [8,192-byte FIFO; empty] -/
  rx          : List Byte := []
  /-- R394: discarding to the end of the transport transaction [1; 0] -/
  discarding  : Bool := false
  /-- R397: outstanding commands [32 places; none] -/
  outstanding : List Outstanding := []
  /-- R403: reply queue, oldest first [empty] -/
  replies     : List Reply := []
  /-- R428: bytes of the oldest reply already taken [0] -/
  taken       : Nat := 0
  /-- R424: replies of the queue that waited when the present transaction began [0] -/
  before      : Nat := 0
  /-- R425 DROP: a packet was discarded without a reply since the last status byte was taken, and since the last one was
  loaded [1, 1; 0] -/
  drop        : Bool := false
  dropNew     : Bool := false
  /-- R412 DROPPED [32; 0] -/
  dropped     : Nat := 0
  /-- R412 BAD_CRC replies [32; 0] -/
  badCrc      : Nat := 0
  /-- R424, R435: the port status byte last shifted out [8; 0] -/
  statusByte  : Byte := 0
  /-- R424, R430, R435: the bytes that the port's latest transaction read after its status byte, reply bytes and fill [empty] -/
  sent        : List Byte := []
  deriving DecidableEq, Repr

/-! ## Transport (ch. 14) -/

/-- The two-wire target transaction in progress (R434, R433). -/
structure TwTransaction where
  port  : PortId
  group : Bool
  read  : Bool
  deriving DecidableEq, Repr

/-- SPI and two-wire state. Counters and RW words lie in the register file. -/
structure Bus where
  /-- R423: a SPI transaction is open [1; 0] -/
  spiOpen    : Bool := false
  /-- R430: the open SPI transaction began with the control clock stopped and carries nothing [1; 0] -/
  spiDead    : Bool := false
  /-- R453 MODE3 [1; 0] -/
  mode3      : Bool := false
  /-- R430, R453 CTRL_CLK: the control clock runs [1; 0] -/
  ctrlClk    : Bool := false
  /-- R430, R437: a start of the control clock has been asked for [1; 0] -/
  ctrlStart  : Bool := false
  /-- R430: BSN and cycle of the last byte of a transaction or of the delivery of a reply [40, 19; 0] -/
  activeAt   : Bsn := 0
  activeCyc  : Nat := 0
  /-- R434: two-wire target transaction [none] -/
  target     : Option TwTransaction := none
  /-- R444, R453 BUSY: a START has been seen and the bus has not become free [1; 0]; the BSN and cycle of the STOP since then
  [none] -/
  busy       : Bool := false
  stopAt     : Option (Bsn × Nat) := none
  /-- R453 CONTROLLER [1; 0] -/
  controller : Bool := false
  /-- R450 STUCK [1; 0] -/
  stuck      : Bool := false
  /-- R452: TW_CFG, TW_TIMING, TW_LIMITS and TW_ADDR as the interface uses them now [4 × 32; reset values] -/
  effCfg     : Word := 0x205#32
  effTiming  : Word := 0x30E11#32
  effLimits  : Word := 0x10293#32
  effAddr    : Word := 0x083938#32
  /-- R432 ADDR_A and ADDR_B [7 each; OTP and straps, else 0x38 and 0x39] -/
  addrA      : BitVec 7 := 0x38#7
  addrB      : BitVec 7 := 0x39#7
  deriving DecidableEq, Repr

/-! ## Events (ch. 15) -/

/-- An event record (R455). -/
structure EvRecord where
  num     : Nat
  merged  : Bool
  alerted : Bool
  queued  : Bool
  count   : Nat
  bsn     : Bsn
  cycle   : Nat
  payload : Word
  /-- R457: BSN and cycle of the latest EVENT_PEEK that returned it -/
  peeked  : Option (Bsn × Nat) := none
  /-- R457: BSN and cycle in which the occurrence entered its list; none for EV108 and records from the AON queue -/
  entered : Option (Bsn × Nat) := none
  /-- R463: it entered the FIFO, or merged there, while the event's ALERT bit was set -/
  due     : Bool := false
  deriving DecidableEq, Repr

/-- Where the alert packet stands (R444-R446). -/
inductive AlertPhase where
  | waiting            -- waits for the free bus
  | writing            -- the device is controller
  | held (n : Nat)     -- a backoff is drawn and starts once the bus is free
  | backoff (n : Nat)  -- backoff of 1.000 ms + n × 125 µs, n = 0 to 24
  deriving DecidableEq, Repr

/-- The one alert packet (R463). -/
structure Alert where
  num   : Nat
  bytes : List Byte
  tries : Nat
  phase : AlertPhase
  /-- BSN and cycle at which the last attempt ended, and the cycles from then until the bus is free -/
  at_   : Bsn := 0
  cyc   : Nat := 0
  wait  : Nat := 0
  deriving DecidableEq, Repr

/-- The event controller. EV_CFG and EV_GLOBAL lie in the register file. -/
structure Events where
  /-- R459 pending bits [128; 0] -/
  pend      : BitVec 128 := 0
  /-- R459: pending bits set in cycle `newAt`, which no clear of that cycle clears [128; 0] -/
  newBits   : BitVec 128 := 0
  newAt     : Bsn × Nat := (0, 0)
  /-- R458 FIFO, oldest first [64 records; empty] -/
  fifo      : List EvRecord := []
  /-- R458 LOST [16; 0] -/
  lost      : Nat := 0
  /-- R458 records lost since the previous EV108 record [16; 0] -/
  lostSince : Nat := 0
  /-- R461 AON queue, oldest first [8 records; empty] -/
  aonQueue  : List EvRecord := []
  /-- R461 pending bits held in AON [128; 0] -/
  aonPend   : BitVec 128 := 0
  /-- R463 alert packet [none] -/
  alert     : Option Alert := none
  /-- R463: BSN and cycle at which the previous alert was delivered or discarded [none] -/
  alertEnd  : Option (Bsn × Nat) := none
  deriving DecidableEq, Repr

/-! ## Power, boot, reset record and OTP (ch. 16) -/

/-- The power modes (R472), by code 0 to 4. -/
inductive Mode where
  | ship | retain | listen | idle | active
  deriving DecidableEq, Repr

/-- The steps of a change of mode. -/
inductive ModeStep where
  | d1 | gate | d2 | d3 | a1 | a2 | swap
  deriving DecidableEq, Repr

/-- A change of mode that is running (R476-R481). -/
structure Change where
  /-- steps still to run, first one next -/
  steps    : List ModeStep
  target   : Mode
  start    : Mode
  /-- EV127 reason and wake source (R482) -/
  reason   : Nat
  source   : Nat
  keepSram : Bool
  /-- BSN of the boundary before which the next step may not act (R476-R478) -/
  notBefore : Bsn
  /-- the first step has acted, so the commit point has passed (R496) -/
  begun    : Bool
  /-- acceptance number of the POWER_MODE_SET that asked for it (R496) -/
  cmd      : Option Nat
  /-- R481: BSN at which D3 produced the reply -/
  replied  : Option Bsn
  /-- R483: BSN and cycle at which the change was asked for -/
  asked    : Bsn × Nat
  deriving DecidableEq, Repr

/-- Stages of a boot (R485). -/
inductive BootStage where
  | held         -- reset taken, S not yet
  | thermalHold  -- after S of a thermal reset, core die not yet below 110 °C
  | started      -- S reached
  | released     -- C reached, OTP applied, PWR_EN1 high
  | complete     -- boot complete, or none running
  deriving DecidableEq, Repr

/-- WAKE_CFG (R497). -/
structure WakeSettings where
  ship    : Nat := 0x1D
  sleep   : Nat := 0x3F
  target  : Mode := .idle
  keyDeb  : Nat := 8
  chgPol  : Bool := false
  deriving DecidableEq, Repr

/-- Power, pins and boot. -/
structure Power where
  /-- R472 power mode [3; SHIP, R482] -/
  mode       : Mode := .ship
  /-- R495 change running [none] -/
  change     : Option Change := none
  /-- R485 stage of the boot [held] -/
  boot       : BootStage := .held
  /-- R485: this boot follows VSTBY passing its good level (R486), or a SHIP exit with its wake source -/
  bootPor    : Bool := true
  bootWake   : Nat := 0
  /-- R470 outputs [1 each; 0] -/
  pwrEn0     : Bool := false
  pwrEn1     : Bool := false
  isoGate    : Bool := false
  /-- R474 SRAM powered and initialised [1; 0] -/
  sramOn     : Bool := false
  /-- R477: the fabric is clocked [1; 0] -/
  fabricOn   : Bool := false
  /-- R495: BSN of the last completed change [40; 0] -/
  lastChange : Bsn := 0
  /-- R495: core die temperature, 0.1 °C [16; DESIGN CHOICE 250] -/
  coreTemp   : Int := 250
  /-- R495: VSTBY, mV [16; DESIGN CHOICE 3600] -/
  vstby      : Nat := 3600
  /-- R482: EV127 for 120 °C raised since the reset [1; 0] -/
  hot        : Bool := false
  /-- R483: confirmed level of CHG_DET, none before the first confirmation [1; none] -/
  charger    : Option Bool := none
  /-- R497 WAKE_CFG [OTP, else defaults] -/
  wake       : WakeSettings := {}
  /-- R484: a wake held until the change completes [none] -/
  heldWake   : Option Nat := none
  /-- R473: result of the last measurement of the SHIP clock against the crystal, kept in AON; 0 before the first [0] -/
  shipClock  : Nat := 0
  /-- R491 BOOT group [1 each; OTP, else 0] -/
  porShip    : Bool := false
  bootActive : Bool := false
  bootPlay   : Bool := false
  bootDiag   : Bool := false
  /-- R486: the first A2 of this boot is still to come [1; 1] -/
  firstA2    : Bool := true
  /-- R426: SPI_READY and the command ports accept packets (set at boot complete) [1; 0] -/
  accepting  : Bool := false
  deriving DecidableEq, Repr

/-- The AON reset record (R489, R498). -/
structure ResetRecord where
  /-- last reset code [8; 1 after power-on] -/
  last      : Nat := 1
  /-- wake source of the last SHIP exit [8; 0] -/
  wakeSrc   : Nat := 0
  /-- BOOT_FAIL [1; 0] -/
  bootFail  : Bool := false
  /-- rails of the last supply reset [8; 0] -/
  rails     : Byte := 0
  /-- BSN before the last reset [40; 0] -/
  bsnBefore : Bsn := 0
  /-- counts of reset codes 2 to 6 [5 × 16; 0] -/
  counts    : List Nat := [0, 0, 0, 0, 0]
  /-- R488: blocks since each supply reset of the last second [empty] -/
  supplyAges : List Nat := []
  deriving DecidableEq, Repr

/-- What a programming job does when its last word is done (R501-R505). -/
inductive OtpKind where
  | begin (slot : Nat)
  | data
  | commit (slot : Nat)
  | lock (index : Nat) (classes : List Nat) (flags : Nat)
  | factory
  deriving DecidableEq, Repr

/-- A programming job of a command, named by its port and tag: the words still to program, the first one in
progress. -/
structure OtpJob where
  port  : PortId
  tag   : Byte
  kind  : OtpKind
  words : List (Nat × Word)
  /-- ABORT asked for; the job stops after the word in progress -/
  stop  : Bool
  deriving DecidableEq, Repr

/-- The OTP (R490-R494). -/
structure Otp where
  /-- R490: words that are not 0, keyed by index, rising [1,024 × 32; a blank part: empty] -/
  words    : List (Nat × Word) := []
  /-- R493, R492: words whose margin verification failed [empty] -/
  weak     : List Nat := []
  /-- R499 slot applied at the last boot, none = 0xFF [none] -/
  applied  : Option Nat := none
  /-- R499 open generation slot [none] -/
  openGen  : Option Nat := none
  /-- R499 groups applied and rejected, one bit per PRESENT bit [8 each; 0] -/
  groups   : Nat := 0
  rejected : Nat := 0
  /-- R499 OTP_FAIL outcomes since reset [16; 0] -/
  fails    : Nat := 0
  /-- R494 effective lock flags [4; 0] -/
  locks    : Nat := 0
  /-- R408: the active generation enables SERVICE [1; 0] -/
  service  : Bool := false
  /-- programming jobs in acceptance order, the first one in progress [none] -/
  jobs     : List OtpJob := []
  deriving DecidableEq, Repr

/-! ## Clocks (ch. 12) -/

/-- Root states (R366), by code 0 to 6. -/
inductive RootState where
  | off | restart | freerun | pullin | track | coast | reacquire
  deriving DecidableEq, Repr

/-- How far a restart has come (R364). -/
inductive RestartPhase where
  | none
  | waitSafe   -- the root is to start after being off (state OFF); PLL_SAFE has not locked yet
  | waitXtal   -- the root still on PLL_ROOT, waiting for the crystal (R372)
  | onSafe     -- the root on PLL_SAFE, PLL_ROOT recalibrating
  | locked     -- PLL_ROOT locked, 64 µs before the switch back
  deriving DecidableEq, Repr

/-- One synthesizer (R374-R378). AUX_CFG, INT, NUM, DEN and segments lie in the register file. -/
structure Aux where
  /-- R385 LOCKED [1; 0] -/
  locked   : Bool := false
  /-- R376: a ratio ramp runs, from this frequency in Hz (numerator, denominator), over this many ms, since this BSN
  [none] -/
  ratio    : Option (Nat × Nat × Nat × Bsn) := none
  /-- R377: the return of a stopped profile runs [1; 0] -/
  stopping : Bool := false
  /-- R385 PROFILE, SEGMENT [1, 4; 0] -/
  profile  : Bool := false
  segment  : Nat := 0
  /-- R377: the profile holds its last offset [1; 0] -/
  holds    : Bool := false
  /-- R377: the movement of the offset that runs or ended last: from, to (0.01 ppm), its time in µs, and the BSN and
  cycle at which it began [32, 32, 32; 0] -/
  ofsFrom  : Int := 0
  ofsTo    : Int := 0
  ofsTime  : Nat := 0
  ofsBsn   : Bsn := 0
  ofsCyc   : Nat := 0
  /-- R378: MCLK_OUT is running [1; 0] -/
  mclkOn   : Bool := false
  /-- R382: BSN of the last sync boundary at which phase and dividers restarted; MCLK_OUT and the carrier count from it [none] -/
  synced   : Option Bsn := none
  deriving DecidableEq, Repr

/-- The root and the synthesizers. ROOT_CFG, REF_FREQ, ROOT_COUNT and SYNC_CFG lie in the register file. -/
structure Clock where
  /-- R366 [3; OFF] -/
  state     : RootState := .off
  /-- R364 -/
  phase     : RestartPhase := .none
  /-- R384 ON_SAFE, XTAL_SEL, XTAL_FAULT, REF_QUAL [1, 2, 1, 1; 0, OTP, 0, 0] -/
  onSafe    : Bool := false
  xtalSel   : Nat := 0
  xtalFault : Bool := false
  refQual   : Bool := false
  /-- R361: PLL_SAFE locked [1; 0] -/
  safeLock  : Bool := false
  /-- R470: the crystal oscillator is on [1; 0] -/
  xtalOn    : Bool := false
  /-- R384 ROOT_PPM, R387 reference against REF_FREQ (0.01 ppm), phase error (ns) [24, 32, 32; 0] -/
  rootPpm   : Int := 0
  refPpm    : Int := 0
  phaseErr  : Int := 0
  /-- R367, R380: the last reading of the reference's phase, ns: how long after a reference edge the frames' point came [0] -/
  refPhase  : Int := 0
  /-- R360, R361: the frequency words of PLL_ROOT and PLL_SAFE against the crystal, in 1/4,000 of 0.01 ppm [0] -/
  word      : Int := 0
  safeWord  : Int := 0
  /-- R367, R371: the additional offset that removes the phase error, in the same units [0] -/
  ofs       : Int := 0
  /-- R369: the word, with its offset, at the last comparison whose edge was present [0] -/
  edgeWord  : Int := 0
  /-- R367: a lock point is held, and the reading of the phase that stands for it, ns [1, 32; 0] -/
  lockPoint : Bool := false
  lockPhase : Int := 0
  /-- R369, R372: a loss that came while XTAL_FAULT was set waits [1; 0] -/
  lossHeld  : Bool := false
  /-- R387 BSN of the last state change [40; 0] -/
  changed   : Bsn := 0
  /-- R387 losses and restarts since reset [16 each; 0] -/
  losses    : Nat := 0
  restarts  : Nat := 0
  /-- R370: BSN and cycle at which COAST began, R369: COAST began in PULLIN [40, 19, 1; 0] -/
  coastAt   : Bsn := 0
  coastCyc  : Nat := 0
  coastPull : Bool := false
  /-- R373: BSN of the realign block that is pending or running, and whether it runs [none, 0] -/
  realign   : Option Bsn := none
  realignOn : Bool := false
  /-- R373: the word of the running realign block has been set [1; 0] -/
  stepped   : Bool := false
  /-- R372: the BSN advances on the SHIP clock, until the boundary after the crystal runs again [1; 0] -/
  shipTick  : Bool := false
  /-- R374: AUX0-AUX3 -/
  aux       : List Aux := [{}, {}, {}, {}]
  /-- R385 SYNC_STATUS IN_PRESENT and PHASE_NS [1, 16; 0] -/
  syncIn    : Bool := false
  phaseNs   : Int := 0
  /-- R379: OUT_EN as it stands since the last sync boundary [1; 0] -/
  syncOut   : Bool := false
  /-- R379: sync boundaries at which SYNC_OUT has pulsed, the BSN of the last [none] -/
  pulsed    : Option Bsn := none
  deriving DecidableEq, Repr

/-! ## Gains and ramps shared by the audio edges -/

/-- A linear gain ramp in 96 kHz frames: from `num0/den` to `num1/den` over `frames`, starting at frame `frame` of
BSN `bsn`. `frames = 0` is a constant `num1/den`. -/
structure Ramp where
  num0   : Nat
  num1   : Nat
  den    : Nat
  frames : Nat
  bsn    : Bsn
  frame  : Nat
  /-- gains of the frames of BSN `bsn` before `frame`, as numerator and denominator [empty: num0/den] -/
  past   : List (Nat × Nat) := []
  deriving DecidableEq, Repr

/-- The constant gain 0 and the constant gain 1. -/
abbrev Ramp.zero : Ramp := ⟨0, 0, 1, 0, 0, 0, []⟩
abbrev Ramp.one : Ramp := ⟨1, 1, 1, 0, 0, 0, []⟩

/-! ## Digital ports (ch. 07) -/

/-- Lock states (R241), by code 0 to 4. -/
inductive LockState where
  | off | noClock | acquire | locked | nonpcm
  deriving DecidableEq, Repr

/-- What an output pin carries in a bit period (R230, R232). -/
inductive PinBit where
  | low | high | hiZ
  deriving DecidableEq, Repr

/-- A frame that a port sends: whether BCLK's rising edge launches, and from the frame-starting edge on FSYNC and the two data
lines in each bit period, the last bit of the frame before first where the data are delayed (R230, R232), or two S/PDIF subframes, each its preamble (0 B, 1 M, 2 W) and its 28 bits, the first sent lowest
(R247). -/
inductive TxFrame where
  | tdm (launchRising : Bool) (fsync : List Bool) (out0 out1 : List PinBit)
  | spdif (preA preB : Nat) (a b : BitVec 28)
  deriving DecidableEq, Repr

/-- What a clock pin of a TDM port does (R228, R235, R236). -/
inductive ClockPin where
  | input | low | runs
  deriving DecidableEq, Repr

/-- One digital port. Configurations and counters lie in the register file. -/
structure DPort where
  /-- R241 [3; OFF] -/
  state    : LockState := .off
  /-- R251 RATE_MEAS [4; 0] -/
  rate     : Nat := 0
  /-- R251 NONPCM_CS, PREAMBLE, FS_MISMATCH [1 each; 0] -/
  nonpcmCs : Bool := false
  preamble : Bool := false
  fsBad    : Bool := false
  /-- R243 PPM, 0.1 ppm [16 signed; 0] -/
  ppm      : Int := 0
  /-- R254 entries to LOCKED since reset [16; 0] -/
  locks    : Nat := 0
  /-- R243 STAGE_DELAY, ns [24; 0] -/
  delay    : Nat := 0
  /-- R254 BSN of the last change of STATE [40; 0] -/
  changed  : Bsn := 0
  /-- R241, R242: gain of the port's channels on the fabric side [zero] -/
  ramp     : Ramp := Ramp.zero
  /-- R242: the state that the port enters when its ramp-out ends [none] -/
  next     : Option LockState := none
  /-- R242: STAGE_DELAY at lock, ns [24; 0] -/
  delay0   : Nat := 0
  /-- R246: the rate code measured last, also where it does not lock the port [4; 0] -/
  measured : Nat := 0
  /-- R248: the configuration word that a ramp-out before a restart still follows [none] -/
  hold     : Option Nat := none
  /-- R242, R245: from here on no frame that arrives is taken: BSN and cycle [none] -/
  stopAt   : Option (Bsn × Nat) := none
  /-- R251, R245: frames since the last IEC 61937 preamble, and since the last condition of NONPCM; negative by the frames of the
  present block that went before it [0 each] -/
  preSince : Int := 0
  quiet    : Int := 0
  /-- Frames in the last block [0] -/
  count    : Nat := 0
  /-- R230: the last bits of the frame before, which delayed data lines still carry [low] -/
  tail     : PinBit × PinBit := (.low, .low)
  /-- R228, R236: TPn_BCLK and TPn_FSYNC [input] -/
  clkPin   : ClockPin := .input
  /-- R247: frame of the IEC 60958 block that is sent next [0-191; 0] -/
  pos      : Nat := 0
  /-- R231, R232, R247: the frames sent during the last block; empty while the data pins are held low (R228) [empty] -/
  tx       : List TxFrame := []
  /-- R242: parity or biphase errors in the present S/PDIF block [0] -/
  parity   : Nat := 0
  /-- R246 CS_A, CS_B [24 bytes each; 0], the BSN at which the block ended, and whether one is captured -/
  csA      : List Byte := List.replicate 24 0
  csB      : List Byte := List.replicate 24 0
  csBsn    : Bsn := 0
  csValid  : Bool := false
  deriving DecidableEq, Repr

/-- One ASRC channel (R237-R241). -/
structure Asrc where
  /-- R239: gain of its own [unity] -/
  ramp  : Ramp := Ramp.one
  /-- R239: the map word that it follows [32; 7, as the register] -/
  map   : Nat := 7
  /-- R239, R240: filter history, newest sample first [empty] -/
  hist  : List Int := []
  /-- R231: draws of its dither generator so far [0] -/
  draws : Nat := 0
  deriving DecidableEq, Repr

/-! ## Converters, outputs and jacks (ch. 08) -/

/-- Stages of an ADC source (R261). -/
inductive AdcStage where
  | off | settling | running | muted | stopping
  deriving DecidableEq, Repr

/-- One ADC source (R261). -/
structure Adc where
  stage : AdcStage := .off
  /-- BSN and frame at which settling began or begins -/
  since : Bsn := 0
  frame : Nat := 0
  ramp  : Ramp := Ramp.zero
  /-- R185: the decimator's last sample, before any gain [32; 0] -/
  raw   : Int := 0
  /-- R260: the last input and output of the high-pass [32 each; 0] -/
  hpX   : Int := 0
  hpY   : Int := 0
  deriving DecidableEq, Repr

/-- A PGA (R263): present gain, target and the frame number from which the next step is due. -/
structure Pga where
  gain   : Nat := 0
  target : Nat := 0
  due    : Bsn := 0
  deriving DecidableEq, Repr

/-- Output states (R284), by code 0 to 4. -/
inductive OutState where
  | off | powerUp | on | powerDown | fault
  deriving DecidableEq, Repr

/-- The headphone or the line output (R267-R272, R279). -/
structure Output where
  state     : OutState := .off
  /-- BSN and frame at which the sequence began, the step from which it runs (R272, R279) and its N -/
  since     : Bsn := 0
  frame     : Nat := 0
  fromStep  : Nat := 0
  n         : Nat := 960
  ramp      : Ramp := Ramp.zero
  /-- R270: the shorting switch is closed (headphone) [1; 1] -/
  shorted   : Bool := true
  /-- R265: rails HIGH [1; 0] -/
  railsHigh : Bool := false
  /-- R267, R271: the soft ramp of the power-up has begun [1; 0] -/
  soft      : Bool := false
  /-- R265: BSN of the last loud sample -/
  loudAt    : Bsn := 0
  /-- R284 LIMIT_L, LIMIT_R [1 each; 0] -/
  limL      : Bool := false
  limR      : Bool := false
  /-- R272: faults since EN was written, and the latch [0] -/
  faults    : Nat := 0
  latched   : Bool := false
  /-- R279: the jack mutes the output [1; 0] -/
  jackMute  : Bool := false
  /-- R279: a power-up waits for the first block boundary [1; 0] -/
  upDue     : Bool := false
  /-- R267, R271: EN became 1 while the power-down runs, after which the output powers up [1; 0] -/
  again     : Bool := false
  deriving DecidableEq, Repr

/-- Plug kinds (R285), by code 0 to 5. -/
inductive PlugKind where
  | none | pending | threePole | ctia | omtp | invalid
  deriving DecidableEq, Repr

/-- The reading classes of R274. -/
inductive PlugClass where
  | ground | invalid | microphone | open
  deriving DecidableEq, Repr

/-- The jacks (R273-R281). Jack configuration and HPJ_COUNT lie in the register file. -/
structure Jacks where
  /-- R285 INSERTED, KIND, BUTTON, CONTACT_MV [1, 3, 3, 12; 0] -/
  inserted  : Bool := false
  kind      : PlugKind := .none
  button    : Nat := 0
  contactMv : Nat := 0
  /-- R274: reading of measurement A in mV while B is awaited [none] -/
  measA     : Option Nat := Option.none
  /-- R274, R275: a measurement may run; results so far that were INVALID [0] -/
  measuring : Bool := false
  invalids  : Nat := 0
  /-- R275: the retry waits since this BSN [none] -/
  retryAt   : Option Bsn := Option.none
  /-- R276: repeats past since a THREE_POLE result; none when no repeats run [none] -/
  repeats   : Option Nat := Option.none
  /-- R276: BSN of the THREE_POLE result whose repeats run [0] -/
  repeatAt  : Bsn := 0
  /-- R279: HPJ_DET is at the inserted level [1; 0] -/
  level     : Bool := false
  /-- R275: contacts switched to ground, R277 contact fed from MICBIAS [1 each; 0] -/
  ringGnd   : Bool := true
  sleeveGnd : Bool := true
  /-- R277: the switch of MIC1 waits for a boundary [1; 0] -/
  micDue    : Bool := false
  /-- R277: MIC1 is on the headset contact [1; 0] -/
  micOnJack : Bool := false
  /-- R285 AUXJ INSERTED [1; 0] -/
  auxIn     : Bool := false
  deriving DecidableEq, Repr

/-- The converters. -/
structure Analog where
  /-- R261 AIN0-AIN3, MIC0, MIC1 -/
  adc       : List Adc := List.replicate 6 {}
  /-- R263 PGAs of MIC0, MIC1 -/
  pga       : List Pga := [{}, {}]
  /-- R264: MICBIAS on, on for the jack logic, folded back [1 each; 0] -/
  micbias   : Bool := false
  jackBias  : Bool := false
  biasLimit : Bool := false
  /-- R264: BSN of the last MICBIAS enable [0] -/
  biasAt    : Bsn := 0
  hp        : Output := {}
  lo        : Output := {}
  /-- R259, R269: the samples that the DACs of HPL, HPR, LOL and LOR took during the last block [24 each; empty: none] -/
  dac       : List (List Int) := List.replicate 4 []
  jack      : Jacks := {}
  deriving DecidableEq, Repr

/-! ## Microphones, wake path and Cooler (ch. 09) -/

/-- One PDM clock (R288, R293). -/
structure PdmClock where
  /-- rate code in use and whether it comes from the crystal [3, 1; 0, 0] -/
  rate    : Nat := 0
  listen  : Bool := false
  /-- R293: changes that are pending, in order: BSN of the change boundary, whether the crystal is the source, rate code
  [none] -/
  change  : List (Bsn × Bool × Nat) := []
  /-- R294: BSN of the boundary at which the last change is complete [none] -/
  doneAt  : Option Bsn := none
  deriving DecidableEq, Repr

/-- The coefficient set that a beam's samples use: set A, set L, or the crossfade of 64 samples to set A (R291, R295). -/
inductive BeamMode where
  | setA | setL | fade
  deriving DecidableEq, Repr

/-- One beam (R291, R294, R295). -/
structure Beam where
  /-- the mode of its samples, newest first, with the first CSN of each [set A from 0] -/
  segs    : List (Csn × BeamMode) := [(0#42, .setA)]
  /-- R295: BSN of the 16th boundary after LISTEN exit [none] -/
  xfDue   : Option Bsn := none
  /-- R294: first CSN and length of the beam's own bridge, and the sample before it [none] -/
  bridge  : Option (Csn × Nat × Int) := none
  /-- last readable output [32; 0] -/
  last    : Int := 0
  deriving DecidableEq, Repr

/-- A bridge of a feed that waits for its last sample (R294, R295): `keep` of its `len` samples are replaced, fewer where a
second change cut it short. -/
structure FeedBridge where
  mic   : Nat
  first : Csn
  len   : Nat
  keep  : Nat
  deriving DecidableEq, Repr

/-- One detector (R296-R298). -/
structure Detector where
  /-- the detector runs [1; 0] -/
  on      : Bool := false
  /-- R296 S and R297 F, D24 [32 each; DESIGN CHOICE 0 before the first start] -/
  s       : Int := 0
  f       : Int := 0
  /-- R297: windows since the start [0] -/
  windows : Nat := 0
  /-- R298: length and first CSN of the present run [0] -/
  run     : Nat := 0
  runCsn  : Csn := 0
  /-- R298: fired and not re-armed; consecutive quiet windows [1, 0] -/
  fired   : Bool := false
  quiet   : Nat := 0
  /-- first CSN of the last window analysed, and whether the beam fired at its end [42, 1; 0] -/
  win     : Csn := 0
  hit     : Bool := false
  /-- R296: the band filter's last two inputs, high-pass outputs and low-pass outputs, 128 fraction bits [0], and its last 16
  samples, newest first [empty] -/
  filt    : List Int := List.replicate 6 0
  buf     : List Int := []
  /-- R308: fired since the last WAKE_REARM, onset, detections [1, 42, 32; 0] -/
  flag    : Bool := false
  onset   : Csn := 0
  count   : Nat := 0
  deriving DecidableEq, Repr

/-- What stands between a microphone's decimator and its wake feed (R289, R290): the last input and output of the high-pass, and
the filtered samples of a DEC decimator, newest first. -/
structure FeedFilter where
  x   : Int := 0
  y   : Int := 0
  dec : List Int := []
  deriving DecidableEq, Repr

/-- The wake path. PDM_CFG, MIC_CFG, beam, detector and Cooler fields lie in the register file. -/
structure Wake where
  clocks    : List PdmClock := [{}, {}]
  beams     : List Beam := List.replicate 4 {}
  dets      : List Detector := List.replicate 4 {}
  /-- R290, R292: the wake path runs, and the first CSN it has taken since it started [1, 42; 0] -/
  pathOn    : Bool := false
  pathFrom  : Csn := 0
  /-- R292: wake feeds of the 16 microphones, newest sample first, as far back as a beam can reach [empty] -/
  feeds     : List (List Int) := List.replicate 16 []
  /-- R260, R289, R290: the filters in front of the feeds [zero] -/
  filters   : List FeedFilter := List.replicate 16 {}
  /-- R294, R295: bridges of feeds, oldest first [none] -/
  bridges   : List FeedBridge := []
  /-- R261, R293: gain of each PDM source -/
  srcs      : List Adc := List.replicate 16 {}
  /-- R300: capturing [1; 0] -/
  capturing : Bool := false
  /-- R308: newest and oldest readable CSN, none while the Cooler is empty [none] -/
  range     : Option (Csn × Csn) := none
  /-- R299: Cooler contents, address = (slot × 5 + lane) × 2 + byte [327,680 bytes; 0] -/
  cooler    : Memory := []
  /-- R301: samples lost to double-bit errors, as slot × 5 + lane, and the count of words [16; 0] -/
  bad       : List Nat := []
  eccCount  : Nat := 0
  /-- R294: first CSN of the latest bridge since capture started [none] -/
  bridge    : Option Csn := none
  /-- R309: bridges since capture started that the Cooler can still hold, newest first: first CSN and length [none] -/
  bridgeLog : List (Csn × Nat) := []
  /-- R298, R483: a beam with WAKE_SRC = 1 has fired and no wake has been confirmed for it [1; 0] -/
  srcFired  : Bool := false
  deriving DecidableEq, Repr

/-! ## Power stage (ch. 10) and diagnostics (ch. 11) -/

/-- Channel states (R321), by code 0 to 8. -/
inductive ChState where
  | off | starting | play | stopping | faultWait | latched | unavailable | diag | member
  deriving DecidableEq, Repr

/-- A sample inside the power stage (R314, R315): S32, its ramp gain in F31, its fold-back gain in C31 times 24, and the channel's
VFS in K23 times 96. -/
structure PathSample where
  x    : Int
  ramp : Nat
  fold : Int
  vfs  : Int
  deriving DecidableEq, Repr

/-- A channel's switching in a frame (R316, R317), in root cycles: where its carrier period starts after the common phase, the
high pulses of the positive and the negative side, and whether the sides switch complementarily. -/
structure Drive where
  start : Nat
  pos   : Nat
  neg   : Nat
  anti  : Bool
  deriving DecidableEq, Repr

/-- R124, R329: the windows of m, m′ and r over D + 1 frames, newest first, as F31. -/
structure Window where
  m  : List Nat
  m' : List Nat
  r  : List Nat
  deriving DecidableEq, Repr

/-- A limited half of a carrier period (R324): of half-bridge `member` the switch that conducted (`high`: the high side) is off
and the opposite one conducts from root cycle `from_` of the block to `to_`; `period` numbers the carrier period in the block. -/
structure LimitSpan where
  member : Nat
  period : Nat
  from_  : Nat
  to_    : Nat
  high   : Bool
  deriving DecidableEq, Repr

/-- One output channel, half-bridge (0-15) or XPWM (16-31). -/
structure Chan where
  /-- R337 STATE, CAUSE, RETRIES [4 each; 0] -/
  state     : ChState := .off
  cause     : Nat := 0
  retries   : Nat := 0
  /-- R322, R323: BSN and frame at which the sequence began, frames of it that were skipped, STOP_MS or START_MS in
  force, and the ramp gain -/
  seqBsn    : Bsn := 0
  seqFrame  : Nat := 0
  seqSkip   : Nat := 0
  seqMs     : Nat := 0
  ramp      : Ramp := Ramp.zero
  /-- R331, R343: the state entered when the stop sequence ends -/
  stopTo    : ChState := .off
  /-- R326: BSN and cycle of the last shutdown, and its cause; R328: UNAVAILABLE, with a retry still pending, or still latched -/
  downBsn   : Bsn := 0
  downCyc   : Nat := 0
  downCause : Nat := 0
  waiting   : Bool := false
  held      : Bool := false
  /-- R326: consecutive blocks in PLAY; R320: in PLAY, and in PLAY with the loop closed, since the block began -/
  playFor   : Nat := 0
  wasPlay   : Bool := false
  wasLoop   : Bool := false
  /-- R337 LOOP_ACTIVE; R319 the loop opened on its own [1; 0] -/
  loop      : Bool := false
  loopLost  : Bool := false
  /-- R325: consecutive limited cycles; R340 limited cycles in this and the last complete block -/
  limRun    : Nat := 0
  limNow    : Nat := 0
  limLast   : Nat := 0
  /-- R324: where the limit acts in the present block [none] -/
  spans     : List LimitSpan := []
  /-- R337 SAG, SENSE_VALID [1 each; 0] -/
  sag       : Bool := false
  senseOk   : Bool := false
  /-- R329: the histories over 5 frames [unity] and the sag gain a_s in F31 -/
  sagWin    : Window := ⟨List.replicate 5 2147483648, List.replicate 5 2147483648, List.replicate 5 2147483648⟩
  sagGain   : Nat := 2147483648
  /-- R340: sag reduction of the block's last frame, 0.01 dB -/
  sagDb     : Nat := 0
  /-- R314: the samples inside the stage, oldest first [4; none] -/
  line      : List PathSample := []
  /-- R314 step 4: the samples that the interpolation sees, newest first [empty] -/
  taps      : List Int := []
  /-- R314 the samples after step 4, R318 the target across the load in K23 V, per frame of the last block [24 each; empty] -/
  out       : List Int := []
  target    : List Int := []
  /-- R317 the modulation index with 31 fraction bits, R316 the switching, per sense sample of the last block [1,536 each; empty] -/
  index     : List Int := []
  drive     : List Drive := []
  /-- R319: the loop's integrator [private; 0] -/
  integ     : Int := 0
  /-- R327: low-passed voltage, K23 V with 128 more fraction bits, and frames above DC_THRESH without a break [0] -/
  dcLp      : Int := 0
  dcRun     : Nat := 0
  /-- R335: warning conditions of the last block and of this one; the event has been raised in this block [3, 3, 1; 0] -/
  warn      : Nat := 0
  warnNow   : Nat := 0
  warned    : Bool := false
  /-- R315: VFS movement: old value and the BSN at which it began -/
  vfsOld    : Option (Int × Bsn) := none
  /-- R320: the blocking capacitor's voltage of an SE channel, K23 V with 128 more fraction bits [0] -/
  capLp     : Int := 0
  /-- R320: last complete sense record -/
  senseBsn  : Bsn := 0
  sense     : List SensePair := []
  deriving DecidableEq, Repr

/-- STAGE (R338), by code 0 to 3. -/
inductive Stage where
  | unavailable | available | overvoltage | thermal
  deriving DecidableEq, Repr

/-- The power stage. Configuration and counters lie in the register file. -/
structure PStage where
  chans   : List Chan := List.replicate 32 {}
  /-- R338 PVDD (mV), R340 lowest in the last complete block [16 each; 0] -/
  pvdd    : Nat := 0
  pvddMin : Nat := 0
  /-- R329: lowest PVDD sample of the last three frames, newest first [3 × 16; none] -/
  lows    : List Nat := []
  /-- R338 STAGE; R328 its PVDD part; R331 a thermal shutdown lasts [2, 2, 1; UNAVAILABLE, UNAVAILABLE, 0] -/
  stage   : Stage := .unavailable
  pv      : Stage := .unavailable
  thermal : Bool := false
  /-- R340 TS0-TS3, 0.1 °C [4 × 16; DESIGN CHOICE 250] -/
  temps   : List Int := [250, 250, 250, 250]
  /-- R330 G_f in D24 dB, R340 G_s in 0.01 dB [32, 16; 0] -/
  gf      : Nat := 0
  gs      : Nat := 0
  /-- R330: g_f at the end of the previous block, C31, and at the end of this one [1.0] -/
  foldOld : Int := 2147483647
  foldNew : Int := 2147483647
  /-- R19, R326: BSN and cycle at which the die link last had a failing frame [none]; the link is down [1; 0] -/
  linkBad  : Option (Bsn × Nat) := none
  linkDown : Bool := false
  /-- R333: BSN and cycle at which XFAULTq was last low, q = 0 to 3 [none] -/
  xBad    : List (Option (Bsn × Nat)) := [none, none, none, none]
  /-- R340: BSN of the last complete block [40; 0] -/
  block   : Bsn := 0
  deriving DecidableEq, Repr

/-- Sweep states (R356), by code 0 to 3, with the wait before the start boundary. -/
inductive SweepState where
  | idle | waiting | phase1 | testing | phase3
  deriving DecidableEq, Repr

/-- One diagnostic record (R356). -/
structure DiagRecord where
  code  : Nat := 0
  tests : Nat := 0
  kind  : Nat := 0
  rdc   : Option Nat := none
  z12   : Nat := 0
  ph12  : Int := 0
  z20   : Nat := 0
  ph20  : Int := 0
  deriving DecidableEq, Repr

/-- The sums of v and i against the reference sine and cosine over a window of 400 blocks (R348), 128 fraction bits more than
K23. -/
structure ToneSums where
  vSin : Int := 0
  vCos : Int := 0
  iSin : Int := 0
  iCos : Int := 0
  deriving DecidableEq, Repr

/-- What the present slot has measured (R348): whether a member reached 1.5 A in blocks 0 and 1 of the precheck, the sum of i over
blocks 0 to 3 (SE) and, in Hi-Z, over blocks 2 and 3 (the offset), the sums of v and i over the DC hold, and the two tones; all
over sense samples in K23. -/
structure DiagSums where
  low  : Bool := false
  high : Bool := false
  iPre : Int := 0
  iOff : Int := 0
  vDc  : Int := 0
  iDc  : Int := 0
  t12  : ToneSums := {}
  t20  : ToneSums := {}
  deriving DecidableEq, Repr

/-- Load diagnostics. DIAG_EXP and DIAG_CFG lie in the register file. -/
structure Diag where
  state   : SweepState := .idle
  /-- mask of taking-part channels, and those not yet tested, in ascending order -/
  mask    : Nat := 0
  todo    : List Nat := []
  /-- channel under test and BSN at which its slot, or the present phase, began -/
  cur     : Option Nat := none
  since   : Bsn := 0
  tests   : Nat := 0
  sums    : DiagSums := {}
  /-- channels that were LATCHED before the sweep (R346) -/
  latched : Nat := 0
  /-- channels that the sweep has placed in Hi-Z (R345, R347, R355, R356) -/
  hiZ     : Nat := 0
  start   : Bsn := 0
  /-- R356: BSN that the end boundary of the last sweep began [0] -/
  ended   : Bsn := 0
  /-- R354: the boot sweep is still to run [1; 0] -/
  bootDue : Bool := false
  /-- the status the sweep will reply with -/
  aborted : Bool := false
  failed  : Bool := false
  recs    : List DiagRecord := List.replicate 16 {}
  /-- R353: DIAG_EXP of each half-bridge and DIAG_CFG as they stood at the sweep's start -/
  exps    : List Word := []
  cfg     : Word := 0
  deriving DecidableEq, Repr

/-! ## Touch and keys (ch. 17) -/

/-- Electrode states (R508), by code 0 to 4. -/
inductive TouchState where
  | off | calibrating | idle | touched | fault
  deriving DecidableEq, Repr

/-- One electrode (R508-R512). -/
structure Electrode where
  state  : TouchState := .off
  /-- R516 RAW [16; 0]; B with 8 fraction bits [24; 0] -/
  raw    : Nat := 0
  base   : Nat := 0
  /-- calibration scans made and their sum; RAW of 0xFFFF in a row; scans below it in a row -/
  calN   : Nat := 0
  calSum : Nat := 0
  ffRun  : Nat := 0
  okRun  : Nat := 0
  /-- scans in a row with D ≥ T_ON, D < T_OFF, D ≤ −T_ON -/
  onRun  : Nat := 0
  offRun : Nat := 0
  negRun : Nat := 0
  /-- BSN and cycle of the confirming scan's end, and HOLD raised -/
  at_    : Bsn := 0
  cyc    : Nat := 0
  held   : Bool := false
  /-- R518 asked for; R508 a committed change of TCH_CFG waits for the scan; either came, or EN became 1, while a scan ran, which
  does not take it up -/
  recal  : Bool := false
  fresh  : Bool := false
  late   : Bool := false
  deriving DecidableEq, Repr

/-- The slider (R511, R512). -/
structure Slider where
  touched : Bool := false
  pos     : Nat := 0
  pos0    : Nat := 0
  at_     : Bsn := 0
  cyc     : Nat := 0
  held    : Bool := false
  up      : Bool := false
  down    : Bool := false
  /-- SLD_CFG changed while a scan ran, after which the slider reports from the next scan on [1; 0] -/
  late    : Bool := false
  deriving DecidableEq, Repr

/-- One key (R513, R514, R519). -/
structure Key where
  pressed  : Bool := false
  long     : Bool := false
  bootHeld : Bool := false
  presses  : Nat := 0
  since    : Bsn := 0
  cyc      : Nat := 0
  deriving DecidableEq, Repr

/-- Touch and keys. TCH_CFG, TCH_GLOBAL, TCH_GEST, SLD_CFG and KEY_CFG lie in the register file. -/
structure Touch where
  scanning : Bool := false
  /-- R507: BSN at which the next scan starts [40; 0] -/
  next     : Bsn := 0
  els      : List Electrode := List.replicate 12 {}
  slider   : Slider := {}
  keys     : List Key := List.replicate 6 {}
  deriving DecidableEq, Repr

/-! ## Graphs (ch. 02) -/

/-- Slot states (R56, R74), by code 0 to 4. -/
inductive SlotPhase where
  | empty | loading | ready | armed | active
  deriving DecidableEq, Repr

/-- One graph slot. -/
structure Slot where
  phase     : SlotPhase := .empty
  /-- R71: GRAPH_END is checking the slot -/
  checking  : Bool := false
  imageLen  : Nat := 0
  /-- R70: image bytes written, by offset; after GRAPH_END the slot's tables and blob area -/
  image     : Memory := []
  graphId   : Word := 0
  footprint : Nat := 0
  unlimited : Nat := 0
  slack     : Int := 0
  tasks     : Nat := 0
  /-- R74 bit 1 activated with ALLOW_NO_GUARANTEE -/
  noGuar    : Bool := false
  /-- R74 n: switch block if ARMED, block of taking over if ACTIVE -/
  n         : Bsn := 0
  /-- R39 saturation count -/
  sat       : Nat := 0
  /-- R173: instances muted by an uncorrectable blob word, with that word -/
  muted     : List (Nat × Nat) := []
  deriving DecidableEq, Repr

/-- An accepted activation (R58-R61, R72). -/
structure Activation where
  /-- the slot selected; none selects no graph -/
  slot    : Option Nat
  fade    : Bool
  f       : Nat
  n       : Bsn
  /-- a graph was ACTIVE at acceptance, so a fade falls -/
  falls   : Bool
  deriving DecidableEq, Repr

/-- The rise of a FADE that follows a switch (R60): first block and fade time in ms. -/
structure Rise where
  n : Bsn
  f : Nat
  deriving DecidableEq, Repr

/-- A running LI ramp of an ACTIVE slot (R213). -/
structure LiRamp where
  op    : Nat
  word  : Nat
  old   : Int
  new   : Int
  block : Bsn
  n     : Nat
  deriving DecidableEq, Repr

/-- Run-time contents of one buffer of the ACTIVE graph. -/
inductive BufData where
  /-- SIGNAL: the samples, and for each of the four words the block that last wrote it -/
  | signal (samples : List Int) (bsns : List Bsn)
  /-- STATE: the committed values in their order, the block that last wrote them, and whether no task has written them
  since the graph took over -/
  | state (vals : List Int) (bsn : Bsn) (fresh : Bool)
  /-- LINE: per channel the history, newest sample first; the tags of the ring's words, newest word first, and the ring
  position of the word written next (R38, R172); the live void marks (R178), and the last block written -/
  | line (hist : List (List Int)) (tags : List Nat) (next : Nat) (voids : List Bsn) (bsn : Bsn)
  deriving DecidableEq, Repr

/-- A sink's run-time state (R60, R126, R177). -/
structure SinkState where
  /-- R126, R218: samples that the move-outs of the present feed and of the old feed wrote for the block being
  computed, after their limiting; none while the move-out has not retired -/
  next     : Option (List Int) := none
  nextOld  : Option (List Int) := none
  /-- samples played in the present BSN, and whether they are a substitute -/
  playing  : List Int := []
  subst    : Bool := false
  /-- R126 guard-limiter gain, F31, and its engagement since the activation, for the feed and the old feed -/
  guard    : Nat := 2147483648
  guardOld : Nat := 2147483648
  engaged  : Bool := false
  /-- R126: frame and slot of the first engagement: in the block being computed, and in the block that plays [none] -/
  guardNext : Option (Nat × Nat) := none
  guardDue  : Option (Nat × Nat) := none
  deriving DecidableEq, Repr

/-- The load meter (R75). -/
structure Meter where
  threshold : Nat := 8500
  last      : Nat := 0
  lastBsn   : Bsn := 0
  peak      : Nat := 0
  late      : Nat := 0
  /-- R64: cycles of the first executions of the block being computed, and E when its compute started -/
  cycles    : Nat := 0
  e         : Nat := 0
  deriving DecidableEq, Repr

/-- Slots, activation and the ACTIVE graph's contents. -/
structure Graph where
  slots   : List Slot := [{}, {}]
  act     : Option Activation := none
  rises   : List Rise := []
  bufs    : List BufData := []
  ramps   : List LiRamp := []
  /-- R173: instances whose STATE is reloaded at the deadline boundary -/
  reload  : List Nat := []
  /-- R111: slot and METER instance whose clear counter a commit changed and whose channels are not yet cleared -/
  cleared : List (Nat × Nat) := []
  /-- input FIFOs: the captured block, 24 samples by source code -/
  inputs  : List (Nat × List Int) := []
  sinks   : List SinkState := List.replicate 68 {}
  meter   : Meter := {}
  deriving DecidableEq, Repr

/-! ## Task scheduler (ch. 04) -/

/-- Kinds of task (R127). -/
inductive TaskKind where
  | op | moveIn | moveOut
  deriving DecidableEq, Repr

/-- A task of the block being computed (R128). -/
structure Task where
  kind : TaskKind
  inst : Nat
  part : Nat
  deriving DecidableEq, Repr

/-- A task with its descriptor and its in-flight record's facts (R129, R133): record index (none for move tasks), attempt,
engines that ran earlier attempts, the cycle in which it became ready, and the cycle in which its descriptor was written to
the list it may be granted from (R141). -/
structure Ready where
  task    : Task
  record  : Option Nat
  attempt : Nat
  tried   : List Nat
  ready   : Nat
  listed  : Nat
  /-- R129: the 64 bytes of the descriptor -/
  desc    : List Byte
  deriving DecidableEq, Repr

/-- Engine phases (R143, R156). -/
inductive EngPhase where
  | out | wait | busy | stop
  deriving DecidableEq, Repr

/-- One engine (R143). LOAD, RUN and CHECK are `busy`; Machine/Drover.lean tells them apart by the grant cycle. -/
structure Engine where
  phase  : EngPhase := .wait
  spare  : Bool := false
  run    : Option Ready := none
  /-- cycle of the grant, or of the entry to STOP -/
  since  : Nat := 0
  /-- R143: bank-port waits of the task that runs, a free value of its grant (log entry 66) -/
  waits  : Nat := 0
  /-- R143: out of service, with a STOP that it still finishes [1; 0] -/
  gone   : Bool := false
  /-- R156 GRANTS of the block described by LAST_BSN, and of the block being computed -/
  grants : Nat := 0
  now    : Nat := 0
  /-- R160: single-bit errors of the local buffer corrected [0; the spec gives no width] -/
  lbufCe : Nat := 0
  /-- R182: reached its strike limit and leaves service at the next block boundary; the class that did it [none] -/
  leaves : Option FaultClass := none
  deriving DecidableEq, Repr

/-- A held task (R138): held for lack of a record, or of room in its Pen. -/
structure Held where
  task      : Task
  forRecord : Bool
  deriving DecidableEq, Repr

/-- Kinds of grant on a dispatch port (R141). -/
inductive GrantKind where
  | none | op | move
  deriving DecidableEq, Repr

/-- One dispatch port: the ring positions, the kind granted last (R141) and the cycle of that grant. -/
structure Dispatch where
  lastOe : Nat
  lastMe : Nat
  kind   : GrantKind
  /-- R140: cycle of the last grant in the block being computed [none] -/
  at_    : Option Nat
  deriving DecidableEq, Repr

/-- The Drover. DRV_CFG and the RC counters lie in the register file. -/
structure Drover where
  /-- R23: block in compute [none] -/
  block   : Option Bsn := none
  oes     : List Engine := List.replicate 48 ({} : Engine) ++ List.replicate 8 { phase := .out, spare := true }
  mes     : List Engine := List.replicate 16 {}
  /-- R136: on-die lists and Paddock rings of the 32 Pens, oldest first -/
  pens    : List (List Ready) := List.replicate 32 []
  rings   : List (List Ready) := List.replicate 32 []
  /-- R145 move queue, R175 replay queue, oldest first -/
  moves   : List Ready := []
  replays : List Ready := []
  /-- R174: tasks in REPLAY_WAIT that are not queued, and whether their fault allows a replay -/
  waiting : List (Ready × Bool) := []
  /-- R175: tasks that may be granted only after the port reset of a bank -/
  bankHold : List (Task × Nat) := []
  held    : List Held := []
  /-- R130, R144: tasks whose last dependency retired in this cycle; they become ready in the next -/
  coming  : List Task := []
  /-- R138: cycle of the last admission of a held task, in the block being computed -/
  admitAt : Option Nat := none
  /-- tasks of the block retired so far, and the engine that retired each (R158) -/
  retired : List Task := []
  byUnit  : List (Task × UnitRef) := []
  ports   : List Dispatch := [⟨13, 3, .none, none⟩, ⟨27, 7, .none, none⟩, ⟨41, 11, .none, none⟩, ⟨55, 15, .none, none⟩]
  /-- R157 completion records of the block LAST_BSN, by flow: retired, cancelled, replays -/
  done    : List (Nat × Nat × Nat) := []
  /-- replay grants of the block being computed, by flow -/
  flowRep : List (Nat × Nat) := []
  lastBsn : Bsn := 0
  deriving DecidableEq, Repr

/-! ## Faults and repair (ch. 05) -/

/-- An open fault table entry (R168, R194). -/
structure FaultEntry where
  cls      : FaultClass
  suspect  : UnitRef
  injected : Bool
  count    : Nat
  first    : UnitRef
  bsn      : Bsn
  cycle    : Nat
  last     : Bsn
  replays  : Nat
  deriving DecidableEq, Repr

/-- A report on its way to the table (R167). -/
structure Report where
  rep      : FaultReport
  injected : Bool
  bsn      : Bsn
  cycle    : Nat
  /-- the task the report put in REPLAY_WAIT, with its engine, if it may replay -/
  task     : Option Task
  deriving DecidableEq, Repr

/-- Triggers of R183, by EV042 code 1 to 4. -/
inductive BankTrigger where
  | ue | ce2 | pass | strikes
  deriving DecidableEq, Repr

/-- One bank (R163-R166, R183). -/
structure Bank where
  /-- in service, marked failed [1 each] -/
  inSvc   : Bool := true
  failed  : Bool := false
  /-- R184: the bank address, 0 to 15, whose words it serves [BANKn serves n, a spare none] -/
  role    : Option Nat := none
  /-- R197 counts since reset [32, 32, 16, 16; 0] -/
  ce1     : Nat := 0
  ce2     : Nat := 0
  ue      : Nat := 0
  passCe  : Nat := 0
  /-- R166: next word of the pass and CE1 outcomes of this pass -/
  next    : Nat := 0
  curCe   : Nat := 0
  /-- R183: BSNs of the CE2 outcomes inside the strike window -/
  ce2At   : List Bsn := []
  /-- R175: BSN and cycle at which the 128-cycle port reset began [none] -/
  reset   : Option (Bsn × Nat) := none
  /-- R170, R183: a trigger has fired in the present incident; for the CE2 outcomes now in the window; in this pass -/
  fired   : Bool := false
  ce2Done : Bool := false
  passDone : Bool := false
  /-- R166: BSN and cycle at which the last scrub read was due [none since CK_MEM started] -/
  scrubAt : Option (Bsn × Nat) := none
  /-- R170, R175: the port reset of the present incident has been started -/
  resetDone : Bool := false
  /-- R163, R164: words with flipped cells: the word, the bits of its 275 that differ from what was written, and the data that
  were; and words in poison form, with the data they stand for -/
  flips   : List (Nat × List Nat × BitVec 256) := []
  poison  : List (Nat × BitVec 256) := []
  deriving DecidableEq, Repr

/-- A migration (R184). -/
structure Migration where
  src     : Nat
  dst     : Nat
  /-- BSN from which the copy runs, and blocks that it ran before CK_MEM last stopped -/
  begun   : Bsn
  before  : Nat
  copied  : Bool
  cause   : Nat
  /-- R199: the forced repair and its LOG flag; without one, HEALTH_CFG decides when the repair takes effect (R190, R198) -/
  forced  : Option Nat
  log     : Bool
  deriving DecidableEq, Repr

/-- A migration that waits (R184). -/
structure MigrationDue where
  src    : Nat
  cause  : Nat
  forced : Option Nat
  log    : Bool
  deriving DecidableEq, Repr

/-- A finger that waits for the next carrier period (R188). -/
structure FingerDue where
  hb     : Nat
  finger : Nat
  forced : Option Nat
  log    : Bool
  deriving DecidableEq, Repr

/-- One decimator (R180, R185, R186). -/
structure Decimator where
  inSvc  : Bool := true
  failed : Bool := false
  passed : Bool := false
  deriving DecidableEq, Repr

/-- A self-test (R181, R419): the block whose boundary started it, the instant from which the unit runs it (one unit runs its
tests one after another), and the SVC_SPARE_TEST that asked for it, by its place in the acceptance order. -/
structure SelfTest where
  unit : UnitRef
  bsn  : Bsn
  from_ : Bsn × Nat
  svc  : Option Nat := none
  deriving DecidableEq, Repr

/-- A source that is being crossfaded during block `bsn` from the decimator `old` to its new one, which delivered `last` in the frame
before (R186). -/
structure DecFade where
  place : Nat
  bsn   : Bsn
  old   : Nat
  last  : Int
  deriving DecidableEq, Repr

/-- A decimator replacement (R186). -/
structure DecSwap where
  old     : Nat
  new     : Option Nat
  begun   : Option Bsn
  cause   : Nat
  forced  : Option Nat
  log     : Bool
  /-- R185: the spare's last sample -/
  last    : Int := 0
  deriving DecidableEq, Repr

/-- A forced retirement of an engine that waits for its boundary (R199). -/
structure Forced where
  id   : Nat
  me   : Bool
  unit : Nat
  log  : Bool
  deriving DecidableEq, Repr

/-- An armed injection (R200). -/
structure Injection where
  id   : Nat
  cls  : FaultClass
  unit : UnitRef
  bsn  : Bsn
  cycle : Nat
  deriving DecidableEq, Repr

/-- HEALTH_CFG (R198). -/
structure HealthSettings where
  strikeLimit : Nat := 3
  scrubShift  : Nat := 11
  window      : Nat := 24
  ce2Limit    : Nat := 4
  passLimit   : Nat := 64
  flags       : Nat := 15
  deriving DecidableEq, Repr

/-- Fault detection, replay and repair. -/
structure Health where
  cfg       : HealthSettings := {}
  /-- R198: settings that take effect at the next boundary -/
  cfgNext   : Option HealthSettings := none
  table     : List (Option FaultEntry) := List.replicate 64 none
  reports   : List Report := []
  overflow  : Nat := 0
  /-- R169: the overflow event has been raised since the table last became full -/
  ovfRaised : Bool := false
  /-- R171: last real report of each suspect; R179: unexpired strikes -/
  incidents : List (UnitRef × Bsn) := []
  strikes   : List (UnitRef × Bsn) := []
  banks     : List Bank := (List.range 16).map (fun b => { role := some b }) ++ List.replicate 2 { inSvc := false }
  decs      : List Decimator := List.replicate 22 ({} : Decimator) ++ List.replicate 2 { inSvc := false }
  /-- R180: decimator that serves each of the 22 analog and PDM sources, in DEC order -/
  decMap    : List Nat := List.range 22
  /-- R187, R188: fingers out of service per half-bridge, and fingers that wait for the next carrier period -/
  fingers   : List (List Nat) := List.replicate 16 []
  fingerDue : List FingerDue := []
  /-- R182: spares that passed their last self-test, spares marked failed, move engines out -/
  oePassed  : List Nat := []
  oeFailed  : List Nat := []
  /-- R181, R419: self-tests that a boundary started, in their order -/
  tests     : List SelfTest := []
  /-- R185: decimator and frame of each sample to be held in the block being captured -/
  holds     : List (Nat × Nat) := []
  migration : Option Migration := none
  migQueue  : List MigrationDue := []
  swaps     : List DecSwap := []
  decFades  : List DecFade := []
  forced    : List Forced := []
  inject    : List Injection := []
  /-- R190: entries that wait to be written to OTP -/
  logQueue  : List Word := []
  /-- R191: the repair-log event has been raised -/
  logFull   : Bool := false
  /-- R193 replay grants since reset, replay cycles of the last block and of this one -/
  replays   : Nat := 0
  repCycles : Nat := 0
  repNow    : Nat := 0
  /-- identities handed out to forced repairs and injections -/
  nextId    : Nat := 0
  deriving DecidableEq, Repr

/-! ## Safe load and routes (ch. 06) -/

/-- Hamper states (R206, R226), by code 0 to 3. -/
inductive HamperPhase where
  | empty | opened | committing | stale
  deriving DecidableEq, Repr

/-- One Hamper. -/
structure Hamper where
  phase   : HamperPhase := .empty
  /-- 0, 1 or 0xFF -/
  slot    : Nat := 0xFF
  port    : Nat := 0
  graphId : Word := 0
  /-- R207: entries in the order staged -/
  entries : List (Word × Word) := []
  deriving DecidableEq, Repr

/-- A scheduled commit (R209): a Hamper's, or the unnamed one of a PARAM_WRITE. -/
structure Commit where
  id       : Nat
  hamper   : Option Nat
  slot     : Nat
  entries  : List (Word × Word)
  /-- INTERP and T -/
  interp   : Option Nat
  /-- BSN that the commit boundary begins -/
  boundary : Bsn
  strict   : Bool
  deferred : Bool
  /-- R206: its target slot has lost the graph its entries were checked against -/
  stale    : Bool
  deriving DecidableEq, Repr

/-- A route crossfade (R217, R218): the old feed, its first block and its length in blocks. -/
structure Crossfade where
  unit   : Nat
  old    : Nat
  block  : Bsn
  blocks : Nat
  equal  : Bool
  deriving DecidableEq, Repr

/-- Hampers, commits and crossfades. The route entries lie in the register file. -/
structure Params where
  hampers : List Hamper := List.replicate 8 {}
  /-- in acceptance order -/
  commits : List Commit := []
  fades   : List Crossfade := []
  nextId  : Nat := 0
  deriving DecidableEq, Repr

/-! ## Read-clear words (R10) -/

/-- The RC words that the device has set in the fabric cycle of a stamp: PADDR, the value before that cycle, and what the
cycle's settings alone make of a cleared word. -/
structure RcNow where
  bsn   : Bsn := 0
  cycle : Nat := 0
  words : List (Nat × Nat × Nat) := []
  deriving DecidableEq, Repr

/-! ## Outcomes that are not a next state -/

/-- Faults: none. Every command of the block has an effect in every state, or none at all (log entry 2), so no row
stops the machine; the spec names no condition that halts the device. -/
inductive Fault where
  deriving DecidableEq, Repr

/-- Refusals. -/
inductive Refusal where
  /-- raised by an arm of `exec` whose row has no meaning yet; safe, since it stops -/
  | notModelled (mnemonic : String)
  deriving DecidableEq, Repr

/-! ## The whole state -/

/-- The state of the block. -/
structure State where
  /-- the queue of commands that wait, first in, first out [empty] -/
  pending : List Instr
  /-- R12 block sequence number [40; 0] -/
  bsn     : Bsn
  /-- R15 fabric cycle offset in the block, 0-294,911 [19; 0] -/
  cycle   : Nat
  /-- R396 number of commands accepted so far, which orders them [0] -/
  seq     : Nat
  /-- R409, R416, R504: changes of the mapping from the next cycle on, in order [empty] -/
  mapDue  : List MappingDue
  /-- R390 ports 0 to 2 -/
  spi     : Port
  addrA   : Port
  addrB   : Port
  bus     : Bus
  events  : Events
  power   : Power
  record  : ResetRecord
  otp     : Otp
  clock   : Clock
  dports  : List DPort
  /-- R237: the ASRC input channels 0-31, then the output channels 0-31 -/
  asrc    : List Asrc
  analog  : Analog
  wake    : Wake
  stage   : PStage
  diag    : Diag
  touch   : Touch
  graph   : Graph
  drover  : Drover
  health  : Health
  params  : Params
  /-- R201 register file -/
  regs    : RegFile
  /-- R526 boundary-scan instruction [4; BYPASS 0b1111] -/
  jtag    : BitVec 4
  /-- R163, R477: no graph has been loaded since SRAM was initialised to zero [1; 0] -/
  sramClean : Bool
  /-- R10: RC words set in the present cycle -/
  rcNow   : RcNow
  /-- the MODEL's own: number of free values read so far (log entry 5) [DESIGN CHOICE 0] -/
  free    : Nat
  deriving DecidableEq, Repr

/-- The state right after power-on reset (R488 code 1), before the boot's S: every field at its Reset value, a blank
OTP, BSN 0, the ports' default classes of R390, nothing listed in any memory. -/
def State.reset : State where
  pending := []
  bsn := 0
  cycle := 0
  seq := 0
  mapDue := []
  spi := { cls := 2, bootCls := 2 }
  addrA := { cls := 1, bootCls := 1 }
  addrB := { cls := 0, bootCls := 0 }
  bus := {}
  events := {}
  power := {}
  record := {}
  otp := {}
  clock := {}
  dports := List.replicate 7 {}
  asrc := List.replicate 64 {}
  analog := {}
  wake := {}
  stage := {}
  diag := {}
  touch := {}
  graph := {}
  drover := {}
  health := {}
  params := {}
  regs := []
  jtag := 0xF#4
  sramClean := false
  rcNow := {}
  free := 0

end Sys2Proof.Machine
end

