-- ==== Sys2Proof/Machine/Ops.lean ====
section
/-!
DEFINITION. The named operations every meaning is built from: sparse memories and the register file in canonical
form, little-endian fields (R4), CRCs (R47, R189), BSN arithmetic (R13, R14), ramps, ports and replies (R397-R403),
and raising an event (R457-R461).
-/

namespace Sys2Proof.Machine

open Sys2Proof

/-! ## Sorted association lists: memories, the register file, the OTP words -/

/-- The value listed at key `k`. -/
def assocFind {α : Type} (k : Nat) : List (Nat × α) → Option α
  | [] => none
  | (j, v) :: m => if j = k then some v else assocFind k m

/-- List `v` at `k`, keeping the keys strictly rising. -/
def assocPut {α : Type} (k : Nat) (v : α) : List (Nat × α) → List (Nat × α)
  | [] => [(k, v)]
  | (j, w) :: m =>
    if k < j then (k, v) :: (j, w) :: m
    else if j = k then (k, v) :: m
    else (j, w) :: assocPut k v m

/-- Take `k` off the list. -/
def assocDel {α : Type} (k : Nat) : List (Nat × α) → List (Nat × α)
  | [] => []
  | (j, w) :: m => if j = k then m else (j, w) :: assocDel k m

/-- Every key of the list is above `k`. -/
def assocAbove {α : Type} (k : Nat) : List (Nat × α) → Bool
  | [] => true
  | (j, _) :: m => decide (k < j) && assocAbove k m

/-- The keys rise strictly. -/
def assocRising {α : Type} : List (Nat × α) → Bool
  | [] => true
  | (j, _) :: m => assocAbove j m && assocRising m

/-- Canonical form of a memory whose unlisted bytes read 0: rising addresses, no byte 0 listed. -/
def Memory.wf (m : Memory) : Bool :=
  assocRising m && m.all (fun c => decide (c.2 ≠ 0#8))

/-- A byte of a memory whose unlisted bytes read 0. -/
def memoryRead (m : Memory) (a : Nat) : Byte := (assocFind a m).getD 0#8

/-- Store a byte in a memory whose unlisted bytes read 0. -/
def memoryWrite (m : Memory) (a : Nat) (v : Byte) : Memory :=
  if v = 0#8 then assocDel a m else assocPut a v m

/-- Program an OTP word, where an unlisted word is 0 (R490). -/
def otpPut (k : Nat) (v : Word) (m : List (Nat × Word)) : List (Nat × Word) :=
  if v = 0#32 then assocDel k m else assocPut k v m

/-- Store a run of bytes from address `a` on, in an image memory (unlisted bytes were never written). -/
def imageWrite (m : Memory) (a : Nat) : List Byte → Memory
  | [] => m
  | b :: bs => imageWrite (assocPut a b m) (a + 1) bs

/-! ## Little-endian fields (R4) -/

/-- `n` bytes of a value, least significant first. -/
def leBytes : Nat → Nat → List Byte
  | 0, _ => []
  | n + 1, v => BitVec.ofNat 8 v :: leBytes n (v / 256)

/-- The value of a list of bytes, least significant first. -/
def leValue : List Byte → Nat
  | [] => 0
  | b :: bs => b.toNat + 256 * leValue bs

/-- The field of `n` bytes at offset `o` of a payload. -/
def leField (p : List Byte) (o n : Nat) : Nat := leValue ((p.drop o).take n)

/-- Two's complement of `n` bits. -/
def toSigned (n v : Nat) : Int := if v % 2 ^ n < 2 ^ (n - 1) then ((v % 2 ^ n : Nat) : Int) else ((v % 2 ^ n : Nat) : Int) - 2 ^ n

/-- The `n`-bit two's complement form of an integer. -/
def ofSigned (n : Nat) (v : Int) : Nat := (v % (2 ^ n : Int)).toNat

/-- Bits [hi:lo] of a value. -/
def bits (v hi lo : Nat) : Nat := v / 2 ^ lo % 2 ^ (hi + 1 - lo)

/-- Bit `i` of a value. -/
def bit (v i : Nat) : Bool := v / 2 ^ i % 2 == 1

/-- 1 for true, 0 for false. -/
def b2n (b : Bool) : Nat := if b then 1 else 0

/-- A mask from a list of bits, bit 0 first. -/
def maskOf : List Bool → Nat
  | [] => 0
  | b :: bs => b2n b + 2 * maskOf bs

/-! ## CRCs -/

/-- One bit of CRC-32C, reflected, polynomial 0x82F6_3B78 (R47). -/
def crcBit (c : Nat) : Nat := if c % 2 = 1 then Nat.xor (c / 2) 0x82F63B78 else c / 2

/-- One byte of CRC-32C. -/
def crcByte (c : Nat) (b : Byte) : Nat :=
  crcBit (crcBit (crcBit (crcBit (crcBit (crcBit (crcBit (crcBit (Nat.xor c b.toNat))))))))

/-- CRC-32C of a list of bytes: initial value and final exclusive-OR 0xFFFF_FFFF (R47). -/
def crc32c (bs : List Byte) : Nat := Nat.xor (bs.foldl crcByte 0xFFFFFFFF) 0xFFFFFFFF

/-- One bit of CRC-8, polynomial 0x07 (R189). -/
def crc8Bit (c : Nat) : Nat := if c / 128 % 2 = 1 then Nat.xor (c * 2 % 256) 0x07 else c * 2 % 256

/-- CRC-8 of a list of bytes, initial value 0, not reflected (R189). -/
def crc8 (bs : List Nat) : Nat :=
  bs.foldl (fun c b => crc8Bit (crc8Bit (crc8Bit (crc8Bit (crc8Bit (crc8Bit (crc8Bit (crc8Bit (Nat.xor c b))))))))) 0

/-! ## Block sequence numbers (R12-R14) -/

/-- Blocks from `b` to `a`, modulo 2^40. -/
def bsnSince (a b : Bsn) : Nat := (a - b).toNat

/-- `a` is not earlier than `b`, compared modulo 2^40 (R13). -/
def bsnReached (a b : Bsn) : Bool := decide ((a - b).toNat < 2 ^ 39)

/-- The outcome of R14. -/
inductive BsnRequest where
  | asked | tooFar | early
  deriving DecidableEq, Repr

/-- R14: a requested BSN `r` against the earliest permitted block `e`. -/
def bsnResolve (r e : Bsn) : BsnRequest :=
  if (r - e).toNat < 2 ^ 32 then .asked
  else if (r - e).toNat < 2 ^ 39 then .tooFar
  else .early

/-- The BSN of a number. -/
def toBsn (n : Nat) : Bsn := BitVec.ofNat 40 n

/-- The next BSN. -/
def bsnNext (s : State) : Bsn := s.bsn + 1#40

/-- The frame that holds the present cycle (R15). -/
def frameOf (s : State) : Nat := s.cycle / Config.frameCycles

/-- Fabric cycles since an instant. -/
def cyclesSince (s : State) (b : Bsn) (cyc : Nat) : Nat := bsnSince s.bsn b * Config.blockCycles + s.cycle - cyc

/-- The time `us` in µs has passed since an instant: 250 µs are 294,912 cycles. -/
def usPassed (s : State) (us : Nat) (b : Bsn) (cyc : Nat) : Bool :=
  decide (us * Config.blockCycles ≤ cyclesSince s b cyc * 250)

/-! ## Lists of units -/

/-- Replace element `i` by its image. -/
def modAt {α : Type} (l : List α) (i : Nat) (f : α → α) : List α := l.modify i f

/-! ## Rounding (R82) -/

/-- The integer nearest to `n / d` (d > 0), the even one when halfway. -/
def roundHalfEven (n : Int) (d : Nat) : Int :=
  let q := n / (d : Int)
  let r := n % (d : Int)
  if 2 * r < d then q
  else if (d : Int) < 2 * r then q + 1
  else if q % 2 = 0 then q else q + 1

/-- Limit to [lo, hi]. -/
def clampInt (lo hi v : Int) : Int := if v < lo then lo else if hi < v then hi else v

/-- The ends of a signed range of `n` bits. -/
def sMax (n : Nat) : Int := 2 ^ (n - 1) - 1
def sMin (n : Nat) : Int := -(2 ^ (n - 1))

/-! ## Fractions: exact quotients before a rounding -/

/-- A fraction with a positive denominator, not reduced. -/
structure Frac where
  n : Int
  d : Nat
  deriving DecidableEq, Repr

/-- Arithmetic of fractions. -/
def Frac.ofInt (n : Int) : Frac := ⟨n, 1⟩
def Frac.add (a b : Frac) : Frac := ⟨a.n * b.d + b.n * a.d, a.d * b.d⟩
def Frac.sub (a b : Frac) : Frac := ⟨a.n * b.d - b.n * a.d, a.d * b.d⟩
def Frac.mul (a b : Frac) : Frac := ⟨a.n * b.n, a.d * b.d⟩
def Frac.inv (a : Frac) : Frac := if a.n < 0 then ⟨-(a.d : Int), a.n.toNat + (-a.n).toNat⟩ else ⟨(a.d : Int), a.n.toNat⟩
def Frac.div (a b : Frac) : Frac := a.mul b.inv
def Frac.lt (a b : Frac) : Bool := decide (a.n * b.d < b.n * a.d)
def Frac.min (a b : Frac) : Frac := if a.lt b then a else b
def Frac.max (a b : Frac) : Frac := if a.lt b then b else a

/-- Rounded half-to-even to `f` fraction bits. -/
def Frac.round (a : Frac) (f : Nat) : Int := roundHalfEven (a.n * 2 ^ f) a.d

/-- Rounded toward zero to `f` fraction bits. -/
def Frac.trunc (a : Frac) (f : Nat) : Int :=
  if a.n < 0 then -((-a.n * 2 ^ f) / (a.d : Int)) else (a.n * 2 ^ f) / (a.d : Int)

/-- A stored value with `f` fraction bits as a fraction. -/
def fx (v : Int) (f : Nat) : Frac := ⟨v, 2 ^ f⟩

/-! ## Ramps of the audio edges -/

/-- Frames of a ramp passed when frame `f` of BSN `b` is taken: 0 for its first frame. -/
def rampFrame (r : Ramp) (b : Bsn) (f : Nat) : Nat := bsnSince b r.bsn * 24 + f - r.frame

/-- The gain of a ramp in frame `f` of BSN `b`, as numerator and denominator: ramp frame j carries
num0 + (num1 − num0)(j + 1)/frames over den, then num1/den. Frames of the ramp's first block that precede it carry the gain
they had before it. -/
def rampGain (r : Ramp) (b : Bsn) (f : Nat) : Nat × Nat :=
  let k := bsnSince b r.bsn * 24 + f
  let j := k - r.frame
  if k < r.frame then r.past.getD k (r.num0, r.den)
  else if r.frames ≤ j + 1 then (r.num1, r.den)
  else (r.num0 * (r.frames - (j + 1)) + r.num1 * (j + 1), r.den * r.frames)

/-- The gain that a ramp has reached when frame `f` of BSN `b` begins: that of the frame before it. -/
def rampReached (r : Ramp) (b : Bsn) (f : Nat) : Nat × Nat :=
  let k := bsnSince b r.bsn * 24 + f
  let j := k - r.frame
  if k < r.frame then r.past.getD (k - 1) (r.num0, r.den)
  else if r.frames ≤ j then (r.num1, r.den)
  else (r.num0 * (r.frames - j) + r.num1 * j, r.den * r.frames)

/-- The gains of the frames of BSN `b` before frame `f`. -/
def rampPast (r : Ramp) (b : Bsn) (f : Nat) : List (Nat × Nat) := (List.range f).map (rampGain r b)

/-- A full ramp to unity (`up`) or to zero over `n` frames from frame `f` of BSN `b`. -/
def rampFull (up : Bool) (n : Nat) (b : Bsn) (f : Nat) : Ramp :=
  if up then ⟨0, 1, 1, n, b, f, []⟩ else ⟨1, 0, 1, n, b, f, []⟩

/-- A ramp to unity or zero from the gain that `r` has reached, in proportionally fewer frames, rounded up (R261;
log entry 9). -/
def rampFrom (r : Ramp) (up : Bool) (n : Nat) (b : Bsn) (f : Nat) : Ramp :=
  let g := rampReached r b f
  let left := if up then g.2 - g.1 else g.1
  ⟨g.1, if up then g.2 else 0, g.2, (n * left + g.2 - 1) / g.2, b, f, rampPast r b f⟩

/-- A ramp to zero over exactly `n` frames from the gain that `r` has reached (R242, R279). -/
def rampDown (r : Ramp) (n : Nat) (b : Bsn) (f : Nat) : Ramp :=
  let g := rampReached r b f
  ⟨g.1, 0, g.2, n, b, f, rampPast r b f⟩

/-- A ramp to unity over exactly `n` frames from the gain that `r` has reached (R279). -/
def rampUp (r : Ramp) (n : Nat) (b : Bsn) (f : Nat) : Ramp :=
  let g := rampReached r b f
  ⟨g.1, g.2, g.2, n, b, f, rampPast r b f⟩

/-- Zero from frame `f` of BSN `b` on, after the gains that `r` had. -/
def rampCut (r : Ramp) (b : Bsn) (f : Nat) : Ramp := ⟨0, 0, 1, 0, b, f, rampPast r b f⟩

/-- The ramp has ended before frame `f` of BSN `b`. -/
def rampDone (r : Ramp) (b : Bsn) (f : Nat) : Bool := decide (r.frames ≤ rampFrame r b f)

/-! ## Modes and clocks -/

/-- D1 has begun and the fabric is not gated yet (R476): what it stops stays stopped, although the mode still reads ACTIVE
(DEDUCED, log entry 70). -/
def leavingActive (s : State) : Bool := s.power.change.any (fun c => c.steps.head? == some .gate)

/-- The core domain works: not in SHIP, and in a boot only from C on (R17, R485). -/
def coreOn (s : State) : Bool :=
  match s.power.boot with
  | .released => true
  | .complete => s.power.mode != .ship
  | _ => false

/-- A field of the CORE domain takes a committed value; nothing changes where the domain does not work (R17). -/
def fieldStep (s t : State) : Host.Outcome State Fault Refusal := .next (if coreOn s then t else s)

/-- The BRIDGE domain is powered: PVDD feeds the bridge die's gate-drive regulator, and R328 names 4.2 V as its undervoltage
(R17, R328; DEDUCED, log entry 80). -/
def bridgeOn (s : State) : Bool := coreOn s && decide (4200 ≤ s.stage.pvdd)

/-- SHIP, in which no stamps are made (R26). -/
def shipMode (s : State) : Bool := s.power.boot == .complete && s.power.mode == .ship

/-- IDLE or ACTIVE (R472). -/
def modeHigh (s : State) : Bool := s.power.mode == .idle || s.power.mode == .active

/-- RETAIN or LISTEN (R472). -/
def modeLow (s : State) : Bool := s.power.mode == .retain || s.power.mode == .listen

/-- CK_SYS runs (R472, R478, R479). -/
def ckSys (s : State) : Bool := modeHigh s

/-- The event controller is clocked (R461). -/
def evClocked (s : State) : Bool := ckSys s || (modeLow s && s.bus.ctrlClk)

/-- EXTEST, CLAMP or HIGHZ is in force (R526). -/
def testMode (s : State) : Bool := s.jtag == 0#4 || s.jtag == 2#4 || s.jtag == 3#4

/-- What an IO1 or IO2 output pin carries that the device drives to `x` (R526): in HIGHZ nothing, in EXTEST and CLAMP what the
boundary register holds for it. -/
def ioPin (s : State) (pin : Nat) (x : PinBit) : PinBit :=
  if s.jtag == 3#4 then .hiZ
  else if testMode s then
    match Config.boundaryCell pin s.bsn with
    | some b => if b then .high else .low
    | none => .hiZ
  else x

/-- The control ports run: boot complete and the control clock running (R485, R426, R430). -/
def portsRun (s : State) : Bool := s.power.accepting && s.bus.ctrlClk

/-- The command engine accepts packets (R485, R430, R526). -/
def accepts (s : State) : Bool := portsRun s && !testMode s

/-- SPI_READY (R426). -/
def spiReady (s : State) : Bool := portsRun s && decide (s.spi.rx.length + 4106 ≤ 8192)

/-- SPI_STATUS. -/
def spiStatusWord (s : State) : Nat :=
  b2n (spiReady s) + b2n s.bus.mode3 * 2 + b2n s.bus.ctrlClk * 4

/-! ## Register file -/

/-- The RW or RC word stored at a PADDR, given its reset value. -/
def regGet (s : State) (reset : Nat → Nat) (a : Nat) : Nat :=
  ((assocFind a s.regs).map BitVec.toNat).getD (reset a)

/-- Store a word, keeping the canonical form: a word equal to its reset value is not listed. -/
def regSet (s : State) (reset : Nat → Nat) (a v : Nat) : State :=
  { s with regs := if v % 2 ^ 32 = reset a then assocDel a s.regs else assocPut a (BitVec.ofNat 32 v) s.regs }

/-! ## Ports and replies (R397-R403) -/

/-- The number of a port (R390). -/
def portNum : PortId → Nat
  | .spi => 0
  | .addrA => 1
  | .addrB => 2

/-- The port of a number. -/
def portOf : Nat → Option PortId
  | 0 => some .spi
  | 1 => some .addrA
  | 2 => some .addrB
  | _ => none

/-- One port's state. -/
def getPort (s : State) : PortId → Port
  | .spi => s.spi
  | .addrA => s.addrA
  | .addrB => s.addrB

/-- Replace one port's state. -/
def setPort (s : State) (p : PortId) (v : Port) : State :=
  match p with
  | .spi => { s with spi := v }
  | .addrA => { s with addrA := v }
  | .addrB => { s with addrB := v }

/-- Change one port's state. -/
def modPort (s : State) (p : PortId) (f : Port → Port) : State := setPort s p (f (getPort s p))

/-- The three ports in ascending number. -/
def allPorts : List PortId := [.spi, .addrA, .addrB]

/-- The acceptance order of the outstanding command with a tag. -/
def seqOf (q : Port) (tag : Byte) : Nat := ((q.outstanding.find? (fun o => o.tag == tag)).map (fun o => o.seq)).getD 0

/-- A reply was produced in cycle `now` to a command accepted after `n` (R403). -/
def Reply.after (r : Reply) (now : Bsn × Nat) (n : Nat) : Bool :=
  match r.order with
  | some (b, c, k) => b == now.1 && c == now.2 && decide (n < k)
  | none => false

/-- A reply joins a queue: behind every reply but the final ones that this cycle has produced to commands accepted later
(R403). -/
def queueReply (now : Bsn × Nat) (n : Nat) (r : Reply) (l : List Reply) : List Reply :=
  let later := (l.reverse.takeWhile (fun x => x.after now n)).reverse
  l.take (l.length - later.length) ++ r :: later

/-- The command of a tag has its final reply. -/
def markFinal (q : Port) (tag : Byte) : Port :=
  { q with outstanding := q.outstanding.map (fun o => if o.tag = tag then { o with job := .none, final := true } else o) }

/-- The final reply to the command of a tag. -/
def lastReply (s : State) (q : Port) (tag op : Byte) (st : Status) (payload : List Byte) : Reply :=
  ⟨op, tag, st, payload, false, some (s.bsn, s.cycle, seqOf q tag)⟩

/-- Put a final reply into a port's queue and mark the command final (R399, R403). -/
def finalReply (s : State) (p : PortId) (tag op : Byte) (st : Status) (payload : List Byte) : State :=
  modPort s p (fun q => { markFinal q tag with
    replies := queueReply (s.bsn, s.cycle) (seqOf q tag) (lastReply s q tag op st payload) q.replies })

/-- The final reply of a command that completes as it is accepted: every other command was accepted before it, so it joins at the
end (R399, R403). -/
def answerNow (s : State) (p : PortId) (tag op : Byte) (st : Status) (payload : List Byte) : State :=
  modPort s p (fun q => { markFinal q tag with replies := q.replies ++ [lastReply s q tag op st payload] })

/-- Put an ACCEPTED reply into a port's queue (R400). -/
def earlyReply (s : State) (p : PortId) (tag op : Byte) (payload : List Byte) : State :=
  modPort s p (fun q => { q with
    replies := q.replies ++ [{ op := op, tag := tag, status := .accepted, payload := payload, reserved := false }] })

/-- Insert into a list of outstanding commands by acceptance order. -/
def insertSeq (x : PortId × Outstanding) : List (PortId × Outstanding) → List (PortId × Outstanding)
  | [] => [x]
  | y :: ys => if x.2.seq ≤ y.2.seq then x :: y :: ys else y :: insertSeq x ys

/-- Every outstanding command with a job that has no final reply yet, in acceptance order (R403). -/
def findJobs (s : State) (f : Job → Bool) : List (PortId × Outstanding) :=
  let all := allPorts.flatMap (fun p =>
    ((getPort s p).outstanding.filter (fun o => !o.final && f o.job)).map (fun o => (p, o)))
  all.foldr insertSeq []

/-- The outstanding command that was accepted as number `n` and has no final reply yet. -/
def findSeq (s : State) (n : Nat) : Option (PortId × Outstanding) :=
  allPorts.findSome? (fun p => ((getPort s p).outstanding.find? (fun o => !o.final && o.seq == n)).map (fun o => (p, o)))

/-- Complete the outstanding command with a job that was accepted first, if there is one. -/
def completeJob (s : State) (f : Job → Bool) (st : Status) (payload : List Byte) : State :=
  match (findJobs s f).head? with
  | none => s
  | some (p, o) => finalReply s p o.tag o.op st payload

/-- Complete the outstanding command that was accepted as number `n`. -/
def completeSeq (s : State) (n : Nat) (st : Status) (payload : List Byte) : State :=
  match findSeq s n with
  | none => s
  | some (p, o) => finalReply s p o.tag o.op st payload

/-- Complete every outstanding command with a job, in acceptance order. -/
def completeJobs (s : State) (f : Job → Bool) (reply : Job → Status × List Byte) : State :=
  (findJobs s f).foldl (fun t po =>
    let r := reply po.2.job
    finalReply t po.1 po.2.tag po.2.op r.1 r.2) s

/-- Add one to a count that stops at `top`. -/
def bump (top n : Nat) : Nat := if n < top then n + 1 else top

/-! ## Events (R454-R461) -/

/-- EV_CFG of event `n` and EV_GLOBAL, with their reset values (R464). -/
def evCfgAddr (n : Nat) : Nat := 0x90000000 + n * 0x1000
def evGlobalAddr : Nat := 0x90200000
def evCfg (s : State) (n : Nat) : Nat := regGet s (fun _ => 3) (evCfgAddr n)
def evGlobal (s : State) : Nat := regGet s (fun _ => 0xA0A) evGlobalAddr

/-- R454: events that exist; the other numbers are never raised. -/
def evExists (n : Nat) : Bool :=
  n ≤ 9 || (16 ≤ n && n ≤ 23) || (40 ≤ n && n ≤ 43) || (52 ≤ n && n ≤ 89) || (95 ≤ n && n ≤ 98) ||
    (104 ≤ n && n ≤ 108) || (112 ≤ n && n ≤ 117) || (124 ≤ n && n ≤ 127)

/-- Merge an occurrence into the newest record of its number, where R457 lets it in cycle `now`; `none` where it may not. The
list is oldest first; `due` says that the merge makes an alert due (R463). -/
def evMerge (now : Bsn × Nat) (num : Nat) (payload : Word) (due : Bool) (fifo : List EvRecord) : Option (List EvRecord) :=
  match fifo.reverse.findIdx? (fun r => r.num == num) with
  | none => none
  | some k =>
    let i := fifo.length - 1 - k
    match fifo[i]? with
    | none => none
    | some r =>
      if r.payload = payload ∧ r.count < 65535 ∧ r.peeked ≠ some now then
        some (fifo.set i { r with count := r.count + 1, merged := true, due := r.due || due })
      else none

/-- The pending bits set in the present cycle (R459). -/
def newPending (s : State) : BitVec 128 := if s.events.newAt = (s.bsn, s.cycle) then s.events.newBits else 0

/-- The event state with bit `num` set in the present cycle. -/
def pendingNow (s : State) (num : Nat) : Events :=
  { s.events with newBits := newPending s ||| (1#128 <<< num), newAt := (s.bsn, s.cycle) }

/-- A record joins a list: occurrences raised in one cycle stand in ascending number (R457), and EV108 stands where it is
written (R458). -/
def evPlace (now : Bsn × Nat) (l : List EvRecord) (r : EvRecord) : List EvRecord :=
  let last := (l.reverse.takeWhile (fun x => x.entered == some now && decide (r.num < x.num))).length
  l.take (l.length - last) ++ { r with entered := if r.num = 108 then none else some now } :: l.drop (l.length - last)

/-- A record that cannot merge joins a list of at most `top`, and what is lost (R458): of the occurrences of one cycle those of
the lower numbers stay, as they would enter first (R457). -/
def evJoin (top : Nat) (now : Bsn × Nat) (l : List EvRecord) (r : EvRecord) : List EvRecord × Nat :=
  if l.length < top then (evPlace now l r, 0)
  else match l.getLast? with
    | some y => if y.entered = some now ∧ r.num < y.num then (evPlace now l.dropLast r, y.count) else (l, 1)
    | none => (l, 1)

/-- `n` occurrences are lost (R458). -/
def evLose (e : Events) (n : Nat) : Events :=
  { e with lost := min 65535 (e.lost + n), lostSince := min 65535 (e.lostSince + n) }

/-- ALERT of an event that an alert may carry (R463). -/
def alertBit (s : State) (num : Nat) : Bool := bit (evCfg s num) 3 && num != 107

/-- R457-R459 for the clocked event controller: pending bit, then merge, record or loss. A lost EV108 is counted in LOST only. -/
def evEnter (s : State) (r : EvRecord) : State :=
  let e := pendingNow s r.num
  let pend := e.pend ||| (1#128 <<< r.num)
  let due := alertBit s r.num
  match evMerge (s.bsn, s.cycle) r.num r.payload due e.fifo with
  | some f => { s with events := { e with pend := pend, fifo := f } }
  | none =>
    let j := evJoin 64 (s.bsn, s.cycle) e.fifo { r with due := due }
    let e := { e with pend := pend, fifo := j.1 }
    if r.num = 108 then { s with events := { e with lost := min 65535 (e.lost + j.2) } } else { s with events := evLose e j.2 }

/-- R461 for the event controller that is not clocked: the AON queue of 8 records. -/
def evQueue (s : State) (r : EvRecord) : State :=
  let e := pendingNow s r.num
  let pend := e.aonPend ||| (1#128 <<< r.num)
  match evMerge (s.bsn, s.cycle) r.num r.payload false e.aonQueue with
  | some f => { s with events := { e with aonPend := pend, aonQueue := f } }
  | none =>
    let j := evJoin 8 (s.bsn, s.cycle) e.aonQueue { r with queued := true }
    { s with events := evLose { e with aonPend := pend, aonQueue := j.1 } j.2 }

/-- One queued record enters the FIFO (R461): it is appended with QUEUED set, and is due for an alert where its event routes to
alerts (R463); or it counts as lost under R458. -/
def drainOne (s : State) (e : Events) (r : EvRecord) : Events :=
  if e.fifo.length < 64 then
    { e with fifo := e.fifo ++ [{ r with queued := true, entered := none, due := alertBit s r.num }] }
  else evLose e r.count

/-- The AON queue enters the FIFO in queue order, and its pending bits join the others (R461). -/
def drainAon (s : State) : State :=
  let e := s.events.aonQueue.foldl (drainOne s) s.events
  { s with events := { e with pend := e.pend ||| e.aonPend, aonPend := 0, aonQueue := [] } }

/-- Raise event `num` with a payload and a stamp (R456); an event whose EN is 0 leaves no trace (R459), and in SHIP no stamp
and so no record is made (R26). Queued records enter the FIFO before any new record (R461). -/
def raiseAt (s : State) (num payload : Nat) (bsn : Bsn) (cycle : Nat) : State :=
  if evExists num && bit (evCfg s num) 0 && !shipMode s then
    let r : EvRecord := { num := num, merged := false, alerted := false, queued := false, count := 1, bsn := bsn,
                          cycle := cycle, payload := BitVec.ofNat 32 payload }
    if evClocked s then evEnter (drainAon s) r else evQueue s r
  else s

/-- Raise event `num` at the present instant. -/
def raise (s : State) (num payload : Nat) : State := raiseAt s num payload s.bsn s.cycle

/-- A free value: the counter of free values advances (log entry 5). -/
def nextFree (s : State) : State := { s with free := s.free + 1 }

/-- Count a packet discarded without a reply and raise CMD_ERROR (R395 step 3, R398, R423, R427, R436, R454 EV000). -/
def dropPacket (s : State) (p : PortId) (reason : Nat) (op tag : Nat) : State :=
  raise (modPort s p (fun q => { q with dropped := bump 0xFFFFFFFF q.dropped, drop := true, dropNew := true })) 0
    (portNum p + reason * 16 + op * 256 + tag * 65536)

end Sys2Proof.Machine
end

