-- ==== Sys2Proof/Machine/Regs.lean ====
section
/-!
DEFINITION. The register map (R201): every PADDR outside space 0x1 as a named register, with its access code (R7), its
writable bits, its reset value, the class a write needs (R202, R383), whether it is immediate-only (R204), and the range
of a written value. OTP fields have the value of an absent group as their reset value here (R491, log entry 3); a boot
that applies a generation writes them.
-/

namespace Sys2Proof.Machine

open Sys2Proof

/-- Every register of spaces 0x0 and 0x2 to 0x9. -/
inductive Reg where
  -- space 0x0: R155, R452
  | drvCfg | drvStatus | retiredTotal | cancelledTotal | stoppedTotal | spilledTotal | heldTotal | peakInflight | maxWait
  | lastBsn | penPeak (n : Nat) | engOe (n : Nat) | engMe (n : Nat) | flowDone (n : Nat) | flowCanc (n : Nat) | drvHole
  | spiStatus | spiCount | twCfg | twTiming | twLimits | twAddr | twStatus | twCount | twCount2
  -- space 0x2: R215
  | inRoute (n : Nat) | sinkRoute (n : Nat) | routeSat
  -- space 0x3: R248
  | tpCfg (n : Nat) | tpStatus (n : Nat) | tpCount (n : Nat) | spiCfg (n : Nat) | spiStat (n : Nat) | spiCnt (n : Nat)
  | csA (n k : Nat) | csB (n k : Nat) | spoCfg | spoStatus | csOut (k : Nat) | inMap (n : Nat) | outMap (n : Nat)
  -- space 0x4: R282
  | ainCfg (n : Nat) | micCfg (n : Nat) | micbiasCfg | hpCfg | hpStatus | loCfg | loStatus | hpjCfg | hpjStatus | hpjBtn
  | hpjCount | auxjCfg | auxjStatus
  -- space 0x5: R336, R338, R353
  | hbCfg (n : Nat) | vfs (n : Nat) | lcCfg (n : Nat) | hbStatus (n : Nat) | hbCount (n : Nat) | diagExp (n : Nat)
  | xpCfg (n : Nat) | xGain (n : Nat) | xpStatus (n : Nat) | xpCount (n : Nat)
  | psCfg | pairCfg | sagKnee | sagSlope | sagMax | sagRel | tfStart | tfSlope | tfMax | retryCfg | dcCfg | psStatus
  | diagCfg
  -- space 0x6: R383
  | rootCfg | refFreq | rootStatus | rootCount | auxCfg (n : Nat) | auxInt (n : Nat) | auxNum (n : Nat)
  | auxDen (n : Nat) | auxStatus (n : Nat) | segOfs (n k : Nat) | segTime (n k : Nat) | syncCfg | syncStatus
  -- space 0x7: R302
  | pdmCfg | pmicCfg (n : Nat) | beamCfg (n : Nat) | maskA (n : Nat) | maskL (n : Nat) | dlyA (n k : Nat)
  | wgtA (n k : Nat) | dlyL (n k : Nat) | wgtL (n k : Nat) | detCfg (n : Nat) | detThresh (n : Nat) | detHyst (n : Nat)
  | detOn (n : Nat) | detOff (n : Nat) | detTauS (n : Nat) | detTauDn (n : Nat) | detRise (n : Nat) | detFloor (n : Nat)
  | coolerCfg | lane (n : Nat)
  -- space 0x8: R516
  | tchCfg (n : Nat) | tchData (n : Nat) | tchGlobal | tchGest | sldCfg | keyCfg (n : Nat)
  -- space 0x9: R464
  | evCfgReg (n : Nat) | evPend (n : Nat) | evStatus | evGlobalReg
  deriving DecidableEq, Repr

/-- Access codes of R7; the map has no WO and no W1C bit. -/
inductive Access where
  | rw | ro | rc
  deriving DecidableEq, Repr

/-! ## Addresses -/

/-- PADDR of a register (R155, R215, R248, R282, R302, R336, R338, R353, R383, R452, R464, R516). -/
def Reg.addr : Reg → Nat
  | .drvCfg => 0x00040000 | .drvStatus => 0x00040001 | .retiredTotal => 0x00040002 | .cancelledTotal => 0x00040003
  | .stoppedTotal => 0x00040004 | .spilledTotal => 0x00040005 | .heldTotal => 0x00040006 | .peakInflight => 0x00040007
  | .maxWait => 0x00040008 | .lastBsn => 0x00040009 | .penPeak n => 0x00040020 + n | .engOe n => 0x00040040 + n
  | .engMe n => 0x00040080 + n | .flowDone n => 0x00041000 + n | .flowCanc n => 0x00042000 + n | .drvHole => 0x00040FFF
  | .spiStatus => 0x00050000 | .spiCount => 0x00050001 | .twCfg => 0x00051000 | .twTiming => 0x00051001
  | .twLimits => 0x00051002 | .twAddr => 0x00051003 | .twStatus => 0x00051010 | .twCount => 0x00051011
  | .twCount2 => 0x00051012
  | .inRoute n => 0x20000000 + n * 0x1000 | .sinkRoute n => 0x20100000 + n * 0x1000 | .routeSat => 0x20200000
  | .tpCfg n => 0x30000000 + n * 0x1000 | .tpStatus n => 0x30000001 + n * 0x1000 | .tpCount n => 0x30000002 + n * 0x1000
  | .spiCfg n => 0x30010000 + n * 0x1000 | .spiStat n => 0x30010001 + n * 0x1000 | .spiCnt n => 0x30010002 + n * 0x1000
  | .csA n k => 0x30010010 + n * 0x1000 + k | .csB n k => 0x30010018 + n * 0x1000 + k
  | .spoCfg => 0x30020000 | .spoStatus => 0x30020001 | .csOut k => 0x30020010 + k
  | .inMap n => 0x30100000 + n * 0x1000 | .outMap n => 0x30200000 + n * 0x1000
  | .ainCfg n => 0x40000000 + n * 0x1000 | .micCfg n => 0x40010000 + n * 0x1000 | .micbiasCfg => 0x40020000
  | .hpCfg => 0x40030000 | .hpStatus => 0x40030001 | .loCfg => 0x40040000 | .loStatus => 0x40040001
  | .hpjCfg => 0x40050000 | .hpjStatus => 0x40050001 | .hpjBtn => 0x40050002 | .hpjCount => 0x40050003
  | .auxjCfg => 0x40060000 | .auxjStatus => 0x40060001
  | .hbCfg n => 0x50000000 + n * 0x1000 | .vfs n => 0x50000001 + n * 0x1000 | .lcCfg n => 0x50000002 + n * 0x1000
  | .hbStatus n => 0x50000010 + n * 0x1000 | .hbCount n => 0x50000011 + n * 0x1000
  | .diagExp n => 0x50000020 + n * 0x1000
  | .xpCfg n => 0x50010000 + n * 0x1000 | .xGain n => 0x50010001 + n * 0x1000 | .xpStatus n => 0x50010010 + n * 0x1000
  | .xpCount n => 0x50010011 + n * 0x1000
  | .psCfg => 0x50100000 | .pairCfg => 0x50100001 | .sagKnee => 0x50100002 | .sagSlope => 0x50100003
  | .sagMax => 0x50100004 | .sagRel => 0x50100005 | .tfStart => 0x50100006 | .tfSlope => 0x50100007
  | .tfMax => 0x50100008 | .retryCfg => 0x50100009 | .dcCfg => 0x5010000A | .psStatus => 0x50100010
  | .diagCfg => 0x50100020
  | .rootCfg => 0x60000000 | .refFreq => 0x60000001 | .rootStatus => 0x60000010 | .rootCount => 0x60000011
  | .auxCfg n => 0x60010000 + n * 0x1000 | .auxInt n => 0x60010001 + n * 0x1000 | .auxNum n => 0x60010002 + n * 0x1000
  | .auxDen n => 0x60010003 + n * 0x1000 | .auxStatus n => 0x60010010 + n * 0x1000
  | .segOfs n k => 0x60010100 + n * 0x1000 + 2 * k | .segTime n k => 0x60010101 + n * 0x1000 + 2 * k
  | .syncCfg => 0x60020000 | .syncStatus => 0x60020010
  | .pdmCfg => 0x70000000 | .pmicCfg n => 0x70010000 + n * 0x1000
  | .beamCfg n => 0x70100000 + n * 0x1000 | .maskA n => 0x70100001 + n * 0x1000 | .maskL n => 0x70100002 + n * 0x1000
  | .dlyA n k => 0x70100010 + n * 0x1000 + k | .wgtA n k => 0x70100020 + n * 0x1000 + k
  | .dlyL n k => 0x70100030 + n * 0x1000 + k | .wgtL n k => 0x70100040 + n * 0x1000 + k
  | .detCfg n => 0x70110000 + n * 0x1000 | .detThresh n => 0x70110001 + n * 0x1000
  | .detHyst n => 0x70110002 + n * 0x1000 | .detOn n => 0x70110003 + n * 0x1000 | .detOff n => 0x70110004 + n * 0x1000
  | .detTauS n => 0x70110005 + n * 0x1000 | .detTauDn n => 0x70110006 + n * 0x1000
  | .detRise n => 0x70110007 + n * 0x1000 | .detFloor n => 0x70110008 + n * 0x1000
  | .coolerCfg => 0x70200000 | .lane n => 0x70200001 + n
  | .tchCfg n => 0x80000000 + n * 0x1000 | .tchData n => 0x80000001 + n * 0x1000 | .tchGlobal => 0x80100000
  | .tchGest => 0x80100001 | .sldCfg => 0x80110000 | .keyCfg n => 0x80200000 + n * 0x1000
  | .evCfgReg n => 0x90000000 + n * 0x1000 | .evPend n => 0x90100000 + n | .evStatus => 0x90100010
  | .evGlobalReg => 0x90200000

/-- Register `f` of a list by field offset. -/
def fieldAt (l : List (Nat × Reg)) (f : Nat) : Option Reg := (l.find? (fun x => x.1 == f)).map (fun x => x.2)

/-- Space 0x0. Units 0x0040 to 0x0042 read 0 where nothing is listed (R155). -/
def regSpace0 (u f : Nat) : Option Reg :=
  if u = 0x40 then
    match fieldAt [(0, .drvCfg), (1, .drvStatus), (2, .retiredTotal), (3, .cancelledTotal), (4, .stoppedTotal),
        (5, .spilledTotal), (6, .heldTotal), (7, .peakInflight), (8, .maxWait), (9, .lastBsn)] f with
    | some r => some r
    | none =>
      if 0x20 ≤ f ∧ f < 0x40 then some (.penPeak (f - 0x20))
      else if 0x40 ≤ f ∧ f < 0x78 then some (.engOe (f - 0x40))
      else if 0x80 ≤ f ∧ f < 0x90 then some (.engMe (f - 0x80))
      else some .drvHole
  else if u = 0x41 then some (if f < 0x400 then .flowDone f else .drvHole)
  else if u = 0x42 then some (if f < 0x400 then .flowCanc f else .drvHole)
  else if u = 0x50 then fieldAt [(0, .spiStatus), (1, .spiCount)] f
  else if u = 0x51 then
    fieldAt [(0, .twCfg), (1, .twTiming), (2, .twLimits), (3, .twAddr), (0x10, .twStatus), (0x11, .twCount),
      (0x12, .twCount2)] f
  else none

/-- Space 0x2. -/
def regSpace2 (u f : Nat) : Option Reg :=
  if f ≠ 0 then none
  else if u < 64 then some (.inRoute u)
  else if 0x100 ≤ u ∧ u < 0x100 + 68 then some (.sinkRoute (u - 0x100))
  else if u = 0x200 then some .routeSat
  else none

/-- Space 0x3. -/
def regSpace3 (u f : Nat) : Option Reg :=
  if u < 4 then fieldAt [(0, .tpCfg u), (1, .tpStatus u), (2, .tpCount u)] f
  else if u = 0x10 ∨ u = 0x11 then
    let n := u - 0x10
    if 0x10 ≤ f ∧ f < 0x16 then some (.csA n (f - 0x10))
    else if 0x18 ≤ f ∧ f < 0x1E then some (.csB n (f - 0x18))
    else fieldAt [(0, .spiCfg n), (1, .spiStat n), (2, .spiCnt n)] f
  else if u = 0x20 then
    if 0x10 ≤ f ∧ f < 0x16 then some (.csOut (f - 0x10)) else fieldAt [(0, .spoCfg), (1, .spoStatus)] f
  else if 0x100 ≤ u ∧ u < 0x120 ∧ f = 0 then some (.inMap (u - 0x100))
  else if 0x200 ≤ u ∧ u < 0x220 ∧ f = 0 then some (.outMap (u - 0x200))
  else none

/-- Space 0x4. -/
def regSpace4 (u f : Nat) : Option Reg :=
  if u < 4 then fieldAt [(0, .ainCfg u)] f
  else if u = 0x10 ∨ u = 0x11 then fieldAt [(0, .micCfg (u - 0x10))] f
  else if u = 0x20 then fieldAt [(0, .micbiasCfg)] f
  else if u = 0x30 then fieldAt [(0, .hpCfg), (1, .hpStatus)] f
  else if u = 0x40 then fieldAt [(0, .loCfg), (1, .loStatus)] f
  else if u = 0x50 then fieldAt [(0, .hpjCfg), (1, .hpjStatus), (2, .hpjBtn), (3, .hpjCount)] f
  else if u = 0x60 then fieldAt [(0, .auxjCfg), (1, .auxjStatus)] f
  else none

/-- Space 0x5. -/
def regSpace5 (u f : Nat) : Option Reg :=
  if u < 16 then
    fieldAt [(0, .hbCfg u), (1, .vfs u), (2, .lcCfg u), (0x10, .hbStatus u), (0x11, .hbCount u), (0x20, .diagExp u)] f
  else if u < 32 then
    fieldAt [(0, .xpCfg (u - 16)), (1, .xGain (u - 16)), (0x10, .xpStatus (u - 16)), (0x11, .xpCount (u - 16))] f
  else if u = 0x100 then
    fieldAt [(0, .psCfg), (1, .pairCfg), (2, .sagKnee), (3, .sagSlope), (4, .sagMax), (5, .sagRel), (6, .tfStart),
      (7, .tfSlope), (8, .tfMax), (9, .retryCfg), (10, .dcCfg), (0x10, .psStatus), (0x20, .diagCfg)] f
  else none

/-- Space 0x6. -/
def regSpace6 (u f : Nat) : Option Reg :=
  if u = 0 then fieldAt [(0, .rootCfg), (1, .refFreq), (0x10, .rootStatus), (0x11, .rootCount)] f
  else if 0x10 ≤ u ∧ u < 0x14 then
    let n := u - 0x10
    if 0x100 ≤ f ∧ f < 0x120 then some (if f % 2 = 0 then .segOfs n ((f - 0x100) / 2) else .segTime n ((f - 0x100) / 2))
    else fieldAt [(0, .auxCfg n), (1, .auxInt n), (2, .auxNum n), (3, .auxDen n), (0x10, .auxStatus n)] f
  else if u = 0x20 then fieldAt [(0, .syncCfg), (0x10, .syncStatus)] f
  else none

/-- Space 0x7. -/
def regSpace7 (u f : Nat) : Option Reg :=
  if u = 0 then fieldAt [(0, .pdmCfg)] f
  else if 0x10 ≤ u ∧ u < 0x20 then fieldAt [(0, .pmicCfg (u - 0x10))] f
  else if 0x100 ≤ u ∧ u < 0x104 then
    let n := u - 0x100
    if 0x10 ≤ f ∧ f < 0x20 then some (.dlyA n (f - 0x10))
    else if 0x20 ≤ f ∧ f < 0x30 then some (.wgtA n (f - 0x20))
    else if 0x30 ≤ f ∧ f < 0x40 then some (.dlyL n (f - 0x30))
    else if 0x40 ≤ f ∧ f < 0x50 then some (.wgtL n (f - 0x40))
    else fieldAt [(0, .beamCfg n), (1, .maskA n), (2, .maskL n)] f
  else if 0x110 ≤ u ∧ u < 0x114 then
    let n := u - 0x110
    fieldAt [(0, .detCfg n), (1, .detThresh n), (2, .detHyst n), (3, .detOn n), (4, .detOff n), (5, .detTauS n),
      (6, .detTauDn n), (7, .detRise n), (8, .detFloor n)] f
  else if u = 0x200 then
    if f = 0 then some .coolerCfg else if f ≤ 5 then some (.lane (f - 1)) else none
  else none

/-- Space 0x8. -/
def regSpace8 (u f : Nat) : Option Reg :=
  if u < 12 then fieldAt [(0, .tchCfg u), (1, .tchData u)] f
  else if u = 0x100 then fieldAt [(0, .tchGlobal), (1, .tchGest)] f
  else if u = 0x110 then fieldAt [(0, .sldCfg)] f
  else if 0x200 ≤ u ∧ u < 0x206 then fieldAt [(0, .keyCfg (u - 0x200))] f
  else none

/-- Space 0x9. -/
def regSpace9 (u f : Nat) : Option Reg :=
  if u < 128 then fieldAt [(0, .evCfgReg u)] f
  else if u = 0x100 then fieldAt [(0, .evPend 0), (1, .evPend 1), (2, .evPend 2), (3, .evPend 3), (0x10, .evStatus)] f
  else if u = 0x200 then fieldAt [(0, .evGlobalReg)] f
  else none

/-- The parts of a PADDR (R201). -/
def paSpace (a : Nat) : Nat := a / 0x10000000 % 16
def paUnit (a : Nat) : Nat := a / 0x1000 % 0x10000
def paField (a : Nat) : Nat := a % 0x1000

/-- The register at a PADDR outside space 0x1, if its chapter lists one. -/
def paddrReg (a : Nat) : Option Reg :=
  let u := paUnit a
  let f := paField a
  match paSpace a with
  | 0 => regSpace0 u f
  | 2 => regSpace2 u f
  | 3 => regSpace3 u f
  | 4 => regSpace4 u f
  | 5 => regSpace5 u f
  | 6 => regSpace6 u f
  | 7 => regSpace7 u f
  | 8 => regSpace8 u f
  | 9 => regSpace9 u f
  | _ => none

/-! ## Access, writable bits and reset values -/

/-- Access code of a register's word: `rw` where it holds a writable bit. -/
def Reg.access : Reg → Access
  | .drvStatus | .lastBsn | .engOe _ | .engMe _ | .flowDone _ | .drvHole | .spiStatus | .twStatus | .tpStatus _
  | .spiStat _ | .csA _ _ | .csB _ _ | .spoStatus | .hpStatus | .loStatus | .hpjStatus | .auxjStatus | .hbStatus _
  | .xpStatus _ | .psStatus | .rootStatus | .auxStatus _ | .syncStatus | .tchData _ | .evPend _ | .evStatus => .ro
  | .retiredTotal | .cancelledTotal | .stoppedTotal | .spilledTotal | .heldTotal | .peakInflight | .maxWait | .penPeak _
  | .flowCanc _ | .spiCount | .twCount | .twCount2 | .routeSat | .tpCount _ | .spiCnt _ | .hpjCount | .hbCount _
  | .xpCount _ | .rootCount => .rc
  | _ => .rw

/-- Writable bits of a register. -/
def Reg.mask : Reg → Nat
  | .drvCfg => 0x1F
  | .twCfg => 0x7FF | .twTiming => 0xFFFFF | .twLimits => 0x1FFFF | .twAddr => 0x7F7F8000
  | .inRoute _ | .sinkRoute _ => 0x7F00FF
  | .tpCfg _ => 0x3FFFFFF | .spiCfg _ => 0x3F | .spoCfg => 0x7F61 | .csOut _ => 0xFFFFFFFF
  | .inMap _ | .outMap _ => 0xFF
  | .ainCfg _ => 0xF | .micCfg n => if n = 1 then 0xFF7 else 0x3F7 | .micbiasCfg => 3
  | .hpCfg => 0x3FF | .loCfg => 0xFF | .hpjCfg => 0x7FFFFF | .hpjBtn => 0xFFFFFFFF | .auxjCfg => 0x3FFF
  | .hbCfg _ => 0x3FFFFF | .vfs _ => 0xFFFFFFFF | .lcCfg _ => 0xFF03FF | .diagExp _ => 0x3FFFF
  | .xpCfg _ => 0x1FFFFF | .xGain _ => 0xFFFFFFFF
  | .psCfg => 0xFFF | .pairCfg | .sagKnee | .sagSlope | .sagMax | .sagRel | .tfStart | .tfSlope | .tfMax => 0xFFFFFFFF
  | .retryCfg => 0xFFFF | .dcCfg => 0x7FFFF | .diagCfg => 0x3FFFFF
  | .rootCfg => 0x7FFFFF | .refFreq => 0x3FFFFFF | .auxCfg _ => 0x1FFFF | .auxInt _ => 0x1FFF
  | .auxNum _ | .auxDen _ => 0xFFFFF | .segOfs _ _ | .segTime _ _ => 0xFFFFFFFF | .syncCfg => 0x1FFFF
  | .pdmCfg => 0xFFFF | .pmicCfg _ => 0xFFF | .beamCfg _ => 3 | .maskA _ | .maskL _ => 0xFFFF
  | .dlyA _ _ | .wgtA _ _ | .dlyL _ _ | .wgtL _ _ => 0xFFFFFFFF
  | .detCfg _ => 7
  | .detThresh _ | .detHyst _ | .detOn _ | .detOff _ | .detTauS _ | .detTauDn _ | .detRise _ | .detFloor _ => 0xFFFFFFFF
  | .coolerCfg => 1 | .lane _ => 0xFFF
  | .tchCfg _ => 0x1FFFF | .tchGlobal => 0xFFFFFF | .tchGest => 0x7FFFFF | .sldCfg => 0x1FF
  | .keyCfg n => if n = 0 then 0x1FE01 else 0x1FFFF
  | .evCfgReg _ => 0xF | .evGlobalReg => 0xFF0F
  | _ => 0

/-- Reset value of a register's stored bits; the OTP fields have the value of an absent group. -/
def Reg.reset : Reg → Nat
  | .drvCfg => 4
  | .twCfg => 0x205 | .twTiming => 0x30E11 | .twLimits => 0x10293 | .twAddr => 0x080000
  | .inRoute _ | .sinkRoute _ => 0x500FF
  | .tpCfg _ => 0x1540 | .spoCfg => 0x920 | .inMap _ | .outMap _ => 7
  | .ainCfg _ => 0xC | .micCfg n => if n = 1 then 0x804 else 4 | .micbiasCfg => 2
  | .hpCfg => 0x328 | .loCfg => 0x28 | .hpjCfg => 0x1ED428 | .hpjBtn => 0x6E502D14 | .auxjCfg => 0x1428
  | .hbCfg n => 0x228A04 + 8 * n | .vfs _ => 0x08000000 | .lcCfg _ => 0x46015E | .diagExp _ => 0x3FC02
  | .xpCfg n => 0x14500 + 4 * n | .xGain _ => 0x73333333
  | .psCfg => 0x42 | .pairCfg => 0x5555 | .sagSlope => 0x03000000 | .sagMax => 0x0C000000 | .sagRel => 200000
  | .tfStart => 0x43800000 | .tfSlope => 0x00800000 | .tfMax => 0x12000000 | .retryCfg => 0xFA3 | .dcCfg => 0x1F414
  | .diagCfg => 0x100294
  | .rootCfg => 0x1910 | .refFreq => 48000 | .auxCfg _ => 0x2810 | .auxInt _ => 96 | .auxDen _ => 1
  | .pdmCfg => 0x206D | .pmicCfg _ => 8
  | .detCfg _ => 6 | .detThresh _ => 0x0C000000 | .detHyst _ => 0x03000000 | .detOn _ => 40 | .detOff _ => 500
  | .detTauS _ => 8 | .detTauDn _ => 100 | .detRise _ => 0x03000000 | .detFloor _ => 0xA6000000
  | .coolerCfg => 1 | .lane n => if n = 0 then 0 else 0xFF
  | .tchCfg _ => 0x3250 | .tchGlobal => 0x3CC914 | .tchGest => 0x400A1E | .sldCfg => 0x60
  | .keyCfg n => if n = 0 then 0x2801 else 0x2851
  | .evCfgReg _ => 3 | .evGlobalReg => 0xA0A
  | _ => 0

/-- Reset value of the word at a PADDR. -/
def regResetAt (a : Nat) : Nat := match paddrReg a with
  | some r => r.reset
  | none => 0

/-- The stored word of a register. -/
def rd (s : State) (r : Reg) : Nat := regGet s regResetAt r.addr

/-- Store the word of a register. -/
def wr (s : State) (r : Reg) (v : Nat) : State := regSet s regResetAt r.addr v

/-- The RC words set in the present cycle (R10). -/
def rcSet (s : State) : List (Nat × Nat × Nat) :=
  if s.rcNow.bsn = s.bsn ∧ s.rcNow.cycle = s.cycle then s.rcNow.words else []

/-- What the present cycle has done to an RC word: its value before, and the settings of this cycle alone (R10). -/
def rcMark (s : State) (r : Reg) : Nat × Nat := ((rcSet s).find? (fun x => x.1 == r.addr)).map (fun x => x.2) |>.getD (rd s r, 0)

/-- Note what the present cycle has done to an RC word. -/
def rcNote (s : State) (r : Reg) (old fresh : Nat) : State :=
  { s with rcNow := ⟨s.bsn, s.cycle, (r.addr, old, fresh) :: (rcSet s).filter (fun x => x.1 != r.addr)⟩ }

/-- The device sets an RC word by `f`, which it would also do to a word read and cleared in this cycle (R10). -/
def rcUpdate (s : State) (r : Reg) (f : Nat → Nat) : State :=
  let x := rcMark s r
  wr (rcNote s r x.1 (f x.2)) r (f (rd s r))

/-- What a read of an RC word returns: its value before the present cycle (R10). -/
def rcRead (s : State) (r : Reg) : Nat := (rcMark s r).1

/-- A read clears an RC word, but for what the device has set in the same cycle (R7, R10). -/
def rcClear (s : State) (r : Reg) : State :=
  let x := rcMark s r
  wr (rcNote s r 0 x.2) r x.2

/-- `k` more in the count in bits [hi:lo] of a word, stopping at its largest value. -/
def countUp (hi lo k w : Nat) : Nat :=
  let c := bits w hi lo
  w + (min (2 ^ (hi + 1 - lo) - 1) (c + k) - c) * 2 ^ lo

/-- Add `k` to the count in bits [hi:lo] of an RC register, stopping at its largest value. -/
def addCount (s : State) (r : Reg) (hi lo k : Nat) : State := rcUpdate s r (countUp hi lo k)

/-- Raise the peak held in an RC register. -/
def raisePeak (s : State) (r : Reg) (v : Nat) : State := rcUpdate s r (max v)

/-- Class a write of a register needs (R202, R336, R383). -/
def Reg.writeClass : Reg → Nat
  | .psCfg | .pairCfg | .rootCfg | .refFreq => 2
  | r => if paSpace r.addr = 0 then 2 else 1

/-- Immediate-only registers (R204, R383, R464). -/
def Reg.immediate : Reg → Bool
  | .rootCfg | .refFreq => true
  | r => paSpace r.addr == 0 || paSpace r.addr == 9

/-! ## Ranges of written values -/

/-- A value lies in lo..hi. -/
def within (v lo hi : Nat) : Bool := decide (lo ≤ v ∧ v ≤ hi)

/-- A two's complement 32-bit value lies in lo..hi. -/
def sWithin (v : Nat) (lo hi : Int) : Bool := decide (lo ≤ toSigned 32 v ∧ toSigned 32 v ≤ hi)

/-- Frame rate in Hz of a rate code of R250; 0 for no rate. -/
def rateHz (c : Nat) : Nat :=
  ([0, 8000, 11025, 12000, 16000, 22050, 24000, 32000, 44100, 48000, 64000, 88200, 96000, 176400, 192000].getD c 0)

/-- Root frequency in Hz (R15). -/
def rootHz : Nat := 2359296000

/-- Bits per slot and slots of a TP_CFG word. -/
def tpSlotBits (w : Nat) : Nat := [16, 24, 32].getD (bits w 8 7) 0
def tpSlots (w : Nat) : Nat := bits w 15 11
def tpFrameBits (w : Nat) : Nat := tpSlotBits w * tpSlots w

/-- R229, R230, R235, R249: a TP_CFG word on its own. -/
def tpCfgOk (w : Nat) : Bool :=
  let fmt := bits w 3 2
  let rate := bits w 19 16
  let len := bits w 10 9
  let src := bits w 22 20
  decide (fmt ≠ 3) && decide (bits w 8 7 ≠ 3) && decide ([16, 20, 24, 32].getD len 0 ≤ tpSlotBits w) &&
    within (tpSlots w) 1 16 && (fmt == 2 || tpSlots w == 2) && decide (rate ≤ 14) && decide (src ≤ 4) &&
    decide (tpFrameBits w ≤ if rate = 13 ∨ rate = 14 then 256 else 512) &&
    (!bit w 1 || (decide (rate ≠ 0) &&
      (src != 0 || decide (rootHz % (rateHz rate * tpFrameBits w) = 0))))

/-- R247, R250, R252: an SPO_CFG word on its own; the IEC 60958 bit rate is 64 bits per frame. -/
def spoCfgOk (w : Nat) : Bool :=
  let rate := bits w 11 8
  let src := bits w 14 12
  [7, 8, 9, 11, 12, 13, 14].contains rate && decide (src ≤ 4) &&
    (src != 0 || decide (rootHz % (rateHz rate * 64) = 0))

/-- R253: a channel map word. -/
def mapOk (output : Bool) (w : Nat) : Bool :=
  let p := bits w 2 0
  let pOk := if output then decide (p ≤ 3) || p == 6 || p == 7 else decide (p ≤ 5) || p == 7
  pOk && (!(4 ≤ p && p ≤ 6) || (!bit w 3 && decide (bits w 7 4 ≤ 1)))

/-- The PLL_ROOT dividers of R359: REF_DIV and FB_DIV. -/
def refDividers (hz : Nat) : Nat × Nat :=
  let g := Nat.gcd rootHz hz
  let fb := rootHz / g
  let rdv := hz / g
  let k := max 1 ((hz + 1024000 * rdv - 1) / (1024000 * rdv))
  (k * rdv, k * fb)

/-- R359: dividers in range and f_pd at least 200 Hz. -/
def refFreqOk (hz : Nat) : Bool :=
  let d := refDividers hz
  decide (d.1 ≤ 4096) && decide (d.2 ≤ 16777216) && decide (200 * d.1 ≤ hz)

/-- R358: the TP or S/PDIF port that a REF_SRC code names, if any, is enabled as a clock target. -/
def refPortOk (s : State) (src : Nat) : Bool :=
  if 2 ≤ src ∧ src ≤ 5 then
    let w := rd s (.tpCfg (src - 2))
    bit w 0 && !bit w 1
  else if src = 6 ∨ src = 7 then bit (rd s (.spiCfg (src - 6))) 0
  else true

/-- A written value (writable bits only) is in range for its register. -/
def Reg.rangeOk (s : State) (r : Reg) (v : Nat) : Bool :=
  match r with
  | .drvCfg => within v 1 16
  | .twCfg =>
    let a := bits v 10 4
    within a 0x08 0x77 && decide (a ≠ s.bus.addrA.toNat) && decide (a ≠ s.bus.addrB.toNat)
  | .twTiming =>
    within (bits v 7 0) 4 255 && within (bits v 15 8) 3 255 && within (bits v 19 16) 1 15 &&
      decide (bits v 19 16 + 1 < bits v 7 0)
  | .twLimits => within (bits v 12 6) 1 100 && within (bits v 16 13) 1 15
  | .twAddr => within (bits v 22 16) 0x08 0x77
  | .inRoute _ =>
    let f := bits v 7 0
    (decide (f < 0x26) || within f 0x30 0x3F || f == 0xFF) && within (bits v 21 16) 1 50
  | .sinkRoute _ => (decide (bits v 7 0 < 64) || bits v 7 0 == 0xFF) && within (bits v 21 16) 1 50
  | .tpCfg _ => tpCfgOk v
  | .spiCfg _ => [0, 7, 8, 9, 11, 12, 13, 14].contains (bits v 5 2)
  | .spoCfg => spoCfgOk v
  | .inMap _ => mapOk false v
  | .outMap _ => mapOk true v
  | .micCfg _ => within (bits v 9 4) 0 42
  | .hpCfg | .loCfg => within (bits v 7 2) 1 50
  | .hpjCfg => within (bits v 8 2) 1 100 && within (bits v 13 9) 1 31 && within (bits v 22 16) 5 100
  | .auxjCfg => within (bits v 8 2) 1 100 && within (bits v 13 9) 1 31
  | .hpjBtn =>
    decide (bits v 7 0 < bits v 15 8) && decide (bits v 15 8 < bits v 23 16) && decide (bits v 23 16 < bits v 31 24) &&
      decide (bits v 31 24 ≤ 114)
  | .hbCfg _ => within (bits v 13 7) 1 100 && within (bits v 20 14) 1 100
  | .vfs _ => sWithin v (2 ^ 23) (40 * 2 ^ 23)
  | .lcCfg _ => within (bits v 9 0) 200 800 && within (bits v 23 16) 30 200
  | .diagExp _ => decide (bits v 1 0 ≠ 3) && decide (bits v 9 2 ≤ bits v 17 10)
  | .xpCfg _ => within (bits v 12 6) 1 100 && within (bits v 19 13) 1 100
  | .xGain _ => sWithin v 0 2104533975
  | .psCfg => decide (bits v 2 0 ≤ 4) && decide (bits v 5 3 ≤ 4) && within (bits v 11 6) 1 63
  | .pairCfg =>
    (List.range 8).all (fun p => decide (bits v (2 * p + 1) (2 * p) ≠ 3)) &&
      (List.range 4).all (fun q => (bits v (4 * q + 1) (4 * q) == 2) == (bits v (4 * q + 3) (4 * q + 2) == 2)) &&
      (List.range 8).all (fun x => decide (bits v (2 * x + 17) (2 * x + 16) ≤ 1))
  | .sagKnee => v == 0 || sWithin v (5 * 2 ^ 23) (24 * 2 ^ 23)
  | .sagSlope => sWithin v (2 ^ 23) (12 * 2 ^ 24)
  | .sagMax | .tfMax => sWithin v 0 (24 * 2 ^ 24)
  | .sagRel => within v 10000 5000000
  | .tfStart => sWithin v (100 * 2 ^ 23) (150 * 2 ^ 23)
  | .tfSlope => sWithin v 1677722 (2 * 2 ^ 24)
  | .retryCfg => within (bits v 15 4) 100 4000
  | .dcCfg => within (bits v 7 0) 5 100 && within (bits v 18 8) 10 2000
  | .diagCfg => within (bits v 5 0) 5 40 && within (bits v 13 6) 1 40 && within (bits v 21 14) 8 255
  | .rootCfg =>
    let src := bits v 3 0
    decide (src ≤ 8) && decide (bits v 5 4 ≤ 2) && within (bits v 14 7) 10 150 && refPortOk s src &&
      (!within src 1 7 || refFreqOk (rd s .refFreq))
  | .refFreq => within v 8000 49152000 && (!within (bits (rd s .rootCfg) 3 0) 1 7 || refFreqOk v)
  | .auxCfg _ => within (bits v 9 4) 1 63 && within (bits v 16 10) 1 100
  | .auxInt _ => within v 24 6143
  | .auxDen _ => within v 1 1048575
  | .segOfs _ _ => sWithin v (-3000000) 3000000
  | .segTime _ _ => v == 0 || within v 250 10000000
  | .pdmCfg =>
    decide (bits v 2 0 ≠ 7) && decide (bits v 5 3 ≠ 7) && decide (bits v 7 6 ≠ 3) && decide (bits v 9 8 ≠ 3) &&
      within (bits v 15 10) 2 32
  | .dlyA _ _ | .dlyL _ _ => within v 0 1016
  | .detThresh _ => sWithin v (3 * 2 ^ 24) (40 * 2 ^ 24)
  | .detHyst _ => sWithin v 0 (20 * 2 ^ 24)
  | .detOn _ => within v 1 500
  | .detOff _ => within v 10 10000
  | .detTauS _ => within v 1 100
  | .detTauDn _ => within v 10 10000
  | .detRise _ => sWithin v 1677722 (20 * 2 ^ 24)
  | .detFloor _ => sWithin v (-120 * 2 ^ 24) (-30 * 2 ^ 24)
  | .lane _ =>
    let c := bits v 7 0
    (decide (c < 4) || within c 0x10 0x1F || c == 0xFF) && decide (bits v 11 8 ≤ 8)
  | .tchCfg _ => within (bits v 8 1) 1 255 && within (bits v 16 9) 1 (bits v 8 1)
  | .tchGlobal =>
    within (bits v 6 0) 5 100 && within (bits v 9 7) 1 7 && within (bits v 12 10) 1 7 && within (bits v 16 13) 2 12
  | .tchGest => within (bits v 7 0) 1 255 && within (bits v 15 8) 1 255 && within (bits v 22 16) 1 127
  | .sldCfg =>
    within (bits v 4 1) 0 9 && within (bits v 8 5) 3 8 && decide (bits v 4 1 + bits v 8 5 ≤ 12)
  | .keyCfg n => n == 0 || within (bits v 8 2) 2 127
  | .evGlobalReg => within (bits v 15 8) 1 255
  | _ => true

end Sys2Proof.Machine
end

