-- ==== Sys2Proof/Machine/Image.lean ====
section
/-!
DEFINITION. Graph images: the fields of R45-R52 read from the bytes of a slot, the parameter words of every operator
type (R88-R122) with their marks, ranges and cross-word conditions, the buffer lengths and costs of R91, the checks of
R54, and the figures the device computes from an image (R53, R62, R63, R65).
-/

namespace Sys2Proof.Machine

open Sys2Proof

/-! ## Fields of an image -/

/-- A little-endian field of `n` bytes of an image at offset `o` (R4). -/
def imgN (m : Memory) (o : Nat) : Nat → Nat
  | 0 => 0
  | n + 1 => (memoryRead m o).toNat + 256 * imgN m (o + 1) n

/-- The bytes of an image from `o`. -/
def imgBytes (m : Memory) (o : Nat) : Nat → List Byte
  | 0 => []
  | n + 1 => memoryRead m o :: imgBytes m (o + 1) n

/-- Header counts and offsets (R46). -/
def hOps (m : Memory) : Nat := imgN m 0x0C 2
def hFlows (m : Memory) : Nat := imgN m 0x0E 2
def hBufs (m : Memory) : Nat := imgN m 0x10 2
def hBufOff (m : Memory) : Nat := imgN m 0x18 4
def hFlowOff (m : Memory) : Nat := imgN m 0x1C 4
def hBlobOff (m : Memory) : Nat := imgN m 0x20 4
def hBlobLen (m : Memory) : Nat := imgN m 0x24 4

/-- An operator entry (R48). -/
structure OpEntry where
  type     : Nat
  variant  : Nat
  flow     : Nat
  nIn      : Nat
  nOut     : Nat
  parts    : Nat
  conn     : Nat
  stateBuf : Nat
  lineBuf  : Nat
  blobOff  : Nat
  blobLen  : Nat
  cost     : Nat
  port     : Nat
  deriving DecidableEq, Repr

/-- Operator entry `i`. -/
def opEntry (m : Memory) (i : Nat) : OpEntry :=
  let o := 0x40 + 32 * i
  { type := imgN m o 1, variant := imgN m (o + 1) 1, flow := imgN m (o + 2) 2, nIn := imgN m (o + 4) 1,
    nOut := imgN m (o + 5) 1, parts := imgN m (o + 6) 1, conn := imgN m (o + 8) 4, stateBuf := imgN m (o + 0x0C) 2,
    lineBuf := imgN m (o + 0x0E) 2, blobOff := imgN m (o + 0x10) 4, blobLen := imgN m (o + 0x14) 4,
    cost := imgN m (o + 0x18) 4, port := imgN m (o + 0x1C) 2 }

/-- Connections of an instance: input and output buffers (R50). -/
def opConn (m : Memory) (e : OpEntry) (j : Nat) : Nat := imgN m (0x40 + e.conn + 2 * j) 2
def opIns (m : Memory) (e : OpEntry) : List Nat := (List.range e.nIn).map (opConn m e)
def opOuts (m : Memory) (e : OpEntry) : List Nat := (List.range e.nOut).map (fun j => opConn m e (e.nIn + j))

/-- A buffer entry (R51). -/
structure BufEntry where
  kind     : Nat
  producer : Nat
  len      : Nat
  init     : Nat
  deriving DecidableEq, Repr

/-- Buffer entry `b`. -/
def bufEntry (m : Memory) (b : Nat) : BufEntry :=
  let o := hBufOff m + 16 * b
  { kind := imgN m o 1, producer := imgN m (o + 2) 2, len := imgN m (o + 4) 4, init := imgN m (o + 8) 4 }

/-- A flow entry (R52). -/
structure FlowEntry where
  first : Nat
  count : Nat
  pen   : Nat
  deriving DecidableEq, Repr

/-- Flow entry `f`. -/
def flowEntry (m : Memory) (f : Nat) : FlowEntry :=
  let o := hFlowOff m + 8 * f
  { first := imgN m o 2, count := imgN m (o + 2) 2, pen := imgN m (o + 4) 1 }

/-- Blob word `i` of an instance (R88). -/
def blobWord (m : Memory) (e : OpEntry) (i : Nat) : Nat := imgN m (hBlobOff m + e.blobOff + 4 * i) 4

/-- All instances of an image. -/
def opList (m : Memory) : List (Nat × OpEntry) := (List.range (hOps m)).map (fun i => (i, opEntry m i))

/-! ## Types (R49, R91) -/

/-- Type codes of R49. -/
def tIN : Nat := 1
def tOUT : Nat := 2
def tGAIN : Nat := 3
def tMIX : Nat := 4
def tBIQ : Nat := 5
def tFIR : Nat := 6
def tDELAY : Nat := 7
def tDRC : Nat := 8
def tLIMIT : Nat := 9
def tXOVER : Nat := 10
def tGATE : Nat := 11
def tMETER : Nat := 12
def tTONE : Nat := 13
def tBEAM : Nat := 14
def tPROT : Nat := 15

/-- IN and OUT run no tasks (R41). -/
def OpEntry.runs (e : OpEntry) : Bool := e.type != tIN && e.type != tOUT

/-- Known type and variant (R49, R91). -/
def OpEntry.typeOk (e : OpEntry) : Bool :=
  within e.type 1 15 &&
    decide (e.variant < if e.type = tBIQ ∨ e.type = tDELAY ∨ e.type = tTONE then 2
      else if e.type = tDRC ∨ e.type = tXOVER then 3 else 1)

/-- Ceiling of a quotient. -/
def cdiv (a b : Nat) : Nat := (a + b - 1) / b

/-- Channel count c of R91: outputs, or inputs for METER. -/
def OpEntry.chans (e : OpEntry) : Nat := if e.type = tMETER then e.nIn else e.nOut

/-- Side-chain key present (R92). -/
def OpEntry.keyed (e : OpEntry) : Bool := decide (e.nIn = e.nOut + 1)

/-- Input and output counts in the range and relation of R91 (R92). -/
def OpEntry.countsOk (e : OpEntry) : Bool :=
  if e.type = tIN then e.nIn == 0 && e.nOut == 1
  else if e.type = tOUT then e.nIn == 1 && e.nOut == 0
  else if e.type = tGAIN ∨ e.type = tLIMIT then within e.nOut 1 16 && e.nIn == e.nOut
  else if e.type = tMIX then within e.nIn 1 16 && within e.nOut 1 16
  else if e.type = tBIQ ∨ e.type = tFIR ∨ e.type = tPROT then e.nIn == 1 && e.nOut == 1
  else if e.type = tDELAY then e.nIn == 1 && within e.nOut 1 8
  else if e.type = tDRC ∨ e.type = tGATE then within e.nOut 1 8 && (e.nIn == e.nOut || e.nIn == e.nOut + 1)
  else if e.type = tXOVER then e.nIn == 1 && within e.nOut 2 4
  else if e.type = tMETER then within e.nIn 1 16 && e.nOut == 0
  else if e.type = tTONE then e.nIn == 0 && e.nOut == 1
  else if e.type = tBEAM then within e.nIn 2 16 && e.nOut == 1
  else false

/-! ## Parameter words -/

/-- Marks of R88. -/
inductive Mark where
  | f | l | li
  deriving DecidableEq, Repr

/-- Length of the blob in words (R93-R119); `g` reads a word. -/
def OpEntry.blobWords (e : OpEntry) (g : Nat → Nat) : Nat :=
  if e.type = tGAIN then e.nOut
  else if e.type = tMIX then e.nIn * e.nOut
  else if e.type = tBIQ then 1 + 5 * g 0
  else if e.type = tFIR then 1 + g 0
  else if e.type = tDELAY then 1 + e.nOut
  else if e.type = tDRC then 10
  else if e.type = tLIMIT then 3
  else if e.type = tXOVER then e.nOut - 1
  else if e.type = tGATE then 8
  else if e.type = tMETER then 3
  else if e.type = tTONE then 3
  else if e.type = tBEAM then 2 * e.nIn
  else if e.type = tPROT then 22 + 5 * g 20
  else 0

/-- Mark of word `i`. -/
def OpEntry.mark (e : OpEntry) (i : Nat) : Mark :=
  if e.type = tGAIN ∨ e.type = tMIX then .li
  else if e.type = tBIQ then if i = 0 then .f else .l
  else if e.type = tFIR then .f
  else if e.type = tDELAY then if i = 0 then .f else .l
  else if e.type = tDRC then if i = 7 ∨ i = 9 then .f else .l
  else if e.type = tLIMIT then if i = 1 then .f else .l
  else if e.type = tXOVER then .l
  else if e.type = tGATE then if i = 6 then .f else .l
  else if e.type = tMETER then .l
  else if e.type = tTONE then if i = 0 then .l else if i = 1 then .li else .f
  else if e.type = tBEAM then if i < e.nIn then .l else .li
  else if e.type = tPROT then if i = 0 ∨ i = 15 ∨ i = 16 ∨ i = 18 ∨ i = 20 then .f else .l
  else .f

/-- Range of word `i` with value `v` (R93-R123); `g` reads the fixed word that bounds it. -/
def OpEntry.wordOk (e : OpEntry) (g : Nat → Nat) (i v : Nat) : Bool :=
  let d (lo hi : Int) := sWithin v (lo * 2 ^ 24) (hi * 2 ^ 24)
  let k (lo hi : Int) := sWithin v (lo * 2 ^ 23) (hi * 2 ^ 23)
  if e.type = tBIQ then i != 0 || within v 1 32
  else if e.type = tFIR then i != 0 || within v 1 130560
  else if e.type = tDELAY then
    if i = 0 then within v 0 3145700
    else decide (v ≤ g 0 * 256) && (if e.variant = 0 then v % 256 == 0 else decide (256 ≤ v))
  else if e.type = tDRC then
    match i with
    | 0 => d (-96) 0
    | 1 => k 1 100
    | 2 => d 0 24
    | 3 => d 0 120
    | 4 => d (-24) 24
    | 5 => within v 10 500000
    | 6 => within v 1000 5000000
    | 7 => within v 0 1
    | 8 => within v 1000 1000000
    | _ => within v 0 480
  else if e.type = tLIMIT then
    match i with
    | 0 => d (-24) 0
    | 1 => within v 24 480
    | _ => within v 1000 5000000
  else if e.type = tXOVER then within v 1000 4000000
  else if e.type = tGATE then
    match i with
    | 0 => d (-120) 0
    | 1 => d (-120) 0
    | 2 => d 0 120
    | 3 => within v 0 96000
    | 4 => within v 10 500000
    | 5 => within v 1000 5000000
    | 6 => within v 0 1
    | _ => within v 1000 1000000
  else if e.type = tMETER then i == 2 || within v 1000 10000000
  else if e.type = tTONE then
    if i = 0 then within v 0 48000000 else if i = 2 then e.variant != 1 || v != 0 else true
  else if e.type = tBEAM then !decide (i < e.nIn) || within v 8 1016
  else if e.type = tPROT then
    match i with
    | 0 => decide (v < 0x20) || v == 0xFF
    | 1 => sWithin v (2 ^ 22) (40 * 2 ^ 23)
    | 2 => k 1 64
    | 3 => k (-40) 125
    | 4 => sWithin v 2147484 21474836
    | 5 => sWithin v 838861 (100 * 2 ^ 23)
    | 6 => within v 100000 60000000
    | 7 => sWithin v 838861 (100 * 2 ^ 23)
    | 8 => within v 10000000 3600000000
    | 9 => k (-40) 125
    | 10 => k 20 250
    | 11 => sWithin v 1677722 (6 * 2 ^ 24)
    | 12 => d 0 40
    | 13 => k 20 250
    | 14 => sWithin v 0 2147483647
    | 15 => sWithin v 83887 (2 * 2 ^ 23)
    | 16 => within v 1000 20000
    | 17 => k 0 100
    | 18 => within v 24 96
    | 19 => within v 1000 5000000
    | 20 => within v 1 4
    | 21 => k 0 100
    | _ => true
  else true

/-- R97 for the section whose b0 is word `o`. -/
def sectionOk (g : Nat → Nat) (o : Nat) : Bool :=
  let a1 := toSigned 32 (g (o + 3))
  let a2 := toSigned 32 (g (o + 4))
  decide (-(2 ^ 30) < a2) && decide (a2 < 2 ^ 30) && decide (-(2 ^ 30 + a2) < a1) && decide (a1 < 2 ^ 30 + a2)

/-- Cross-word conditions (R97, R107, R109, R119). -/
def OpEntry.crossOk (e : OpEntry) (g : Nat → Nat) : Bool :=
  if e.type = tBIQ then (List.range (g 0)).all (fun j => sectionOk g (1 + 5 * j))
  else if e.type = tXOVER then (List.range (e.nOut - 2)).all (fun j => decide (g j < g (j + 1)))
  else if e.type = tGATE then decide (toSigned 32 (g 1) ≤ toSigned 32 (g 0))
  else if e.type = tPROT then
    decide (toSigned 32 (g 10) ≤ toSigned 32 (g 13)) &&
      (List.range (g 20)).all (fun j => sectionOk g (22 + 5 * j))
  else true

/-- Partitions of R41, R87 and R98. R54 names no check for a wrong partition count: it fails 0x0B, with the parameters
(DESIGN CHOICE, log entry 65). -/
def OpEntry.partsOk (e : OpEntry) (g : Nat → Nat) : Bool :=
  if e.type = tFIR then e.parts == cdiv (g 0) 512 else e.parts == 1

/-- R90: blob length, word ranges, cross-word conditions; with them the partitions (`partsOk`, log entry 65). -/
def OpEntry.paramsOk (e : OpEntry) (g : Nat → Nat) : Bool :=
  (if e.type = tBIQ ∨ e.type = tFIR then decide (4 ≤ e.blobLen) && e.wordOk g 0 (g 0)
    else if e.type = tPROT then decide (84 ≤ e.blobLen) && e.wordOk g 20 (g 20) else true) &&
    e.blobLen == 4 * e.blobWords g && (List.range (e.blobWords g)).all (fun i => e.wordOk g i (g i)) &&
    e.crossOk g && e.partsOk g

/-! ## Buffer lengths and costs (R91) -/

/-- Sections of XOVER (R108). -/
def xoverSections (e : OpEntry) : Nat :=
  let sp := [2, 4, 8].getD e.variant 0
  let sa := [1, 1, 2].getD e.variant 0
  (e.nOut - 1) * sp + (e.nOut - 1) * (e.nOut - 2) / 2 * sa

/-- The word that a buffer length depends on, if any (R92). -/
def OpEntry.sizeWord (e : OpEntry) : Option Nat :=
  if e.type = tBIQ ∨ e.type = tFIR ∨ e.type = tDELAY then some 0
  else if e.type = tDRC then some 9
  else if e.type = tLIMIT then some 1
  else if e.type = tPROT then some 18
  else none

/-- R92: the size word can be judged. -/
def OpEntry.sizeKnown (e : OpEntry) (g : Nat → Nat) : Bool :=
  match e.sizeWord with
  | none => true
  | some w => decide (4 * w + 4 ≤ e.blobLen) && e.wordOk g w (g w)

/-- R92: the STATE (LINE) buffer of the type can be judged: its length does not depend on the size word, or that word can be
judged. -/
def OpEntry.stateKnown (e : OpEntry) (g : Nat → Nat) : Bool := e.type == tDELAY || e.type == tDRC || e.sizeKnown g
def OpEntry.lineKnown (e : OpEntry) (g : Nat → Nat) : Bool := e.type == tBIQ || e.sizeKnown g

/-- Length of the STATE buffer in words, 0 for none. -/
def OpEntry.stateWords (e : OpEntry) (g : Nat → Nat) : Nat :=
  if e.type = tBIQ then cdiv ((if e.variant = 0 then 4 else 5) * g 0) 6
  else if e.type = tFIR then if cdiv (g 0) 512 > 1 then 8 else 0
  else if e.type = tDELAY then cdiv e.nOut 6
  else if e.type = tDRC ∨ e.type = tGATE then 2
  else if e.type = tLIMIT then cdiv (g 1 + 1) 3 + 1
  else if e.type = tXOVER then cdiv (5 * xoverSections e) 6
  else if e.type = tMETER then e.nIn
  else if e.type = tTONE then 1
  else if e.type = tBEAM then cdiv e.nIn 6
  else if e.type = tPROT then 7 + cdiv (g 18 + 1) 3
  else 0

/-- Length of the LINE buffer in words, 0 for none. -/
def OpEntry.lineWords (e : OpEntry) (g : Nat → Nat) : Nat :=
  if e.type = tFIR then cdiv (g 0 + 23) 6
  else if e.type = tDELAY then cdiv (g 0 + 28) 6
  else if e.type = tDRC then if g 9 = 0 then 0 else e.nOut * cdiv (g 9 + 24) 6
  else if e.type = tLIMIT then e.nOut * cdiv (g 1 + 24) 6
  else if e.type = tBEAM then 26 * e.nIn
  else if e.type = tPROT then cdiv (g 18 + 24) 6
  else 0

/-- Cost per block (R91). -/
def OpEntry.blockCost (e : OpEntry) (g : Nat → Nat) : Nat :=
  let k := b2n e.keyed
  if e.type = tGAIN then 48 + 20 * e.nOut
  else if e.type = tMIX then 48 + e.nOut * (12 * e.nIn + 8)
  else if e.type = tBIQ then 40 + (if e.variant = 0 then 68 else 80) * g 0
  else if e.type = tFIR then 12 * g 0 + 156 * cdiv (g 0) 512
  else if e.type = tDELAY then 52 + (if e.variant = 0 then 24 else 120) * e.nOut
  else if e.type = tDRC then 1100 + 250 * e.nOut + 48 * k
  else if e.type = tLIMIT then 700 + 150 * e.nOut
  else if e.type = tXOVER then 160 + 88 * xoverSections e
  else if e.type = tGATE then 600 + 100 * e.nOut + 48 * k
  else if e.type = tMETER then 100 + 40 * e.nIn
  else if e.type = tTONE then if e.variant = 0 then 200 else 120
  else if e.type = tBEAM then 80 + 112 * e.nIn
  else if e.type = tPROT then 1600 + 68 * g 20
  else 0

/-- R42, R87: declared cost. -/
def OpEntry.costOk (e : OpEntry) (g : Nat → Nat) : Bool :=
  e.cost == cdiv (e.blockCost g) e.parts && decide (e.cost ≤ 16384)

/-! ## The checks of R54 -/

/-- First element of a list that fails. -/
def firstBad {α : Type} (l : List (Nat × α)) (ok : Nat → α → Bool) : Option Nat :=
  (l.find? (fun x => !ok x.1 x.2)).map (fun x => x.1)

/-- 0x01: magic, version and header size. -/
def chkMagic (m : Memory) : Bool := imgN m 0 4 == 0x49474C53 && imgN m 4 2 == 1 && imgN m 6 2 == 0x40

/-- 0x02: length as given in GRAPH_BEGIN and every byte written. -/
def chkLength (m : Memory) (len : Nat) : Bool := imgN m 8 4 == len && m.length == len

/-- CRC-32C over the image with the CRC field as 0 (R46). -/
def imageCrc (m : Memory) (len : Nat) : Nat :=
  crc32c (imgBytes m 0 0x3C ++ List.replicate 4 0#8 ++ imgBytes m 0x40 (len - 0x40))

/-- 0x04: header counts. -/
def chkCounts (m : Memory) : Bool :=
  within (hOps m) 1 4096 && within (hFlows m) 1 1024 && within (hBufs m) 1 8192 &&
    decide (imgN m 0x12 1 ≤ 64) && decide (imgN m 0x13 1 ≤ 64) &&
    ((opList m).filter (fun x => x.2.type == tIN)).length == imgN m 0x12 1 &&
    ((opList m).filter (fun x => x.2.type == tOUT)).length == imgN m 0x13 1

/-- 0x05: section offsets. A blob area whose length is no multiple of 32 fails here too: R54 names no check for it (DESIGN
CHOICE, log entry 77). -/
def chkSections (m : Memory) (len : Nat) : Bool :=
  imgN m 0x14 4 == 0x40 && hBufOff m % 32 == 0 && hFlowOff m % 32 == 0 && hBlobOff m % 32 == 0 &&
    hBlobLen m % 32 == 0 && decide (0x40 + 32 * hOps m ≤ hBufOff m) &&
    decide (hBufOff m + 16 * hBufs m ≤ hFlowOff m) && decide (hFlowOff m + 8 * hFlows m ≤ hBlobOff m) &&
    decide (hBlobOff m + hBlobLen m ≤ len)

/-- 0x07 for one instance: connection list, buffer indices, blob reference, counts, buffers named. R54 names no check for lists
that R50 does not let two instances share: lists at one offset with other counts fail here, at the later instance, and lists
that overlap only in part pass (DESIGN CHOICE, log entry 65). -/
def chkConn (m : Memory) (i : Nat) (e : OpEntry) : Bool :=
  let g := blobWord m e
  let idxOk (b : Nat) := b == 0xFFFF || decide (b < hBufs m)
  let blobIn := e.blobOff % 4 == 0 && e.blobLen % 4 == 0 && decide (e.blobOff + e.blobLen ≤ hBlobLen m)
  e.conn % 4 == 0 && decide (32 * hOps m ≤ e.conn) &&
    decide (0x40 + e.conn + 2 * (e.nIn + e.nOut) ≤ hBufOff m) &&
    (opIns m e ++ opOuts m e).all (fun b => decide (b < hBufs m)) && idxOk e.stateBuf && idxOk e.lineBuf && blobIn &&
    e.countsOk &&
    ((List.range i).all (fun j =>
      let e' := opEntry m j
      e'.conn != e.conn || (e'.nIn == e.nIn && e'.nOut == e.nOut))) &&
    (!e.stateKnown g || decide (e.stateBuf = 0xFFFF) == decide (e.stateWords g = 0)) &&
    (!e.lineKnown g || decide (e.lineBuf = 0xFFFF) == decide (e.lineWords g = 0))

/-- 0x08 for one buffer: kind, length, initial contents, one producer or owner that names it, uses of the kind. R54 names no
check for the producer field of a LINE or STATE buffer (R51): it fails here (DESIGN CHOICE, log entry 77). -/
def chkBuf (m : Memory) (b : Nat) (x : BufEntry) : Bool :=
  let ops := opList m
  let e := opEntry m x.producer
  let g := blobWord m e
  let uses := ops.flatMap (fun o => opIns m o.2 ++ opOuts m o.2)
  let prods := ops.flatMap (fun o => (opOuts m o.2).filterMap (fun c => if c = b then some o.1 else none))
  let sOwners := ops.filterMap (fun o => if o.2.stateBuf = b then some o.1 else none)
  let lOwners := ops.filterMap (fun o => if o.2.lineBuf = b then some o.1 else none)
  let initOk := x.init == 0xFFFFFFFF ||
    (x.kind != 1 && x.init % 32 == 0 && decide (x.init + 32 * x.len ≤ hBlobLen m))
  within x.kind 1 3 && initOk && decide (x.producer < hOps m) &&
    (if x.kind = 1 then x.len == 4 && prods == [x.producer] && sOwners == [] && lOwners == []
     else within x.len 1 524288 && !uses.contains b &&
       (if x.kind = 2 then lOwners == [x.producer] && sOwners == [] && (!e.lineKnown g || x.len == e.lineWords g)
        else sOwners == [x.producer] && lOwners == [] && (!e.stateKnown g || x.len == e.stateWords g)))

/-- 0x09 for one flow. -/
def chkFlow (m : Memory) (f : Nat) (x : FlowEntry) : Bool :=
  let start := if f = 0 then 0 else (flowEntry m (f - 1)).first + (flowEntry m (f - 1)).count
  x.first == start && decide (1 ≤ x.count) && decide (x.pen ≤ 31) &&
    (decide (f + 1 < hFlows m) || x.first + x.count == hOps m) &&
    (List.range x.count).all (fun j => (opEntry m (x.first + j)).flow == f)

/-- 0x0A for one instance. -/
def chkPort (m : Memory) (i : Nat) (e : OpEntry) : Bool :=
  if e.runs then e.port == 0xFFFF
  else decide (e.port ≤ 63) &&
    (List.range i).all (fun j => (opEntry m j).type != e.type || (opEntry m j).port != e.port)

/-- Tasks per block (R44). -/
def taskTotal (m : Memory) : Nat := ((opList m).filter (fun x => x.2.runs)).foldl (fun n x => n + x.2.parts) 0

/-- The nearest instance before `i` in its flow that runs tasks. -/
def prevInFlow (m : Memory) (i : Nat) : Option Nat :=
  let first := (flowEntry m (opEntry m i).flow).first
  ((List.range (i - first)).reverse.map (fun j => first + j)).find? (fun j => (opEntry m j).runs)

/-- Instances whose last task instance `i` depends on (R43): the one before it in its flow and the producers of its
inputs that run tasks. -/
def opDeps (m : Memory) (i : Nat) : List Nat :=
  let prods := (opIns m (opEntry m i)).map (fun b => (bufEntry m b).producer)
  (prevInFlow m i).toList ++ prods.filter (fun j => (opEntry m j).runs)

/-- `f` applied `n` times. -/
def iter {α : Type} (n : Nat) (f : α → α) (x : α) : α :=
  match n with
  | 0 => x
  | k + 1 => iter k f (f x)

/-- Instances that every dependency chain clears, after one more round. -/
def clearRound (m : Memory) (done : List Nat) : List Nat :=
  done ++ (((opList m).filter (fun x => x.2.runs && !done.contains x.1)).map (fun x => x.1)).filter
    (fun i => (opDeps m i).all (fun j => done.contains j))

/-- Instances not cleared: they lie on a cycle or behind one. -/
def stuckOps (m : Memory) : List Nat :=
  let done := iter (hOps m) (clearRound m) []
  ((opList m).filter (fun x => x.2.runs && !done.contains x.1)).map (fun x => x.1)

/-- An instance can reach itself through dependencies among the stuck ones. -/
def onCycle (m : Memory) (stuck : List Nat) (i : Nat) : Bool :=
  let reach := iter stuck.length (fun l => (l ++ l.flatMap (opDeps m)).eraseDups) (opDeps m i)
  reach.contains i

/-- An instance on a dependency cycle, where there is one; which of several the device names is open (log entry 5). -/
def cycleOp (m : Memory) (k : Nat) : Option Nat :=
  match (stuckOps m).filter (onCycle m (stuckOps m)) with
  | [] => none
  | i :: l => some ((i :: l).getD (Config.freeNat k % (l.length + 1)) i)

/-- Footprint of R53. -/
def footprintOf (m : Memory) : Nat :=
  let bufs := (List.range (hBufs m)).map (bufEntry m)
  let words := bufs.foldl (fun n b => n + if b.kind = 1 then 4 else if b.kind = 2 then b.len + 4 else 2 * b.len) 0
  32 * (words + hBlobLen m / 32)

/-- 0x10: reserved fields and padding bytes are 0. -/
def chkZero (m : Memory) (len : Nat) : Bool :=
  imgN m 0x30 12 == 0 &&
    (List.range (hOps m)).all (fun i => imgN m (0x40 + 32 * i + 7) 1 == 0 && imgN m (0x40 + 32 * i + 0x1E) 2 == 0) &&
    (List.range (hBufs m)).all (fun b =>
      imgN m (hBufOff m + 16 * b + 1) 1 == 0 && imgN m (hBufOff m + 16 * b + 0x0C) 4 == 0) &&
    (List.range (hFlows m)).all (fun f => imgN m (hFlowOff m + 8 * f + 5) 3 == 0) &&
    imgN m (hBufOff m + 16 * hBufs m) (hFlowOff m - (hBufOff m + 16 * hBufs m)) == 0 &&
    imgN m (hFlowOff m + 8 * hFlows m) (hBlobOff m - (hFlowOff m + 8 * hFlows m)) == 0 &&
    imgN m (hBlobOff m + hBlobLen m) (len - (hBlobOff m + hBlobLen m)) == 0

/-- The checks of R54 in their order, each with its outcome: a failure's code and index; `k` counts free values. Check 0x0D
names only more than 12,288 tasks, so a graph of IN and OUT instances alone, with 0 tasks where R44 gives 1-12,288, passes
(DESIGN CHOICE, log entry 65). -/
def checkList (m : Memory) (len k : Nat) : List (Option (Nat × Nat)) :=
  let ops := opList m
  let bufs := (List.range (hBufs m)).map (fun b => (b, bufEntry m b))
  let flows := (List.range (hFlows m)).map (fun f => (f, flowEntry m f))
  let whole (c : Nat) (ok : Bool) : Option (Nat × Nat) := if ok then none else some (c, 0xFFFF)
  let named (c : Nat) (bad : Option Nat) : Option (Nat × Nat) := bad.map (fun i => (c, i))
  [ whole 1 (chkMagic m), whole 2 (chkLength m len), whole 3 (imgN m 0x3C 4 == imageCrc m len), whole 4 (chkCounts m),
    whole 5 (chkSections m len), named 6 (firstBad ops (fun _ e => e.typeOk)), named 7 (firstBad ops (chkConn m)),
    named 8 (firstBad bufs (chkBuf m)), named 9 (firstBad flows (chkFlow m)), named 10 (firstBad ops (chkPort m)),
    named 11 (firstBad ops (fun _ e => e.paramsOk (blobWord m e))),
    named 12 (firstBad ops (fun _ e => e.costOk (blobWord m e))), whole 13 (decide (taskTotal m ≤ 12288)),
    named 14 (cycleOp m k), whole 15 (imgN m 0x28 4 == footprintOf m),
    whole 16 (chkZero m len) ]

/-- The check code and index of R54: the first failure, or code 0. -/
def graphCheck (m : Memory) (len k : Nat) : Nat × Nat := ((checkList m len k).findSome? id).getD (0, 0xFFFF)

/-! ## Figures of a valid graph -/

/-- Sum over the tasks of (declared cost + 64) (R63). -/
def loadSum (m : Memory) : Nat :=
  ((opList m).filter (fun x => x.2.runs)).foldl (fun n x => n + x.2.parts * (x.2.cost + 64)) 0

/-- A load in 0.01 %, rounded down and limited to 10,000; 10,000 while E is 0 (R63, R64). -/
def loadPct (cycles e : Nat) : Nat := if e = 0 then 10000 else min 10000 (cycles * 10000 / (e * Config.blockCycles))

/-- Longest chain that ends with each instance (R65), after as many rounds as there are instances. -/
def chainEnds (m : Memory) : List Nat :=
  let w (e : OpEntry) : Nat := if e.runs then e.parts * (e.cost + 64) else 0
  let round (d : List Nat) : List Nat :=
    (opList m).map (fun x => w x.2 + ((opDeps m x.1).map (fun j => d.getD j 0)).foldl max 0)
  iter (hOps m) round (List.replicate (hOps m) 0)

/-- Slack of R65. -/
def slackOf (m : Memory) : Int := (Config.blockCycles : Int) - (((chainEnds m).foldl max 0 + 8192 : Nat) : Int)

/-- The instance whose graph port is output `o`, and the producer of its buffer. -/
def outInst (m : Memory) (o : Nat) : Option OpEntry :=
  ((opList m).find? (fun x => x.2.type == tOUT && x.2.port == o)).map (fun x => x.2)
def outBuf (m : Memory) (e : OpEntry) : Nat := opConn m e 0
def outProducer (m : Memory) (e : OpEntry) : Nat := (bufEntry m (outBuf m e)).producer
def outLimited (m : Memory) (e : OpEntry) : Bool := (opEntry m (outProducer m e)).type == tLIMIT

/-- Unlimited outputs (R62, R71). -/
def unlimitedOuts (m : Memory) : Nat :=
  ((opList m).filter (fun x => x.2.type == tOUT && !outLimited m x.2)).length

/-- The IN instance of graph input `i`. -/
def inInst (m : Memory) (i : Nat) : Option OpEntry :=
  ((opList m).find? (fun x => x.2.type == tIN && x.2.port == i)).map (fun x => x.2)

end Sys2Proof.Machine
end

