-- ==== Sys2Proof/Machine/Reals.lean ====
section
/-!
DEFINITION. The real functions that the spec names, in integer arithmetic of 128 fraction bits: powers of two and of ten,
exp, log2, sine and cosine; from them every value that a rule derives from a formula (R79, R89, R108, R114, R123, R217),
and the intervals within which a value of stated accuracy is free (R84, R114; log entry 6).
-/

namespace Sys2Proof.Machine

open Sys2Proof

/-! ## Fixed-point values of 128 fraction bits -/

/-- 1.0, ln 2 and π with 128 fraction bits. -/
def rOne : Int := 2 ^ 128
def rLn2 : Int := 235865763225513294137944142764154484399
def rPi : Int := 1069028584064966747859680373161870783300

/-- Product and quotient, rounded down. -/
def rMul (a b : Int) : Int := a * b / rOne
def rDiv (a b : Int) : Int := a * rOne / b

/-- Nested partial sums of the exponential series: 1 + x/1 (1 + x/2 (1 + … )). -/
def expNest (x : Int) : Nat → Int → Int
  | 0, acc => acc
  | n + 1, acc => expNest x n (rOne + rMul x acc / (n + 1 : Nat))

/-- 2^(n/d). -/
def rExp2 (n : Int) (d : Nat) : Int :=
  let q := n * rOne / (d : Int)
  let m := expNest (rMul (q % rOne) rLn2) 40 rOne
  let e := q / rOne
  if 0 ≤ e then m * 2 ^ e.toNat else m / 2 ^ (-e).toNat

/-- exp(−n/d). -/
def rExpNeg (n d : Nat) : Int := rExp2 (-((n : Int) * rOne * rOne / ((d : Int) * rLn2))) (2 ^ 128)

/-- Nested partial sums of the sine series of x² (start 1) and of the cosine series (start 0). -/
def trigNest (x2 : Int) (start : Nat) : Nat → Int → Int
  | 0, acc => acc
  | n + 1, acc => trigNest x2 start n (rOne - rMul x2 acc / ((2 * n + 1 + start) * (2 * n + 2 + start) : Nat))

/-- Sine and cosine of an angle from 0 to π/2. -/
def rSin (x : Int) : Int := rMul x (trigNest (rMul x x) 1 20 rOne)
def rCos (x : Int) : Int := trigNest (rMul x x) 0 20 rOne

/-- The angle π·n/d. -/
def rAngle (n d : Nat) : Int := rPi * n / (d : Int)

/-- Bits of log2 after the point: the mantissa m, from 1 to 2 with 160 fraction bits, is squared once per bit. -/
def logBits : Nat → Nat → Nat → Nat
  | 0, _, acc => acc
  | k + 1, m, acc =>
    let q := m * m / 2 ^ 160
    if 2 ^ 161 ≤ q then logBits k (q / 2) (2 * acc + 1) else logBits k q (2 * acc)

/-- log2(n/d) for positive n, rounded down to 60 fraction bits. -/
def rLog2 (n d : Nat) : Int :=
  let v := n * 2 ^ 256 / d
  let e := Nat.log2 v
  ((e : Int) - 256) * 2 ^ 60 + (logBits 60 (v * 2 ^ 160 / 2 ^ e) 0 : Nat)

/-- A value of 128 fraction bits rounded half-to-even, or toward minus infinity, to `f` fraction bits. -/
def rRound (v : Int) (f : Nat) : Int := roundHalfEven (v * 2 ^ f) (2 ^ 128)
def rFloor (v : Int) (f : Nat) : Int := v * 2 ^ f / rOne

/-! ## Roundings that the spec leaves open -/

/-- The exact quotient n/d where it has `f` fraction bits; else one of its two neighbours, which is open: the private
formats of R85, R104, R106, R112 and R121 (log entry 6). -/
def privateRound (n : Int) (d f : Nat) : Int :=
  let q := n * 2 ^ f / (d : Int)
  if n * 2 ^ f % (d : Int) = 0 then q else q + b2n (Config.roundUp n d f)

/-- exp(−n/d) in C31: one of the two neighbours of the exact value, at most 1 − 2^−31 (R89, R121; log entry 6). -/
def expC31 (n d : Nat) : Int := min (2 ^ 31 - 1) (rFloor (rExpNeg n d) 31 + b2n (Config.roundUp n d 31))

/-! ## The engine's units (R84) -/

/-- The log unit: log2(n/d) as D24, free within ±2^−22 of the exact value. -/
def logUnit (n d : Nat) : Int :=
  let v := rLog2 n d
  clampInt (-((2 ^ 38 - v) / 2 ^ 36)) ((v + 2 ^ 38) / 2 ^ 36) (Config.log2 n d)

/-- The exp unit: a value of `f` fraction bits, free within a relative error of 2^−22 of the exact one; where the format holds
no such value, one of the two nearest. -/
def expUnit (v : Int) (f : Nat) (free : Int) : Int :=
  let e := v / 2 ^ 22
  let lo := -(rFloor (e - v) f)
  let hi := rFloor (v + e) f
  if lo ≤ hi then clampInt lo hi free else clampInt (rFloor v f) (-(rFloor (-v) f)) free

/-- R79: 10^(x/20) for x = n/2^f dB, computed as 2^(x/6.020599913). -/
def dbLinear (n : Int) (f : Nat) : Int := rExp2 (n * 1000000000) (6020599913 * 2 ^ f)

/-- R84, R106: the linear gain of x = n/2^f dB in G23, from the exp unit. Its argument keeps all its fraction bits (DESIGN
CHOICE, log entry 79). -/
def dbToG23 (n : Int) (f : Nat) : Int := min (2 ^ 31 - 1) (expUnit (dbLinear n f) 23 (Config.dbToG23 n f))

/-- R84, R122, R330: the linear gain of a reduction of −n/2^24 dB in C31, from the exp unit; exactly 1 − 2^−31 for 0 dB. -/
def dbToC31 (n : Int) : Int := clampInt 0 (2 ^ 31 - 1) (expUnit (dbLinear n 24) 31 (Config.dbToC31 n))

/-- R123: 10^(c/20) in C31, rounded toward zero, for a D24 word c of at most 0 dB. -/
def ceilC31 (c : Int) : Nat := (min (2 ^ 31 - 1) (rFloor (dbLinear c 24) 31)).toNat

/-- R89: α = exp(−1/(0.096 τ)) in C31, τ in µs. -/
def alphaOf (us : Nat) : Int := expC31 1000 (96 * us)

/-- R121: exp(−250 µs/τ) in C31, τ in µs. -/
def alphaBlock (us : Nat) : Int := expC31 250 us

/-! ## Sines -/

/-- sin(2πφ/2^32), exact to 128 fraction bits. -/
def sineOf (phi : Nat) : Int :=
  let r := rAngle (phi % 2 ^ 30) (2 ^ 31)
  match phi / 2 ^ 30 % 4 with
  | 0 => rSin r
  | 1 => rCos r
  | 2 => -(rSin r)
  | _ => -(rCos r)

/-- R114: the sine in C31, free within an error of 2^−29 and at most 1 − 2^−31: the spec gives it no format of its own (DESIGN
CHOICE, log entry 79). -/
def sineUnit (phi : Nat) : Int :=
  let v := sineOf phi
  clampInt (max (-(2 ^ 31)) (-(rFloor (2 ^ 99 - v) 31))) (min (2 ^ 31 - 1) (rFloor (v + 2 ^ 99) 31)) (Config.sine phi)

/-- R217: the equal-power weights of frame j of N, new and old: sine and cosine of π(j + 1)/2N, each rounded half-to-even
to F31. -/
def equalPower (j n : Nat) : Nat × Nat :=
  let x := rAngle (j + 1) (2 * n)
  ((rRound (rSin x) 31).toNat, (rRound (rCos x) 31).toNat)

/-! ## Crossover sections (R108) -/

/-- A coefficient in C30. -/
def toC30 (v : Int) : Int := clampInt (sMin 32) (sMax 32) (rRound v 30)

/-- 1/Q of the second-order Butterworth sections: of order 2 (k = 0), and of order 4 (k = 1, 2). -/
def butterDamp (k : Nat) : Int :=
  2 * rCos (match k with
    | 0 => rAngle 1 4
    | 1 => rAngle 1 8
    | _ => rAngle 3 8)

/-- b0, b1, b2, a1, a2 of a second-order section by the bilinear transform with K = tan(π f/fs): low-pass (part 0),
high-pass (part 1) or allpass (part 2), with 1/Q = `q`; 128 fraction bits. -/
def secondOrderReal (part : Nat) (k q : Int) : List Int :=
  let k2 := rMul k k
  let d := rOne + rMul k q + k2
  let a1 := rDiv (2 * (k2 - rOne)) d
  let a2 := rDiv (rOne - rMul k q + k2) d
  let b := match part with
    | 0 => (let x := rDiv k2 d; [x, 2 * x, x])
    | 1 => (let x := rDiv rOne d; [x, -(2 * x), x])
    | _ => [a2, a1, rOne]
  b ++ [a1, a2]

/-- The same in C30 (R108). -/
def secondOrder (part : Nat) (k q : Int) : List Int := (secondOrderReal part k q).map toC30

/-- The same for LR2: two cascaded first-order sections as one, and the first-order allpass. -/
def firstOrder (part : Nat) (k : Int) : List Int :=
  let d := rOne + k
  let a := rDiv (k - rOne) d
  let twice (x : Int) (sign : Int) : List Int := [rMul x x, sign * 2 * rMul x x, rMul x x, 2 * a, rMul a a]
  (match part with
    | 0 => twice (rDiv k d) 1
    | 1 => twice (rDiv rOne d) (-1)
    | _ => [a, rOne, 0, a, 0]).map toC30

/-- R108: the coefficients of section `i` of a crossover point at `f` (0.01 Hz). A coefficient rounds half-to-even to C30,
and the sections of LR8 alternate Q = 0.5412 and 1.3066 (log entry 59). -/
def xoverSection (f variant part i : Nat) : List Int :=
  let x := rAngle f 9600000
  let k := rDiv (rSin x) (rCos x)
  match variant with
  | 0 => firstOrder part k
  | 1 => secondOrder part k (butterDamp 0)
  | _ => secondOrder part k (butterDamp (1 + i % 2))

end Sys2Proof.Machine
end

