-- ==== Sys2Proof/Machine/Operators.lean ====
section
/-!
DEFINITION. The operators of the catalogue (R81-R85, R93-R124) as functions of a task's inputs, its STATE and LINE
contents, its parameter words and the sense record: what one partition writes and how many saturations it counts. Values
the spec keeps in a format private to an operator take one of the two neighbours of the exact value (log entry 6).
-/

namespace Sys2Proof.Machine

open Sys2Proof

/-! ## Arithmetic common to every operator -/

/-- Limit to a signed range of `n` bits, with 1 when that changed the value (R39, R81). -/
def satTo (n : Nat) (v : Int) : Int × Nat :=
  if v < sMin n then (sMin n, 1) else if sMax n < v then (sMax n, 1) else (v, 0)

/-- One multiply-add into the 80-bit accumulator, which stops at its ends (R81). -/
def mac (a : Int × Nat) (x c : Int) : Int × Nat :=
  let r := satTo 80 (a.1 + x * c)
  (r.1, a.2 + r.2)

/-- A whole sum of products in one accumulator. -/
def macs (l : List (Int × Int)) : Int × Nat := l.foldl (fun a p => mac a p.1 p.2) (0, 0)

/-- A value's residue modulo 15 (R159). -/
def residue (v : Int) : Nat := (v % 15).toNat

/-- An operator engine's accumulator with the residue tracked beside it, and whether a check has failed (R159). -/
structure Tracked where
  acc : Int
  res : Nat
  bad : Bool
  deriving DecidableEq, Repr

/-- The check of R159: the exact value's residue against the tracked one. -/
def Tracked.check (t : Tracked) (exact : Int) : Tracked := { t with bad := t.bad || residue exact != t.res }

/-- One multiply-accumulate of R81 with its residue (R159): `err` is what a fault of the multiplier, the adder or the
accumulator adds to the exact value, 0 in a sound unit. A saturation is checked, and the residue becomes that of the
saturated value. -/
def Tracked.mac (t : Tracked) (x c err : Int) : Tracked :=
  let exact := t.acc + x * c + err
  let u := { t with acc := exact, res := (t.res + residue x * residue c) % 15 }
  if (satTo 80 exact).2 = 0 then u
  else { u.check exact with acc := (satTo 80 exact).1, res := residue (satTo 80 exact).1 }

/-- The check at a store (R82, R159): a mismatch is a RESIDUE fault. -/
def Tracked.store (t : Tracked) : Tracked := t.check t.acc

/-- Store an accumulator of `k` fraction bits as W40 (R82). -/
def storeW (a : Int × Nat) (k : Nat) : Int × Nat :=
  let r := satTo 40 (roundHalfEven a.1 (2 ^ (k - 31)))
  (r.1, a.2 + r.2)

/-- The frames of a block. -/
def frames : List Nat := List.range 24

/-- The sample `d` frames before frame `f`: from the block's samples, then from the history, newest first. -/
def tap (xs hist : List Int) (f d : Nat) : Int :=
  if d ≤ f then xs.getD (f - d) 0 else hist.getD (d - f - 1) 0

/-- A frame ahead for d = −1 in R101: the sample `d` frames before, `d` possibly −1. -/
def tapZ (xs hist : List Int) (f : Nat) (d : Int) : Int :=
  if d < 0 then xs.getD (f + (-d).toNat) 0 else tap xs hist f d.toNat

/-- The weight (j + 1)/n of R80 in F31. The spec names no rounding of the weights of R102, R60 and R177: they round
half-to-even, as R217 states it for a route's (DESIGN CHOICE, log entry 60). -/
def rampWeight (j n : Nat) : Nat := if n ≤ j + 1 then 2 ^ 31 else (roundHalfEven ((j + 1) * 2 ^ 31) n).toNat

/-- Run a step over the samples of a block: outputs, last state and saturations. -/
def runFrames {σ : Type} (step : σ → Int → (Int × Nat) × σ) (st : σ) (xs : List Int) : List Int × σ × Nat :=
  xs.foldl (fun acc x =>
    let r := step acc.2.1 x
    (acc.1 ++ [r.1.1], r.2, acc.2.2 + r.1.2)) ([], st, 0)

/-! ## A task's surroundings and its result -/

/-- What a task reads. -/
structure OpCtx where
  e       : OpEntry
  /-- blob words -/
  w       : Nat → Nat
  /-- an LI word in a frame of this block (R213) -/
  li      : Nat → Nat → Int
  /-- the partition -/
  part    : Nat
  /-- 24 samples of each input -/
  ins     : List (List Int)
  /-- committed STATE values -/
  st      : List Int
  /-- LINE history per channel, newest sample first -/
  hist    : List (List Int)
  /-- no task of this instance has retired since the graph took over -/
  fresh   : Bool
  /-- tap delays that a commit changed in this block, with the delay before it (R102) -/
  moved   : Nat → Option Nat
  /-- METER: word 2 changed in this block (R111) -/
  cleared : Bool
  /-- PROTECT: the sense record, if valid (R121) -/
  sense   : Option (List SensePair)

/-- What a task writes. -/
structure OpRes where
  outs : List (List Int)
  st   : List Int
  sats : Nat
  /-- PROTECT's events: 0 reduction begins, 1 mute begins (R122) -/
  evs  : List Nat := []

/-- Signed value of a blob word. -/
def OpCtx.sw (c : OpCtx) (i : Nat) : Int := toSigned 32 (c.w i)

/-- Input `i` of a task. -/
def OpCtx.inp (c : OpCtx) (i : Nat) : List Int := c.ins.getD i []

/-- Results per output: samples with their saturation counts. -/
def gather (outs : List (List (Int × Nat))) : List (List Int) × Nat :=
  (outs.map (fun o => o.map (fun y => y.1)), outs.foldl (fun n o => o.foldl (fun n y => n + y.2) n) 0)

/-! ## GAIN, MIX, BIQ, FIR -/

/-- R93. -/
def opGain (c : OpCtx) : OpRes :=
  let r := gather ((List.range c.e.nOut).map (fun i =>
    frames.map (fun f => storeW (mac (0, 0) ((c.inp i).getD f 0) (c.li i f)) 54)))
  { outs := r.1, st := c.st, sats := r.2 }

/-- R94. -/
def opMix (c : OpCtx) : OpRes :=
  let m := c.e.nIn
  let r := gather ((List.range c.e.nOut).map (fun j =>
    frames.map (fun f =>
      storeW (macs ((List.range m).map (fun i => ((c.inp i).getD f 0, c.li (j * m + i) f)))) 54)))
  { outs := r.1, st := c.st, sats := r.2 }

/-- One section of R95, or of R96 with error feedback, on one sample; the state is x1, x2, y1, y2 and the discarded part,
an integer of 61 fraction bits (DESIGN CHOICE: R96 gives that value no format in its STATE word; log entry 61). -/
def biqStep (ef : Bool) (co : List Int) (st : List Int) (x : Int) : (Int × Nat) × List Int :=
  let x1 := st.getD 0 0
  let x2 := st.getD 1 0
  let y1 := st.getD 2 0
  let y2 := st.getD 3 0
  let a0 := macs [(x, co.getD 0 0), (x1, co.getD 1 0), (x2, co.getD 2 0), (y1, -(co.getD 3 0)), (y2, -(co.getD 4 0))]
  let a := if ef then (let r := satTo 80 (a0.1 + st.getD 4 0); (r.1, a0.2 + r.2)) else a0
  let y := storeW a 61
  (y, if ef then [x, x1, y.1, y1, a.1 - roundHalfEven a.1 (2 ^ 30) * 2 ^ 30] else [x, x1, y.1, y1])

/-- A cascade of sections: coefficients and states, each section's output feeding the next. -/
def biqCascade (ef : Bool) : List (List Int × List Int) → List Int → List Int × List Int × Nat
  | [], xs => (xs, [], 0)
  | (co, st) :: rest, xs =>
    let r := runFrames (biqStep ef co) st xs
    let q := biqCascade ef rest r.1
    (q.1, r.2.1 ++ q.2.1, r.2.2 + q.2.2)

/-- `n` consecutive groups of `k` values. -/
def groups (k : Nat) (l : List Int) : Nat → List (List Int)
  | 0 => []
  | n + 1 => l.take k :: groups k (l.drop k) n

/-- The five signed words from word `o`. -/
def OpCtx.section (c : OpCtx) (o : Nat) : List Int := (List.range 5).map (fun i => c.sw (o + i))

/-- R95, R96. -/
def opBiq (c : OpCtx) : OpRes :=
  let s := c.w 0
  let ef := c.e.variant == 1
  let sts := groups (if ef then 5 else 4) c.st s
  let r := biqCascade ef ((List.range s).map (fun j => (c.section (1 + 5 * j), sts.getD j []))) (c.inp 0)
  { outs := [r.1], st := r.2.1, sats := r.2.2 }

/-- R98, R99: one partition; partial sums stay in STATE until the last. -/
def opFir (c : OpCtx) : OpRes :=
  let n := c.w 0
  let p := cdiv n 512
  let lo := 512 * c.part
  let cnt := min 512 (n - lo)
  let xs := c.inp 0
  let h := c.hist.getD 0 []
  let sums := frames.map (fun f =>
    (List.range cnt).foldl (fun a t => mac a (tap xs h f (lo + t)) (c.sw (1 + lo + t)))
      (if c.part = 0 then 0 else c.st.getD f 0, 0))
  if c.part + 1 < p then
    { outs := [], st := sums.map (fun a => a.1), sats := sums.foldl (fun k a => k + a.2) 0 }
  else
    let r := gather [sums.map (fun a => storeW a 62)]
    { outs := r.1, st := c.st, sats := r.2 }

/-! ## DELAY and BEAMSUM -/

/-- The weights of R101 for μ = u/256, in C30: h₋₁, h₀, h₁, h₂. -/
def lagrange (u : Nat) : List Int :=
  let a : Int := u
  let den := 256 ^ 3 * 6
  let r (n : Int) : Int := roundHalfEven (n * 2 ^ 30) den
  [ r (-(a * (a - 256) * (a - 512))), r (3 * (a + 256) * (a - 256) * (a - 512)), r (-(3 * (a + 256) * a * (a - 512))),
    r ((a + 256) * a * (a - 256)) ]

/-- The four-point sum of R101 for delay `d` in 1/256 frames, weights scaled by `scale` from C30. -/
def lagrangeSum (ws : List Int) (xs hist : List Int) (f d : Nat) : List (Int × Int) :=
  let n : Int := (d / 256 : Nat)
  [ (tapZ xs hist f (n - 1), ws.getD 0 0), (tapZ xs hist f n, ws.getD 1 0), (tapZ xs hist f (n + 1), ws.getD 2 0),
    (tapZ xs hist f (n + 2), ws.getD 3 0) ]

/-- Mix an old and a new sum of `k` fraction bits with the weights of R102 and round once. -/
def fadeStore (f k : Nat) (old new : Int) : Int × Nat :=
  let w := rampWeight f 24
  storeW (old * (2 ^ 31 - w) + new * w, 0) (k + 31)

/-- R100-R102. -/
def opDelay (c : OpCtx) : OpRes :=
  let xs := c.inp 0
  let h := c.hist.getD 0 []
  let sum (f d : Nat) : Int × Nat :=
    if c.e.variant = 0 then (tap xs h f (d / 256) * 2 ^ 30, 0) else macs (lagrangeSum (lagrange (d % 256)) xs h f d)
  let r := gather ((List.range c.e.nOut).map (fun i =>
    let d := c.w (1 + i)
    frames.map (fun f => match if c.fresh then none else c.moved i with
      | none => storeW (sum f d) 61
      | some d0 => fadeStore f 61 (sum f d0).1 (sum f d).1)))
  { outs := r.1, st := (List.range c.e.nOut).map (fun i => ((c.w (1 + i) : Nat) : Int)), sats := r.2 }

/-- R116, R117. -/
def opBeam (c : OpCtx) : OpRes :=
  let m := c.e.nIn
  let sum (f : Nat) (d : Nat → Nat) : Int :=
    (macs ((List.range m).flatMap (fun i =>
      let d8 := d i * 32
      let ws := (lagrange (d8 % 256)).map (fun h => roundHalfEven (c.li (m + i) f * h) (2 ^ 30))
      lagrangeSum ws (c.inp i) (c.hist.getD i []) f d8))).1
  let changed := !c.fresh && (List.range m).any (fun i => (c.moved i).isSome)
  let r := gather [frames.map (fun f =>
    if changed then fadeStore f 54 (sum f (fun i => (c.moved i).getD (c.w i))) (sum f c.w)
    else storeW (sum f c.w, 0) 54)]
  { outs := r.1, st := (List.range m).map (fun i => ((c.w i : Nat) : Int)), sats := r.2 }

/-! ## Detectors, DRC, GATE, METER -/

/-- The lowest level (R84). -/
def lowLevel : Frac := ⟨-128, 1⟩

/-- R104: 20·log10 of |x|, in dB: 6.020599913 dB per octave of the log unit's result, not below −128 dB (R84). -/
def peakLevel (p : Nat) : Frac :=
  if p = 0 then lowLevel else lowLevel.max ⟨6020599913 * logUnit p (2 ^ 31), 10 ^ 9 * 2 ^ 24⟩

/-- R104: 10·log10 of twice a mean square with 62 fraction bits, as 3.010299957·(log2 e + 1). -/
def rmsLevel (e : Nat) : Frac :=
  if e = 0 then lowLevel else lowLevel.max ⟨3010299957 * (logUnit e (2 ^ 62) + 2 ^ 24), 10 ^ 9 * 2 ^ 24⟩

/-- A mean square after one sample (R104, R112): e + (1 − α)(x² − e). R104 calls it unrounded in a private format of 40 bits: the
model keeps 62 fraction bits (DESIGN CHOICE, log entry 79). -/
def msStep (alpha e x : Int) : Int :=
  privateRound (e * 2 ^ 31 + (2 ^ 31 - alpha) * (x * x - e)) (2 ^ 31 * 2 ^ 62) 62

/-- A smoothed dB value with 32 fraction bits that follows a target in dB (R106, R110): g + (1 − α)(G − g). -/
def smoothDb (alpha g : Int) (target : Frac) : Int :=
  let v := (fx g 32).add ((fx (2 ^ 31 - alpha) 31).mul (target.sub (fx g 32)))
  privateRound v.n v.d 32

/-- Inputs that the detector sees (R103). -/
def OpCtx.detected (c : OpCtx) : List (List Int) := if c.e.keyed then [c.inp c.e.nOut] else c.ins

/-- Detector of R104 in frame `f`: mean squares after the frame and the level. -/
def OpCtx.detect (c : OpCtx) (rms : Bool) (alpha : Int) (es : List Int) (f : Nat) : List Int × Frac :=
  let xs := c.detected.map (fun l => l.getD f 0)
  let es' := if rms then List.zipWith (fun e x => msStep alpha e x) es xs else es
  let level := if rms then rmsLevel (es'.foldl (fun m e => max m e.toNat) 0)
    else peakLevel (xs.foldl (fun m x => max m x.natAbs) 0)
  (es', level)

/-- R105: the target gain in dB, not rounded, from the level and the D24 words T, K, Rg and the G23 word R. -/
def drcTarget (variant : Nat) (l : Frac) (t r k rg : Int) : Frac :=
  let dl := l.sub (fx t 24)
  let two := dl.add dl
  let kk := fx k 24
  let sigma : Frac := (Frac.ofInt 1).sub (Frac.mk (2 ^ 23) r.toNat)
  let g : Frac :=
    if variant = 0 then
      if two.lt (fx (-k) 24) then ⟨0, 1⟩
      else if !kk.lt two && decide (0 < k) then
        -- −σ(δ + K/2)²/(2K) = −σ(2δ + K)²/(8K)
        (Frac.ofInt (-1)).mul ((sigma.mul ((two.add kk).mul (two.add kk))).div ((Frac.ofInt 8).mul kk))
      else (Frac.ofInt (-1)).mul (sigma.mul dl)
    else if variant = 1 then
      if dl.n < 0 then ((Frac.mk r (2 ^ 23)).sub (Frac.ofInt 1)).mul dl else ⟨0, 1⟩
    else (Frac.ofInt 0).min ((Frac.ofInt (-1)).mul dl)
  (fx (-rg) 24).max g

/-- R103-R106. STATE: g, then one mean square per detected input. -/
def opDrc (c : OpCtx) : OpRes :=
  let rms := c.w 7 == 1 && c.e.variant != 2
  let la := c.w 9
  let step (acc : List (List (Int × Nat)) × Int × List Int) (f : Nat) : List (List (Int × Nat)) × Int × List Int :=
    let d := c.detect rms (alphaOf (c.w 8)) acc.2.2 f
    let t := drcTarget c.e.variant d.2 (c.sw 0) (c.sw 1) (c.sw 2) (c.sw 3)
    let g := acc.2.1
    let g' := smoothDb (if t.lt (fx g 32) then alphaOf (c.w 5) else alphaOf (c.w 6)) g t
    let lin := dbToG23 (g' + c.sw 4 * 2 ^ 8) 32
    let ys := (List.range c.e.nOut).map (fun i =>
      storeW (mac (0, 0) (tap (c.inp i) (c.hist.getD i []) f la) lin) 54)
    (acc.1 ++ [ys], g', d.1)
  let es0 := (List.range c.detected.length).map (fun i => c.st.getD (1 + i) 0)
  let r := frames.foldl step ([], c.st.getD 0 0, es0)
  let o := gather ((List.range c.e.nOut).map (fun i => r.1.map (fun ys => ys.getD i (0, 0))))
  { outs := o.1, st := r.2.1 :: r.2.2, sats := o.2 }

/-- R110: the gate's open flag and hold count after a frame with level `l`. A hold of 0, whose count is 0 as soon as the gate
opens, closes in the first frame below T_close, as a hold of 1 does (DESIGN CHOICE, log entry 62). -/
def gateStep (tOpen tClose : Int) (l : Frac) (hold : Nat) (isOpen : Bool) (count : Nat) : Bool × Nat :=
  if !isOpen then if l.lt (fx tOpen 24) then (false, count) else (true, hold)
  else if !l.lt (fx tClose 24) then (true, hold)
  else if count ≤ 1 then (false, 0) else (true, count - 1)

/-- R109, R110. STATE: g, open flag, hold count, then the mean squares. -/
def opGate (c : OpCtx) : OpRes :=
  let rms := c.w 6 == 1
  let step (acc : List (List (Int × Nat)) × (Int × Bool × Nat) × List Int) (f : Nat) :
      List (List (Int × Nat)) × (Int × Bool × Nat) × List Int :=
    let d := c.detect rms (alphaOf (c.w 7)) acc.2.2 f
    let g := acc.2.1.1
    let o := gateStep (c.sw 0) (c.sw 1) d.2 (c.w 3) acc.2.1.2.1 acc.2.1.2.2
    let t : Frac := if o.1 then ⟨0, 1⟩ else fx (-(c.sw 2)) 24
    let g' := smoothDb (if (fx g 32).lt t then alphaOf (c.w 4) else alphaOf (c.w 5)) g t
    let ys := (List.range c.e.nOut).map (fun i =>
      storeW (mac (0, 0) ((c.inp i).getD f 0) (dbToG23 g' 32)) 54)
    (acc.1 ++ [ys], (g', o.1, o.2), d.1)
  let es0 := (List.range c.detected.length).map (fun i => c.st.getD (3 + i) 0)
  let r := frames.foldl step ([], (c.st.getD 0 0, c.st.getD 1 0 == 1, (c.st.getD 2 0).toNat), es0)
  let o := gather ((List.range c.e.nOut).map (fun i => r.1.map (fun ys => ys.getD i (0, 0))))
  let q := r.2.1
  { outs := o.1, st := [q.1, (b2n q.2.1 : Nat), (q.2.2 : Nat)] ++ r.2.2, sats := o.2 }

/-- R112: the six values of a METER channel after one sample, with the saturations of its two W40 stores (R39). -/
def meterStep (am ap : Int) (v : List Int) (x : Int) : List Int × Nat :=
  let a : Int := (x.natAbs : Nat)
  let ms := msStep am (v.getD 5 0) x
  let level := rmsLevel ms.toNat
  let top := satTo 40 (max (v.getD 0 0) a)
  let decay := satTo 40 (max a (roundHalfEven (ap * v.getD 1 0) (2 ^ 31)))
  ([ top.1, decay.1, privateRound level.n level.d 32,
    min (2 ^ 40 - 1) (v.getD 3 0 + if (2 ^ 31 : Int) < a then 1 else 0), min (2 ^ 40 - 1) (v.getD 4 0 + 1), ms ],
    top.2 + decay.2)

/-- R111, R112. -/
def opMeter (c : OpCtx) : OpRes :=
  let am := alphaOf (c.w 0)
  let ap := alphaOf (c.w 1)
  let chans := (List.range c.e.nIn).map (fun i =>
    let v0 := if c.cleared then List.replicate 6 0 else (c.st.drop (6 * i)).take 6
    (c.inp i).foldl (fun acc x =>
      let r := meterStep am ap acc.1 x
      (r.1, acc.2 + r.2)) (v0, 0))
  { outs := [], st := chans.flatMap (fun r => r.1), sats := chans.foldl (fun n r => n + r.2) 0 }

/-! ## TONE -/

/-- One step of the LFSR of R115. -/
def lfsrStep (v : Nat) : Nat := if v % 2 = 1 then Nat.xor (v / 2) 0x80200003 else v / 2

/-- R114: the phase increment. -/
def toneInc (mHz : Nat) : Nat := (roundHalfEven (mHz * 2 ^ 32) 96000000).toNat

/-- R113-R115. STATE: the phase or the LFSR; a fresh instance starts at word 2. -/
def opTone (c : OpCtx) : OpRes :=
  let v0 := if c.fresh then c.w 2 else (c.st.getD 0 0).toNat
  let step (acc : List (Int × Nat) × Nat) (f : Nat) : List (Int × Nat) × Nat :=
    if c.e.variant = 0 then
      (acc.1 ++ [storeW (mac (0, 0) (sineUnit acc.2) (c.li 1 f)) 62], (acc.2 + toneInc (c.w 0)) % 2 ^ 32)
    else
      let v := iter 32 lfsrStep acc.2
      (acc.1 ++ [storeW (mac (0, 0) (toSigned 32 v) (c.li 1 f)) 62], v)
  let r := frames.foldl step ([], v0)
  let o := gather [r.1]
  { outs := o.1, st := [(r.2 : Int)], sats := o.2 }

/-! ## XOVER -/

/-- R108: sections of LP_j, HP_j and AP_j by variant. -/
def xoverSplit (variant : Nat) : Nat × Nat := ([1, 2, 4].getD variant 0, [1, 1, 2].getD variant 0)

/-- A run of `n` sections of crossover point `j` (part 0 LP, 1 HP, 2 AP) from a state list; sections run as BIQ
variant 1 and the state that is left over goes on to the next run. -/
def xoverRun (variant freq part n : Nat) (st xs : List Int) : List Int × List Int × List Int × Nat :=
  let r := biqCascade true ((List.range n).map (fun k =>
    (xoverSection freq variant part k, (st.drop (5 * k)).take 5))) xs
  (r.1, r.2.1, st.drop (5 * n), r.2.2)

/-- Pass a band through the allpasses of the points in `fs`. -/
def xoverAllpass (variant : Nat) : List Nat → List Int → List Int → List Int × List Int × List Int × Nat
  | [], st, xs => (xs, [], st, 0)
  | f :: fs, st, xs =>
    let r := xoverRun variant f 2 (xoverSplit variant).2 st xs
    let q := xoverAllpass variant fs r.2.2.1 r.1
    (q.1, r.2.1 ++ q.2.1, q.2.2.1, r.2.2.2 + q.2.2.2)

/-- R107: bands from h over the remaining crossover frequencies. -/
def xoverBands (variant : Nat) : List Nat → List Int → List Int → List (List Int) × List Int × Nat
  | [], _, h => ([h], [], 0)
  | f :: fs, st, h =>
    let n := (xoverSplit variant).1
    let lp := xoverRun variant f 0 n st h
    let ap := xoverAllpass variant fs lp.2.2.1 lp.1
    let hp := xoverRun variant f 1 n ap.2.2.1 h
    let h' := if variant = 0 then hp.1.map (fun x => (satTo 40 (-x)).1) else hp.1
    let q := xoverBands variant fs hp.2.2.1 h'
    let inv := if variant = 0 then (hp.1.filter (fun x => x == sMin 40)).length else 0
    (ap.1 :: q.1, lp.2.1 ++ ap.2.1 ++ hp.2.1 ++ q.2.1, lp.2.2.2 + ap.2.2.2 + hp.2.2.2 + inv + q.2.2)

/-- R107, R108. -/
def opXover (c : OpCtx) : OpRes :=
  let r := xoverBands c.e.variant ((List.range (c.e.nOut - 1)).map c.w) c.st (c.inp 0)
  { outs := r.1, st := r.2.1, sats := r.2.2 }

/-! ## LIMIT, PROTECT and the guard limiter -/

/-- R124 step 3: one release step of m′ in F31 with α in C31. -/
def releaseStep (alpha : Int) (m : Nat) : Nat :=
  (roundHalfEven ((m : Int) * 2 ^ 31 + (2 ^ 31 - alpha) * (2 ^ 31 - m)) (2 ^ 31)).toNat

/-- min(1, num/den) rounded toward zero to F31, with 0 in the denominator giving 1. -/
def ratioF31 (num den : Nat) : Nat := if den ≤ num then 2 ^ 31 else num * 2 ^ 31 / den

/-- R123: the linear ceiling. -/
def limitCeil (c : Int) : Nat := if c = 0 then 0x7FFFFFFF else ceilC31 c

/-- R124: STATE holds a gain of F31 as its complement, so zero stands for unity. -/
def complement (l : List Nat) : List Int := l.map (fun v => 2 ^ 31 - (v : Int))
def ofComplement (l : List Int) : List Nat := l.map (fun v => min (2 ^ 31) (2 ^ 31 - v).toNat)

/-- R124 steps 2 to 4: the windows and the gain of a frame, from its r. -/
def windowGain (d : Nat) (alpha : Int) (w : Window) (r : Nat) : Window × Nat :=
  let rs := (r :: w.r).take (d + 1)
  let m := rs.foldl min (2 ^ 31)
  let ms := (min m (releaseStep alpha (w.m'.getD 0 (2 ^ 31))) :: w.m').take (d + 1)
  (⟨(m :: w.m).take (d + 1), ms, rs⟩, (ms.foldl (fun a b => a + b) 0) / (d + 1))

/-- R124: what STATE keeps: the histories of m and m′ as complements, the running sum of 1 − m′, and each frame's r, without which
the next m does not follow (DEDUCED, log entry 63). -/
def historyState (w : Window) : List Int :=
  complement w.m ++ complement w.m' ++ [(complement w.m').foldl (fun a b => a + b) 0] ++ complement w.r

/-- The windows over D + 1 frames of the values of `historyState`. -/
def windowOf (d : Nat) (l : List Int) : Window :=
  ⟨ofComplement (l.take (d + 1)), ofComplement ((l.drop (d + 1)).take (d + 1)),
   ofComplement ((l.drop (2 * (d + 1) + 1)).take (d + 1))⟩

/-- R123, R124. STATE: `historyState` over D + 1 frames. -/
def opLimit (c : OpCtx) : OpRes :=
  let d := c.w 1
  let lin := limitCeil (c.sw 0)
  let alpha := alphaOf (c.w 2)
  let step (acc : List (List (Int × Nat)) × Window) (f : Nat) : List (List (Int × Nat)) × Window :=
    let p := (c.ins.map (fun l => (l.getD f 0).natAbs)).foldl max 0
    let g := windowGain d alpha acc.2 (ratioF31 lin p)
    let ys := (List.range c.e.nOut).map (fun i =>
      let y := storeW (tap (c.inp i) (c.hist.getD i []) f d * g.2, 0) 62
      let z := clampInt (-(lin : Int)) lin y.1
      (z, y.2 + if z = y.1 then 0 else 1))
    (acc.1 ++ [ys], g.1)
  let r := frames.foldl step ([], windowOf d c.st)
  let o := gather ((List.range c.e.nOut).map (fun i => r.1.map (fun ys => ys.getD i (0, 0))))
  { outs := o.1, st := historyState r.2, sats := o.2 }

/-- A K23 word as a fraction. -/
def OpCtx.k23 (c : OpCtx) (i : Nat) : Frac := fx (c.sw i) 23

/-- A private value with 32 fraction bits as a fraction, and back. -/
def q32 (v : Int) : Frac := fx v 32
def toQ32 (a : Frac) : Int := privateRound a.n a.d 32

/-- The thermal part of PROTECT's STATE (R121, R122): coil and magnet temperatures (32 fraction bits), g_t at the block's
end (F31), G_t (D24), muted, mean square of the last output block (62 fraction bits), filtered voltage and current. -/
structure Thermal where
  tc    : Int
  tm    : Int
  gEnd  : Int
  gt    : Int
  muted : Bool
  e     : Int
  vf    : Int
  cf    : Int

/-- R121 step 2: the power in W. -/
def OpCtx.power (c : OpCtx) (t : Thermal) : Frac :=
  match c.sense with
  | some l => ⟨l.foldl (fun a p => a + p.v * p.i) 0, 24 * 2 ^ 46⟩
  | none =>
    let rNow := (c.k23 2).mul ((Frac.ofInt 1).add ((fx (c.sw 4) 31).mul ((q32 t.tc).sub (c.k23 3))))
    (((c.k23 1).mul (c.k23 1)).mul ⟨t.e, 2 ^ 62⟩).div rNow

/-- R121 step 3: low-passed pairs of the record with the filter values after it. -/
def OpCtx.lowPassed (c : OpCtx) (t : Thermal) (l : List SensePair) : List (Int × Int) × Int × Int :=
  let a := clampInt 0 (2 ^ 31 - 1) (Config.lowPass (c.w 16))
  let lp (y x : Int) : Int := privateRound (y * a + (2 ^ 31 - a) * x) (2 ^ 31 * 2 ^ 23) 23
  l.foldl (fun acc p =>
    let v := lp acc.2.1 p.v
    let i := lp acc.2.2 p.i
    (acc.1 ++ [(v, i)], v, i)) ([], t.vf, t.cf)

/-- R121 steps 1 to 5. -/
def OpCtx.thermal (c : OpCtx) (t : Thermal) : Thermal :=
  let p := c.power t
  let t1 : Thermal := match c.sense with
    | none => t
    | some l =>
      let q := c.lowPassed t l
      let sii := q.1.foldl (fun a x => a + x.2 * x.2) 0
      let svi := q.1.foldl (fun a x => a + x.1 * x.2) 0
      let tc := if 24 * c.sw 15 * c.sw 15 ≤ sii ∧ 0 < sii then
          let re : Frac := ⟨svi, sii.toNat⟩
          let meas := (c.k23 3).add (((re.div (c.k23 2)).sub (Frac.ofInt 1)).div (fx (c.sw 4) 31))
          toQ32 ((q32 t.tc).add ((fx (c.sw 14) 31).mul (meas.sub (q32 t.tc))))
        else t.tc
      { t with tc := tc, vf := q.2.1, cf := q.2.2 }
  let ac := fx (alphaBlock (c.w 6)) 31
  let am := fx (alphaBlock (c.w 8)) 31
  let one := Frac.ofInt 1
  let tc := ((q32 t1.tm).add (ac.mul ((q32 t1.tc).sub (q32 t1.tm)))).add (((one.sub ac).mul p).mul (c.k23 5))
  let tm := ((c.k23 9).add (am.mul ((q32 t1.tm).sub (c.k23 9)))).add (((one.sub am).mul p).mul (c.k23 7))
  let excess := (tc.sub (c.k23 10)).max ⟨0, 1⟩
  let gt := ((fx (c.sw 11) 24).mul excess).min (fx (c.sw 12) 24)
  let tc' := toQ32 tc
  let muted := if t.muted then ((c.k23 13).sub (Frac.ofInt 10)).lt (q32 tc')
    else !(q32 tc').lt (c.k23 13)
  { t1 with tc := tc', tm := toQ32 tm, gt := -(privateRound gt.n gt.d 24), muted := muted }

/-- R118-R122. STATE: the thermal values, 4 values per model section, then the histories of R124. The cascade runs on the input
itself, and V_fs and K_x scale what it gives (DEDUCED from "runs … on the input before any gain"; log entry 64). The event's
first payload goes up at each block in which G_t leaves 0 dB, not once per activation (DESIGN CHOICE, log entry 79). -/
def opProtect (c : OpCtx) : OpRes :=
  let s := c.w 20
  let d := c.w 18
  let v := fun i => c.st.getD i 0
  let t0 : Thermal := ⟨v 0, v 1, v 2, v 3, v 4 == 1, v 5, v 6, v 7⟩
  let t := c.thermal t0
  let gNew : Int := if t.muted then 0 else if t.gt = 0 then 2 ^ 31 else dbToC31 t.gt
  let sts := groups 4 (c.st.drop 8) s
  let h := biqCascade false ((List.range s).map (fun j => (c.section (22 + 5 * j), sts.getD j []))) (c.inp 0)
  let step (acc : List (Int × Nat) × Window) (f : Nat) : List (Int × Nat) × Window :=
    -- |x_p| = K_x · V_fs · |H(x)|, with 23 + 23 + 31 fraction bits; X_lim has 23
    let xp := ((c.sw 21) * (c.sw 1) * (h.1.getD f 0)).natAbs
    let r := if c.w 17 = 0 then 2 ^ 31 else ratioF31 (c.w 17 * 2 ^ 54) xp
    let g := windowGain d (alphaOf (c.w 19)) acc.2 r
    let gx := if c.w 17 = 0 then 2 ^ 31 else g.2
    let gt := t0.gEnd * (23 - f : Nat) + gNew * (f + 1 : Nat)
    let gain := clampInt (sMin 32) (sMax 32) (roundHalfEven (gt * gx) (24 * 2 ^ 31))
    (acc.1 ++ [storeW (mac (0, 0) (tap (c.inp 0) (c.hist.getD 0 []) f d) gain) 62], g.1)
  let r := frames.foldl step ([], windowOf d (c.st.drop (8 + 4 * s)))
  let o := gather [r.1]
  let ms := ((o.1.getD 0 []).foldl (fun a y => a + y * y) 0)
  let e := privateRound ms (24 * 2 ^ 62) 62
  { outs := o.1,
    st := [t.tc, t.tm, gNew, t.gt, ((b2n t.muted : Nat) : Int), e, t.vf, t.cf] ++ h.2.1 ++
      historyState r.2,
    sats := o.2 + h.2.2,
    evs := (if t0.gt == 0 && decide (t.gt < 0) then [0] else []) ++ (if !t0.muted && t.muted then [1] else []) }

/-- R126: one sample of a guard limiter: the gain after it, the output, and whether r fell below 1. -/
def guardStep (alpha : Int) (g : Nat) (x : Int) : Nat × Int × Bool :=
  let r := ratioF31 (2 ^ 31 - 1) x.natAbs
  let g' := min r (releaseStep alpha g)
  (g', (satTo 32 (roundHalfEven (x * g') (2 ^ 31))).1, decide (r < 2 ^ 31))

/-- R126: a block through a guard limiter: gain, samples, and the first frame whose r fell below 1. -/
def guardBlock (g0 : Nat) (xs : List Int) : Nat × List Int × Option Nat :=
  let alpha := alphaOf 50000
  let r := xs.foldl (fun acc x =>
    let q := guardStep alpha acc.1 x
    (q.1, acc.2.1 ++ [q.2.1], acc.2.2 ++ [q.2.2])) (g0, [], [])
  (r.1, r.2.1, r.2.2.findIdx? id)

/-! ## Dispatch by type -/

/-- What one partition of an instance writes. -/
def runOperator (c : OpCtx) : OpRes :=
  if c.e.type = tGAIN then opGain c
  else if c.e.type = tMIX then opMix c
  else if c.e.type = tBIQ then opBiq c
  else if c.e.type = tFIR then opFir c
  else if c.e.type = tDELAY then opDelay c
  else if c.e.type = tDRC then opDrc c
  else if c.e.type = tLIMIT then opLimit c
  else if c.e.type = tXOVER then opXover c
  else if c.e.type = tGATE then opGate c
  else if c.e.type = tMETER then opMeter c
  else if c.e.type = tTONE then opTone c
  else if c.e.type = tBEAM then opBeam c
  else if c.e.type = tPROT then opProtect c
  else { outs := [], st := c.st, sats := 0 }

/-- Number of channels of history an instance's LINE buffer holds. -/
def lineChans (e : OpEntry) : Nat := if e.type = tBEAM then e.nIn else if e.type = tFIR ∨ e.type = tDELAY ∨ e.type = tPROT then 1 else e.nOut

/-! ## STATE contents: loading and public layouts -/

/-- The six W40 samples of a stored word of 32 bytes (R37). -/
def wordSamples (v : Nat) : List Int := (List.range 6).map (fun i => toSigned 40 (v / 2 ^ (40 * i)))

/-- Values that a STATE buffer of a type starts with when its initial contents are all zero. The g_t of R122 starts at 1.0 (DESIGN
CHOICE, log entry 79). -/
def zeroState (e : OpEntry) (g : Nat → Nat) : List Int :=
  if e.type = tBIQ then List.replicate ((if e.variant = 0 then 4 else 5) * g 0) 0
  else if e.type = tFIR then List.replicate 24 0
  else if e.type = tDELAY then (List.range e.nOut).map (fun i => ((g (1 + i) : Nat) : Int))
  else if e.type = tDRC then List.replicate (1 + if e.keyed then 1 else e.nIn) 0
  else if e.type = tLIMIT then List.replicate (3 * (g 1 + 1) + 1) 0
  else if e.type = tXOVER then List.replicate (5 * xoverSections e) 0
  else if e.type = tGATE then [-(toSigned 32 (g 2)) * 2 ^ 8, 0, 0] ++ List.replicate (if e.keyed then 1 else e.nIn) 0
  else if e.type = tMETER then List.replicate (6 * e.nIn) 0
  else if e.type = tTONE then [((g 2 : Nat) : Int)]
  else if e.type = tBEAM then (List.range e.nIn).map (fun i => ((g i : Nat) : Int))
  else if e.type = tPROT then
    [toSigned 32 (g 9) * 2 ^ 9, toSigned 32 (g 9) * 2 ^ 9, 2 ^ 31, 0, 0, 0, 0, 0] ++ List.replicate (4 * g 20) 0 ++
      List.replicate (3 * (g 18 + 1) + 1) 0
  else []

/-- A METER channel from its stored word (R112): samples 3 and 4 are unsigned, sample 5 is private. -/
def meterOf (v : Nat) : List Int :=
  let raw (i : Nat) : Nat := v / 2 ^ (40 * i) % 2 ^ 40
  [toSigned 40 (raw 0), toSigned 40 (raw 1), toSigned 40 (raw 2), raw 3, raw 4,
    if raw 5 = 0 then 0 else max 0 ((Config.privateState tMETER 1 [raw 5]).getD 0 0)]

/-- STATE values from the stored words of the initial contents (R59). DELAY, BEAMSUM and TONE start from their parameters
(R102, R117, R114); GATE starts closed at −Rg (R110) and takes the rest from the contents; BIQ, XOVER, FIR and METER have the
layouts of R95, R96, R99 and R112; the packing of the other types is private. -/
def loadState (e : OpEntry) (g : Nat → Nat) (words : List Nat) : List Int :=
  let z := zeroState e g
  let secret := Config.privateState e.type z.length words
  if words.all (fun v => v == 0) then z
  else if e.type = tBIQ ∨ e.type = tXOVER then (words.flatMap wordSamples).take z.length
  else if e.type = tMETER then words.flatMap meterOf
  else if e.type = tFIR then
    (words.flatMap (fun v => (List.range 3).map (fun i => toSigned 80 (v / 2 ^ (80 * i))))).take 24
  else if e.type = tDELAY ∨ e.type = tTONE ∨ e.type = tBEAM then z
  else if e.type = tGATE then z.take 3 ++ secret.drop 3
  else secret

/-- Pack values of `n` bits into words of `k` values with a 16-bit tag on top (R37, R38). -/
def packWords (n k tag : Nat) (vals : List Int) (count : Nat) : List Nat :=
  (List.range count).map (fun w =>
    ((List.range k).foldl (fun a i => a + ofSigned n (vals.getD (w * k + i) 0) * 2 ^ (n * i)) 0) + tag * 2 ^ 240)

/-- Word `w` of a STATE buffer of a private packing: data bits as the device packs the values, zero for all-zero values
(R124), and the tag. -/
def privateStateWord (type tag w : Nat) (vals : List Int) : Nat :=
  (if vals.all (fun v => v == 0) then 0 else (Config.privateWord type w vals).toNat) + tag * 2 ^ 240

/-- A METER channel's word (R112): sample 5, private, is open. -/
def meterWord (tag w : Nat) (v : List Int) : Nat :=
  (packWords 40 6 tag (v.take 5) 1).getD 0 0 +
    (if v.getD 5 0 = 0 then 0 else (Config.privateWord tMETER w [v.getD 5 0]).toNat % 2 ^ 40 * 2 ^ 200)

/-- The STATE words of an instance (R38, R77): BIQ and XOVER as R95 and R96, FIR as R99, METER as R112; the delays or phase
of DELAY, BEAMSUM and TONE six to a word in their order (DESIGN CHOICE: R102, R114 and R117 give no place; log entry 61). -/
def stateWordsOf (e : OpEntry) (count tag : Nat) (vals : List Int) : List Nat :=
  if e.type = tMETER then (List.range count).map (fun w => meterWord tag w ((vals.drop (6 * w)).take 6))
  else if e.type = tFIR then packWords 80 3 tag vals count
  else if e.type = tBIQ ∨ e.type = tXOVER ∨ e.type = tDELAY ∨ e.type = tBEAM ∨ e.type = tTONE then
    packWords 40 6 tag vals count
  else (List.range count).map (fun w => privateStateWord e.type tag w vals)

end Sys2Proof.Machine
end

