-- ==== Sys2Proof/Machine/Fabric.lean ====
section
/-!
DEFINITION. The compute of a block: tasks and their dependencies (R43, R127), readiness, Pens, the Paddock and holds
(R130-R139), what a task writes when it retires (R135), move-in and move-out (R127, R217, R218, R126), and loading and
voiding of buffers (R59, R178).
-/

namespace Sys2Proof.Machine

open Sys2Proof

/-! ## Slots -/

/-- Slot `i`. -/
def slotAt (s : State) (i : Nat) : Slot := s.graph.slots.getD i {}

/-- Change slot `i`. -/
def modSlot (g : Graph) (i : Nat) (f : Slot → Slot) : Graph := { g with slots := modAt g.slots i f }

/-- The slot in a phase, if any. -/
def slotIn (g : Graph) (p : SlotPhase) : Option Nat := g.slots.findIdx? (fun x => x.phase == p)

/-- The ACTIVE slot's image; nothing while no graph computes. -/
def activeImage (s : State) : Memory :=
  match slotIn s.graph .active with
  | some i => (slotAt s i).image
  | none => []

/-- A graph is ACTIVE. -/
def graphActive (s : State) : Bool := (slotIn s.graph .active).isSome

/-! ## Engines in service -/

/-- An engine is in service (R143): one that has left may still finish a STOP. -/
def Engine.inSvc (e : Engine) : Bool := e.phase != .out && !e.gone

/-- Operator engines in service, E (R63). -/
def enginesE (d : Drover) : Nat := (d.oes.filter Engine.inSvc).length

/-- Move engines in service. -/
def moveEngines (d : Drover) : Nat := (d.mes.filter Engine.inSvc).length

/-- Engine `i` of a kind (move engine when `me`). -/
def engineAt (d : Drover) (me : Bool) (i : Nat) : Engine := (if me then d.mes else d.oes).getD i { phase := .out }

/-- Change an engine. -/
def modEngine (d : Drover) (me : Bool) (i : Nat) (f : Engine → Engine) : Drover :=
  if me then { d with mes := modAt d.mes i f } else { d with oes := modAt d.oes i f }

/-! ## Records in use (R133) -/

/-- Ready tasks that hold an in-flight record. -/
def droverReadies (d : Drover) : List Ready :=
  d.pens.flatten ++ d.rings.flatten ++ d.replays ++ d.waiting.map (fun x => x.1) ++
    d.oes.filterMap (fun e => if e.phase == .busy then e.run else none)

/-- In-flight record indices in use. -/
def recordsUsed (d : Drover) : List Nat := (droverReadies d).filterMap (fun r => r.record)

/-- The lowest free record of 512. -/
def freeRecord (d : Drover) : Option Nat := (List.range 512).find? (fun i => !(recordsUsed d).contains i)

/-- Descriptors that a Pen's ring holds: D = 32 P (R136). -/
def ringSize (s : State) : Nat := 32 * bits (rd s .drvCfg) 4 0

/-! ## Tasks and dependencies (R43, R127) -/

/-- The last task of an instance. -/
def lastTask (m : Memory) (i : Nat) : Task :=
  if (opEntry m i).type = tIN then ⟨.moveIn, i, 0⟩ else ⟨.op, i, (opEntry m i).parts - 1⟩

/-- The tasks that a task depends on. -/
def taskDeps (m : Memory) (t : Task) : List Task :=
  let e := opEntry m t.inst
  match t.kind with
  | .moveIn => []
  | .moveOut => [lastTask m (outProducer m e)]
  | .op =>
    let before := if 0 < t.part then [⟨.op, t.inst, t.part - 1⟩]
      else match prevInFlow m t.inst with
        | some j => [⟨.op, j, (opEntry m j).parts - 1⟩]
        | none => []
    before ++ (opIns m e).map (fun b => lastTask m (bufEntry m b).producer)

/-- Every dependency has retired. -/
def depsRetired (m : Memory) (d : Drover) (t : Task) : Bool := (taskDeps m t).all (fun x => d.retired.contains x)

/-- The first instance after `i` in its flow that runs tasks. -/
def nextInFlow (m : Memory) (i : Nat) : Option Nat :=
  let f := flowEntry m (opEntry m i).flow
  ((List.range (f.first + f.count - (i + 1))).map (fun k => i + 1 + k)).find? (fun j => (opEntry m j).runs)

/-- Tasks that may become ready when `t` retires: the next of its flow, readers of its outputs, move-outs. -/
def dependents (m : Memory) (t : Task) : List Task :=
  let e := opEntry m t.inst
  let last := t.kind != .op || decide (t.part + 1 = e.parts)
  let inFlow := if t.kind = .op then
      if last then (nextInFlow m t.inst).toList.map (fun j => Task.mk .op j 0) else [⟨.op, t.inst, t.part + 1⟩]
    else []
  let outs := if last then opOuts m e else []
  let readers := (opList m).filterMap (fun x =>
    if (opIns m x.2).any (fun b => outs.contains b) then
      if x.2.type = tOUT then some (Task.mk .moveOut x.1 0) else some (Task.mk .op x.1 0)
    else none)
  (inFlow ++ readers).eraseDups

/-- Every task of a block (R127). -/
def allTasks (m : Memory) : List Task :=
  (opList m).flatMap (fun x =>
    if x.2.type = tIN then [Task.mk .moveIn x.1 0]
    else if x.2.type = tOUT then [Task.mk .moveOut x.1 0]
    else (List.range x.2.parts).map (fun p => Task.mk .op x.1 p))

/-- The flow of an operator task and the Pen of its flow. -/
def taskFlow (m : Memory) (t : Task) : Nat := (opEntry m t.inst).flow
def taskPen (m : Memory) (t : Task) : Nat := (flowEntry m (taskFlow m t)).pen

/-! ## Pairs, sinks and costs (R29, R127, R146) -/

/-- PAIR_CFG setting of HB pair `p`: 0 SE, 1 BTL, 2 PBTL; and of XPWM pair `x`. -/
def hbPair (s : State) (p : Nat) : Nat := bits (rd s .pairCfg) (2 * p + 1) (2 * p)
def xpPair (s : State) (x : Nat) : Nat := bits (rd s .pairCfg) (2 * x + 17) (2 * x + 16)

/-- The channel that leads half-bridge or XPWM channel `c` (R29, R312): itself, or the first of its pair; two PBTL
pairs side by side form one group of four. -/
def leaderOf (s : State) (c : Nat) : Nat :=
  if c < 16 then
    if hbPair s (c / 2) = 0 then c
    else if hbPair s (c / 2) = 2 then c / 4 * 4
    else c / 2 * 2
  else if xpPair s ((c - 16) / 2) = 0 then c else c / 2 * 2

/-- A sink has a path of its own (R29). -/
def sinkLeads (s : State) (k : Nat) : Bool := decide (32 ≤ k) || leaderOf s k == k

/-- The crossfade of a route unit that is running. -/
def fadeOf (s : State) (unit : Nat) : Option Crossfade := s.params.fades.find? (fun x => x.unit == unit)

/-- FEED of a sink's route entry. -/
def sinkFeed (s : State) (k : Nat) : Nat := bits (rd s (.sinkRoute k)) 7 0

/-- Sinks whose present feed, or crossfading old feed, is graph output `o` (R29, R127, R218). -/
def sinksOf (s : State) (o : Nat) : List Nat :=
  (List.range 68).filter (fun k => sinkLeads s k &&
    (sinkFeed s k == o || ((fadeOf s (0x100 + k)).map (fun x => x.old)) == some o))

/-- Cost of a task in fabric cycles (R48, R146). -/
def taskCost (s : State) (m : Memory) (t : Task) : Nat :=
  match t.kind with
  | .op => (opEntry m t.inst).cost
  | .moveIn => 96
  | .moveOut => 96 + 32 * (sinksOf s (opEntry m t.inst).port).length

/-! ## Descriptors (R129) -/

/-- The kind code of a task. -/
def kindByte : TaskKind → Nat
  | .op => 0 | .moveIn => 1 | .moveOut => 2

/-- The descriptor that the Drover builds for a task with an in-flight record and an attempt: 60 bytes and their check word.
The 40 operand bytes are the device's own. -/
def descriptor (s : State) (m : Memory) (t : Task) (record : Option Nat) (attempt : Nat) : List Byte :=
  let op := t.kind == .op
  let head :=
    leBytes 2 t.inst ++ leBytes 1 t.part ++ leBytes 1 (kindByte t.kind) ++
      leBytes 2 (if op then taskFlow m t else 0xFFFF) ++ leBytes 1 (if op then taskPen m t else 0xFF) ++ leBytes 1 attempt ++
      leBytes 5 (s.drover.block.getD 0#40).toNat ++ leBytes 1 ((slotIn s.graph .active).getD 0) ++
      leBytes 2 (record.getD 0xFFFF) ++ leBytes 4 (taskCost s m t) ++ leBytes 40 (Config.handles t.inst t.part).toNat
  head ++ leBytes 4 (crc32c head)

/-- A task that becomes ready in cycle `c`, with its record. -/
def newReady (s : State) (m : Memory) (t : Task) (record : Option Nat) (c : Nat) : Ready :=
  ⟨t, record, 0, [], c, c, descriptor s m t record 0⟩

/-! ## Placing ready tasks (R136-R138, R145) -/

/-- Room for one more descriptor in Pen `p`. -/
def penRoom (d : Drover) (ring p : Nat) : Bool :=
  (decide ((d.pens.getD p []).length < 128) && (d.rings.getD p []).isEmpty) || decide ((d.rings.getD p []).length < ring)

/-- Put a descriptor into Pen `p`; the flag says that it was written to the ring (R137). -/
def penPut (d : Drover) (p : Nat) (r : Ready) : Drover × Bool :=
  if (d.pens.getD p []).length < 128 ∧ (d.rings.getD p []).isEmpty then
    ({ d with pens := modAt d.pens p (fun l => l ++ [r]) }, false)
  else ({ d with rings := modAt d.rings p (fun l => l ++ [r]) }, true)

/-- The counters of R155 after a placement in Pen `p`. -/
def countPlaced (s : State) (p : Nat) (spilled : Bool) : State :=
  let d := s.drover
  let s := if spilled then addCount s .spilledTotal 31 0 1 else s
  let s := raisePeak s .peakInflight (recordsUsed d).length
  raisePeak s (.penPeak p) ((d.pens.getD p []).length + (d.rings.getD p []).length)

/-- A task becomes ready in cycle `c`: into the move queue, its Pen, or HELD (R130, R137, R138, R145). A task that lacks both
a record and room while no task is held is held for lack of a record (DEDUCED, log entry 66). -/
def makeReady (m : Memory) (c : Nat) (s : State) (t : Task) : State :=
  let d := s.drover
  if t.kind ≠ .op then
    { s with drover := { d with moves := d.moves ++ [newReady s m t none c] } }
  else
    let p := taskPen m t
    let hold (rec : Bool) : State :=
      addCount { s with drover := { d with held := d.held ++ [⟨t, rec⟩] } } .heldTotal 31 0 1
    if d.held.any (fun h => h.forRecord) then hold true
    else if d.held.any (fun h => taskPen m h.task == p) then hold false
    else match freeRecord d with
      | none => hold true
      | some r =>
        if !penRoom d (ringSize s) p then hold false
        else
          let x := penPut d p (newReady s m t (some r) c)
          countPlaced { s with drover := x.1 } p x.2

/-- Insert a task by flow index, for tasks that become ready in one cycle. -/
def insertFlow (m : Memory) (t : Task) : List Task → List Task
  | [] => [t]
  | u :: us => if taskFlow m t ≤ taskFlow m u then t :: u :: us else u :: insertFlow m t us

/-- Tasks that the retire of `t` lets become ready. -/
def readied (m : Memory) (d : Drover) (t : Task) : List Task := (dependents m t).filter (depsRetired m d)

/-- Tasks that become ready in one cycle, in the order of their admission: moves, then operator tasks in ascending
flow. -/
def readyOrder (m : Memory) (l : List Task) : List Task :=
  (l.filter (fun u => u.kind != .op)) ++ (l.filter (fun u => u.kind == .op)).foldr (insertFlow m) []

/-- R130: tasks ready in cycle 0: every move-in, then the first task of every flow without a dependency. -/
def firstReady (m : Memory) : List Task :=
  ((opList m).filter (fun x => x.2.type == tIN)).map (fun x => Task.mk .moveIn x.1 0) ++
    (List.range (hFlows m)).filterMap (fun f =>
      let fe := flowEntry m f
      match ((List.range fe.count).map (fun k => fe.first + k)).find? (fun j => (opEntry m j).runs) with
      | some j => if (taskDeps m ⟨.op, j, 0⟩).isEmpty then some ⟨.op, j, 0⟩ else none
      | none => none)

/-- Compute of block `k` starts (R23, R130): counts start afresh and the first tasks become ready. -/
def computeStart (s : State) (k : Bsn) : State :=
  let m := activeImage s
  let d := { s.drover with
    block := some k, retired := [], byUnit := [], flowRep := [], held := [], coming := [], admitAt := none,
    ports := s.drover.ports.map (fun p => { p with at_ := none }) }
  let g := { s.graph with
    meter := { s.graph.meter with cycles := 0, e := enginesE d },
    sinks := s.graph.sinks.map (fun x => { x with next := none, nextOld := none, guardNext := none }) }
  (firstReady m).foldl (makeReady m s.cycle) { s with drover := d, graph := g }

/-! ## Buffers of the ACTIVE graph -/

/-- The stored words of a buffer's initial contents (R51, R59). -/
def initWords (m : Memory) (b : BufEntry) : List Nat :=
  if b.init = 0xFFFFFFFF then List.replicate b.len 0
  else (List.range b.len).map (fun w => imgN m (hBlobOff m + b.init + 32 * w) 30)

/-- Words of the ring of one channel of a LINE buffer. -/
def ringWords (b : BufEntry) (e : OpEntry) : Nat := b.len / max 1 (lineChans e)

/-- R59: the history that the initial contents of a LINE buffer stand for, per channel newest sample first: the rings of the
channels follow one another, and the word before ring position `next` is the newest (DESIGN CHOICE: the spec gives the ring no
start; log entry 61). -/
def initLine (m : Memory) (b : BufEntry) (e : OpEntry) (next : Nat) : List (List Int) :=
  let n := ringWords b e
  let ws := initWords m b
  if ws.all (fun v => v == 0) then List.replicate (lineChans e) (List.replicate (6 * n) 0)
  else (List.range (lineChans e)).map (fun c =>
    (List.range n).flatMap (fun k => (wordSamples (ws.getD (c * n + (next + (n - 1 - k)) % n) 0)).reverse))

/-- A SIGNAL buffer whose four words block `k` wrote. -/
def signalOf (xs : List Int) (k : Bsn) : BufData := .signal xs (List.replicate 4 k)

/-- R59: every buffer of the graph as it is when the slot becomes ACTIVE for block `n`. The spec gives no contents to the
SIGNAL words not yet written, and no tag to these and to loaded words: the model takes zero samples and the tag of block n
(DESIGN CHOICE, log entry 61). -/
def loadBuffers (m : Memory) (n : Bsn) : List BufData :=
  (List.range (hBufs m)).map (fun i =>
    let b := bufEntry m i
    let e := opEntry m b.producer
    if b.kind = 1 then signalOf (List.replicate 24 0) n
    else if b.kind = 3 then .state (loadState e (blobWord m e) (initWords m b)) n true
    else
      let next := Config.lineStart i % max 1 (ringWords b e)
      .line (initLine m b e next) (List.replicate (ringWords b e) (n.toNat % 2 ^ 16)) next [] n)

/-- Samples of a SIGNAL buffer. -/
def sigOf (bufs : List BufData) (b : Nat) : List Int :=
  match bufs[b]? with
  | some (.signal xs _) => xs
  | _ => List.replicate 24 0

/-- Values, and freshness, of a STATE buffer. -/
def stOf (bufs : List BufData) (b : Nat) : List Int × Bool :=
  match bufs[b]? with
  | some (.state vs _ f) => (vs, f)
  | _ => ([], false)

/-- History of a LINE buffer. -/
def lineOf (bufs : List BufData) (b : Nat) : List (List Int) :=
  match bufs[b]? with
  | some (.line h _ _ _ _) => h
  | _ => []

/-- Push a block of samples onto a channel's history, keeping its length. -/
def pushHist (h xs : List Int) : List Int := (xs.reverse ++ h).take h.length

/-- The tags of a ring's words after a block that wrote four words with tag `g`, or, where a void block wrote none, after the
four oldest words have kept theirs. -/
def pushTags (tags : List Nat) (g : Option Nat) : List Nat :=
  match g with
  | some v => (List.replicate 4 v ++ tags).take tags.length
  | none => tags.drop (tags.length - 4) ++ tags.take (tags.length - 4)

/-- The ring position after a block of four words. -/
def ringStep (tags : List Nat) (next : Nat) : Nat := (next + 4) % max 1 tags.length

/-- R178: void block `k` of a LINE buffer of `len` words: the block's positions read 0; a third void mark while two are
live voids everything. A mark is live until later blocks have committed its positions. To MEM_READ a void position shows zero
samples under the tag that it held before (DESIGN CHOICE, log entry 78). -/
def voidLine (k : Bsn) (len : Nat) : BufData → BufData
  | .line h ts p vs _ =>
    let live := vs.filter (fun v => decide (4 * bsnSince k v < len + 4))
    let ts' := pushTags ts none
    if 2 ≤ live.length then .line (h.map (fun c => List.replicate c.length 0)) ts' (ringStep ts p) [k] k
    else .line (h.map (fun c => pushHist c (List.replicate 24 0))) ts' (ringStep ts p) (live ++ [k]) k
  | b => b

/-- R477: one mark that covers every position written before the block that follows. -/
def voidAll (k : Bsn) : BufData → BufData
  | .line h ts p _ _ => .line (h.map (fun c => List.replicate c.length 0)) ts p [k] k
  | b => b

/-! ## What a task writes -/

/-- R213: an LI word of an instance in frame `f` of block `k`. -/
def liWord (s : State) (m : Memory) (k : Bsn) (i : Nat) (e : OpEntry) (w f : Nat) : Int :=
  match s.graph.ramps.find? (fun r => r.op == i && r.word == w) with
  | some r =>
    let j := bsnSince k r.block * 24 + f
    if r.n ≤ j + 1 then r.new else roundHalfEven (r.old * r.n + (r.new - r.old) * (j + 1 : Nat)) r.n
  | none => toSigned 32 (blobWord m e w)

/-- The sense record that PROTECT reads for block `k` (R118, R121). -/
def senseFor (s : State) (k : Bsn) (ch : Nat) : Option (List SensePair) :=
  match s.stage.chans[ch]? with
  | some c => if ch < 16 ∧ c.senseOk ∧ c.senseBsn = k ∧ c.state ≠ .member then some c.sense else none
  | none => none

/-- What operator task `t` of block `k` reads (R85). -/
def opCtx (s : State) (m : Memory) (k : Bsn) (t : Task) : OpCtx :=
  let e := opEntry m t.inst
  let w := blobWord m e
  let st := stOf s.graph.bufs e.stateBuf
  let base := if e.type = tBEAM then 0 else 1
  { e := e, w := w, li := liWord s m k t.inst e, part := t.part,
    ins := (opIns m e).map (sigOf s.graph.bufs), st := st.1, hist := lineOf s.graph.bufs e.lineBuf, fresh := st.2,
    moved := fun i =>
      let d := (st.1.getD i 0).toNat
      if d = w (base + i) then none else some d,
    cleared := s.graph.cleared.any (fun x => x.2 == t.inst),
    sense := if e.type = tPROT then senseFor s k (w 0) else none }

/-- Write one buffer. -/
def setBuf (bufs : List BufData) (b : Nat) (v : BufData) : List BufData := bufs.set b v

/-- Commit an operator task (R135, R172): outputs, STATE copy, and with the last partition the LINE samples. A muted
instance (R173) writes zeros and leaves its buffers. -/
def commitOp (g : Graph) (m : Memory) (k : Bsn) (t : Task) (c : OpCtx) (muted : Bool) : Graph × List Nat :=
  let e := c.e
  let last := decide (t.part + 1 = e.parts)
  if muted then
    let bufs := if last then (opOuts m e).foldl (fun bs b => setBuf bs b (signalOf (List.replicate 24 0) k)) g.bufs
      else g.bufs
    ({ g with bufs := bufs }, [])
  else
    let r := runOperator c
    let bufs := (List.zip (opOuts m e) r.outs).foldl (fun bs x => setBuf bs x.1 (signalOf x.2 k)) g.bufs
    let bufs := if e.stateBuf = 0xFFFF then bufs else setBuf bufs e.stateBuf (.state r.st k false)
    let bufs := if e.lineBuf = 0xFFFF || !last then bufs
      else match bufs[e.lineBuf]? with
        | some (.line h ts p vs _) =>
          setBuf bufs e.lineBuf (.line (List.zipWith pushHist h ((List.range h.length).map c.inp))
            (pushTags ts (some (k.toNat % 2 ^ 16))) (ringStep ts p) vs k)
        | _ => bufs
    let g := { g with bufs := bufs, cleared := g.cleared.filter (fun x => x.2 != t.inst) }
    match slotIn g .active with
    | some i => (modSlot g i (fun sl => { sl with sat := min 0xFFFFFFFF (sl.sat + r.sats) }), r.evs)
    | none => (g, r.evs)

/-- The samples that source code `c` delivered into the captured block (R23, R30). -/
def sourceBlock (g : Graph) (c : Nat) : List Int := (assocFind c g.inputs).getD (List.replicate 24 0)

/-- The weights of a crossfade in frame `f` of block `k`: new and old, F31 (R217). -/
def fadeWeights (x : Crossfade) (k : Bsn) (f : Nat) : Nat × Nat :=
  let n := 24 * x.blocks
  let j := bsnSince k x.block * 24 + f
  if n ≤ j + 1 then (2 ^ 31, 0)
  else if x.equal then equalPower j n
  else (rampWeight j n, 2 ^ 31 - rampWeight j n)

/-- R127, R217: the samples that a move-in writes for graph input `i` in block `k`. -/
def moveInSamples (s : State) (k : Bsn) (i : Nat) : List Int :=
  let new := sourceBlock s.graph (bits (rd s (.inRoute i)) 7 0)
  match fadeOf s i with
  | none => new
  | some x =>
    let old := sourceBlock s.graph x.old
    frames.map (fun f =>
      let w := fadeWeights x k f
      roundHalfEven ((w.1 : Int) * new.getD f 0 + (w.2 : Int) * old.getD f 0) (2 ^ 31))

/-- Commit a move-in task: the SIGNAL buffer of the IN instance. -/
def commitMoveIn (s : State) (m : Memory) (k : Bsn) (inst : Nat) : Graph :=
  let e := opEntry m inst
  { s.graph with bufs := setBuf s.graph.bufs (opConn m e 0) (signalOf (moveInSamples s k e.port) k) }

/-! ## Move-outs -/

/-- One path of a sink through its limiting (R126, R218): samples, guard gain after the block, and the first frame in which
the guard limiter engages. -/
def limitPath (limited : Bool) (guard : Nat) (xs : List Int) : List Int × Nat × Option Nat :=
  if limited then (xs, guard, none)
  else
    let r := guardBlock guard xs
    (r.2.1, r.1, r.2.2)

/-- The guard limiter of a sink engages in frame `f` of the block: the first engagement since the activation waits for the
frame in which its sample plays, and the earlier of two frames of one block stands (R126). -/
def guardEngages (slot : Nat) (f : Option Nat) (x : SinkState) : SinkState :=
  match f with
  | none => x
  | some n =>
    if !x.engaged then { x with engaged := true, guardNext := some (n, slot) }
    else { x with guardNext := x.guardNext.map (fun g => (min n g.1, g.2)) }

/-- What the move-out of output `o` of slot `slot` does to one sink. -/
def sinkWrite (present old : Option Nat) (slot o : Nat) (limited : Bool) (xs : List Int) (x : SinkState) : SinkState :=
  let a := if present = some o then
      let p := limitPath limited x.guard xs
      guardEngages slot p.2.2 { x with next := some p.1, guard := p.2.1 }
    else x
  if old = some o then
    let p := limitPath limited a.guardOld xs
    guardEngages slot p.2.2 { a with nextOld := some p.1, guardOld := p.2.1 }
  else a

/-- Commit a move-out task: every sink it feeds. -/
def commitMoveOut (s : State) (m : Memory) (inst : Nat) : Graph :=
  let e := opEntry m inst
  let xs := sigOf s.graph.bufs (outBuf m e)
  (sinksOf s e.port).foldl (fun g k =>
    { g with sinks := modAt g.sinks k (sinkWrite (some (sinkFeed s k)) ((fadeOf s (0x100 + k)).map (fun x => x.old))
      ((slotIn g .active).getD 0) e.port (outLimited m e) xs) }) s.graph

/-! ## Retire (R135) -/

/-- The writes of task `t` of block `k` with the events they raise. -/
def commitTask (s : State) (m : Memory) (k : Bsn) (t : Task) : State :=
  let slot := (slotIn s.graph .active).getD 0
  match t.kind with
  | .moveIn => { s with graph := commitMoveIn s m k t.inst }
  | .moveOut => { s with graph := commitMoveOut s m t.inst }
  | .op =>
    let muted := (slotAt s slot).muted.any (fun x => x.1 == t.inst)
    let r := commitOp s.graph m k t (opCtx s m k t) muted
    r.2.foldl (fun u c => raise u 23 (t.inst + slot * 4096 + c * 8192)) { s with graph := r.1 }

/-! ## An attempt that does not retire (R77, R172) -/

/-- The SIGNAL buffers that task `t` of block `k` writes, with what an execution without a fault writes to them. -/
def signalWrites (s : State) (m : Memory) (k : Bsn) (t : Task) : List (Nat × List Int) :=
  let e := opEntry m t.inst
  match t.kind with
  | .moveOut => []
  | .moveIn => [(opConn m e 0, moveInSamples s k e.port)]
  | .op =>
    if (slotAt s ((slotIn s.graph .active).getD 0)).muted.any (fun x => x.1 == t.inst) then
      (if t.part + 1 = e.parts then (opOuts m e).map (fun b => (b, List.replicate 24 0)) else [])
    else List.zip (opOuts m e) (runOperator (opCtx s m k t)).outs

/-- What an attempt that ends without a retire leaves in a SIGNAL buffer (R172 has the outputs written directly): once its RUN is
over (`done`) all four words, before that a free choice of them; a faulted attempt may leave other samples in a word. -/
def strayWords (free : Nat) (k : Bsn) (done fault : Bool) (new : List Int) : BufData → BufData
  | .signal xs ns =>
    let kind (w : Nat) : Nat :=
      if done && !fault then 1 else if fault then Config.freeNat (free + w) % 3 else Config.freeNat (free + w) % 2
    let six (w : Nat) : List Int :=
      match kind w with
      | 0 => (xs.drop (6 * w)).take 6
      | 1 => (new.drop (6 * w)).take 6
      | _ => (List.range 6).map (fun i => clampInt (sMin 40) (sMax 40) (Config.badSample (free + w) i))
    .signal ((List.range 4).flatMap six) ((List.range 4).map (fun w => if kind w = 0 then ns.getD w 0#40 else k))
  | b => b

/-- The SIGNAL words after an attempt of task `t` that ends without a retire. -/
def strayWrites (s : State) (m : Memory) (k : Bsn) (t : Task) (done fault : Bool) : State :=
  (signalWrites s m k t).foldl (fun u x =>
    { u with free := u.free + 4, graph := { u.graph with
      bufs := modAt u.graph.bufs x.1 (strayWords u.free k done fault x.2) } }) s

/-! ## Sinks at the deadline (R60, R177, R218) -/

/-- R60: the fade gain of frame `f` of block `b`, as numerator over denominator, from an activation that falls before
block `n` and a rise that begins with its block. -/
def fallGain (a : Activation) (b : Bsn) (f : Nat) : Nat × Nat :=
  let n := 96 * a.f
  let left := bsnSince a.n b * 24 - f            -- frames from this one to the first of block n
  if !a.fade || !a.falls || !bsnReached (a.n - 1#40) b || n < left then (1, 1) else (left - 1, n)

def riseGain (r : Rise) (b : Bsn) (f : Nat) : Nat × Nat :=
  let n := 96 * r.f
  let j := bsnSince b r.n * 24 + f
  if n ≤ j + 1 then (1, 1) else (j + 1, n)

/-- A gain a/b as its F31 word (R80). -/
def f31 (w : Nat × Nat) : Nat := if w.1 = w.2 then 2 ^ 31 else (roundHalfEven (w.1 * 2 ^ 31) w.2).toNat

/-- Multiply an S32 sample by gains, each held in F31: the product is exact and rounded once, half-to-even (R80, R82; log
entry 21). -/
def weigh (x : Int) (ws : List (Nat × Nat)) : Int :=
  let gs := (ws.map f31).filter (fun g => g != 2 ^ 31)
  if gs.isEmpty then x else roundHalfEven (gs.foldl (fun v g => v * (g : Int)) x) (2 ^ (31 * gs.length))

/-- The samples of a sink for block `b` if its move-outs retired, with the samples saturated (R218). An output with no OUT
instance contributes zero. -/
def sinkMix (s : State) (m : Memory) (b : Bsn) (k : Nat) (x : SinkState) : Option (List Int × Nat) :=
  let zeros := List.replicate 24 (0 : Int)
  let part (feed : Nat) (v : Option (List Int)) : Option (List Int) :=
    if feed = 0xFF ∨ (outInst m feed).isNone then some zeros else v
  match fadeOf s (0x100 + k), part (sinkFeed s k) x.next with
  | none, some new => some (new, 0)
  | some c, some new =>
    (part c.old x.nextOld).map (fun old =>
      let ys := frames.map (fun f =>
        let w := fadeWeights c b f
        satTo 32 (roundHalfEven ((w.1 : Int) * new.getD f 0 + (w.2 : Int) * old.getD f 0) (2 ^ 31)))
      (ys.map (fun y => y.1), ys.foldl (fun n y => n + y.2) 0))
  | _, none => none

/-- A sink plays block `b` from now on: its own samples under the gains of R60 and R177, or a substitute; a sink without a
path of its own plays nothing (R29). The numbers are saturated samples and substitutes. -/
def sinkPlay (s : State) (m : Memory) (b : Bsn) (late : Bool) (k : Nat) (x : SinkState) : SinkState × Nat × Nat :=
  let y := { x with next := none, nextOld := none, guardNext := none, guardDue := x.guardNext }
  let none_ : SinkState × Nat × Nat := ({ y with playing := [], subst := false }, 0, 0)
  if !sinkLeads s k then none_
  else match sinkMix s m b k x with
  | some (ys, sat) =>
    let gains (f : Nat) : List (Nat × Nat) :=
      s.graph.act.toList.map (fun a => fallGain a b f) ++ s.graph.rises.map (fun r => riseGain r b f) ++
        if x.subst then [(f + 1, 24)] else []
    ({ y with playing := frames.map (fun f => weigh (ys.getD f 0) (gains f)), subst := false }, sat, 0)
  | none =>
    if !late then none_
    else
      let zs := if x.subst then [] else frames.map (fun f => weigh (x.playing.getD f 0) [(24 - f, 24)])
      ({ y with playing := zs, subst := true }, 0, 1)

/-- R126: in frame `f` of the block that plays, the guard limiter events of that frame are raised, by sink code. -/
def guardFrame (s : State) (f : Nat) : State :=
  (List.range 68).foldl (fun t k =>
    match (t.graph.sinks.getD k {}).guardDue with
    | some (n, slot) =>
      if n = f then
        raise { t with graph := { t.graph with sinks := modAt t.graph.sinks k (fun x => { x with guardDue := none }) } } 18
          (k + slot * 256)
      else t
    | none => t) s

end Sys2Proof.Machine
end

