-- ==== Sys2Proof/Machine/Drover.lean ====
section
/-!
DEFINITION. The task scheduler's rows (R134-R154): grants, retires, admissions, refills, the end of STOP, and the cancel
of a block's tasks with its completion records. A row whose unit is not in a condition to act leaves the state as it is
(log entry 2).
-/

namespace Sys2Proof.Machine

open Sys2Proof

/-- The outcome of a row: a next state. -/
abbrev Step := Host.Outcome State Fault Refusal

/-! ## Grants (R140-R142) -/

/-- Engines of a port in ring order after the one granted last. -/
def ringOrder (base count last : Nat) : List Nat := (List.range count).map (fun i => base + (last + 1 + i - base) % count)

/-- An engine that requests a grant. -/
def waits (d : Drover) (me : Bool) (i : Nat) : Bool := (engineAt d me i).phase == .wait && !(engineAt d me i).gone

/-- A descriptor may be granted in cycle `c` (R141). -/
def grantable (c : Nat) (r : Ready) : Bool := decide (r.listed < c)

/-- Where an operator engine's grant comes from (R142): the replay queue, or a Pen. -/
inductive GrantFrom where
  | replay (n : Nat)
  | pen (p : Nat)
  deriving DecidableEq, Repr

/-- A task waits for its bank's port reset (R175). -/
def onHold (d : Drover) (t : Task) : Bool := d.bankHold.any (fun x => x.1 == t)

/-- The task that operator engine `i` would be granted in cycle `c`. -/
def opGrant (d : Drover) (c i : Nat) : Option GrantFrom :=
  match d.replays.findIdx? (fun r => r.task.kind == .op && !r.tried.contains i && grantable c r && !onHold d r.task) with
  | some n => some (.replay n)
  | none =>
    match d.pens.findIdx? (fun l => match l with
      | r :: _ => grantable c r
      | [] => false) with
    | some p => some (.pen p)
    | none => none

/-- The operator grant of port `p`: engine and source. -/
def portOpGrant (d : Drover) (c p : Nat) : Option (Nat × GrantFrom) :=
  (ringOrder (14 * p) 14 (d.ports.getD p ⟨0, 0, .none, none⟩).lastOe).findSome? (fun i =>
    if waits d false i then (opGrant d c i).map (fun g => (i, g)) else none)

/-- The move grant of port `p`: the engine that takes the head of the move queue (R142); a head on hold waits (R175). -/
def portMeGrant (d : Drover) (c p : Nat) : Option (Nat × Ready) :=
  match d.moves with
  | [] => none
  | r :: _ =>
    if !grantable c r || onHold d r.task then none
    else ((ringOrder (4 * p) 4 (d.ports.getD p ⟨0, 0, .none, none⟩).lastMe).find? (fun i =>
      waits d true i && !r.tried.contains i)).map (fun i => (i, r))

/-- The list that a grant takes its descriptor from. -/
inductive GrantList where
  | replay | pen (p : Nat) | moves
  deriving DecidableEq, Repr

/-- What port `p` grants in cycle `c`: of two kinds, the one that it did not grant last (R141). -/
inductive Grant where
  | op (i : Nat) (src : GrantFrom)
  | move (i : Nat) (r : Ready)
  deriving DecidableEq, Repr

/-- The grant of port `p` in cycle `c` (R141, R142). -/
def portGrant (d : Drover) (c p : Nat) : Option Grant :=
  match portOpGrant d c p, portMeGrant d c p with
  | some (i, src), none => some (.op i src)
  | none, some (i, r) => some (.move i r)
  | some (i, src), some (j, r) =>
    if (d.ports.getD p ⟨0, 0, .none, none⟩).kind = .op then some (.move j r) else some (.op i src)
  | none, none => none

/-- The list of a grant. -/
def Grant.list : Grant → GrantList
  | .op _ (.replay _) => .replay
  | .op _ (.pen p) => .pen p
  | .move _ _ => .moves

/-- An engine takes task `r` in cycle `c`; its bank-port waits are a free value of the grant. -/
def engineTake (r : Ready) (c free : Nat) (e : Engine) : Engine :=
  { e with phase := .busy, run := some r, since := c, waits := Config.bankWaits free, now := bump 0xFFFF e.now }

/-- Take a task out of its list for a grant. -/
def takeGrant (d : Drover) : GrantFrom → Drover × Option Ready
  | .replay n => ({ d with replays := d.replays.eraseIdx n }, d.replays[n]?)
  | .pen p => ({ d with pens := modAt d.pens p (fun l => l.drop 1) }, (d.pens.getD p []).head?)

/-- Add one to a flow's count in a list keyed by flow. -/
def flowAdd (f : Nat) (l : List (Nat × Nat)) : List (Nat × Nat) := assocPut f ((assocFind f l).getD 0 + 1) l

/-- An operator grant on port `p`. -/
def grantOp (s : State) (p i : Nat) (src : GrantFrom) : State :=
  let x := takeGrant s.drover src
  match x.2 with
  | none => s
  | some r =>
    let d := modEngine x.1 false i (engineTake r s.cycle s.free)
    let s := nextFree s
    let d := { d with ports := modAt d.ports p (fun q => { q with lastOe := i, kind := .op, at_ := some s.cycle }) }
    match src with
    | .pen _ => raisePeak { s with drover := d } .maxWait (s.cycle - r.ready)
    | .replay _ =>
      { s with
        drover := { d with flowRep := flowAdd (taskFlow (activeImage s) r.task) d.flowRep },
        health := { s.health with replays := bump 0xFFFFFFFF s.health.replays } }

/-- A move grant on port `p`; one of a task that faulted before counts as a replay grant (R176, R193). -/
def grantMe (s : State) (p i : Nat) (r : Ready) : State :=
  let s := if r.attempt = 0 then s
    else { s with health := { s.health with replays := bump 0xFFFFFFFF s.health.replays } }
  let d := modEngine { s.drover with moves := s.drover.moves.drop 1 } true i (engineTake r s.cycle s.free)
  raisePeak { nextFree s with drover :=
    { d with ports := modAt d.ports p (fun q => { q with lastMe := i, kind := .move, at_ := some s.cycle }) } }
    .maxWait (s.cycle - r.ready)

/-- R140: port `p` may grant in this cycle, and has not granted in it. -/
def portTurn (s : State) (p : Nat) : Bool :=
  s.drover.block.isSome && s.power.fabricOn && s.cycle % 2 == p / 2 &&
    (s.drover.ports.getD p ⟨0, 0, .none, none⟩).at_ != some s.cycle

/-- The lower port of the pair of port `p` that grants in the same cycles still has a grant from list `l` to make (R142). -/
def lowerFirst (s : State) (p : Nat) (l : GrantList) : Bool :=
  p % 2 == 1 && portTurn s (p - 1) && ((portGrant s.drover s.cycle (p - 1)).map Grant.list) == some l

/-- TASK_GRANT (R140-R142): the port's grant; of two ports that grant from one list in a cycle, the lower one goes first. -/
def execTaskGrant (p : Fin 4) (s : State) : Step :=
  if !portTurn s p then .next s
  else match portGrant s.drover s.cycle p with
    | none => .next s
    | some g =>
      if lowerFirst s p g.list then .next s
      else match g with
        | .op i src => .next (grantOp s p i src)
        | .move i r => .next (grantMe s p i r)

/-! ## Retire (R135, R144) -/

/-- The engine of a unit name, if it is an engine: move engine or not, and index. -/
def engineOf (u : UnitRef) : Option (Bool × Nat) :=
  match u.kind with
  | .oe => if u.index < 56 then some (false, u.index) else none
  | .me => if u.index < 16 then some (true, u.index) else none
  | _ => none

/-- An engine that has finished its task or STOP: waiting, or out of service where it has left (R143). -/
def engineFree (e : Engine) : Engine :=
  { e with phase := if e.gone then .out else .wait, gone := false, run := none, waits := 0 }

/-- An engine leaves service (R143, R156): its request is withdrawn at once, a STOP is finished, and its GRANTS stand. -/
def engineLeave (e : Engine) : Engine :=
  { e with phase := if e.phase = .stop then .stop else .out, gone := e.phase == .stop, run := none, waits := 0, leaves := none }

/-- R64: what a first execution that ends now adds to the measured load; replays go to HEALTH_STATUS (R176). -/
def countCycles (s : State) (r : Ready) (since : Nat) : State :=
  if r.attempt = 0 then
    if r.task.kind ≠ .op then s
    else { s with graph := { s.graph with
      meter := { s.graph.meter with cycles := s.graph.meter.cycles + (s.cycle - since) + 64 } } }
  else { s with health := { s.health with repNow := s.health.repNow + (s.cycle - since) + 64 } }

/-- Task `r` of block `k` retires on an engine: its writes, its counts, and the tasks that become ready after it. -/
def retireTask (s : State) (k : Bsn) (me : Bool) (i : Nat) (r : Ready) (since : Nat) : State :=
  let m := activeImage s
  let s := commitTask (countCycles s r since) m k r.task
  let d := modEngine s.drover me i engineFree
  let d := { d with retired := d.retired ++ [r.task], byUnit := (r.task, ⟨if me then .me else .oe, i, 0⟩) :: d.byUnit }
  let d := { d with coming := d.coming ++ readied m d r.task }
  addCount { s with drover := d } .retiredTotal 31 0 1

/-- The tasks whose last dependency retired in the cycle before become ready (R130, R138). -/
def comeReady (s : State) : State :=
  if s.drover.coming.isEmpty then s
  else
    let m := activeImage s
    (readyOrder m s.drover.coming).foldl (makeReady m s.cycle) { s with drover := { s.drover with coming := [] } }

/-! ## Held tasks, refills, STOP (R138, R139, R143) -/

/-- The held task that is admitted next: the lowest flow among those whose Pen has room, with a free record. -/
def nextHeld (s : State) : Option (Held × Nat) :=
  let m := activeImage s
  let d := s.drover
  match freeRecord d with
  | none => none
  | some rec =>
    let ok := d.held.filter (fun h => penRoom d (ringSize s) (taskPen m h.task))
    match ok with
    | [] => none
    | h :: hs => some (hs.foldl (fun a b => if taskFlow m b.task < taskFlow m a.task then b else a) h, rec)

/-- HELD_ADMIT (R138): one task per fabric cycle. -/
def execHeldAdmit (s : State) : Step :=
  match (if s.drover.admitAt = some s.cycle then none else nextHeld s) with
  | none => .next s
  | some (h, rec) =>
    let p := taskPen (activeImage s) h.task
    let d := { s.drover with held := s.drover.held.erase h, admitAt := some s.cycle }
    let x := penPut d p (newReady s (activeImage s) h.task (some rec) s.cycle)
    .next (countPlaced { s with drover := x.1 } p x.2)

/-- A report on its way to the fault table (R158, R167). -/
def sendReport (s : State) (r : FaultReport) (injected : Bool) (t : Option Task) : State :=
  { s with health := { s.health with
    reports := s.health.reports ++ [⟨r, injected, s.bsn, s.cycle, t⟩] } }

/-- A descriptor's check word holds (R129, R139). -/
def descriptorOk (d : List Byte) : Bool := leField d 0x3C 4 == crc32c (d.take 0x3C)

/-- A descriptor that the refill writes to the on-die list in cycle `c`: its check word is tested, and one that fails is
rebuilt from its in-flight record and the graph tables (R139). -/
def refilled (s : State) (bad : Bool) (r : Ready) : Ready :=
  { r with listed := s.cycle,
           desc := if bad || !descriptorOk r.desc then descriptor s (activeImage s) r.task r.record r.attempt else r.desc }

/-- ENGINE_STOP_END (R143, R152): the engine returns to WAIT. -/
def execEngineStopEnd (u : UnitRef) (s : State) : Step :=
  match engineOf u with
  | none => .next s
  | some (me, i) =>
    if (engineAt s.drover me i).phase = .stop then .next { s with drover := modEngine s.drover me i engineFree }
    else .next s

/-! ## Cancel and completion records (R150-R154, R157) -/

/-- An engine at a cancel: a task it holds is abandoned (R152); the grant counts are handed over (R156). -/
def engineCancel (e : Engine) : Engine :=
  let e := if e.phase = .busy then { e with phase := .stop, run := none, since := 0 } else e
  { e with grants := e.now, now := 0 }

/-- Cycles of the replay execution that an engine runs, from its grant to a stop now, plus 64 (R176). -/
def stopCycles (s : State) (e : Engine) : Nat :=
  match e.phase, e.run with
  | .busy, some r =>
    if r.attempt = 0 then 0 else (s.cycle + Config.blockCycles - e.since) % Config.blockCycles + 64
  | _, _ => 0

/-- Tasks of a flow in an image. -/
def flowTasks (m : Memory) (f : Nat) : List Task := (allTasks m).filter (fun t => t.kind == .op && taskFlow m t == f)

/-- Completion record of a flow: retired, cancelled, replays (R157). -/
def flowRecord (m : Memory) (d : Drover) (f : Nat) : Nat × Nat × Nat :=
  let ts := flowTasks m f
  let r := (ts.filter (fun t => d.retired.contains t)).length
  (r, ts.length - r, min 15 ((assocFind f d.flowRep).getD 0))

/-- Tasks of the block that did not retire. -/
def unretired (m : Memory) (d : Drover) : List Task := (allTasks m).filter (fun t => !d.retired.contains t)

/-- No task is left in any list (R150, R151). -/
def tasksGone (d : Drover) : Drover :=
  { d with block := none, pens := List.replicate 32 [], rings := List.replicate 32 [], moves := [], replays := [],
           waiting := [], bankHold := [], held := [], coming := [], retired := [], byUnit := [], flowRep := [] }

/-- RUN of the task that an engine holds is over (R143, R144). -/
def ranOut (s : State) (e : Engine) (t : Task) : Bool :=
  decide (e.since + 16 + taskCost s (activeImage s) t + e.waits < s.cycle)

/-- The outputs of the attempts that a cancel ends (R77, R172). -/
def strayAll (s : State) (m : Memory) (k : Bsn) : State :=
  (s.drover.oes ++ s.drover.mes).foldl (fun u e =>
    match e.phase, e.run with
    | .busy, some r => strayWrites u m k r.task (ranOut s e r.task) false
    | _, _ => u) s

/-- The cancel of R150 and R153 with its completion records: every list empties, every engine that holds a task enters
STOP, the counters of R155 grow, and replay executions end with their cycles counted (R176). -/
def cancelBlock (s : State) : State :=
  match s.drover.block with
  | none => s
  | some k =>
    let m := activeImage s
    let d := s.drover
    let left := unretired m d
    let stopped := ((d.oes ++ d.mes).filter (fun e => e.phase == .busy)).length
    let recs := (List.range (hFlows m)).map (flowRecord m d)
    let s := strayAll s m k
    let s := { s with health := { s.health with repNow := s.health.repNow + ((d.oes ++ d.mes).map (stopCycles s)).sum } }
    let s := addCount s .cancelledTotal 31 0 left.length
    let s := addCount s .stoppedTotal 31 0 stopped
    let s := (List.zip (List.range (hFlows m)) recs).foldl (fun u x => addCount u (.flowCanc x.1) 31 0 x.2.2.1) s
    { s with drover := { tasksGone d with
      lastBsn := k, done := recs, oes := d.oes.map engineCancel, mes := d.mes.map engineCancel } }

/-- STATE code of an engine (R143, R156): RUN lasts the task's cost and its bank-port waits. -/
def engineState (s : State) (e : Engine) : Nat :=
  match e.phase with
  | .out => 0
  | .wait => 1
  | .stop => 5
  | .busy =>
    let cost := match e.run with
      | some r => taskCost s (activeImage s) r.task
      | none => 0
    if s.cycle ≤ e.since + 16 then 2 else if s.cycle ≤ e.since + 16 + cost + e.waits then 3 else 4

end Sys2Proof.Machine
end

