-- ==== Sys2Proof/Machine/Operands.lean ====
section
/-!
DEFINITION. Operand forms of the commands: the little-endian fields of a command payload and of a reply payload (R4,
R391, R392).
-/

namespace Sys2Proof.Machine

open Sys2Proof

/-- Payload lengths. -/
def lenIs (n : Nat) (p : List Byte) : Bool := p.length == n

/-- Fields of a payload. -/
def pay8 (q : Request) (o : Nat) : Nat := leField q.payload o 1
def pay16 (q : Request) (o : Nat) : Nat := leField q.payload o 2
def pay32 (q : Request) (o : Nat) : Nat := leField q.payload o 4
def payBsn (q : Request) (o : Nat) : Bsn := toBsn (leField q.payload o 5)

/-- Fields of a reply. -/
def u8 (v : Nat) : List Byte := leBytes 1 v
def u16 (v : Nat) : List Byte := leBytes 2 v
def u32 (v : Nat) : List Byte := leBytes 4 v
def i16 (v : Int) : List Byte := leBytes 2 (ofSigned 16 v)
def i32 (v : Int) : List Byte := leBytes 4 (ofSigned 32 v)
def bsn8 (b : Bsn) : List Byte := leBytes 8 b.toNat
def csn8 (c : Csn) : List Byte := leBytes 8 c.toNat
def zeros (n : Nat) : List Byte := List.replicate n 0#8

end Sys2Proof.Machine
end

