-- ==== Sys2Proof/Machine/Banks.lean ====
section
/-!
DEFINITION. What the banks store (ch. 05): the words of buffers, images and descriptors under their tags (R37, R38), the code
of a bank word (R163), its flipped cells and poison form (R164), what a read of it meets (R164, R165), and the local buffer's
words (R160). Where a word lies is the device's own (R55): `Config.place`.
-/

namespace Sys2Proof.Machine

open Sys2Proof

/-! ## Words of buffers and images (R37, R38, R77) -/

/-- Word `w` of the blob area. -/
def blobAreaWord (m : Memory) (w : Nat) : Nat := imgN m (hBlobOff m + 32 * w) 32

/-- Word `w` of a LINE buffer: the samples of its ring position, oldest first, and its tag (R37, R38); `next` is the ring
position that is written next. The words are those of one ring per channel, which a block advances by four; the staging words
of R172 lie outside them (DESIGN CHOICE, log entry 78). -/
def lineWord (hist : List (List Int)) (tags : List Nat) (next w : Nat) : Nat :=
  let n := max 1 tags.length
  let k := (next + n - 1 - w % n) % n
  (packWords 40 6 (tags.getD k 0) ((((hist.getD (w / n) []).drop (6 * k)).take 6).reverse) 1).getD 0 0

/-- The tag of word `w` of a SIGNAL buffer that block `k` wrote (R165). -/
def signalTag (w : Nat) (k : Bsn) : Nat := w * 2 ^ 14 + k.toNat % 2 ^ 14

/-- Word `w` of a buffer of the ACTIVE slot (R37, R38, R59, R77, R165). A STATE buffer that no task has written since the
activation holds its initial contents with the tag of block n. -/
def activeWord (m : Memory) (b : BufEntry) (d : BufData) (w : Nat) : Nat :=
  match d with
  | .signal xs ns => (packWords 40 6 (signalTag w (ns.getD w 0#40)) (xs.drop (6 * w)) 1).getD 0 0
  | .state vals n fresh =>
    if fresh then (initWords m b).getD w 0 + n.toNat % 2 ^ 16 * 2 ^ 240
    else (stateWordsOf (opEntry m b.producer) b.len (n.toNat % 2 ^ 16) vals).getD w 0
  | .line hist tags next _ _ => lineWord hist tags next w

/-! ## What a bank word holds (R55, R163, R184, R418) -/

def bankAt (s : State) (b : Nat) : Bank := s.health.banks.getD b {}

/-- Change the health state, a bank. -/
def modHealth (s : State) (f : Health → Health) : State := { s with health := f s.health }
def modBank (s : State) (b : Nat) (f : Bank → Bank) : State := modHealth s (fun h => { h with banks := modAt h.banks b f })

/-- Sizes of what is placed: the slots' images and footprints, and the Paddock. -/
def placeKey (s : State) : List Nat :=
  s.graph.slots.flatMap (fun x => [x.imageLen, x.footprint]) ++ [ringSize s]

/-- Fabric cycles of a copy per word: 10 of CK_MEM (R184). -/
def copyWord : Nat := 20

/-- The copy that runs has copied word `w` (R184). -/
def wordCopied (s : State) (m : Migration) (w : Nat) : Bool :=
  m.copied || (ckSys s && decide ((w + 1) * copyWord ≤ m.before * Config.blockCycles + cyclesSince s m.begun 0))

/-- The copy that runs has copied word `w` of its source to bank `b`, which every write to the source reaches too (R184). -/
def copiedFrom (s : State) (b w : Nat) : Option Nat :=
  s.health.migration.bind (fun m => if m.dst = b ∧ wordCopied s m w = true then some m.src else none)

/-- The bank address whose word `w` a bank holds. -/
def bankRole (s : State) (b w : Nat) : Option Nat :=
  match copiedFrom s b w with
  | some src => (bankAt s src).role
  | none => (bankAt s b).role

/-- What a bank word holds that has nothing placed in it: zero since SRAM was initialised until a graph is loaded, later what
was left there. -/
def staleData (s : State) (b w : Nat) : Nat := if s.sramClean then 0 else (Config.staleWord b w).toNat

/-- Half `h` of a Paddock descriptor. -/
def descriptorHalf (d : Drover) (pen n h : Nat) : Option Nat :=
  ((d.rings.getD pen [])[n]?).map (fun r => leField r.desc (32 * (h % 2)) 32)

/-- The data of a place; none where nothing is there. The second copy of a STATE buffer and the staging words of a LINE buffer
(R172) hold what was left in them. -/
def placeData (s : State) (p : Config.BankPlace) : Option Nat :=
  let x := slotAt s p.slot
  match p.kind with
  | 1 => if x.phase = .empty then none else some (imgN x.image (32 * p.word) 32)
  | 2 =>
    if x.phase ≠ .active ∨ (bufEntry x.image p.item).len ≤ p.word then none
    else (s.graph.bufs[p.item]?).map (fun d => activeWord x.image (bufEntry x.image p.item) d p.word)
  | 3 => descriptorHalf s.drover p.item p.slot p.word
  | _ => none

/-- The 256 data bits that word `w` of bank `b` stands for, tag included (R163, R418). -/
def bankData (s : State) (b w : Nat) : BitVec 256 :=
  BitVec.ofNat 256 (match bankRole s b w with
    | some r => (placeData s (Config.place r w (placeKey s))).getD (staleData s b w)
    | none => staleData s b w)

/-! ## The code (R163) -/

/-- The remainder of a polynomial over GF(2) of degree below `n` + 18, shifted left by 18, modulo the generator of R163, bit
by bit from the highest. -/
def bchRemainder : Nat → Nat → Nat → Nat
  | 0, _, r => r
  | n + 1, v, r =>
    let b := Nat.xor (r / 2 ^ 17) (v / 2 ^ n % 2)
    bchRemainder n v (if b = 1 then Nat.xor (r * 2 % 2 ^ 18) Config.bchGenerator.toNat else r * 2 % 2 ^ 18)

/-- Parity of the lowest `n` bits. -/
def parityOf : Nat → Nat → Nat
  | 0, _ => 0
  | n + 1, v => (v / 2 ^ n + parityOf n v) % 2

/-- R163: the 19 check bits of a bank word: the 18 of the shortened BCH code, data bit 255 first, and the overall parity bit
above them (DESIGN CHOICE for the order of the bits, log entry 67). -/
def checkBits (v : Nat) : Nat :=
  let r := bchRemainder 256 v 0
  r + (parityOf 256 v + parityOf 18 r) % 2 * 2 ^ 18

/-- Bits as a number. -/
def bitsOf (l : List Nat) : Nat := l.foldl (fun a i => Nat.xor a (2 ^ i)) 0

/-- What the code sees of flipped cells: zero for a word without errors. -/
def syndrome (flips : List Nat) : Nat :=
  let v := bitsOf flips
  Nat.xor (checkBits (v % 2 ^ 256)) (v / 2 ^ 256)

/-- R164: four or more flipped cells that the code takes for one or two others. -/
def miscorrects (flips : List Nat) : Bool :=
  let z := syndrome flips
  z == 0 || (List.range 275).any (fun i => syndrome [i] == z || (List.range i).any (fun j => syndrome [i, j] == z))

/-! ## Flipped cells and poison (R164) -/

/-- Cells flip: a bit that flips twice is as it was. -/
def toggled (l bits : List Nat) : List Nat := bits.foldl (fun a b => if a.contains b then a.filter (· != b) else a ++ [b]) l

/-- The flipped cells of a word: those noted since its data was last written. A write of the same data is not told apart from none
(log entry 67). -/
def flipsOf (s : State) (b w : Nat) : List Nat :=
  match (bankAt s b).flips.find? (fun x => x.1 == w) with
  | some (_, l, d) => if d = bankData s b w then l else []
  | none => []

/-- Note the flipped cells of a word. -/
def setFlips (s : State) (b w : Nat) (l : List Nat) : State :=
  if l.isEmpty && !(bankAt s b).flips.any (fun x => x.1 == w) then s
  else
    let d := bankData s b w
    modBank s b (fun k => { k with flips := (if l.isEmpty then [] else [(w, l, d)]) ++ k.flips.filter (fun x => x.1 != w) })

/-- A word is in poison form until the next full-word write; a copy takes the poison of its source (R164, R184). -/
def poisoned (s : State) (b w : Nat) : Bool :=
  ((bankAt s b).poison ++ (match copiedFrom s b w with
    | some src => (bankAt s src).poison
    | none => [])).any (fun x => x.1 == w && x.2 == bankData s b w)

/-- The word is rewritten in its poison form (R164). -/
def poison (s : State) (b w : Nat) : State :=
  let d := bankData s b w
  modBank s b (fun k => { k with
    poison := (w, d) :: k.poison.filter (fun x => x.1 != w), flips := k.flips.filter (fun x => x.1 != w) })

/-- A read of a word with these flipped cells finds it uncorrectable (R164). -/
def wordFails (s : State) (b w : Nat) (l : List Nat) : Bool :=
  poisoned s b w || l.length == 3 || (decide (4 ≤ l.length) && !miscorrects l)

/-- A cell of a bank flips. -/
def upset (s : State) (x : Nat × Nat × Nat) : State :=
  if x.1 < 18 then setFlips s x.1 x.2.1 (toggled (flipsOf s x.1 x.2.1) [x.2.2]) else s

/-- The 275 bits stored in a word: the poison form, or the code word with its flipped cells (R163, R164, R418). -/
def storedBits (s : State) (b w : Nat) : Nat :=
  let d := bankData s b w
  if poisoned s b w then (Config.poisonForm d).toNat
  else Nat.xor (d.toNat + checkBits d.toNat * 2 ^ 256) (bitsOf (flipsOf s b w))

/-- One 36-byte record of SVC_RAW_READ (R418). -/
def rawRecord (s : State) (b w : Nat) : List Byte :=
  let v := storedBits s b w
  leBytes 32 (v % 2 ^ 256) ++ leBytes 3 (v / 2 ^ 256) ++ zeros 1

/-! ## Tags (R165) -/

/-- The tag that word `i` of a buffer must hold when a task of block `k` reads it; none where no check is made (R165, R178). -/
def wantedTag (s : State) (k : Bsn) (buf i : Nat) : Option Nat :=
  match s.graph.bufs[buf]? with
  | some (.signal _ _) => some (signalTag i k)
  | some (.state _ n _) => some (n.toNat % 2 ^ 16)
  | some (.line _ tags next voids _) =>
    let n := max 1 tags.length
    let age := (next + n - 1 - i % n) % n
    if voids.any (fun v => decide (4 * bsnSince k v ≤ age + 4) && decide (age < 4 * bsnSince k v)) then none
    else tags[age]?
  | none => none

/-! ## The local buffer (R160) -/

/-- A stored local-buffer word is a word of the code. -/
def localOk (v : BitVec 72) : Bool := Config.secded (v.setWidth 64) == (v >>> 64).setWidth 8

/-- R160: what a read of a local-buffer word meets: 0 no error, 1 a single-bit error, 2 an uncorrectable one. -/
def localErrors (v : BitVec 72) : Nat :=
  if localOk v then 0 else if (List.range 72).any (fun i => localOk (v ^^^ (1#72 <<< i))) then 1 else 2

end Sys2Proof.Machine
end

