-- ==== Sys2Proof/Machine/Engine.lean ====
section
/-!
DEFINITION. The command engine (R395-R404): the acceptance steps 3 to 8 of a packet, places, replies, and what a
completed or waiting command leaves. Every opcode's meaning is one call of `runOp` with its own checks and effect.
-/

namespace Sys2Proof.Machine

open Sys2Proof

/-- Codes of R402. -/
def statusCode : Status → Nat
  | .ok => 0 | .accepted => 1 | .busy => 2 | .badOpcode => 3 | .badLength => 4 | .badCrc => 5 | .denied => 6
  | .range => 7 | .state => 8 | .aborted => 9 | .tooLate => 10 | .unknownTag => 11 | .fault => 12 | .otpFail => 13
  | .noSpace => 14

/-- Minimum class of every defined opcode (R417); none for the others. -/
def opClass (op : Nat) : Option Nat :=
  if [0x00, 0x01, 0x02, 0x03, 0x05, 0x11, 0x16, 0x25, 0x26, 0x30, 0x31, 0x32, 0x40, 0x43, 0x48, 0x50, 0x52, 0x60, 0x62,
      0x69, 0x70, 0x71, 0x80, 0x81, 0x83, 0x84, 0x90, 0xA0, 0xA2].contains op then some 0
  else if [0x10, 0x12, 0x13, 0x14, 0x15, 0x27, 0x33, 0x41, 0x42, 0x4A, 0x51, 0x53, 0x61, 0x63, 0x68, 0x82, 0x91, 0x92,
      0xA1, 0xB0].contains op then some 1
  else if [0x04, 0x06, 0x20, 0x21, 0x22, 0x23, 0x24, 0x49, 0x72, 0x73, 0x74, 0x75, 0x85, 0x86, 0xB1].contains op then
    some 2
  else if [0x76, 0x87, 0xF0, 0xF1].contains op then some 3
  else none

/-- R475: opcodes refused with STATE in RETAIN and LISTEN. -/
def lowRefused (op : Nat) : Bool :=
  within op 0x20 0x24 || op == 0x33 || op == 0x49 || op == 0x4A || within op 0x61 0x63 || op == 0x68 ||
    within op 0x72 0x76 || op == 0x86 || op == 0x87 || op == 0xB0 || op == 0xB1 || op == 0xF0 || op == 0xF1

/-- The outcome of an opcode's own checks at step 8 and of its acceptance. -/
inductive Verdict where
  /-- refused, or complete with a status that is not OK, with the payload its chapter gives with that status -/
  | refuse (st : Status) (payload : List Byte)
  /-- complete with OK -/
  | done (s : State) (payload : List Byte)
  /-- complete with another status and the effect that its chapter gives with it -/
  | fail (s : State) (st : Status) (payload : List Byte)
  /-- accepted; completes later. `early` is the payload of an ACCEPTED reply where the list has that status (R400) -/
  | pend (s : State) (job : Job) (early : Option (List Byte))
  /-- accepted, and no reply is ever sent (R414) -/
  | silent (s : State)

/-- The port can receive a packet: it accepts, ADDR_B is acknowledged (R432), and the SPI transaction carries bytes (R430). -/
def portOpen (s : State) (p : PortId) : Bool :=
  accepts s && (p != .addrB || bit s.bus.effCfg.toNat 2) && !(p == .spi && s.bus.spiDead)

/-- R395 step 3. -/
def tagHeld (s : State) (p : PortId) (tag : Byte) : Bool := (getPort s p).outstanding.any (fun o => o.tag == tag)

/-- R397: all 32 places taken. -/
def placesFull (s : State) (p : PortId) : Bool := decide (32 ≤ (getPort s p).outstanding.length)

/-- R398: a reply through the reserved slot, or a discard where the slot holds an undelivered reply. -/
def reservedReply (s : State) (p : PortId) (op tag : Byte) (st : Status) : State :=
  if (getPort s p).replies.any (fun r => r.reserved) then dropPacket s p 2 op.toNat tag.toNat
  else modPort s p (fun q => { q with
    replies := q.replies ++ [{ op := op, tag := tag, status := st, payload := [], reserved := true }] })

/-- Take an outstanding place at step 4 (R397). -/
def takePlace (s : State) (p : PortId) (op tag : Byte) : State :=
  let o : Outstanding := { tag := tag, op := op, seq := s.seq, job := .none, bsn := s.bsn, cycle := s.cycle,
                           final := false, slot := 0xFF }
  modPort { s with seq := s.seq + 1 } p (fun q => { q with outstanding := q.outstanding ++ [o] })

/-- An accepted MEM_READ or MEM_WRITE keeps the slot it names for as long as it is outstanding (R69, R73, R397). -/
def noteSlot (s : State) (q : Request) (op : Byte) : State :=
  if op = 0xB0#8 ∨ op = 0xB1#8 then
    modPort s q.port (fun p => { p with outstanding := p.outstanding.map (fun o =>
      if o.tag = q.tag then { o with slot := leField q.payload 0 1 } else o) })
  else s

/-- Give the place of a tag its job. -/
def setJob (s : State) (p : PortId) (tag : Byte) (j : Job) : State :=
  modPort s p (fun q => { q with outstanding := q.outstanding.map (fun o => if o.tag = tag then { o with job := j } else o) })

/-- What acceptance makes of a verdict (R396, R399, R400); `t` is the state before the opcode acted. -/
def settle (t : State) (q : Request) (op : Byte) (v : Verdict) : State :=
  match v with
  | .refuse st payload => answerNow t q.port q.tag op st payload
  | .done u payload => noteSlot (answerNow u q.port q.tag op .ok payload) q op
  | .fail u st payload => answerNow u q.port q.tag op st payload
  | .silent u => u
  | .pend u j early =>
    let u := noteSlot (setJob u q.port q.tag j) q op
    match early with
    | some payload => if bit q.flags.toNat 0 then earlyReply u q.port q.tag op payload else u
    | none => u

/-- Steps 6 to 8 of R395 with the refusal of R475, on the state that holds the place. -/
def judge (op : Nat) (lenOk : List Byte → Bool) (body : State → Request → Verdict) (q : Request) (t : State) : Verdict :=
  if (getPort t q.port).cls < (opClass op).getD 4 then .refuse .denied []
  else if !lenOk q.payload then .refuse .badLength []
  else if modeLow t && lowRefused op then .refuse .state []
  else body t q

/-- Steps 3 to 8 of R395 for a packet of a defined opcode. -/
def runOp (op : Nat) (lenOk : List Byte → Bool) (body : State → Request → Verdict) (q : Request) (s : State) : State :=
  let ob := BitVec.ofNat 8 op
  if !portOpen s q.port then s
  else if tagHeld s q.port q.tag then dropPacket s q.port 1 op q.tag.toNat
  else if placesFull s q.port then reservedReply s q.port ob q.tag .busy
  else
    let t := takePlace s q.port ob q.tag
    settle t q ob (judge op lenOk body q t)

/-- Step 5 of R395: a packet of an opcode that R417 does not define. -/
def badOpcode (q : Request) (op : Byte) (s : State) : State :=
  if !portOpen s q.port then s
  else if tagHeld s q.port q.tag then dropPacket s q.port 1 op.toNat q.tag.toNat
  else if placesFull s q.port then reservedReply s q.port op q.tag .busy
  else answerNow (takePlace s q.port op q.tag) q.port q.tag op .badOpcode []

/-- A port's class. -/
def classOf (s : State) (q : Request) : Nat := (getPort s q.port).cls

/-- SERVICE is enabled (R408). -/
def serviceOn (s : State) : Bool := s.otp.service && !bit s.otp.locks 1

end Sys2Proof.Machine
end

