-- ==== Sys2Proof/Machine/Events.lean ====
section
/-!
DEFINITION. The event rows (R458-R468): reading, peeking, clearing, draining the AON queue, and the alert packet's
composition (R463).
-/

namespace Sys2Proof.Machine

open Sys2Proof

/-- Pending bits, those held in AON included (R459, R461). -/
def pendingBits (s : State) : BitVec 128 := s.events.pend ||| s.events.aonPend

/-- IRQn is asserted: some pending event routes to it (R460). -/
def irqActive (s : State) (n : Nat) : Bool :=
  (List.range 128).any (fun e => (pendingBits s).getLsbD e && bit (evCfg s e) (1 + n))

/-- The level at pin IRQn (R460): open drain never drives high, and without VDDIO2 the pin is Hi-Z. -/
def irqPin (s : State) (n : Nat) : PinBit :=
  let high := irqActive s n == bit (evGlobal s) (2 * n)
  if !s.power.pwrEn0 then .hiZ
  else ioPin s n (if !high then .low else if bit (evGlobal s) (2 * n + 1) then .hiZ else .high)

/-- EV_STATUS (R464). -/
def evStatusWord (s : State) : Nat :=
  s.events.fifo.length + b2n (irqActive s 0) * 256 + b2n (irqActive s 1) * 512 +
    b2n s.events.alert.isSome * 1024 + s.events.lost * 65536

/-- The 16 bytes of a record (R455). -/
def recordBytes (r : EvRecord) : List Byte :=
  u8 r.num ++ u8 (b2n r.merged + b2n r.alerted * 2 + b2n r.queued * 4) ++ u16 r.count ++ leBytes 5 r.bsn.toNat ++
    leBytes 3 r.cycle ++ u32 r.payload.toNat

/-- EVENT_STATUS (R465). -/
def doEventStatus : Request → State → State :=
  runOp 0x50 (lenIs 0) (fun s _ =>
    .done s (u32 (evStatusWord s) ++ leBytes 16 (pendingBits s).toNat ++ bsn8 s.bsn ++ zeros 4))

/-- EVENT_STATUS (R465). -/
def execEventStatus (q : Request) (s : State) : Step := .next (doEventStatus q s)

/-- Remove up to `n` records, clear the pending bits of those with no further record when asked, a bit set in the same cycle
excepted (R459), and write the EV108 record of R458 after records were lost; with EN 0 none is written, and the count goes on. -/
def takeRecords (s : State) (n : Nat) (clear : Bool) : State :=
  let got := s.events.fifo.take n
  let rest := s.events.fifo.drop n
  let gone := got.filter (fun r => !rest.any (fun x => x.num == r.num))
  let off (b : BitVec 128) : BitVec 128 :=
    if clear then gone.foldl (fun b r => b &&& ~~~(1#128 <<< r.num)) b ||| (b &&& newPending s) else b
  let e := { s.events with fifo := rest, pend := off s.events.pend, aonPend := off s.events.aonPend }
  if !got.isEmpty && 0 < e.lostSince && bit (evCfg s 108) 0 then
    raise { s with events := { e with lostSince := 0 } } 108 e.lostSince
  else { s with events := e }

/-- EVENT_READ (R466). -/
def doEventRead : Request → State → State :=
  runOp 0x51 (lenIs 4) (fun s q =>
    let n := pay8 q 0
    if !within n 1 64 then .refuse .range []
    else
      let got := s.events.fifo.take n
      .done (takeRecords s n (bit (pay8 q 1) 0)) (u8 got.length ++ zeros 3 ++ got.flatMap recordBytes))

/-- EVENT_READ (R466). -/
def execEventRead (q : Request) (s : State) : Step := .next (doEventRead q s)

/-- The records at positions `f` to `f + n − 1` take no merge in this cycle (R457). -/
def peekRecords (s : State) (f n : Nat) : State :=
  let mark (r : EvRecord) : EvRecord := { r with peeked := some (s.bsn, s.cycle) }
  { s with events := { s.events with
      fifo := s.events.fifo.take f ++ ((s.events.fifo.drop f).take n).map mark ++ s.events.fifo.drop (f + n) } }

/-- EVENT_PEEK (R467). -/
def doEventPeek : Request → State → State :=
  runOp 0x52 (lenIs 4) (fun s q =>
    let f := pay8 q 0
    let n := pay8 q 1
    if !(within f 0 63 && within n 1 64 && decide (f + n ≤ 64)) then .refuse .range []
    else
      let got := (s.events.fifo.drop f).take n
      .done (peekRecords s f n) (u8 got.length ++ zeros 3 ++ got.flatMap recordBytes))

/-- EVENT_PEEK (R467). -/
def execEventPeek (q : Request) (s : State) : Step := .next (doEventPeek q s)

/-- Clear the pending bits of a mask, but for those set in this cycle (R459), and with FLUSH both lists and LOST (R468). -/
def clearEvents (s : State) (mask : BitVec 128) (flush : Bool) : Events :=
  let mask := mask &&& ~~~newPending s
  let e := { s.events with pend := s.events.pend &&& ~~~mask, aonPend := s.events.aonPend &&& ~~~mask }
  if flush then { e with fifo := [], aonQueue := [], lost := 0, lostSince := 0 } else e

/-- EVENT_CLEAR (R468). -/
def doEventClear : Request → State → State :=
  runOp 0x53 (lenIs 20) (fun s q =>
    let e := clearEvents s (BitVec.ofNat 128 (leField q.payload 0 16)) (bit (pay8 q 16) 0)
    .done { s with events := e } [])

/-- EVENT_CLEAR (R468). -/
def execEventClear (q : Request) (s : State) : Step := .next (doEventClear q s)

/-- AON_QUEUE_DRAIN (R461): once the event controller is clocked, queued records enter the FIFO in queue order with
QUEUED set, and their pending bits join the others. -/
def execAonQueueDrain (s : State) : Step :=
  if evClocked s then .next (drainAon s) else .next s

/-! ## Alert packets (R463) -/

/-- ALERT_EN as the interface uses it now (R452). -/
def alertEn (s : State) : Bool := bit s.bus.effCfg.toNat 3

/-- A record for which an alert is due: no alert packet has carried it (R463). -/
def alertable (r : EvRecord) : Bool := r.due && !r.alerted

/-- ALERT_HOLD ms have passed since the last alert (R463). -/
def alertHoldOver (s : State) : Bool :=
  match s.events.alertEnd with
  | none => true
  | some x => usPassed s (bits (evGlobal s) 15 8 * 1000) x.1 x.2

/-- The alert packet of a record, from the FIFO as it stands (R463). -/
def alertBytes (s : State) (r : EvRecord) (more : Bool) : List Byte :=
  let body := [0x5F#8, 0xFF#8, 0x00#8] ++ u16 20 ++ recordBytes { r with alerted := true } ++
    u8 s.events.fifo.length ++ u8 (b2n more + b2n (decide (0 < s.events.lost)) * 2) ++ zeros 2
  0xA5#8 :: body ++ u32 (crc32c body)

/-- ALERT_COMPOSE (R463): the oldest record that is due is carried, with its ALERTED flag set. -/
def execAlertCompose (s : State) : Step :=
  if !alertEn s || s.events.alert.isSome || !alertHoldOver s then .next s
  else match s.events.fifo.findIdx? alertable with
    | none => .next s
    | some i =>
      match s.events.fifo[i]? with
      | none => .next s
      | some r =>
        let more := decide (1 < (s.events.fifo.filter alertable).length)
        .next { s with events := { s.events with
          fifo := s.events.fifo.set i { r with alerted := true },
          alert := some { num := r.num, bytes := alertBytes s r more, tries := 0, phase := .waiting } } }

end Sys2Proof.Machine
end

