-- ==== Sys2Proof/Machine/Flags.lean ====
section
/-!
DEFINITION. The status words: every read-only field of the register map, computed from State, and the word that
PARAM_READ returns for a register outside space 0x1 (R6-R10, R155-R157, R215, R251, R284, R285, R337, R338, R384, R385,
R453, R464, R516).
-/

namespace Sys2Proof.Machine

open Sys2Proof

/-! ## Units in service (R156, R193) -/

/-- Spare operator engines available: spares that are neither promoted nor marked failed. -/
def spareOes (d : Drover) : Nat := (d.oes.filter (fun e => e.spare)).length

/-- Spare banks and decimators available. -/
def spareBanks (h : Health) : Nat := (h.banks.filter (fun b => !b.inSvc && !b.failed)).length
def spareDecs (h : Health) : Nat := (h.decs.filter (fun x => !x.inSvc && !x.failed)).length

/-- DRV_STATUS (R156). -/
def drvStatusWord (s : State) : Nat :=
  let d := s.drover
  min 63 (enginesE d) + spareOes d * 2 ^ 8 + (recordsUsed d).length * 2 ^ 16 + b2n (!d.held.isEmpty) * 2 ^ 26 +
    b2n d.block.isSome * 2 ^ 27

/-- ENG_OE and ENG_ME (R156). -/
def engWord (s : State) (e : Engine) : Nat := engineState s e + b2n e.spare * 8 + e.grants * 2 ^ 16

/-- FLOW_DONE (R157); beyond the ACTIVE graph's flow count it reads 0 (R155). -/
def flowDoneWord (s : State) (f : Nat) : Nat :=
  match s.drover.done[f]? with
  | some (r, c, n) => if f < hFlows (activeImage s) then r + c * 2 ^ 14 + n * 2 ^ 28 else 0
  | none => 0

/-- FLOW_CANC beyond the ACTIVE graph's flow count reads 0 (R155). -/
def flowCancWord (s : State) (f : Nat) : Nat := if f < hFlows (activeImage s) then rcRead s (.flowCanc f) else 0

/-! ## Control ports (R453) -/

/-- Bits of TW_CFG, TW_LIMITS and TW_ADDR as the interface uses them now (R452). -/
def twBits (w : Word) (hi lo : Nat) : Nat := bits w.toNat hi lo

/-- SCL_LOW, SCL_HIGH and SDA_HOLD in TWCLK periods, as the interface uses them now: the preset of SPEED, or with SPEED 3
TW_TIMING (R442). They time its clock, its data hold and its START and STOP (R440, R441). -/
def twCounts (s : State) : Nat × Nat × Nat :=
  let t := s.bus.effTiming
  match twBits s.bus.effCfg 1 0 with
  | 0 => (62, 61, 4)
  | 1 => (17, 14, 3)
  | 2 => (7, 6, 1)
  | _ => (twBits t 7 0, twBits t 15 8, twBits t 19 16)

/-- The bus-free time after a STOP in fabric cycles: SCL_LOW periods of TWCLK, 96 cycles each (R439, R441). -/
def busFreeCycles (s : State) : Nat := (twCounts s).1 * 96

/-- The bus is busy (R444): from a START until SCL_LOW × T after a STOP, or until both lines have been high for 100 µs. -/
def busBusy (s : State) : Bool :=
  s.bus.busy && !s.bus.stopAt.any (fun x => decide (busFreeCycles s ≤ cyclesSince s x.1 x.2))

/-- TW_STATUS. -/
def twStatusWord (s : State) : Nat :=
  b2n (busBusy s) + b2n s.bus.controller * 2 + b2n s.events.alert.isSome * 4 + b2n s.bus.stuck * 8 +
    b2n s.bus.ctrlClk * 16

/-- TW_ADDR with its read-only addresses (R432). -/
def twAddrWord (s : State) : Nat := rd s .twAddr + s.bus.addrA.toNat + s.bus.addrB.toNat * 2 ^ 8

/-! ## Routes and digital ports (R215, R241, R251) -/

/-- A route entry with XF_ACTIVE; `unit` is its unit number. -/
def routeWord (s : State) (r : Reg) (unit : Nat) : Nat := rd s r + b2n (fadeOf s unit).isSome * 2 ^ 24

/-- STATE code of a digital port (R241). -/
def lockCode : LockState → Nat
  | .off => 0 | .noClock => 1 | .acquire => 2 | .locked => 3 | .nonpcm => 4

/-- Flags NONPCM_CS, PREAMBLE and FS_MISMATCH. -/
def dportFlags (d : DPort) : Nat := b2n d.nonpcmCs + b2n d.preamble * 2 + b2n d.fsBad * 4

/-- TP_STATUS, SPI_STATUS and SPO_STATUS of space 0x3. -/
def dportWord (d : DPort) : Nat :=
  lockCode d.state + d.rate * 2 ^ 4 + dportFlags d * 2 ^ 8 + ofSigned 16 d.ppm * 2 ^ 16

/-- Digital port of a port code. -/
def dport (s : State) (p : Nat) : DPort := s.dports.getD p {}

/-- Four channel-status bytes as a word, byte 4k lowest (R248). -/
def csWord (bs : List Byte) (k : Nat) : Nat := leField bs (4 * k) 4

/-! ## Converters and jacks (R284, R285) -/

/-- STATE code of an analog output. -/
def outCode : OutState → Nat
  | .off => 0 | .powerUp => 1 | .on => 2 | .powerDown => 3 | .fault => 4

/-- HP_STATUS and LO_STATUS. -/
def outWord (o : Output) : Nat :=
  outCode o.state + b2n o.railsHigh * 8 + b2n o.limL * 16 + b2n o.limR * 32

/-- KIND code. -/
def kindCode : PlugKind → Nat
  | .none => 0 | .pending => 1 | .threePole => 2 | .ctia => 3 | .omtp => 4 | .invalid => 5

/-- HPJ_STATUS. -/
def hpjWord (j : Jacks) : Nat := b2n j.inserted + kindCode j.kind * 2 + j.button * 16 + j.contactMv * 256

/-! ## Power stage (R337, R338) -/

/-- STATE code of a channel (R321). -/
def chCode : ChState → Nat
  | .off => 0 | .starting => 1 | .play => 2 | .stopping => 3 | .faultWait => 4 | .latched => 5 | .unavailable => 6
  | .diag => 7 | .member => 8

/-- STAGE code. -/
def stageCode : Stage → Nat
  | .unavailable => 0 | .available => 1 | .overvoltage => 2 | .thermal => 3

/-- An output channel. -/
def chan (s : State) (c : Nat) : Chan := s.stage.chans.getD c {}

/-- HB_STATUS (c below 16) and XP_STATUS. -/
def chanWord (s : State) (c : Nat) : Nat :=
  let x := chan s c
  chCode x.state + x.cause * 16 + x.retries * 256 +
    if c < 16 then
      b2n x.loop * 2 ^ 12 + b2n (decide (0 < x.limLast)) * 2 ^ 13 + b2n x.sag * 2 ^ 14 +
        b2n (decide (0 < s.stage.gf)) * 2 ^ 15 + b2n x.senseOk * 2 ^ 16
    else 0

/-- PS_STATUS. -/
def psStatusWord (p : PStage) : Nat := p.pvdd + stageCode p.stage * 2 ^ 16

/-! ## Clocks (R384, R385) -/

/-- Root state code. -/
def rootCode : RootState → Nat
  | .off => 0 | .restart => 1 | .freerun => 2 | .pullin => 3 | .track => 4 | .coast => 5 | .reacquire => 6

/-- ROOT_STATUS. -/
def rootWord (c : Clock) : Nat :=
  rootCode c.state + b2n c.onSafe * 8 + c.xtalSel * 16 + b2n c.xtalFault * 64 + b2n c.refQual * 128 +
    ofSigned 24 c.rootPpm * 256

/-- A ramp of R376 or a stop of R377 runs. -/
def auxRamping (a : Aux) : Bool := a.ratio.isSome || a.stopping

/-- The present offset of a synthesizer, 0.01 ppm: linear inside a segment or a return to 0 (R377). -/
def auxOffset (s : State) (a : Aux) : Int :=
  if s.bsn + 1#40 = a.ofsBsn then a.ofsFrom
  else if usPassed s a.ofsTime a.ofsBsn a.ofsCyc then a.ofsTo
  else
    let den := a.ofsTime * Config.blockCycles
    roundHalfEven (a.ofsFrom * den + (a.ofsTo - a.ofsFrom) * ((cyclesSince s a.ofsBsn a.ofsCyc * 250 : Nat) : Int)) den

/-- AUX_STATUS; OFFSET is rounded to 1 ppm. -/
def auxWord (s : State) (a : Aux) : Nat :=
  b2n a.locked + b2n (auxRamping a) * 2 + b2n a.profile * 4 + a.segment * 8 +
    ofSigned 16 (roundHalfEven (auxOffset s a) 100) * 2 ^ 16

/-- A synthesizer. -/
def auxAt (s : State) (a : Nat) : Aux := s.clock.aux.getD a {}

/-- INT × DEN + NUM, and DEN. -/
def auxWordsOf (s : State) (a : Nat) : Nat × Nat :=
  (rd s (.auxInt a) * rd s (.auxDen a) + rd s (.auxNum a), rd s (.auxDen a))

/-- Nominal f_a in Hz as numerator and denominator (R374). -/
def auxNominal (s : State) (a : Nat) : Nat × Nat :=
  let w := auxWordsOf s a
  (rootHz * w.2, w.1)

/-- f_a before the profile's offset, also while a ratio ramp runs (R376). -/
def auxHz (s : State) (a : Nat) : Nat × Nat :=
  let n := auxNominal s a
  match (auxAt s a).ratio with
  | none => n
  | some (on, od, ms, b) =>
    let us := ms * 1000
    if s.bsn + 1#40 = b then (on, od)
    else if usPassed s us b 0 then n
    else
      let t := cyclesSince s b 0 * 250
      let whole := us * Config.blockCycles
      (on * n.2 * (whole - t) + n.1 * od * t, od * n.2 * whole)

/-- f_a with its present offset, which is in 0.01 ppm (R375, R377). -/
def auxNow (s : State) (a : Nat) : Nat × Nat :=
  let f := auxHz s a
  (f.1 * (100000000 + auxOffset s (auxAt s a)).toNat, f.2 * 100000000)

/-- A synthesizer gives an output: none before it is LOCKED (R374). -/
def auxRuns (s : State) (a : Nat) : Bool := bit (rd s (.auxCfg a)) 0 && (auxAt s a).locked

/-- Root cycles from the last restart of a synthesizer's fractional phase and dividers to the block's start (R382); 0 where none
restarts them. -/
def auxOrigin (s : State) (a : Nat) : Nat :=
  match (auxAt s a).synced with
  | some b => if bit (rd s (.auxCfg a)) 2 then bsnSince s.bsn b * 2 * Config.blockCycles else 0
  | none => 0

/-- SYNC_STATUS; ALIGNED is a follower (REF_SRC 8) in TRACK. -/
def syncWord (s : State) : Nat :=
  b2n s.clock.syncIn + b2n (bits (rd s .rootCfg) 3 0 == 8 && s.clock.state == .track) * 2 +
    ofSigned 16 s.clock.phaseNs * 2 ^ 16

/-! ## Touch (R516) -/

/-- TCH_DATA. -/
def tchDataWord (s : State) (n : Nat) : Nat :=
  let e := s.touch.els.getD n {}
  e.raw + e.base / 256 * 2 ^ 16

/-! ## The word at a register -/

/-- What a read of a register's word returns. -/
def readWord (s : State) : Reg → Nat
  | .drvStatus => drvStatusWord s
  | .lastBsn => s.drover.lastBsn.toNat % 2 ^ 32
  | .engOe n => engWord s (engineAt s.drover false n)
  | .engMe n => engWord s (engineAt s.drover true n)
  | .flowDone n => flowDoneWord s n
  | .flowCanc n => flowCancWord s n
  | .drvHole => 0
  | .spiStatus => spiStatusWord s
  | .twAddr => twAddrWord s
  | .twStatus => twStatusWord s
  | .inRoute n => routeWord s (.inRoute n) n
  | .sinkRoute n => routeWord s (.sinkRoute n) (0x100 + n)
  | .tpStatus n => dportWord (dport s n)
  | .spiStat n => dportWord (dport s (4 + n))
  | .spoStatus => dportWord (dport s 6)
  | .csA n k => csWord (dport s (4 + n)).csA k
  | .csB n k => csWord (dport s (4 + n)).csB k
  | .hpStatus => outWord s.analog.hp
  | .loStatus => outWord s.analog.lo
  | .hpjStatus => hpjWord s.analog.jack
  | .auxjStatus => b2n s.analog.jack.auxIn
  | .hbStatus n => chanWord s n
  | .xpStatus n => chanWord s (16 + n)
  | .psStatus => psStatusWord s.stage
  | .rootStatus => rootWord s.clock
  | .auxStatus n => auxWord s (auxAt s n)
  | .syncStatus => syncWord s
  | .tchData n => tchDataWord s n
  | .evPend n => (pendingBits s).toNat / 2 ^ (32 * n) % 2 ^ 32
  | .evStatus => evStatusWord s
  | r => if r.access = .rc then rcRead s r else rd s r

end Sys2Proof.Machine
end

