-- ==== Sys2Proof/Machine/Otp.lean ====
section
/-!
DEFINITION. The OTP (R490-R494, R499-R505): slots, lock words and the repair log as stored, and the OTP opcodes with
the programming of their words.
-/

namespace Sys2Proof.Machine

open Sys2Proof

/-! ## Words, slots, locks -/

/-- OTP word `i` at the normal read. -/
def otpWord (o : Otp) (i : Nat) : Nat := ((assocFind i o.words).map BitVec.toNat).getD 0

/-- First word of generation slot `g` (R490). -/
def slotBase (g : Nat) : Nat := 288 + 128 * g

/-- R491: CRC-32C over words 0-125 of a slot, given a reader of words. -/
def slotCrc (rdw : Nat → Nat) (g : Nat) : Nat :=
  crc32c ((List.range 126).flatMap (fun i => leBytes 4 (rdw (slotBase g + i))))

/-- R492: all words of a slot read 0. -/
def slotUnused (o : Otp) (g : Nat) : Bool := (List.range 128).all (fun i => otpWord o (slotBase g + i) == 0)

/-- R492: word 127 is NOT word 126 at the normal and at the margin read. -/
def slotCommitted (o : Otp) (g : Nat) : Bool :=
  otpWord o (slotBase g + 127) == 0xFFFFFFFF - otpWord o (slotBase g + 126) &&
    !o.weak.contains (slotBase g + 126) && !o.weak.contains (slotBase g + 127)

/-- R492: a valid slot. -/
def slotValid (o : Otp) (g : Nat) : Bool :=
  slotCommitted o g && otpWord o (slotBase g) == 0x00014E47 && otpWord o (slotBase g + 126) == slotCrc (otpWord o) g

/-- Slot states of R499. -/
def slotState (o : Otp) (g : Nat) : Nat :=
  if o.openGen = some g then 1
  else if slotUnused o g then 0
  else if slotValid o g then 3
  else if slotCommitted o g then 4
  else 2

/-- R492: the slot that a boot applies. -/
def bootSlot (o : Otp) : Option Nat := [4, 3, 2, 1, 0].find? (slotValid o)

/-- CHECK of a lock word over bits [23:0] (R494). -/
def lockCheck (v : Nat) : Nat := crc8 [bits v 23 16, bits v 15 8, bits v 7 0]

/-- Lock words whose CHECK is correct, in index order. -/
def lockWords (o : Otp) : List Nat :=
  ((List.range 32).map (fun i => otpWord o (928 + i))).filter (fun w => w != 0 && lockCheck w == bits w 31 24)

/-- Effective flags at a boot (R494). -/
def bootLocks (o : Otp) : Nat := (lockWords o).foldl (fun f w => Nat.lor f (bits w 9 6)) 0

/-- The locked classes: those of the lowest valid word with MAP_LOCK (R494). -/
def lockClasses (o : Otp) : Option (List Nat) :=
  ((lockWords o).find? (fun w => bit w 6)).map (fun w => [bits w 1 0, bits w 3 2, bits w 5 4])

/-- CHECK of a repair-log entry over bits [31:8] (R189). -/
def logCheck (v : Nat) : Nat := crc8 [bits v 31 24, bits v 23 16, bits v 15 8]

/-- The 32 entries of the repair log as stored. -/
def logEntries (o : Otp) : List Nat := (List.range 32).map (fun i => otpWord o (256 + i))

/-- An entry that a boot applies (R191, R196). -/
def logEntryOk (w : Nat) : Bool := w != 0 && logCheck w == bits w 7 0

/-- Entries and lock words in use. -/
def logUsed (o : Otp) : Nat := ((logEntries o).filter (fun w => w != 0)).length
def locksUsed (o : Otp) : Nat := ((List.range 32).filter (fun i => otpWord o (928 + i) != 0)).length

/-- A word with what the waiting jobs still have to program in it. -/
def plannedWord (o : Otp) (i : Nat) : Nat :=
  match (o.jobs.flatMap (fun j => if j.stop then j.words.take 1 else j.words)).find? (fun w => w.1 == i) with
  | some w => w.2.toNat
  | none => otpWord o i

/-! ## Status and reads -/

/-- OTP_STATUS (R499). -/
def doOtpStatus : Request → State → State :=
  runOp 0x70 (lenIs 0) (fun s _ =>
    let o := s.otp
    .done s (u8 (o.applied.getD 0xFF) ++ u8 (o.openGen.getD 0xFF) ++ (List.range 5).flatMap (fun g => u8 (slotState o g)) ++
      u8 o.groups ++ u8 o.rejected ++ u8 o.locks ++ u8 (locksUsed o) ++ u8 (logUsed o) ++ u16 o.fails ++ zeros 2))

/-- OTP_STATUS (R499). -/
def execOtpStatus (q : Request) (s : State) : Step := .next (doOtpStatus q s)

/-- OTP_READ (R500). -/
def doOtpRead : Request → State → State :=
  runOp 0x71 (lenIs 4) (fun s q =>
    let first := pay16 q 0
    let count := pay16 q 2
    if !(within count 1 1024 && decide (first + count ≤ 1024)) then .refuse .range []
    else .pend s (.otpRead first count) none)

/-- OTP_READ (R500). -/
def execOtpRead (q : Request) (s : State) : Step := .next (doOtpRead q s)

/-- The job of an OTP_READ. -/
def isOtpRead : Job → Bool
  | .otpRead _ _ => true
  | _ => false

/-- OTP_READ_DONE (R500): the oldest read completes with the words as stored. -/
def execOtpReadDone (s : State) : Step :=
  match (findJobs s isOtpRead).head? with
  | some (p, o) =>
    match o.job with
    | .otpRead first count =>
      .next (finalReply s p o.tag o.op .ok
        ((List.range count).flatMap (fun i => u32 (otpWord s.otp (first + i)))))
    | _ => .next s
  | none => .next s

/-! ## Programming -/

/-- The words of a programming request that are not 0 (R493). -/
def progWords (base : Nat) (vs : List Nat) : List (Nat × Word) :=
  (List.zip (List.range vs.length) vs).filterMap (fun x =>
    if x.2 = 0 then none else some (base + x.1, BitVec.ofNat 32 x.2))

/-- A queued job. -/
def otpQueue (s : State) (q : Request) (k : OtpKind) (ws : List (Nat × Word)) : State :=
  { s with otp := { s.otp with jobs := s.otp.jobs ++ [⟨q.port, q.tag, k, ws, false⟩] } }

/-- Data words of a payload from offset 4 on. -/
def dataWords (q : Request) (n : Nat) : List Nat := (List.range n).map (fun i => pay32 q (4 + 4 * i))

/-- R502: length of a payload of count × 4 bytes after its header. -/
def dataLen (p : List Byte) : Bool := decide (4 ≤ p.length) && p.length == 4 + 4 * leField p 2 2

/-- OTP_GEN_BEGIN (R501). -/
def doOtpGenBegin : Request → State → State :=
  runOp 0x72 (lenIs 0) (fun s q =>
    if !modeHigh s || s.otp.openGen.isSome || bit s.otp.locks 2 then .refuse .state []
    else match (List.range 5).find? (slotUnused s.otp) with
      | none => .refuse .noSpace []
      | some g =>
        let t := otpQueue s q (.begin g) [(slotBase g, 0x00014E47#32)]
        .pend { t with otp := { t.otp with openGen := some g } } .otp none)

/-- OTP_GEN_BEGIN (R501). -/
def execOtpGenBegin (q : Request) (s : State) : Step := .next (doOtpGenBegin q s)

/-- A programming request accepted with its words, or complete at once where every word is 0. -/
def otpAccept (s : State) (q : Request) (k : OtpKind) (ws : List (Nat × Word)) : Verdict :=
  if ws.isEmpty then .done s [] else .pend (otpQueue s q k ws) .otp none

/-- OTP_GEN_DATA (R502). -/
def doOtpGenData : Request → State → State :=
  runOp 0x73 dataLen (fun s q =>
    let first := pay16 q 0
    let n := pay16 q 2
    if !(within first 1 125 && within n 1 125 && decide (first + n ≤ 126)) then .refuse .range []
    else match s.otp.openGen with
      | none => .refuse .state []
      | some g =>
        let base := slotBase g + first
        if !modeHigh s || (List.range n).any (fun i => plannedWord s.otp (base + i) != 0) then .refuse .state []
        else otpAccept s q .data (progWords base (dataWords q n)))

/-- OTP_GEN_DATA (R502). -/
def execOtpGenData (q : Request) (s : State) : Step := .next (doOtpGenData q s)

/-- OTP_GEN_COMMIT (R503). -/
def doOtpGenCommit : Request → State → State :=
  runOp 0x74 (lenIs 4) (fun s q =>
    match s.otp.openGen with
    | none => .refuse .state []
    | some g =>
      let crc := slotCrc (plannedWord s.otp) g
      if crc != pay32 q 0 then .refuse .range []
      else if !modeHigh s then .refuse .state []
      else
        let w126 := if crc = 0 then [] else [(slotBase g + 126, BitVec.ofNat 32 crc)]
        let w127 := if crc = 0xFFFFFFFF then [] else [(slotBase g + 127, BitVec.ofNat 32 (0xFFFFFFFF - crc))]
        .pend (otpQueue s q (.commit g) (w126 ++ w127)) .otp none)

/-- OTP_GEN_COMMIT (R503). -/
def execOtpGenCommit (q : Request) (s : State) : Step := .next (doOtpGenCommit q s)

/-- R409: some port of class 2 or 3 is left. -/
def mappingOk (cs : List Nat) : Bool := cs.any (fun c => decide (2 ≤ c))

/-- The lowest unused lock word. -/
def freeLock (o : Otp) : Option Nat := (List.range 32).find? (fun i => plannedWord o (928 + i) == 0)

/-- A lock word with its CHECK (R494). -/
def lockWord (classes : List Nat) (flags : Nat) : Nat :=
  let v := classes.getD 0 0 + classes.getD 1 0 * 4 + classes.getD 2 0 * 16 + flags * 64
  v + lockCheck v * 2 ^ 24

/-- OTP_LOCK (R504). -/
def doOtpLock : Request → State → State :=
  runOp 0x75 (lenIs 4) (fun s q =>
    let cs := [pay8 q 0, pay8 q 1, pay8 q 2]
    let fl := pay8 q 3 % 16
    if fl == 0 || cs.any (fun c => decide (3 < c)) || !mappingOk cs ||
        (cs.contains 3 && (!serviceOn s || bit fl 1)) then .refuse .range []
    else if (bit fl 0 && bit s.otp.locks 0) || !modeHigh s then .refuse .state []
    else match freeLock s.otp with
      | none => .refuse .noSpace []
      | some i => .pend (otpQueue s q (.lock i cs fl) [(928 + i, BitVec.ofNat 32 (lockWord cs fl))]) .otp none)

/-- OTP_LOCK (R504). -/
def execOtpLock (q : Request) (s : State) : Step := .next (doOtpLock q s)

/-- OTP_FACTORY_WRITE (R505). -/
def doOtpFactoryWrite : Request → State → State :=
  runOp 0x76 dataLen (fun s q =>
    let first := pay16 q 0
    let n := pay16 q 2
    if !(within first 128 255 && within n 1 128 && decide (first + n ≤ 256)) then .refuse .range []
    else if bit s.otp.locks 3 || !modeHigh s || (List.range n).any (fun i => plannedWord s.otp (first + i) != 0) then
      .refuse .state []
    else otpAccept s q .factory (progWords first (dataWords q n)))

/-- OTP_FACTORY_WRITE (R505). -/
def execOtpFactoryWrite (q : Request) (s : State) : Step := .next (doOtpFactoryWrite q s)

/-- Set the present class of the three ports (R416). -/
def setClasses (s : State) (cs : List Nat) : State :=
  allPorts.foldl (fun t p => modPort t p (fun v => { v with cls := cs.getD (portNum p) 0 })) s

/-- Set the boot class of the three ports (R407). -/
def setBootClasses (s : State) (cs : List Nat) : State :=
  allPorts.foldl (fun t p => modPort t p (fun v => { v with bootCls := cs.getD (portNum p) 0 })) s

/-- SERVICE is disabled: class 3 falls to 2 (R408, R504). -/
def dropService (s : State) : State :=
  allPorts.foldl (fun t p => modPort t p (fun v => { v with cls := min 2 v.cls, bootCls := min 2 v.bootCls })) s

/-- The flags of a verified lock word come into force (R504). A mapping that is locked already keeps its classes (R409). -/
def applyLock (s : State) (cs : List Nat) (fl : Nat) : State :=
  let t := { s with otp := { s.otp with locks := Nat.lor s.otp.locks fl } }
  let t := if bit fl 0 && !bit s.otp.locks 0 then setBootClasses (setClasses t cs) cs else t
  if bit fl 1 then dropService t else t

/-- A change of the mapping that was due (R409, R416, R504). -/
def mapChange (s : State) : MappingDue → State
  | .classes cs => setClasses s cs
  | .lock cs fl => applyLock s cs fl

/-- A cycle begins: the mappings that commands of the cycle before completed are in force. -/
def mapApply (s : State) : State := s.mapDue.foldl mapChange { s with mapDue := [] }

/-- The opcode of a job. -/
def otpOp : OtpKind → Nat
  | .begin _ => 0x72
  | .data => 0x73
  | .commit _ => 0x74
  | .lock _ _ _ => 0x75
  | .factory => 0x76

/-- What the completion of a job does and replies. -/
def otpFinish (s : State) : OtpKind → State × List Byte
  | .begin g => (s, u8 g ++ zeros 1 ++ u16 (slotBase g))
  | .data => (s, [])
  | .factory => (s, [])
  | .commit g =>
    ({ s with otp := { s.otp with openGen := none } }, u8 g ++ zeros 3 ++ u32 (slotCrc (otpWord s.otp) g))
  | .lock i cs fl =>
    ({ s with mapDue := s.mapDue ++ [.lock cs fl] }, u8 i ++ u8 (Nat.lor s.otp.locks fl))

/-- A failed verification closes an open generation (R501-R503). -/
def otpClose (o : Otp) : OtpKind → Otp
  | .begin _ => { o with openGen := none }
  | .data => { o with openGen := none }
  | .commit _ => { o with openGen := none }
  | _ => o

/-- What a word reads after a verification: the value, or after a failure an open value other than 0 (R493; log
entry 5). -/
def programmed (s : State) (w : Nat × Word) (verified : Bool) : State :=
  if verified then { s with otp := { s.otp with words := otpPut w.1 w.2 s.otp.words } }
  else
    let v : Word := BitVec.ofNat 32 (Config.freeNat s.free)
    let v := if v = 0#32 then w.2 else v
    { nextFree s with otp := { s.otp with
      words := otpPut w.1 v s.otp.words, weak := w.1 :: s.otp.weak, fails := bump 0xFFFF s.otp.fails } }

/-- OTP_WORD_PROGRAMMED (R493): the word in progress is done; its job goes on, completes, stops or fails. -/
def execOtpWordProgrammed (verified : Bool) (s : State) : Step :=
  match s.otp.jobs with
  | [] => .next s
  | j :: rest =>
    let op := BitVec.ofNat 8 (otpOp j.kind)
    match j.words with
    | [] => .next { s with otp := { s.otp with jobs := rest } }
    | w :: ws =>
      let t := programmed s w verified
      if !verified then
        let t := { t with otp := otpClose { t.otp with jobs := rest } j.kind }
        .next (if j.stop then t else finalReply t j.port j.tag op .otpFail [])
      else if j.stop then .next { t with otp := { t.otp with jobs := rest } }
      else if ws.isEmpty then
        let r := otpFinish { t with otp := { t.otp with jobs := rest } } j.kind
        .next (finalReply r.1 j.port j.tag op .ok r.2)
      else .next { t with otp := { t.otp with jobs := { j with words := ws } :: rest } }

end Sys2Proof.Machine
end

