-- ==== Sys2Proof/Machine/Session.lean ====
section
/-!
DEFINITION. The session opcodes without a chapter of their own (R410-R412, R415, R416). ABORT and RESET_DEVICE stand in
Machine/Abort.lean and Machine/Boot.lean.
-/

namespace Sys2Proof.Machine

open Sys2Proof

/-- PING (R410). -/
def doPing : Request → State → State := runOp 0x00 (fun _ => true) (fun s q => .done s q.payload)

/-- PING (R410). -/
def execPing (q : Request) (s : State) : Step := .next (doPing q s)

/-- IDENTIFY (R411). -/
def doIdentify : Request → State → State :=
  runOp 0x01 (lenIs 0) (fun s q =>
    .done s (u16 Config.vendorCode ++ u16 Config.deviceCode ++ [0x41#8, 0x01#8] ++ zeros 2 ++ u32 (otpWord s.otp 0) ++
      u32 (otpWord s.otp 1) ++ u16 Config.protocolVersion ++ u16 4096 ++ u8 32 ++ u8 (portNum q.port) ++
      u8 (classOf s q) ++ zeros 1))

/-- IDENTIFY (R411). -/
def execIdentify (q : Request) (s : State) : Step := .next (doIdentify q s)

/-- Mode codes (R472). -/
def modeCode : Mode → Nat
  | .ship => 0 | .retain => 1 | .listen => 2 | .idle => 3 | .active => 4

/-- Bit t of 256 set when tag t is held (R412). -/
def heldTags (p : Port) : Nat := p.outstanding.foldl (fun m o => Nat.lor m (2 ^ o.tag.toNat)) 0

/-- GET_STATUS (R412). -/
def doGetStatus : Request → State → State :=
  runOp 0x02 (lenIs 0) (fun s q =>
    let p := getPort s q.port
    .done s (bsn8 s.bsn ++ u8 (modeCode s.power.mode) ++ u8 (portNum q.port) ++ u8 p.cls ++
      u8 (b2n (graphActive s) + b2n (!s.events.fifo.isEmpty) * 2 + b2n (serviceOn s) * 4 + b2n (bit s.otp.locks 0) * 8) ++
      u8 p.outstanding.length ++ u8 s.events.fifo.length ++ zeros 2 ++ leBytes 32 (heldTags p) ++ u32 p.dropped ++
      u32 p.badCrc))

/-- GET_STATUS (R412). -/
def execGetStatus (q : Request) (s : State) : Step := .next (doGetStatus q s)

/-- PORT_CLASS_GET (R415). -/
def doPortClassGet : Request → State → State :=
  runOp 0x05 (lenIs 0) (fun s _ =>
    .done s (u8 s.spi.cls ++ u8 s.addrA.cls ++ u8 s.addrB.cls ++ u8 s.spi.bootCls ++ u8 s.addrA.bootCls ++
      u8 s.addrB.bootCls ++ u8 (b2n (bit s.otp.locks 0) + b2n (serviceOn s) * 2) ++ zeros 1))

/-- PORT_CLASS_GET (R415). -/
def execPortClassGet (q : Request) (s : State) : Step := .next (doPortClassGet q s)

/-- PORT_CLASS_SET (R416): the mapping applies from the next cycle. -/
def doPortClassSet : Request → State → State :=
  runOp 0x06 (lenIs 4) (fun s q =>
    let cs := [pay8 q 0, pay8 q 1, pay8 q 2]
    if cs.any (fun c => decide (3 < c)) || (cs.contains 3 && !serviceOn s) || !mappingOk cs then .refuse .range []
    else if bit s.otp.locks 0 then .refuse .state []
    else .done { s with mapDue := s.mapDue ++ [.classes cs] } [])

/-- PORT_CLASS_SET (R416). -/
def execPortClassSet (q : Request) (s : State) : Step := .next (doPortClassSet q s)

end Sys2Proof.Machine
end

