-- ==== Sys2Proof/Machine/Root.lean ====
section
/-!
DEFINITION. The root's state (R364, R366, R369): changes of state, restarts and losses of the reference.
-/

namespace Sys2Proof.Machine

open Sys2Proof

/-- Change the clock state. -/
def modClock (s : State) (f : Clock → Clock) : State := { s with clock := f s.clock }

/-- The root enters a state, with the root state event (R366). -/
def setRoot (s : State) (r : RootState) : State :=
  let old := s.clock.state
  if old = r then s
  else raise (modClock s (fun c => { c with state := r, changed := s.bsn })) 96 (rootCode r + rootCode old * 16)

/-- REF_SRC. -/
def refSrc (s : State) : Nat := bits (rd s .rootCfg) 3 0

/-- PLL_ROOT restarts its acquisition (R364); nothing while the root is off. -/
def restartRoot (s : State) : State :=
  let c := s.clock
  if c.state = .off then s
  else
    let wait := c.xtalFault && !c.onSafe
    let t := modClock (addCount s .rootCount 15 8 1) (fun c => { c with
      phase := if wait then .waitXtal else .onSafe, onSafe := !wait,
      restarts := bump 0xFFFF c.restarts, refQual := false, lockPoint := false, lossHeld := false, ofs := 0, realign := none,
      realignOn := false })
    setRoot t .restart

/-- PERIOD in blocks (R379). -/
def syncPeriod (s : State) : Nat := bits (rd s .syncCfg) 4 1 + 1

/-- f_pd in Hz, as numerator and denominator (R359). -/
def pdHz (s : State) : Nat × Nat :=
  if refSrc s = 8 then (4000, syncPeriod s) else (rd s .refFreq, (refDividers (rd s .refFreq)).1)

/-- The frequency of PLL_ROOT: its word with the additional offset, within the clamp of ±1,500 ppm (R360, R367). -/
def rootTotal (c : Clock) : Int := clampInt (-600000000) 600000000 (c.word + c.ofs)

/-- The word at the last comparison whose edge was present, at a loss in the present cycle (R369): the present one if four periods
lie in this block, else that of the last block that told of an edge (DESIGN CHOICE, log entry 84). -/
def lossWord (s : State) : Int :=
  let f := pdHz s
  if 4 * f.2 * 1179648000 ≤ s.cycle * f.1 then rootTotal s.clock else s.clock.edgeWord

/-- The reference is lost (R369, R373): COAST at the word of the last edge. A loss while XTAL_FAULT holds the clocks waits for
their return (R372). -/
def refLost (s : State) : State :=
  let c := s.clock
  if c.xtalFault then modClock s (fun c => { c with lossHeld := true })
  else match c.state with
    | .pullin | .track | .reacquire =>
      let t := modClock (addCount s .rootCount 7 0 1) (fun c => { c with
        losses := bump 0xFFFF c.losses, refQual := false, coastAt := s.bsn, coastCyc := s.cycle,
        coastPull := c.state == .pullin, word := lossWord s, ofs := 0 })
      raise (setRoot t .coast) 97 (refSrc s)
    | .coast =>
      if c.realign.isSome then
        let t := modClock (addCount s .rootCount 7 0 1) (fun c => { c with
          losses := bump 0xFFFF c.losses, refQual := false, realign := none, realignOn := false })
        raise t 97 (refSrc s)
      else s
    | _ => modClock s (fun c => { c with refQual := false })

/-- A change of a port breaks the condition of R358 on the reference port `p`. -/
def refPortCheck (s : State) (p : Nat) : State :=
  if refSrc s = p + 2 ∧ p < 6 ∧ refPortOk s (refSrc s) = false then refLost s else s

end Sys2Proof.Machine
end

