-- ==== Sys2Proof/Machine/Serial.lean ====
section
/-!
DEFINITION. Framing at the digital ports (R229-R232, R244, R247): where a TDM or I²S frame carries a slot's word, the
conversion between S32 and the words of a port, what the pins carry, and the subframes of S/PDIF.
-/

namespace Sys2Proof.Machine

open Sys2Proof

/-! ## Frames (R230, R249) -/

/-- FORMAT of a TP_CFG word: 0 I²S, 1 left-justified, 2 TDM. -/
def tpFormat (w : Nat) : Nat := bits w 3 2

/-- The data delay in force: DELAY for TDM, 1 for I²S and 0 for left-justified whatever is written (R249). -/
def tpDelay (w : Nat) : Nat :=
  match tpFormat w with
  | 0 => 1
  | 1 => 0
  | _ => b2n (bit w 6)

/-- WORD_LEN in bits. -/
def tpWordLen (w : Nat) : Nat := [16, 20, 24, 32].getD (bits w 10 9) 0

/-- The level of FSYNC after the edge that starts a frame (R230): low for I²S, high for left-justified and for the TDM pulse;
FSYNC_POL inverts it. -/
def fsyncStart (w : Nat) : Bool := (tpFormat w != 0) != bit w 5

/-- FSYNC in bit period `k` from the frame-starting edge (R230). -/
def fsyncLevel (w k : Nat) : Bool :=
  let long := if tpFormat w = 2 then (if bit w 23 then tpSlotBits w else 1) else tpFrameBits w / 2
  fsyncStart w == decide (k < long)

/-- R230: data and FSYNC are sampled on the rising edge of BCLK and launched on the falling one, or the other way round. -/
def samplesRising (w : Nat) : Bool := !bit w 4

/-- A value from bits, most significant first. -/
def msbValue (bs : List Bool) : Nat := bs.foldl (fun v b => 2 * v + b2n b) 0

/-- The `n` bits of a value, most significant first. -/
def msbBits (n v : Nat) : List Bool := (List.range n).map (fun i => bit v (n - 1 - i))

/-- The bits of a line at the edges that sample it. -/
def lineBits (w : Nat) (line : List (Bool × Bool)) : List Bool := line.map (fun x => if samplesRising w then x.1 else x.2)

/-- The word that a line carries in a slot: the slot's first WORD_LEN bits, most significant first (R230). -/
def slotWord (w : Nat) (line : List (Bool × Bool)) (slot : Nat) : Nat :=
  msbValue (((lineBits w line).drop (tpDelay w + slot * tpSlotBits w)).take (tpWordLen w))

/-! ## Words (R231) -/

/-- A received word of `len` bits in S32. -/
def wordIn (len v : Nat) : Int := toSigned 32 (v * 2 ^ (32 - len))

/-- An S32 sample as a word of `len` bits, with `d` of dither in 2^−16 LSB: rounded half-to-even, then saturated; a 32-bit word
takes neither rounding nor dither. -/
def wordOut (len : Nat) (d x : Int) : Int :=
  if len = 32 then x
  else clampInt (sMin len) (sMax len) (roundHalfEven (x * 2 ^ 16 + d * 2 ^ (32 - len)) (2 ^ (48 - len)))

/-- A draw of a channel's dither generator, within ±1 LSB of the word (R231). -/
def ditherDraw (chan n : Nat) : Int := clampInt (-65536) 65536 (Config.dither chan n)

/-- What a data pin carries in a slot: the word and zeros, or for a slot without a channel 0, or Hi-Z with TX_IDLE (R230,
R232). -/
def slotPins (w : Nat) (v : Option Int) : List PinBit :=
  match v with
  | some x =>
    ((msbBits (tpWordLen w) (ofSigned (tpWordLen w) x)).map (fun b => if b then PinBit.high else .low)) ++
      List.replicate (tpSlotBits w - tpWordLen w) .low
  | none => List.replicate (tpSlotBits w) (if bit w 24 then .hiZ else .low)

/-- The slots of one data line in a frame. -/
def slotsPins (w : Nat) (word : Nat → Option Int) : List PinBit :=
  (List.range (tpSlots w)).flatMap (fun s => slotPins w (word s))

/-- The bit periods of one data line from the frame-starting edge on, and the bit that is left for the next frame: data delayed by
one period (R230) begin with `tail`, the last bit of the frame before. -/
def linePins (w : Nat) (tail : PinBit) (word : Nat → Option Int) : List PinBit × PinBit :=
  let line := slotsPins w word
  if tpDelay w = 0 then (line, .low) else (tail :: line.dropLast, line.getLastD .low)

/-! ## S/PDIF (R244, R247) -/

/-- The sample of a received subframe; `prev` stands in where its parity fails, or where V_MUTE makes it count as failed. -/
def subframeIn (mute : Bool) (prev : Int) (x : Subframe) : Int :=
  if !x.parityOk || mute then prev else wordIn 24 x.audio.toNat

/-- Sampling-frequency codes of channel-status byte 3 by rate code (IEC 60958-3; log entry 13, PRESUMED). -/
def fsCode (rate : Nat) : Option Nat :=
  match rate with
  | 7 => some 3
  | 8 => some 0
  | 9 => some 2
  | 11 => some 8
  | 12 => some 10
  | 13 => some 12
  | 14 => some 14
  | _ => none

/-- The channel-status bytes sent: CS_OUT, with the code of RATE in byte 3 when AUTO_FS is 1 (R247). -/
def csSent (cs : List Byte) (autoFs : Bool) (rate : Nat) : List Byte :=
  if autoFs then
    cs.modify 3 (fun b => BitVec.ofNat 8 (b.toNat / 16 * 16 + (fsCode rate).getD 0))
  else cs

/-- The 28 bits of a subframe sent: audio, validity 0, user data 0, the channel-status bit, and even parity (R247). -/
def subframeOut (audio : Int) (status : Bool) : BitVec 28 :=
  let v := ofSigned 24 audio + b2n status * 2 ^ 26
  let ones := ((List.range 27).filter (fun i => bit v i)).length
  BitVec.ofNat 28 (v + ones % 2 * 2 ^ 27)

/-- Bit `n` of the channel status. -/
def csBit (cs : List Byte) (n : Nat) : Bool := bit ((cs.getD (n / 8) 0#8).toNat) (n % 8)

end Sys2Proof.Machine
end

