-- ==== Sys2Proof/Machine/Ports.lean ====
section
/-!
DEFINITION. The digital ports (ch. 07): enabling, lock states and their ramps, slips and errors, S/PDIF receivers,
channel maps, and the opcodes 0x30 to 0x33. Ports carry the codes of R227.
-/

namespace Sys2Proof.Machine

open Sys2Proof

/-! ## Lock states -/

/-- Change one port's state. -/
def modDport (s : State) (p : Nat) (f : DPort → DPort) : State := { s with dports := modAt s.dports p f }

/-- The configuration register of a port. -/
def portCfg (p : Nat) : Reg := if p < 4 then .tpCfg p else if p < 6 then .spiCfg (p - 4) else .spoCfg

/-- EN of a port. -/
def portEn (s : State) (p : Nat) : Bool := bit (rd s (portCfg p)) 0

/-- The port is in a lock state. -/
def portIs (s : State) (p : Nat) (l : LockState) : Bool := (dport s p).state == l

/-- The configuration word that a port follows: while it ramps out before a restart, the one it had (R248). -/
def portWord (s : State) (p : Nat) : Nat := ((dport s p).hold).getD (rd s (portCfg p))

/-- CLK_CTRL: the port drives its clock (R235); SPDIF_OUT0 has no clock pins. -/
def portDrives (s : State) (p : Nat) : Bool := decide (p < 4) && bit (portWord s p) 1

/-- CLK_SRC of a controller or of SPDIF_OUT0: 0 the root, 1-4 AUX0-AUX3 (R235, R247, R252). -/
def portSource (s : State) (p : Nat) : Nat :=
  if p = 6 then bits (portWord s p) 14 12 else if portDrives s p then bits (portWord s p) 22 20 else 0

/-- R374: no synthesizer's output reaches a port before it is LOCKED; the root runs while CK_SYS does. -/
def sourceRuns (s : State) (p : Nat) : Bool :=
  match portSource s p with
  | 0 => true
  | a + 1 => auxRuns s a

/-- What BCLK and FSYNC of a port do in a lock state (R228, R235, R236): inputs on a disabled port and on a target; on a
controller running, and low after the last complete cycle where its source has stopped. -/
def clockPinOf (s : State) (p : Nat) (l : LockState) : ClockPin :=
  if l = .off ∨ portDrives s p = false then .input else if l = .noClock ∨ sourceRuns s p = false then .low else .runs

/-- The clock pins of a port follow its source. -/
def portPins (s : State) (p : Nat) : State := modDport s p (fun d => { d with clkPin := clockPinOf s p d.state })

/-- FS_MISMATCH of a receiver: a captured code in byte 3 that disagrees with the rate measured, if one is (R246). -/
def fsMismatch (d : DPort) : Bool :=
  d.csValid && within d.measured 1 14 && fsCode d.measured != some (leField d.csA 3 1 % 16)

/-- The job of a PORT_RESTART of a port. -/
def isPortRestart (p : Nat) : Job → Bool
  | .portRestart q => q == p
  | _ => false

/-- What a port holds on entering lock state `l`: the BSN of the change; on entry to ACQUIRE no captured channel status and
no counted errors; on entry to LOCKED no errors of the block counted before (DEDUCED: R242 is about a LOCKED port). -/
def lockEntered (s : State) (p : Nat) (l : LockState) (d : DPort) : DPort :=
  let d : DPort := { d with
    state := l, changed := s.bsn, next := none, clkPin := clockPinOf s p l,
    delay := if l = .locked then d.delay else 0,
    delay0 := if l = .locked then d.delay else d.delay0,
    locks := if l = .locked then bump 0xFFFF d.locks else d.locks,
    csValid := d.csValid && l != .acquire && l != .off,
    parity := if l = .acquire ∨ l = .locked then 0 else d.parity,
    nonpcmCs := d.nonpcmCs && l != .acquire,
    hold := none, stopAt := if l = .nonpcm then d.stopAt else none,
    tail := if l = .off ∨ l = .noClock then (.low, .low) else d.tail,
    pos := if l = .off then 0 else d.pos,
    tx := if l = .off then [] else d.tx }
  { d with fsBad := fsMismatch d }

/-- A configuration word is in force from its restart on (R248). -/
def dropHold (s : State) (p : Nat) : State := modDport s p (fun d => { d with hold := none })

/-- A port enters a lock state (R241), with the event of R242 on entry to or exit from LOCKED; a PORT_RESTART is complete on
entry to ACQUIRE (R257), and fails with STATE where the port is disabled before (DEDUCED, log entry 14). -/
def enterLock (s : State) (p : Nat) (l : LockState) : State :=
  let d := dport s p
  let s := dropHold s p
  if d.state = l then modDport s p (fun d => { d with next := none, clkPin := clockPinOf s p l })
  else
    let s := modDport s p (lockEntered s p l)
    let s := if d.state = .locked ∨ l = .locked then raise s (1 + p) (lockCode l + d.rate * 16) else s
    if l = .acquire then completeJobs s (isPortRestart p) (fun _ => (.ok, []))
    else if l = .off then completeJobs s (isPortRestart p) (fun _ => (.state, []))
    else s

/-- The port's channels ramp to zero over 48 frames from the gain they have reached (R242). -/
def rampPortOut (s : State) (p : Nat) : State :=
  modDport s p (fun d => { d with ramp := rampDown d.ramp 48 s.bsn (frameOf s) })

/-- What arrives at the port from now on is not taken (R242: the ramp runs on the samples inside the ASRC; R245). -/
def portCutoff (s : State) (p : Nat) : State :=
  modDport s p (fun d => { d with stopAt := d.stopAt.orElse (fun _ => some (s.bsn, s.cycle)) })

/-- The port's channels have a gain now. -/
def portSounds (s : State) (p : Nat) : Bool := (rampGain (dport s p).ramp s.bsn (frameOf s)).1 != 0

/-- R242: an enabled port ramps out over 48 frames and then enters ACQUIRE, or NO_CLOCK where no clock activity is left; one
ramp runs. A port whose channels are silent enters it at once. -/
def portLose (s : State) (p : Nat) (clockLeft : Bool) : State :=
  let l : LockState := if clockLeft then .acquire else .noClock
  if (dport s p).next.isSome then modDport s p (fun d => { d with next := if clockLeft then d.next else some l })
  else if portSounds s p then modDport (portCutoff (rampPortOut s p) p) p (fun d => { d with next := some l })
  else enterLock s p l

/-- At the start of a frame: a port whose ramp-out is over enters its next lock state (R242). -/
def portFrame (s : State) : State :=
  (List.range 7).foldl (fun t p =>
    match (dport t p).next with
    | some l => if rampDone (dport t p).ramp t.bsn (frameOf t) then enterLock t p l else t
    | none => t) s

/-- A port whose EN becomes 1: ACQUIRE while CK_SYS and its source run, NO_CLOCK otherwise (R228, R241; log entry 12). -/
def portStart (s : State) (p : Nat) : State :=
  enterLock (modDport s p (fun d => { d with ramp := Ramp.zero, rate := 0, measured := 0, ppm := 0 })) p
    (if ckSys s && sourceRuns s p then .acquire else .noClock)

/-- A port whose EN becomes 0 (R228). -/
def portStop (s : State) (p : Nat) : State :=
  let s := enterLock s p .off
  modDport s p (fun d => { d with ramp := Ramp.zero, rate := 0, measured := 0, ppm := 0, nonpcmCs := false, preamble := false,
                                  fsBad := false })

/-- R248: an enabled port ramps out under its old word and restarts in ACQUIRE with the new one. -/
def portRestartWord (s : State) (p old : Nat) : State :=
  let t := modDport s p (fun d => { d with hold := some (d.hold.getD old) })
  if !ckSys t then portPins (dropHold t p) p else portLose t p true

/-- A configuration word is written (R228, R248). -/
def applyPortCfg (s : State) (p v : Nat) : State :=
  let old := rd s (portCfg p)
  let s := refPortCheck (wr s (portCfg p) v) p
  if old = v then s
  else match bit old 0, bit v 0 with
    | false, false => s
    | false, true => portStart s p
    | true, false => portStop s p
    | true, true => portRestartWord s p old

/-- PORT_DISABLE (R228). -/
def execPortDisable (p : Fin 7) (s : State) : Step :=
  let v := rd s (portCfg p)
  if bit v 0 then fieldStep s (applyPortCfg s p (v - 1)) else .next s

/-- PORT_CLOCK_FOUND (R241). -/
def execPortClockFound (p : Fin 7) (s : State) : Step :=
  if portIs s p .noClock && ckSys s && sourceRuns s p then .next (enterLock s p .acquire) else .next s

/-- PORT_CLOCK_LOST (R241): a port that is not LOCKED has no clock left; of a LOCKED one PORT_LOCK_LOSS tells (R242). -/
def execPortClockLost (p : Fin 7) (s : State) : Step :=
  if portIs s p .acquire || portIs s p .nonpcm then .next (enterLock s p .noClock) else .next s

/-- RATE of a port's configuration, 0 for detect. -/
def portRate (s : State) (p : Nat) : Nat :=
  let w := rd s (portCfg p)
  if p < 4 then bits w 19 16 else if p < 6 then bits w 5 2 else bits w 11 8

/-- R241: a measured rate that locks the port: a rate its kind takes, within 1,000 ppm, and the set one if one is set. -/
def rateLocks (s : State) (p rate : Nat) (ppm : Int) : Bool :=
  let kind := if p < 4 then within rate 1 14 else [7, 8, 9, 11, 12, 13, 14].contains rate
  kind && decide (-10000 ≤ ppm ∧ ppm ≤ 10000) && (portRate s p == 0 || portRate s p == rate)

/-- PORT_LOCK (R241): the ratio is measured; the port locks and ramps in over 480 frames, or stays in ACQUIRE and shows
rate code 15. -/
def execPortLock (p : Fin 7) (rate : Fin 16) (ppm : Int) (delayNs : Nat) (s : State) : Step :=
  if !(portIs s p .acquire && sourceRuns s p) then .next s
  else if rateLocks s p rate ppm then
    let s := modDport s p (fun d => { d with
      rate := rate, measured := rate, ppm := ppm, delay := min delayNs 0xFFFFFF, ramp := rampFull true 480 s.bsn (frameOf s) })
    .next (enterLock s p .locked)
  else .next (modDport s p (fun d =>
    let d := { d with rate := 15, measured := rate }
    { d with fsBad := fsMismatch d }))

/-- The counter register of a port, if it has one (R251). -/
def portCount (p : Nat) : Option Reg := if p < 4 then some (.tpCount p) else if p < 6 then some (.spiCnt (p - 4)) else none

/-- Add one to a count of a port (R251). -/
def portAdd (s : State) (p hi lo : Nat) : State :=
  match portCount p with
  | some r => addCount s r hi lo 1
  | none => s

/-- PORT_LOCK_LOSS (R242). -/
def execPortLockLoss (p : Fin 7) (why : LockLoss) (clockLeft : Bool) (s : State) : Step :=
  if !portIs s p .locked then .next s
  else
    let s := match why with
      | .inSlip => portAdd s p 23 16
      | .outSlip => if 4 ≤ p.val ∧ p.val < 6 then s else portAdd s p 31 24
      | _ => s
    .next (portLose s p clockLeft)

/-- FRAMING_ERROR (R233, R242): counted on an enabled target port; the second of two in consecutive frames loses lock. -/
def execFramingError (p : Fin 4) (consecutive : Bool) (s : State) : Step :=
  if !(portEn s p && !portDrives s p && (portIs s p .acquire || portIs s p .locked)) then .next s
  else
    let s := portAdd s p 7 0
    if consecutive && portIs s p .locked then .next (portLose s p true) else .next s

/-! ## S/PDIF receivers (R244-R246) -/

/-- R242: the 16th parity or biphase error of a block loses the lock of a LOCKED receiver. -/
def parityCheck (s : State) (p : Nat) : State :=
  if 16 ≤ (dport s p).parity ∧ portIs s p .locked = true then portLose s p true else s

/-- SPDIF_PARITY_ERROR (R244, R242): counted; the 16th parity or biphase error of a block loses lock. -/
def execSpdifParityError (r : Fin 2) (biphase : Bool) (s : State) : Step :=
  let p := 4 + r.val
  if !(portIs s p .acquire || portIs s p .locked || portIs s p .nonpcm) then .next s
  else
    let s := if biphase then portAdd s p 7 0 else portAdd s p 15 8
    let s := modDport s p (fun d => { d with parity := d.parity + 1 })
    .next (parityCheck s p)

/-- A LOCKED receiver mutes as non-PCM: the 48-frame ramp starts from the gain reached, and nothing that arrives after it is
taken (R245). -/
def nonpcmMute (s : State) (p : Nat) : State :=
  if portIs s p .locked then enterLock (portCutoff (rampPortOut s p) p) p .nonpcm else s

/-- Frames of the present block that have passed at a port that goes on as in the last one. -/
def framesSoFar (s : State) (d : DPort) : Nat := d.count * s.cycle / Config.blockCycles

/-- SPDIF_NONPCM (R245). -/
def execSpdifNonpcm (r : Fin 2) (preamble : Bool) (s : State) : Step :=
  let p := 4 + r.val
  if !(portIs s p .locked || portIs s p .nonpcm || (preamble && portIs s p .acquire)) then .next s
  else
    let t := modDport s p (fun d =>
      let n : Int := -(framesSoFar s d : Int)
      { d with preamble := d.preamble || preamble, preSince := if preamble then n else d.preSince, quiet := n,
               nonpcmCs := d.nonpcmCs || !preamble })
    .next (nonpcmMute t p)

/-- 8,192 consecutive frames with neither condition have passed (R245), the present block's counted as in the last one. -/
def nonpcmOver (s : State) (d : DPort) : Bool := !d.nonpcmCs && decide (8192 ≤ d.quiet + (framesSoFar s d : Int) + 1)

/-- SPDIF_NONPCM_EXIT (R245). -/
def execSpdifNonpcmExit (r : Fin 2) (s : State) : Step :=
  let p := 4 + r.val
  if portIs s p .nonpcm && nonpcmOver s (dport s p) then
    .next (enterLock (modDport s p (fun d => { d with preamble := false })) p .acquire)
  else .next s

/-- 24 bytes of channel status. -/
def cs24 (bs : List Byte) : List Byte := (bs ++ zeros 24).take 24

/-- The lowest byte in which two blocks differ, with 256 added where it differs in subframe B only (R454 EV008). -/
def csChange (a0 b0 a1 b1 : List Byte) : Option Nat :=
  ((List.range 24).find? (fun i => a0[i]? != a1[i]? || b0[i]? != b1[i]?)).map (fun i =>
    if a0[i]? != a1[i]? then i else i + 256)

/-- SPDIF_BLOCK_CAPTURE (R246): at the end of a complete block, in ACQUIRE too; in a LOCKED receiver a block that reads
"other" mutes (R245). -/
def execSpdifBlockCapture (r : Fin 2) (csA csB : List Byte) (s : State) : Step :=
  let p := 4 + r.val
  if !(portIs s p .acquire || portIs s p .locked || portIs s p .nonpcm) then .next s
  else
    let d := dport s p
    let a := cs24 csA
    let b := cs24 csB
    let other := bit (leField a 0 1) 1 || bit (leField b 0 1) 1
    let t := modDport s p (fun d =>
      let d := { d with csA := a, csB := b, csBsn := s.bsn, csValid := true, parity := 0, nonpcmCs := other }
      { d with fsBad := fsMismatch d })
    let t := if other then nonpcmMute t p else t
    match (if d.csValid then csChange d.csA d.csB a b else none) with
    | some v => .next (raise t (8 + r.val) v)
    | none => .next t

/-- The frames of a block are counted: PREAMBLE lapses when 8,192 have passed since the last preamble (R251), and none is quiet
while the channel status reads "other" (R245). -/
def countFrames (n : Nat) (d : DPort) : DPort :=
  { d with count := n, preSince := d.preSince + n, quiet := if d.nonpcmCs then 0 else d.quiet + n,
           preamble := d.preamble && decide (d.preSince + n < 8192) }

/-! ## Channel maps (R237-R239) -/

/-- R237: no two output channels map one slot: the OUT_MAP words, with code 7 counting as no slot. -/
def mapsDistinct (ws : List Nat) : Bool :=
  let used := ws.filter (fun w => bits w 2 0 != 7)
  used.all (fun w => decide ((used.filter (fun x => x == w)).length = 1))

/-- The OUT_MAP words with channel `c` replaced. -/
def outMaps (s : State) (c v : Nat) : List Nat :=
  (List.range 32).map (fun i => if i = c then v else rd s (.outMap i))

/-- The slot that a map word names exists on an enabled port (R238). -/
def mapLive (s : State) (w : Nat) : Bool :=
  let p := bits w 2 0
  decide (p ≠ 7) && portEn s p && decide (bits w 7 4 < if p < 4 then tpSlots (portWord s p) else 2)

/-- The gain that a channel's port gives it in frame `f` of block `b` (R238, R241). -/
def mapGain (s : State) (w : Nat) (b : Bsn) (f : Nat) : Nat × Nat :=
  if mapLive s w then rampGain (dport s (bits w 2 0)).ramp b f else (0, 1)

/-- An ASRC channel: 0-31 are inputs, 32-63 outputs. -/
def asrcAt (s : State) (i : Nat) : Asrc := s.asrc.getD i {}

/-- The gains of an ASRC channel in frame `f` of block `b`: its own and its port's (R239, R241). -/
def asrcGains (s : State) (i : Nat) (b : Bsn) (f : Nat) : List (Nat × Nat) :=
  let x := asrcAt s i
  [rampGain x.ramp b f, mapGain s x.map b f]

/-- The factor of the realign block (R373) on every ASRC channel in frame `f` of block `b`, over 12. -/
def realignGain (s : State) (b : Bsn) (f : Nat) : Nat :=
  if s.clock.realignOn && s.clock.realign == some b then (if f < 12 then 11 - f else f - 11) else 12

/-- A map word is written (R239): the channel, still on its old slot, ramps out over 48 frames from the gain it has; a ramp-out
that runs already goes on. -/
def applyMap (s : State) (output : Bool) (c v : Nat) : State :=
  let r : Reg := if output then .outMap c else .inMap c
  if rd s r = v then s
  else
    let i := if output then 32 + c else c
    { wr s r v with asrc := modAt s.asrc i (fun x =>
        if x.ramp.num1 = 0 then x else { x with ramp := rampDown x.ramp 48 s.bsn (frameOf s) }) }

/-- CHANNEL_MAP_CHANGE (R239). -/
def execChannelMapChange (output : Bool) (ch : Fin 32) (value : Word) (s : State) : Step :=
  let r : Reg := if output then .outMap ch else .inMap ch
  let v := Nat.land value.toNat r.mask
  if mapOk output v && (!output || mapsDistinct (outMaps s ch v)) then fieldStep s (applyMap s output ch v) else .next s

/-- At a block boundary: a channel that has ramped out clears its history and starts on its new slot; it ramps in over 480
frames where the new port is LOCKED, and otherwise the port's own ramp will raise it (R239). -/
def asrcRestart (s : State) : State :=
  let one (i : Nat) (x : Asrc) : Asrc :=
    if x.ramp.num1 = 0 ∧ rampDone x.ramp s.bsn 0 = true then
      let w := rd s (if i < 32 then .inMap i else .outMap (i - 32))
      { x with map := w, hist := [],
               ramp := if mapLive s w && portIs s (bits w 2 0) .locked then rampFull true 480 s.bsn 0 else Ramp.one }
    else x
  { s with asrc := (List.zip (List.range 64) s.asrc).map (fun x => one x.1 x.2) }

/-! ## Samples through the ports (R231, R238-R241, R244, R247) -/

/-- Samples of filter history that an ASRC channel keeps (DESIGN CHOICE, log entry 69). -/
def asrcTaps : Nat := 512

/-- Extend a filter history by samples in the order of their arrival. -/
def asrcPush (h xs : List Int) : List Int := (xs.reverse ++ h).take asrcTaps

/-- The sample that a port frame brings a channel with map word `w`; `prev` is the one before. -/
def frameSample (s : State) (w : Nat) (prev : Int) (f : PortFrame) : Int :=
  let p := bits w 2 0
  match f with
  | .tdm l0 l1 =>
    let cfg := portWord s p
    wordIn (tpWordLen cfg) (slotWord cfg (if bit w 3 then l1 else l0) (bits w 7 4))
  | .spdif a b =>
    let mute := bit (portWord s p) 1 && (a.validity || b.validity)
    subframeIn mute prev (if bits w 7 4 = 0 then a else b)

/-- The frames that passed at port `p`. -/
def framesAt (i : BlockInput) (p : Nat) : List PortFrame := (assocFind p i.ports).getD []

/-- The frames of the block that the ASRC takes: those that came before a loss or a mute (R242, R245); the frames of a block lie
evenly in it (DESIGN CHOICE, log entry 69). -/
def takenFrames (s : State) (i : BlockInput) (p : Nat) : List PortFrame :=
  let fs := framesAt i p
  match (dport s p).stopAt with
  | none => fs
  | some (b, c) => if b = s.bsn then fs.take (fs.length * c / Config.blockCycles) else []

/-- An input channel takes the block's port frames into its history (R240). -/
def asrcTake (s : State) (i : BlockInput) (x : Asrc) : Asrc :=
  if !mapLive s x.map then x
  else
    { x with hist := (takenFrames s i (bits x.map 2 0)).foldl (fun h f => asrcPush h [frameSample s x.map (h.headD 0) f]) x.hist }

/-- R238, R240: what an input channel delivers in frame `f`, before its gains: S32, saturated. -/
def asrcSample (s : State) (x : Asrc) (f : Nat) : Int :=
  if !mapLive s x.map then 0
  else
    let d := dport s (bits x.map 2 0)
    clampInt (sMin 32) (sMax 32) (Config.asrcIn d.rate d.ppm f x.hist)

/-- Every input channel takes the block's frames. -/
def takeInputs (s : State) (i : BlockInput) : State :=
  { s with asrc := (s.asrc.take 32).map (asrcTake s i) ++ s.asrc.drop 32 }

/-- The samples that an output channel took from its sink during the block, under its gains (R80, R241, R373). -/
def outSamples (s : State) (c : Nat) : List Int :=
  let xs := (s.graph.sinks.getD (0x20 + c) {}).playing
  frames.map (fun f => weigh (xs.getD f 0) (asrcGains s (32 + c) s.bsn f ++ [(realignGain s s.bsn f, 12)]))

/-- The output channel that follows a slot of a port. -/
def slotChannel (s : State) (w : Nat) : Option Nat :=
  (List.range 32).find? (fun c => (asrcAt s (32 + c)).map == w && mapLive s w)

/-- Bits of a word sent on port `p`, and whether dither is added (R231, R247). -/
def sendLen (s : State) (p : Nat) : Nat := if p < 4 then tpWordLen (portWord s p) else 24
def sendDither (s : State) (p : Nat) : Bool := bit (portWord s p) (if p < 4 then 25 else 6)

/-- The word of output channel `c` in frame `k` of the block, toward port `p`. -/
def sentWord (s : State) (p c k : Nat) : Int :=
  let x := asrcAt s (32 + c)
  let d := dport s p
  let y := clampInt (sMin 32) (sMax 32) (Config.asrcOut d.rate d.ppm k x.hist)
  wordOut (sendLen s p) (if sendDither s p then ditherDraw c (x.draws + k) else 0) y

/-- The word that a slot of port `p` carries in frame `k`; none where no channel is mapped to it. -/
def slotSent (s : State) (p line slot k : Nat) : Option Int :=
  (slotChannel s (p + line * 8 + slot * 16)).map (fun c => sentWord s p c k)

/-- Channel-status bytes of CS_OUT. -/
def csOutBytes (s : State) : List Byte := (List.range 6).flatMap (fun k => leBytes 4 (rd s (.csOut k)))

/-- Frame `k` of the block as port `p` sends it; `d` holds the position in the IEC 60958 block and its channel status. -/
def sendFrame (s : State) (p k : Nat) (d : DPort) : DPort :=
  if p < 4 then
    let w := portWord s p
    let l0 := linePins w d.tail.1 (fun i => slotSent s p 0 i k)
    let l1 := linePins w d.tail.2 (fun i => slotSent s p 1 i k)
    { d with tail := (l0.2, l1.2),
             tx := d.tx ++ [.tdm (!samplesRising w) ((List.range (tpFrameBits w)).map (fsyncLevel w)) l0.1 l1.1] }
  else
    let w := portWord s p
    let cs := if d.pos = 0 then csSent (csOutBytes s) (bit w 5) (bits w 11 8) else d.csA
    let sub (i : Nat) : BitVec 28 := subframeOut ((slotSent s p 0 i k).getD 0) (csBit cs d.pos)
    { d with csA := cs, pos := (d.pos + 1) % 192,
             tx := d.tx ++ [.spdif (if d.pos = 0 then 0 else 1) 2 (sub 0) (sub 1)] }

/-- What a port with outputs sends during the block: its frames while it has a clock, nothing otherwise (R228, R238). -/
def sendBlock (s : State) (i : BlockInput) (p : Nat) (d : DPort) : DPort :=
  if d.state = .off ∨ d.state = .noClock ∨ sourceRuns s p = false then { d with tx := [] }
  else (List.range (framesAt i p).length).foldl (fun d k => sendFrame s p k d) { d with tx := [] }

/-- The outputs of a block: the histories take the samples played, the ports send their frames, and the dither generators of
the channels that sent have drawn once a frame. -/
def sendPorts (s : State) (i : BlockInput) : State :=
  let outs := (List.zip (List.range 32) (s.asrc.drop 32)).map (fun x => { x.2 with hist := asrcPush x.2.hist (outSamples s x.1) })
  let t := { s with asrc := s.asrc.take 32 ++ outs }
  let u := [0, 1, 2, 3, 6].foldl (fun u p => modDport u p (sendBlock t i p)) t
  let draw (x : Asrc) : Asrc :=
    let p := bits x.map 2 0
    if mapLive s x.map && sendDither s p && sendLen s p != 32 then { x with draws := x.draws + (dport u p).tx.length } else x
  { u with asrc := u.asrc.take 32 ++ (u.asrc.drop 32).map draw }

/-- R245: with V_MUTE, a frame with a validity bit set counts as a parity error of both subframes; counted at the boundary
(DESIGN CHOICE, log entry 69). -/
def countValidity (s : State) (i : BlockInput) (p : Nat) : State :=
  if !(bit (portWord s p) 1 && (portIs s p .acquire || portIs s p .locked || portIs s p .nonpcm)) then s
  else
    let bad := ((framesAt i p).filter (fun f => match f with
      | .spdif a b => a.validity || b.validity
      | _ => false)).length
    match portCount p with
    | some r => parityCheck (modDport (addCount s r 15 8 (2 * bad)) p (fun d => { d with parity := d.parity + 2 * bad })) p
    | none => s

/-- The ports at a block boundary, before the BSN advances (R231, R244, R245, R247). -/
def portBlock (s : State) (i : BlockInput) : State := countValidity (countValidity (sendPorts s i) i 4) i 5

/-- R242: a measured ratio beyond ±1,000 ppm of nominal, in 0.1 ppm, loses lock. -/
def ratioOff (ppm : Int) : Bool := decide (ppm < -10000 ∨ 10000 < ppm)

/-- Readings of a LOCKED port (R243): PPM, and the present stage delay, within 5 µs of its value at lock (R242). -/
def lockedReadings (i : BlockInput) (p : Nat) (d : DPort) : DPort :=
  let v := (assocFind p i.delays).getD d.delay
  { d with
    ppm := ((assocFind p i.ppm).map (clampInt (sMin 16) (sMax 16))).getD d.ppm,
    delay := if v ≤ d.delay0 + 5000 ∧ d.delay0 ≤ v + 5000 then min v 0xFFFFFF else d.delay }

/-- A port's frames and readings at a boundary. -/
def portReading (i : BlockInput) (s : State) (p : Nat) : State :=
  let t := modDport s p (countFrames (framesAt i p).length)
  if !portIs t p .locked then t
  else
    let t := modDport t p (lockedReadings i p)
    if ratioOff (dport t p).ppm then portLose t p true else t

/-- The frames and readings of every port at a boundary (R242, R243, R251). -/
def portReadings (s : State) (i : BlockInput) : State := (List.range 7).foldl (portReading i) s

/-! ## Opcodes -/

/-- One record of PORT_STATUS (R254). -/
def portRecord (d : DPort) : List Byte :=
  u8 (lockCode d.state) ++ u8 d.rate ++ u8 (dportFlags d) ++ zeros 1 ++ i16 d.ppm ++ u16 d.locks ++ leBytes 3 d.delay ++
    leBytes 5 d.changed.toNat

/-- PORT_STATUS (R254). -/
def doPortStatus : Request → State → State :=
  runOp 0x30 (lenIs 0) (fun s _ => .done s (s.dports.flatMap portRecord))

/-- PORT_STATUS (R254). -/
def execPortStatus (q : Request) (s : State) : Step := .next (doPortStatus q s)

/-- SPDIF_CS_READ (R255). -/
def doSpdifCsRead : Request → State → State :=
  runOp 0x31 (lenIs 4) (fun s q =>
    let p := pay8 q 0
    if !within p 4 5 then .refuse .range []
    else
      let d := dport s p
      if !((d.state == .locked || d.state == .nonpcm) && d.csValid) then .refuse .state []
      else .done s (d.csA ++ d.csB ++ bsn8 d.csBsn))

/-- SPDIF_CS_READ (R255). -/
def execSpdifCsRead (q : Request) (s : State) : Step := .next (doSpdifCsRead q s)

/-- ROUTE_READ (R256). -/
def doRouteRead : Request → State → State :=
  runOp 0x32 (lenIs 0) (fun s _ =>
    .done s ((List.range 64).flatMap (fun i => u32 (readWord s (.inRoute i))) ++
      (List.range 68).flatMap (fun i => u32 (readWord s (.sinkRoute i))) ++ bsn8 s.bsn))

/-- ROUTE_READ (R256). -/
def execRouteRead (q : Request) (s : State) : Step := .next (doRouteRead q s)

/-- PORT_RESTART (R257): the port ramps out and enters ACQUIRE, which completes it; one that is silent enters it at once. -/
def doPortRestart : Request → State → State :=
  runOp 0x33 (lenIs 4) (fun s q =>
    let p := pay8 q 0
    if 6 < p then .refuse .range []
    else if !portEn s p then .refuse .state []
    else if portIs s p .acquire then .done s []
    else if portSounds s p || (dport s p).next.isSome then .pend (portLose s p true) (.portRestart p) none
    else .done (enterLock s p .acquire) [])

/-- PORT_RESTART (R257). -/
def execPortRestart (q : Request) (s : State) : Step := .next (doPortRestart q s)

/-! ## Loss and return of CK_SYS (R228) -/

/-- Every enabled port goes to a lock state. -/
def portsTo (s : State) (l : LockState) : State :=
  (List.range 7).foldl (fun t p =>
    if portEn t p then enterLock (if l = .noClock then modDport t p (fun d => { d with ramp := Ramp.zero }) else t) p l
    else t) s

end Sys2Proof.Machine
end

