-- ==== Sys2Proof/Machine/Analog.lean ====
section
/-!
DEFINITION. The converters, outputs and jacks (ch. 08): ADC ramps and settling, PGAs, MICBIAS, the headphone and line
sequences, class G, plug classification and the headset. ADCs 0-3 are AIN0-AIN3, 4 and 5 MIC0 and MIC1.
-/

namespace Sys2Proof.Machine

open Sys2Proof

/-! ## ADC sources (R261) -/

/-- Frames of settling. -/
def settleFrames : Nat := 192

/-- Settling begins now, unless it is to begin later already. -/
def settleNow (s : State) (a : Adc) : Adc :=
  if a.stage = .settling ∧ bsnReached s.bsn a.since = false then { a with ramp := rampCut a.ramp s.bsn (frameOf s) }
  else { a with stage := .settling, since := s.bsn, frame := frameOf s, ramp := rampCut a.ramp s.bsn (frameOf s) }

/-- Frames of settling that have passed. -/
def settled (s : State) (a : Adc) : Nat :=
  if bsnReached s.bsn a.since then bsnSince s.bsn a.since * 24 + frameOf s - a.frame else 0

/-- A source whose EN becomes 1: settling, or straight up from a ramp-out that still runs (log entry 16). -/
def adcOn (s : State) (mute : Bool) (a : Adc) : Adc :=
  if a.stage = .stopping then
    if mute then { a with stage := .muted } else { a with stage := .running, ramp := rampFrom a.ramp true 96 s.bsn (frameOf s) }
  else if a.stage = .off then
    settleNow s { a with raw := 0, hpX := 0, hpY := 0 }
  else a

/-- A source whose EN becomes 0. -/
def adcOff (s : State) (a : Adc) : Adc :=
  match a.stage with
  | .off => a
  | .stopping => a
  | .settling =>
    if rampDone a.ramp s.bsn (frameOf s) then { a with stage := .off, ramp := rampCut a.ramp s.bsn (frameOf s) }
    else { a with stage := .stopping, ramp := rampFrom a.ramp false 48 s.bsn (frameOf s) }
  | _ => { a with stage := .stopping, ramp := rampFrom a.ramp false 48 s.bsn (frameOf s) }

/-- MUTE becomes 1 or 0. -/
def adcMuteTo (s : State) (mute : Bool) (a : Adc) : Adc :=
  match a.stage, mute with
  | .running, true => { a with stage := .muted, ramp := rampFrom a.ramp false 48 s.bsn (frameOf s) }
  | .muted, false => { a with stage := .running, ramp := rampFrom a.ramp true 96 s.bsn (frameOf s) }
  | _, _ => a

/-- Settling has lasted 192 frames: the source ramps in, or stays muted. -/
def adcSettled (s : State) (mute : Bool) (a : Adc) : Adc :=
  if a.stage = .settling ∧ settleFrames ≤ settled s a then
    if mute then { a with stage := .muted, ramp := rampCut a.ramp s.bsn (frameOf s) }
    else { a with stage := .running, ramp := rampFull true 96 s.bsn (frameOf s) }
  else a

/-- A running or muted source settles again: after a ramp-out of 48 frames (`out`), or from now on. -/
def adcResettle (s : State) (out : Bool) (a : Adc) : Adc :=
  match a.stage with
  | .running | .muted | .settling =>
    if out then
      { a with stage := .settling, since := s.bsn + 2#40, frame := frameOf s,
               ramp := rampFrom a.ramp false 48 s.bsn (frameOf s) }
    else settleNow s a
  | _ => a

/-- A ramp-out has ended: the ADC is powered down. -/
def adcEnd (s : State) (a : Adc) : Adc :=
  if a.stage = .stopping ∧ rampDone a.ramp s.bsn (frameOf s) = true then { a with stage := .off } else a

/-- Change one ADC source. -/
def modAdc (s : State) (a : Nat) (f : Adc → Adc) : State :=
  { s with analog := { s.analog with adc := modAt s.analog.adc a f } }

/-- Configuration register of ADC `a`. -/
def adcCfg (a : Nat) : Reg := if a < 4 then .ainCfg a else .micCfg (a - 4)

/-- A PGA's new target (R263). -/
def pgaTo (s : State) (m gain : Nat) : State :=
  { s with analog := { s.analog with pga := modAt s.analog.pga m (fun p =>
    { p with target := gain, due := if p.gain = p.target then s.bsn else p.due }) } }

/-- A button of the headset is held while MIC1 is on its contact: MIC1 stays muted until the release (R278). -/
def micHeld (s : State) (a : Nat) : Bool :=
  a == 5 && s.analog.jack.micOnJack && s.analog.jack.button != 0

/-- The source is to be silent: its MUTE, or a held button (R261, R278). -/
def adcMuted (s : State) (a : Nat) : Bool := bit (rd s (adcCfg a)) 1 || micHeld s a

/-- AIN_CFG or MIC_CFG is written (R261, R263, R277). -/
def applyAdcCfg (s : State) (a v : Nat) : State :=
  let old := rd s (adcCfg a)
  let s := wr s (adcCfg a) v
  let mute := adcMuted s a
  let s :=
    if bit v 0 && !bit old 0 then modAdc s a (adcOn s mute)
    else if !bit v 0 && bit old 0 then modAdc s a (adcOff s)
    else modAdc s a (adcMuteTo s mute)
  let s := if 4 ≤ a ∧ bits v 9 4 ≠ bits old 9 4 then pgaTo s (a - 4) (bits v 9 4) else s
  if a = 5 ∧ bit v 10 ≠ bit old 10 then
    let s := modAdc s 5 (adcResettle s true)
    { s with analog := { s.analog with jack := { s.analog.jack with micOnJack := bit v 10 } } }
  else s

/-- Write the bits `mask` of a register word with `v`. -/
def withBits (w mask v : Nat) : Nat := Nat.lor (Nat.land w (0xFFFFFFFF - mask)) (Nat.land v mask)

/-- ADC_ENABLE, ADC_DISABLE, ADC_MUTE, ADC_UNMUTE (R261): a committed change of EN or MUTE alone. -/
def execAdcEnable (a : Fin 6) (s : State) : Step := fieldStep s (applyAdcCfg s a (withBits (rd s (adcCfg a)) 1 1))
def execAdcDisable (a : Fin 6) (s : State) : Step := fieldStep s (applyAdcCfg s a (withBits (rd s (adcCfg a)) 1 0))
def execAdcMute (a : Fin 6) (s : State) : Step := fieldStep s (applyAdcCfg s a (withBits (rd s (adcCfg a)) 2 2))
def execAdcUnmute (a : Fin 6) (s : State) : Step := fieldStep s (applyAdcCfg s a (withBits (rd s (adcCfg a)) 2 0))

/-- ADC_SETTLE_END (R261), while ANA is powered (R17). -/
def execAdcSettleEnd (a : Fin 6) (s : State) : Step :=
  if s.power.pwrEn1 then .next (modAdc s a (adcSettled s (adcMuted s a))) else .next s

/-- PGA_CHANGE (R263). -/
def execPgaChange (m : Fin 2) (gain : Fin 43) (s : State) : Step :=
  fieldStep s (applyAdcCfg s (4 + m.val) (withBits (rd s (.micCfg m)) 0x3F0 (gain.val * 16)))

/-- One step toward the target; the next falls due 96 frames later. -/
def pgaOne (p : Pga) : Pga :=
  { p with gain := if p.gain < p.target then p.gain + 1 else p.gain - 1, due := p.due + 4#40 }

/-- PGA_STEP (R263), while ANA is powered (R17). -/
def execPgaStep (m : Fin 2) (s : State) : Step :=
  let p := s.analog.pga.getD m {}
  if s.power.pwrEn1 = true ∧ p.gain ≠ p.target ∧ bsnReached s.bsn p.due = true then
    .next { s with analog := { s.analog with pga := modAt s.analog.pga m pgaOne } }
  else .next s

/-! ## MICBIAS (R264) -/

/-- MICBIAS is wanted: by its field, or by the jack logic with AUTO. -/
def biasWanted (s : State) : Bool :=
  let w := rd s .micbiasCfg
  s.power.pwrEn1 && (bit w 0 || (bit w 1 && s.analog.jack.inserted && s.analog.jackBias))

/-- Switch MICBIAS on, with settling for both microphone inputs (R261), or off. -/
def biasUpdate (s : State) : State :=
  match biasWanted s, s.analog.micbias with
  | true, false =>
    let s := { s with analog := { s.analog with micbias := true, biasAt := s.bsn } }
    modAdc (modAdc s 4 (adcResettle s false)) 5 (adcResettle s false)
  | false, true => { s with analog := { s.analog with micbias := false, biasLimit := false } }
  | _, _ => s

/-- MICBIAS_CFG is written. -/
def applyMicbias (s : State) (v : Nat) : State := biasUpdate (wr s .micbiasCfg v)

/-- MICBIAS_ENABLE (R264). -/
def execMicbiasEnable (s : State) : Step :=
  if biasWanted s then .next (biasUpdate s) else fieldStep s (applyMicbias s (withBits (rd s .micbiasCfg) 1 1))

/-- MICBIAS_OVERLOAD (R264): EV088. -/
def execMicbiasOverload (s : State) : Step :=
  if s.analog.micbias && !s.analog.biasLimit then
    .next (raise { s with analog := { s.analog with biasLimit := true } } 88 0)
  else .next s

/-- MICBIAS_OVERLOAD_END (R264). -/
def execMicbiasOverloadEnd (s : State) : Step :=
  .next { s with analog := { s.analog with biasLimit := false } }

/-! ## Output sequences (R265-R272) -/

/-- Frames passed in an output's sequence, counting from its first step. -/
def outAge (s : State) (o : Output) : Nat := o.fromStep + (bsnSince s.bsn o.since * 24 + frameOf s - o.frame)

/-- Start a sequence now. -/
def outBegin (s : State) (o : Output) (st : OutState) (step n : Nat) : Output :=
  { o with state := st, since := s.bsn, frame := frameOf s, fromStep := step, n := n }

/-- Frames before the soft ramp of a power-up. -/
def hpLead : Nat := 672
def loLead : Nat := 1920

/-- A power-up starts (R267, R271). -/
def outUp (s : State) (n : Nat) (o : Output) : Output :=
  { outBegin s o .powerUp 0 n with
    ramp := rampCut o.ramp s.bsn (frameOf s), railsHigh := false, limL := false, limR := false, soft := false }

/-- A headphone power-down: ramping (R268), or from the bias-off step where the shorting switch has not opened. -/
def hpDown (s : State) (n : Nat) (o : Output) : Output :=
  if o.shorted then { outBegin s o .powerDown (n + 192) n with ramp := rampCut o.ramp s.bsn (frameOf s), railsHigh := false }
  else { outBegin s o .powerDown 0 n with ramp := rampDown o.ramp n s.bsn (frameOf s) }

/-- A headphone power-down from step N, with no ramp (R272, R279); into FAULT where `st` says so. -/
def hpCut (s : State) (n : Nat) (st : OutState) (o : Output) : Output :=
  if o.shorted then { outBegin s o st (n + 192) n with ramp := rampCut o.ramp s.bsn (frameOf s), railsHigh := false }
  else { outBegin s o st n n with ramp := rampCut o.ramp s.bsn (frameOf s) }

/-- A removal during a power-up: the shorting switch closes at once if it had opened (ch. 08, When things coincide). -/
def hpReverse (s : State) (n : Nat) (o : Output) : Output :=
  { outBegin s o .powerDown (if o.shorted then n + 192 else n + 96) n with
    ramp := rampCut o.ramp s.bsn (frameOf s), shorted := true }

/-- A line power-down (R271). -/
def loDown (s : State) (n : Nat) (o : Output) : Output :=
  if o.state = .powerUp ∧ outAge s o < loLead then
    { outBegin s o .powerDown n n with ramp := rampCut o.ramp s.bsn (frameOf s) }
  else { outBegin s o .powerDown 0 n with ramp := rampDown o.ramp n s.bsn (frameOf s) }

/-- N of HP_CFG or LO_CFG. -/
def outN (w : Nat) : Nat := 96 * bits w 7 2

/-- The output is running a sequence or is on. -/
def outLive (o : Output) : Bool := o.state == .on || o.state == .powerUp

/-- Change the headphone or line output. -/
def modHp (s : State) (f : Output → Output) : State := { s with analog := { s.analog with hp := f s.analog.hp } }
def modLo (s : State) (f : Output → Output) : State := { s with analog := { s.analog with lo := f s.analog.lo } }

/-- R267, R279, R284, R476: the headphone may power up now. -/
def hpMayUp (s : State) : Bool :=
  let w := rd s .hpCfg
  let j := s.analog.jack
  bit w 0 && s.power.mode == .active && s.power.fabricOn && !leavingActive s && s.analog.hp.state == .off &&
    (!bit w 8 || (j.inserted && j.kind != .pending && j.kind != .none))

/-- The headphone powers up if it may. -/
def hpTryUp (s : State) : State :=
  if hpMayUp s then modHp s (outUp s (outN (rd s .hpCfg))) else s

/-- R271, R476: the line output powers up if it may. -/
def loTryUp (s : State) : State :=
  if bit (rd s .loCfg) 0 && s.power.mode == .active && s.power.fabricOn && !leavingActive s && s.analog.lo.state == .off then
    modLo s (outUp s (outN (rd s .loCfg)))
  else s

/-- The output sounds: it is on, or its soft ramp has begun `lead` frames into its power-up. -/
def outSounds (s : State) (lead : Nat) (o : Output) : Bool :=
  o.state == .on || (o.state == .powerUp && decide (lead ≤ outAge s o))

/-- A mute or unmute ramp of an output that is on or in its soft ramp (R269, R279). -/
def outMuteRamp (s : State) (lead : Nat) (up : Bool) (n : Nat) (o : Output) : Output :=
  if outSounds s lead o then { o with ramp := rampFrom o.ramp up n s.bsn (frameOf s) } else o

/-- EN becomes 1: the output powers up if it may, or when the power-down that runs has ended (DESIGN CHOICE, log entry 70). -/
def outAsked (o : Output) : Output := { o with again := o.state == .powerDown }

/-- The amplifier drives the pins: the switch is open (R270). -/
def hpDrives (o : Output) : Bool := (outLive o || o.state == .powerDown) && !o.shorted

/-- The headphone DAC plays: the output is live, or its ramp-down runs (R265, R268). -/
def hpPlays (s : State) (o : Output) : Bool := outLive o || (o.state == .powerDown && decide (outAge s o < o.n))

/-- EN becomes 0 in FAULT: the steps of R268 that the fault began go on to OFF (R270, R272). -/
def hpFaultOff (s : State) (o : Output) : Output :=
  if o.n + 672 ≤ outAge s o then { o with state := .off } else { o with state := .powerDown }

/-- HP_CFG is written (R265, R267-R269, R272). -/
def applyHpCfg (s : State) (v : Nat) : State :=
  let old := rd s .hpCfg
  let s := wr s .hpCfg v
  let n := outN v
  let s := modHp s (fun o => { o with faults := 0 })
  if bit v 0 && !bit old 0 then hpTryUp (modHp s outAsked)
  else if !bit v 0 then
    modHp s (fun o =>
      let o := { o with latched := false, again := false }
      if o.state = .fault then hpFaultOff s o else if outLive o then hpDown s n o else o)
  else
    let s := if bit v 1 ≠ bit old 1 ∧ s.analog.hp.jackMute = false then modHp s (outMuteRamp s hpLead (!bit v 1) n) else s
    modHp s (fun o =>
      if o.state = .on ∧ bit v 9 = false then { o with railsHigh := true }
      else if o.state = .on ∧ bit old 9 = false then { o with loudAt := s.bsn } else o)

/-- LO_CFG is written (R269, R271). -/
def applyLoCfg (s : State) (v : Nat) : State :=
  let old := rd s .loCfg
  let s := wr s .loCfg v
  let n := outN v
  if bit v 0 && !bit old 0 then loTryUp (modLo s outAsked)
  else if !bit v 0 then modLo s (fun o => if outLive o then loDown s n o else { o with again := false })
  else if bit v 1 ≠ bit old 1 then modLo s (outMuteRamp s loLead (!bit v 1) n)
  else s

/-- HP_POWER_UP (R267, R279): EN becomes 1 by commit, or the jack logic starts it at the boundary after KIND stands. -/
def execHpPowerUp (s : State) : Step :=
  let v := rd s .hpCfg
  if bit v 0 then
    if s.analog.hp.upDue && s.cycle == 0 then
      .next (modHp (hpTryUp s) (fun o => { o with upDue := false, again := o.state == .powerDown }))
    else .next s
  else fieldStep s (applyHpCfg s (v + 1))

/-- HP_POWER_DOWN (R268). -/
def execHpPowerDown (s : State) : Step := fieldStep s (applyHpCfg s (withBits (rd s .hpCfg) 1 0))

/-- HP_MUTE (R269). -/
def execHpMute (line mute : Bool) (s : State) : Step :=
  if line then fieldStep s (applyLoCfg s (withBits (rd s .loCfg) 2 (b2n mute * 2)))
  else fieldStep s (applyHpCfg s (withBits (rd s .hpCfg) 2 (b2n mute * 2)))

/-- LO_POWER_UP and LO_POWER_DOWN (R271). -/
def execLoPowerUp (s : State) : Step := fieldStep s (applyLoCfg s (withBits (rd s .loCfg) 1 1))
def execLoPowerDown (s : State) : Step := fieldStep s (applyLoCfg s (withBits (rd s .loCfg) 1 0))

/-- CLASS_G_HIGH (R265): a loud sample ahead, with CLASS_G = 1. -/
def execClassGHigh (s : State) : Step :=
  if bit (rd s .hpCfg) 9 && hpPlays s s.analog.hp && !s.analog.hp.shorted then
    .next (modHp s (fun o => { o with railsHigh := true, loudAt := s.bsn }))
  else .next s

/-- CLASS_G_LOW (R265): 50 ms, 200 blocks, without a loud sample. -/
def execClassGLow (s : State) : Step :=
  if bit (rd s .hpCfg) 9 && s.analog.hp.railsHigh && decide (200 ≤ bsnSince s.bsn s.analog.hp.loudAt) then
    .next (modHp s (fun o => { o with railsHigh := false }))
  else .next s

/-- The steps of R268 from step N on in FAULT; a power-down that has come to step N goes on where it is. -/
def hpFaultCut (s : State) (o : Output) : Output :=
  if o.state = .powerDown ∧ o.n ≤ outAge s o then outBegin s o .fault (outAge s o) o.n
  else hpCut s (outN (rd s .hpCfg)) .fault o

/-- HP_OVERCURRENT (R272): EV087; the second fault before EN is next written latches. -/
def execHpOvercurrent (left right : Bool) (s : State) : Step :=
  let o := s.analog.hp
  if !(hpDrives o && (left || right)) then .next s
  else
    let latched := decide (1 ≤ o.faults)
    let o := { hpFaultCut s o with
      limL := left, limR := right, faults := o.faults + 1, latched := latched }
    .next (raise (modHp s (fun _ => o)) 87 (b2n left + b2n right * 2 + b2n latched * 4))

/-- HP_FAULT_RETRY (R272): 500 ms, 2,000 blocks, after the fault; with AUTO and no plug the output is OFF (R284). -/
def execHpFaultRetry (s : State) : Step :=
  let o := s.analog.hp
  if o.state = .fault ∧ o.latched = false ∧ 2000 ≤ bsnSince s.bsn o.since ∧ s.power.mode = .active then
    .next (hpTryUp (modHp s (fun o => { o with state := .off })))
  else .next s

/-- The soft ramp of a power-up begins, once; a muted output stays silent (R267, R269, R271). -/
def outSoft (s : State) (mute : Bool) (o : Output) : Output :=
  if o.soft then o else { o with soft := true, ramp := if mute then o.ramp else rampFull true o.n s.bsn (frameOf s) }

/-- The headphone sequence at the present frame: switch, soft ramp, ON, OFF (R267, R268, R270). -/
def hpFrame (s : State) (o : Output) : Output :=
  let a := outAge s o
  let w := rd s .hpCfg
  match o.state with
  | .powerUp =>
    let o := if 576 ≤ a then { o with shorted := false } else o
    let o := if hpLead ≤ a then outSoft s (bit w 1 || o.jackMute) o else o
    if hpLead + o.n ≤ a + 1 then { o with state := .on, railsHigh := o.railsHigh || !bit w 9 } else o
  | .powerDown =>
    let o := if o.n + 96 ≤ a then { o with shorted := true } else o
    let o := if o.n + 192 ≤ a then { o with railsHigh := false } else o
    if o.n + 672 ≤ a then { o with state := .off, ramp := rampCut o.ramp s.bsn (frameOf s), jackMute := false } else o
  | .fault =>
    let o := if o.n + 96 ≤ a then { o with shorted := true, limL := false, limR := false } else o
    if o.n + 192 ≤ a then { o with railsHigh := false } else o
  | _ => o

/-- The line sequence at the present frame (R271). -/
def loFrame (s : State) (o : Output) : Output :=
  let a := outAge s o
  match o.state with
  | .powerUp =>
    let o := if loLead ≤ a then outSoft s (bit (rd s .loCfg) 1) o else o
    if loLead + o.n ≤ a + 1 then { o with state := .on } else o
  | .powerDown => if o.n + loLead ≤ a then { o with state := .off, ramp := rampCut o.ramp s.bsn (frameOf s) } else o
  | _ => o

/-- An output that is OFF and is to power up again. -/
def outAgain (o : Output) : Bool := o.state == .off && o.again

/-- The converters at the start of a frame. An output whose EN became 1 during its power-down powers up when that has ended, if
it may (DESIGN CHOICE, log entry 70). -/
def analogFrame (s : State) : State :=
  let t := { s with analog := { s.analog with
    hp := hpFrame s s.analog.hp, lo := loFrame s s.analog.lo, adc := s.analog.adc.map (adcEnd s) } }
  let t := if outAgain t.analog.hp && !t.analog.hp.upDue then modHp (hpTryUp t) (fun o => { o with again := false }) else t
  if outAgain t.analog.lo then modLo (loTryUp t) (fun o => { o with again := false }) else t

/-! ## Samples at the pins (R259, R269) -/

/-- The sinks HPL, HPR, LOL and LOR (R216), by DAC. -/
def dacSink (d : Nat) : Nat := 0x40 + d

/-- The samples that DAC `d` took during the block that ends: those its sink played, under the ramp of its output, which
multiplies with every gain before it (R269); none while the output is not powered. -/
def dacSamples (s : State) (d : Nat) : List Int :=
  let o := if d < 2 then s.analog.hp else s.analog.lo
  let xs := (s.graph.sinks.getD (dacSink d) {}).playing
  if xs.isEmpty || (o.state == .off && rampReached o.ramp s.bsn 24 == (0, 1)) then []
  else frames.map (fun f => weigh (xs.getD f 0) [rampGain o.ramp s.bsn f])

/-- The DACs at a block boundary, before the BSN advances. -/
def dacBlock (s : State) : State := { s with analog := { s.analog with dac := (List.range 4).map (dacSamples s) } }

/-- LIMIT_L and LIMIT_R as the current limits of a driven headphone output act at a boundary (R272, R284). -/
def limitBlock (s : State) (l r : Bool) : State :=
  let live := !s.analog.hp.shorted
  modHp s (fun o => { o with limL := l && live, limR := r && live })

/-! ## Jacks (R273-R281) -/

/-- Change the jack logic. -/
def modJack (s : State) (f : Jacks → Jacks) : State :=
  { s with analog := { s.analog with jack := f s.analog.jack } }

/-- The headphone jack event (R281). -/
def jackEvent (s : State) : State := raise s 84 (b2n s.analog.jack.inserted + kindCode s.analog.jack.kind * 2)

/-- Class of a reading in mV (R274). -/
def plugClass (mv : Nat) : PlugClass :=
  if mv < 150 then .ground else if mv < 1150 then .invalid else if mv ≤ 2450 then .microphone else .open

/-- The plug kind of two readings (R275). -/
def plugKind (mvA mvB : Nat) : PlugKind :=
  match plugClass mvA, plugClass mvB with
  | .ground, .ground => .threePole
  | .microphone, .ground => .ctia
  | .ground, .microphone => .omtp
  | _, _ => .invalid

/-- A plug kind has a microphone contact. -/
def hasMic (k : PlugKind) : Bool := k == .ctia || k == .omtp

/-- A kind stands (R275-R277, R279): ground switches, MICBIAS, the boundary's power-up and the switch of MIC1. MICBIAS stays
on while the repeats of R276 run (DESIGN CHOICE, log entry 70). -/
def standKind (s : State) (k : PlugKind) (mvA mvB : Nat) : State :=
  let auto := bit (rd s (.micCfg 1)) 11
  let again := k == .threePole && bit (rd s .hpjCfg) 14
  let s := modJack s (fun j => { j with
    kind := k, ringGnd := k != .omtp, sleeveGnd := k != .ctia, measuring := false, measA := none, invalids := 0,
    retryAt := none,
    repeats := if again then some 0 else none, repeatAt := s.bsn,
    contactMv := if k = .ctia then mvA else if k = .omtp then mvB else j.contactMv,
    micDue := j.micDue || (auto && hasMic k != j.micOnJack) })
  let s := { s with analog := { s.analog with
    jackBias := hasMic k || again, hp := { s.analog.hp with upDue := s.analog.hp.upDue || bit (rd s .hpCfg) 8 } } }
  biasUpdate s

/-- The contacts during measurement A (the ring is ground, the sleeve is fed), B (the reverse), or none (both ground); R274. -/
def measureContacts (a b : Bool) (s : State) : State := modJack s (fun j => { j with ringGnd := !b, sleeveGnd := !a })

/-- R274: classification starts while ANA is powered: MICBIAS on, the contacts switched for measurement A. -/
def classifyStart (s : State) : State :=
  if s.analog.jack.inserted && s.analog.jack.kind == .pending && s.power.pwrEn1 then
    biasUpdate (measureContacts true false (modJack { s with analog := { s.analog with jackBias := true } } (fun j =>
      { j with measuring := true, measA := none, retryAt := none })))
  else s

/-- JACK_LEVEL_CHANGE (R279): HPJ_DET leaves or returns to the inserted level, while detection is enabled (R285). -/
def execJackLevelChange (inserted : Bool) (s : State) : Step :=
  let j := s.analog.jack
  if inserted = j.level ∨ bit (rd s .hpjCfg) 0 = false then .next s
  else
    let s := modJack s (fun j => { j with level := inserted })
    if !j.inserted then .next s
    else if inserted then
      .next (modHp s (fun o =>
        if o.jackMute then
          let o := { o with jackMute := false }
          if !bit (rd s .hpCfg) 1 && outSounds s hpLead o then
            { o with ramp := rampUp o.ramp (outN (rd s .hpCfg)) s.bsn (frameOf s) }
          else o
        else o))
    else
      .next (modHp s (fun o =>
        if hpPlays s o then { o with jackMute := true, ramp := rampDown o.ramp 96 s.bsn (frameOf s + 1) } else o))

/-- JACK_INSERT (R273, R274, R280, R281). -/
def execJackInsert (aux : Bool) (s : State) : Step :=
  if aux then
    if bit (rd s .auxjCfg) 0 && !s.analog.jack.auxIn then
      .next (raise (modJack s (fun j => { j with auxIn := true })) 85 1)
    else .next s
  else
    let w := rd s .hpjCfg
    if !(bit w 0) || s.analog.jack.inserted then .next s
    else
      let s := addCount s .hpjCount 15 0 1
      let s := modJack s (fun j => { j with inserted := true, level := true, invalids := 0 })
      if bit w 14 then .next (classifyStart (jackEvent (modJack s (fun j => { j with kind := .pending }))))
      else .next (jackEvent (standKind s .threePole 0 0))

/-- JACK_REMOVE (R273, R277, R279-R281), while detection is enabled (R285). -/
def execJackRemove (aux : Bool) (s : State) : Step :=
  let j := s.analog.jack
  if aux then
    if j.auxIn && bit (rd s .auxjCfg) 0 then .next (raise (modJack s (fun j => { j with auxIn := false })) 85 0) else .next s
  else if !(j.inserted && bit (rd s .hpjCfg) 0) then .next s
  else
    let w := rd s .hpCfg
    let s := modHp s (fun o =>
      let o := { o with upDue := false }
      if bit w 8 && o.state == .powerUp then hpReverse s (outN w) o
      else if bit w 8 && hpPlays s o then hpCut s (outN w) .powerDown o
      else o)
    let s := modJack s (fun j => { j with
      inserted := false, level := false, kind := .none, button := 0, ringGnd := true, sleeveGnd := true,
      measuring := false, measA := none, retryAt := none, repeats := none, invalids := 0, micDue := j.micOnJack })
    .next (jackEvent (biasUpdate { s with analog := { s.analog with jackBias := false } }))

/-- CLASSIFY_MEASURE (R274, R275): measurement A, then B and the result; an INVALID result is repeated up to three
times. -/
def execClassifyMeasure (mv : Nat) (s : State) : Step :=
  let j := s.analog.jack
  if !(j.measuring && j.inserted && s.power.pwrEn1) then .next s
  else match j.measA with
    | none => .next (measureContacts false true (modJack s (fun j => { j with measA := some mv })))
    | some a =>
      let k := plugKind a mv
      if k = .invalid ∧ j.invalids < 3 then
        .next (measureContacts false false (modJack s (fun j => { j with
          measuring := false, measA := none, invalids := j.invalids + 1, retryAt := some s.bsn })))
      else .next (jackEvent (standKind s k a mv))

/-- CLASSIFY_RETRY (R275): 500 ms after an INVALID result. -/
def execClassifyRetry (s : State) : Step :=
  match s.analog.jack.retryAt with
  | some b => if 2000 ≤ bsnSince s.bsn b then .next (classifyStart s) else .next s
  | none => .next s

/-- Blocks between repeats, blocks of one measurement, and the repeats in 5 s (R276). -/
def repeatBlocks : Nat := 2000
def measureBlocks : Nat := 40
def repeatCount : Nat := 10

/-- Repeats of R276 begun since the THREE_POLE result, and the blocks since the last one began. -/
def repeatAge (s : State) : Nat × Nat :=
  let n := bsnSince s.bsn s.analog.jack.repeatAt
  (n / repeatBlocks, n % repeatBlocks)

/-- THREE_POLE_REPEAT (R276): both measurements of the present repeat are over; one repeat each 500 ms, for 5 s. -/
def execThreePoleRepeat (mvA mvB : Nat) (s : State) : Step :=
  let j := s.analog.jack
  match j.repeats with
  | none => .next s
  | some n =>
    let k := repeatAge s
    if !(j.inserted && j.kind == .threePole && s.power.pwrEn1 && decide (n < k.1 ∧ k.1 ≤ repeatCount ∧ 2 * measureBlocks ≤ k.2))
    then .next s
    else
      let a := plugClass mvA
      let b := plugClass mvB
      if a ≠ .invalid ∧ b ≠ .invalid ∧ (a = .microphone ∨ b = .microphone) then
        .next (jackEvent (standKind s (plugKind mvA mvB) mvA mvB))
      else if k.1 < repeatCount then .next (modJack s (fun j => { j with repeats := some k.1 }))
      else .next (biasUpdate { s with analog := { s.analog with
        jackBias := false, jack := { s.analog.jack with repeats := none } } })

/-- The jack logic at a block boundary: the contacts of a repeat's measurements (R276), the end of the repeats, and
CONTACT_MV, which the device reads once per millisecond (R278, R285). `mv` is the reading, if one falls in the block. -/
def jackBlock (s : State) (mv : Option Nat) : State :=
  let j := s.analog.jack
  let k := repeatAge s
  let t :=
    if !(j.repeats.isSome && j.kind == .threePole && s.power.pwrEn1) then s
    else if repeatCount < k.1 then
      biasUpdate (measureContacts false false { s with analog := { s.analog with
        jackBias := false, jack := { j with repeats := none } } })
    else if k.1 = 0 then s
    else measureContacts (decide (k.2 < measureBlocks)) (decide (measureBlocks ≤ k.2 ∧ k.2 < 2 * measureBlocks)) s
  match mv with
  | some v =>
    if bit (rd t .hpjCfg) 15 && hasMic j.kind && j.inserted && t.power.pwrEn1 then modJack t (fun j => { j with contactMv := min v 4095 })
    else t
  | none => t

/-- HEADSET_MIC_SWITCH (R277): at a boundary MIC1 ramps out, switches and settles. -/
def execHeadsetMicSwitch (s : State) : Step :=
  let j := s.analog.jack
  if !j.micDue || s.cycle ≠ 0 then .next s
  else
    let on := j.inserted && hasMic j.kind
    let s := wr s (.micCfg 1) (withBits (rd s (.micCfg 1)) 0x400 (b2n on * 0x400))
    .next (modAdc (modJack s (fun j => { j with micDue := false, micOnJack := on })) 5 (adcResettle s true))

/-- The button window of a reading (R278): the lowest window whose bound it does not exceed. -/
def buttonOf (w mv : Nat) : Option Nat :=
  (List.range 4).find? (fun b => decide (mv ≤ 10 * bits w (8 * b + 7) (8 * b)))

/-- HS_BUTTON_PRESS (R278): the converters that read the contact lie in ANA (R17). -/
def execHsButtonPress (mv : Nat) (s : State) : Step :=
  let j := s.analog.jack
  if !(bit (rd s .hpjCfg) 15 && hasMic j.kind && j.inserted && j.button == 0 && s.power.pwrEn1) then .next s
  else match buttonOf (rd s .hpjBtn) mv with
    | none => .next s
    | some b =>
      let s := addCount s .hpjCount 31 16 1
      let s := raise (modJack s (fun j => { j with button := b + 1, contactMv := mv })) 86 (b + 8)
      .next (if j.micOnJack then modAdc s 5 (adcMuteTo s true) else s)

/-- HS_BUTTON_RELEASE (R278), while the device reads the contact; the reading that confirms it comes with its block (R285). -/
def execHsButtonRelease (s : State) : Step :=
  let j := s.analog.jack
  if j.button = 0 ∨ !(bit (rd s .hpjCfg) 15 && s.power.pwrEn1) then .next s
  else
    let s := raise (modJack s (fun j => { j with button := 0 })) 86 (j.button - 1)
    .next (if j.micOnJack && !bit (rd s (.micCfg 1)) 1 then modAdc s 5 (adcMuteTo s false) else s)

end Sys2Proof.Machine
end

