-- ==== Sys2Proof/Machine/Wake.lean ====
section
/-!
DEFINITION. The microphones and the wake path (ch. 09): PDM clocks and their bridges, wake feeds, beams, the Rooster, the
Cooler, and the opcodes 0x90 to 0x92.
-/

namespace Sys2Proof.Machine

open Sys2Proof

/-! ## Sample numbers (R292) -/

/-- First CSN of a block. -/
def csnOf (b : Bsn) : Csn := BitVec.ofNat 42 (4 * b.toNat)

/-- `a` is not earlier than `b`. -/
def csnReached (a b : Csn) : Bool := decide ((a - b).toNat < 2 ^ 41)

/-- `n` lies in the `k` samples from `c` on. -/
def csnIn (n c : Csn) (k : Nat) : Bool := decide ((n - c).toNat < k)

/-- Newest sample taken at the pins when a boundary begins block `b`. -/
def csnNewest (b : Bsn) : Csn := csnOf b - 1#42

/-- First CSN that becomes readable at the boundary that begins block `b`: that of block b − 13. -/
def csnReadable (b : Bsn) : Csn := csnOf (b - 13#40)

/-! ## PDM clocks and feeds (R288-R290) -/

/-- Change the wake state. -/
def modWake (s : State) (f : Wake → Wake) : State := { s with wake := f s.wake }

/-- PDM clock of a microphone. -/
def micClock (m : Nat) : Nat := m / 8

/-- RATE and LRATE of a clock (R303). -/
def pdmRate (s : State) (c : Nat) : Nat := bits (rd s .pdmCfg) (3 * c + 2) (3 * c)
def pdmLrate (s : State) (c : Nat) : Nat := bits (rd s .pdmCfg) (2 * c + 7) (2 * c + 6)
/-- SETTLE. -/
def pdmSettle (s : State) : Nat := bits (rd s .pdmCfg) 15 10

/-- MIC_CFG bits. -/
def micEn (s : State) (m : Nat) : Bool := bit (rd s (.pmicCfg m)) 0
def micWake (s : State) (m : Nat) : Bool := bit (rd s (.pmicCfg m)) 1

/-- Wake microphones in ascending order: WD0 to WD3 serve them (R290). -/
def wakeMics (s : State) : List Nat := (List.range 16).filter (micWake s)

/-- The microphone has a wake feed (R290). -/
def hasFeed (s : State) (m : Nat) : Bool :=
  let k := s.wake.clocks.getD (micClock m) {}
  s.wake.pathOn && k.rate != 0 && (micWake s m || (micEn s m && !k.listen))

/-- The 96 kHz source of a microphone can deliver (R289). -/
def micLive (s : State) (m : Nat) : Bool :=
  let k := s.wake.clocks.getD (micClock m) {}
  micEn s m && k.rate != 0 && !k.listen && modeHigh s

/-- Change the sources of the microphones of a clock that are enabled. -/
def modSrcs (s : State) (c : Nat) (f : Adc → Adc) : State :=
  modWake s (fun w => { w with
    srcs := (List.zip (List.range 16) w.srcs).map (fun x => if micClock x.1 = c ∧ micEn s x.1 = true then f x.2 else x.2) })

/-- A bridge that begins with the present block is the latest one, and the Cooler's report keeps it as long as its samples can
be read (R294, R309). -/
def noteBridge (s : State) : State :=
  let c := csnOf s.bsn
  modWake s (fun w => { w with
    bridge := some c,
    bridgeLog := (c, pdmSettle s) :: w.bridgeLog.filter (fun x => decide ((c - x.1).toNat < 40000)) })

/-- A bridge of S samples begins with the present block for the feeds of some microphones; one that has not ended keeps its
samples up to there (R294, R295). -/
def bridgeMics (s : State) (ms : List Nat) : State :=
  let c := csnOf s.bsn
  let t := if ms.isEmpty then s else noteBridge s
  modWake t (fun w => { w with
    bridges := w.bridges.map (fun b => if ms.contains b.mic then { b with keep := min b.keep (c - b.first).toNat } else b) ++
      ms.map (fun m => ⟨m, c, pdmSettle s, pdmSettle s⟩) })

/-- The feed samples of a bridge, once its last one, b, has been taken (R294); `h` is newest first, its newest sample
`top`. -/
def bridgeFeed (top : Csn) (g : FeedBridge) (h : List Int) : List Int :=
  let k := g.len
  let ib := (top - (g.first + BitVec.ofNat 42 k)).toNat       -- index of b
  let b := h.getD ib 0
  let a := h.getD (ib + k + 1) 0
  (List.zip (List.range h.length) h).map (fun x =>
    let j := k + ib - x.1
    if ib < x.1 ∧ x.1 ≤ ib + k ∧ j < g.keep then a + roundHalfEven ((b - a) * (j + 1 : Nat)) (k + 1) else x.2)

/-- The bridges whose b has been taken; of one microphone, none before an older one (R295). -/
def bridgesReady (top : Csn) : List Nat → List FeedBridge → List FeedBridge
  | _, [] => []
  | waits, g :: gs =>
    if waits.contains g.mic || !csnReached top (g.first + BitVec.ofNat 42 g.len) then bridgesReady top (g.mic :: waits) gs
    else g :: bridgesReady top waits gs

/-! ## POL, TRIM and the high-pass (R260, R289) -/

/-- POL and TRIM of a microphone on a sample, 128 fraction bits (R289, R303: steps of 0.05 dB); 1 for a converter. -/
def trimGain (s : State) (c : Nat) : Int :=
  if c < 0x30 then rOne
  else
    let w := rd s (.pmicCfg (c - 0x30))
    let t := toSigned 8 (bits w 11 4)
    let g := if t = 0 then rOne else rExp2 (t * 1000000000) (6020599913 * 20)
    if bit w 2 then -g else g

/-- HPF of a source (R283, R303). -/
def srcHpf (s : State) (c : Nat) : Bool :=
  if c < 0x30 then bit (rd s (adcCfg (c - 0x20))) 2 else bit (rd s (.pmicCfg (c - 0x30))) 3

/-- R260: y[n] = x[n] − x[n−1] + a·y[n−1] with a = 1 − 2^−12, rounded half-to-even to S32; inputs have 128 fraction bits. -/
def highPass (x x1 y1 : Int) : Int :=
  clampInt (sMin 32) (sMax 32) (roundHalfEven ((x - x1) * 4096 + 4095 * y1 * rOne) (4096 * 2 ^ 128))

/-- The steps of R289 on a decimator's samples: the last input and output of the high-pass after them, and the samples. -/
def filterBlock (g : Int) (hpf : Bool) (h : Int × Int) (xs : List Int) : (Int × Int) × List Int :=
  xs.foldl (fun acc x =>
    let v := x * g
    let y := highPass v acc.1.1 acc.1.2
    ((v, y), acc.2 ++ [if hpf then y else clampInt (sMin 32) (sMax 32) (roundHalfEven v (2 ^ 128))])) (h, [])

/-- Samples of a decimator's history that the decimation by 6 sees (DESIGN CHOICE, log entry 81). -/
def decTaps : Nat := 512

/-- The four samples of a block that the decimation by 6 makes of a decimator's filtered ones (R290), with its history after
them. -/
def bySix (h ys : List Int) : List Int × List Int :=
  [0, 1, 2, 3].foldl (fun acc k =>
    let h := (((ys.drop (6 * k)).take 6).reverse ++ acc.1).take decTaps
    (h, acc.2 ++ [clampInt (sMin 32) (sMax 32) (Config.bySix h)])) (h, [])

/-- What microphone `m` brings to its wake feed in a block, under POL, TRIM and the high-pass (R289): the samples of its wake
decimator, or those of its DEC decimator decimated by 6 (R290); zero without a feed. -/
def feedBlock (s : State) (feeds : List (Nat × List Int)) (m : Nat) (f : FeedFilter) : FeedFilter × List Int :=
  if !hasFeed s m then ({}, [0, 0, 0, 0])
  else
    let n := if micWake s m then 4 else 24
    let xs := (((assocFind m feeds).getD []) ++ List.replicate n 0).take n
    let r := filterBlock (trimGain s (0x30 + m)) (srcHpf s (0x30 + m)) (f.x, f.y) xs
    if micWake s m then ({ x := r.1.1, y := r.1.2 }, r.2)
    else
      let d := bySix f.dec r.2
      ({ x := r.1.1, y := r.1.2, dec := d.1 }, d.2)

/-- The samples of a block at the pins join the feeds, and the bridges that now have their b are made. -/
def pushFeeds (s : State) (feeds : List (Nat × List Int)) : State :=
  let top := csnNewest s.bsn
  let own := (List.zip (List.range 16) s.wake.filters).map (fun x => feedBlock s feeds x.1 x.2)
  modWake s (fun w =>
    let fs := (List.zip own w.feeds).map (fun x => (x.1.2.reverse ++ x.2).take 200)
    let now := bridgesReady top [] w.bridges
    { w with filters := own.map (fun x => x.1),
             feeds := now.foldl (fun fs g => modAt fs g.mic (bridgeFeed top g)) fs,
             bridges := w.bridges.filter (fun g => !now.contains g) })

/-! ## Beams (R291, R294, R295) -/

/-- Mask, delay and weight words of a set. -/
def beamMask (s : State) (b : Nat) (l : Bool) : Nat := rd s (if l then .maskL b else .maskA b)
def beamDelay (s : State) (b m : Nat) (l : Bool) : Nat := rd s (if l then .dlyL b m else .dlyA b m)
def beamWeight (s : State) (b m : Nat) (l : Bool) : Int := toSigned 32 (rd s (if l then .wgtL b m else .wgtA b m))

/-- A feed's sample `c`, 0 where it is no longer held. -/
def feedAt (s : State) (m : Nat) (c : Csn) : Int :=
  (s.wake.feeds.getD m []).getD (csnNewest s.bsn - c).toNat 0

/-- R291: output of beam `b` at CSN `n` with set A or L. -/
def beamRaw (s : State) (b : Nat) (n : Csn) (l : Bool) : Int :=
  let mask := beamMask s b l
  let one (m : Nat) : Int :=
    if !bit mask m then 0
    else
      let d := beamDelay s b m l
      let ws := lagrange (d % 8 * 32)
      (List.range 4).foldl (fun a k =>
        let c := roundHalfEven (beamWeight s b m l * ws.getD k 0) (2 ^ 38)
        a + c * feedAt s m (n - BitVec.ofNat 42 (d / 8 + k))) 0
  clampInt (sMin 32) (sMax 32) (roundHalfEven (((List.range 16).map one).foldl (· + ·) 0) (2 ^ 23))

/-- The mode of a sample: that of the newest segment that holds it, with its first CSN. -/
def beamModeAt (k : Beam) (n : Csn) : Csn × BeamMode :=
  (k.segs.find? (fun g => csnReached n g.1)).getD (0#42, .setA)

/-- Output of an enabled beam at CSN `n`, bridges included, with the beam after it. -/
def beamStep (s : State) (b : Nat) (k : Beam) (n : Csn) : Beam × Int :=
  let g := beamModeAt k n
  let y :=
    match g.2 with
    | .setA => beamRaw s b n false
    | .setL => beamRaw s b n true
    | .fade =>
      let j := (n - g.1).toNat
      if 63 ≤ j then beamRaw s b n false
      else
        let wa : Int := (j + 1 : Nat)
        roundHalfEven (beamRaw s b n true * (64 - wa) + beamRaw s b n false * wa) 64
  let k := match k.bridge with
    | some (c, len, a) => if n = c then { k with bridge := some (c, len, k.last) } else { k with bridge := some (c, len, a) }
    | none => k
  let y := match k.bridge with
    | some (c, len, a) =>
      if csnIn n c len then
        let e := beamRaw s b (c + BitVec.ofNat 42 len) true
        a + roundHalfEven ((e - a) * ((n - c).toNat + 1 : Nat)) (len + 1)
      else y
    | none => y
  let y := if bit (rd s (.beamCfg b)) 0 then y else 0
  ({ k with last := y }, y)

/-! ## The Cooler (R299-R301) -/

/-- Store one instant's five lanes. -/
def coolerPut (m : Memory) (n : Csn) (vals : List Int) : Memory :=
  let slot := n.toNat % 32768
  (List.zip (List.range 5) vals).foldl (fun m x =>
    let a := (slot * 5 + x.1) * 2
    let v := ofSigned 16 x.2
    memoryWrite (memoryWrite m a (BitVec.ofNat 8 v)) (a + 1) (BitVec.ofNat 8 (v / 256))) m

/-- The value that a lane stores for CSN `n` (R299). -/
def laneValue (s : State) (ys : List Int) (lane : Nat) (n : Csn) : Int :=
  let w := rd s (.lane lane)
  let src := bits w 7 0
  let x :=
    if src < 4 then ys.getD src 0
    else if 0x10 ≤ src ∧ src < 0x20 then feedAt s (src - 0x10) n
    else 0
  clampInt (sMin 16) (sMax 16) (roundHalfEven (x * 2 ^ bits w 11 8) (2 ^ 16))

/-! ## The band filter (R296) -/

/-- Corner frequencies of a band's high-pass and low-pass, Hz. -/
def bandCorners (band : Nat) : Nat × Nat :=
  match band with
  | 1 => (100, 7000)
  | 2 => (200, 4000)
  | _ => (300, 3400)

/-- b0, b1, b2, a1, a2 of a second-order Butterworth section at `f` Hz and 16 kHz: low-pass (part 0) or high-pass (part 1),
by the bilinear transform of R108, with 128 fraction bits. -/
def bandSection (part f : Nat) : List Int :=
  let x := rAngle f 16000
  secondOrderReal part (rDiv (rSin x) (rCos x)) (butterDamp 0)

/-- One output of a section: `x` and `y` are the last two inputs and outputs. -/
def sectionOut (c : List Int) (x0 x1 x2 y1 y2 : Int) : Int :=
  rMul (c.getD 0 0) x0 + rMul (c.getD 1 0) x1 + rMul (c.getD 2 0) x2 - rMul (c.getD 3 0) y1 - rMul (c.getD 4 0) y2

/-- The Rooster takes one beam sample: the band filter, without rounding between its sections, then S32 (R296; log
entry 72). -/
def detSample (s : State) (b : Nat) (y : Int) (d : Detector) : Detector :=
  let band := bits (rd s (.detCfg b)) 1 0
  if !d.on then d
  else if band = 0 then { d with buf := (y :: d.buf).take 16 }
  else
    let k := bandCorners band
    let f (i : Nat) : Int := d.filt.getD i 0
    let x := y * rOne
    let h := sectionOut (bandSection 1 k.1) x (f 0) (f 1) (f 2) (f 3)
    let l := sectionOut (bandSection 0 k.2) h (f 2) (f 3) (f 4) (f 5)
    { d with filt := [x, f 0, h, f 2, l, f 4],
             buf := (clampInt (sMin 32) (sMax 32) (privateRound l (2 ^ 128) 0) :: d.buf).take 16 }

/-- One sample instant becomes readable: beams move on, the Rooster takes them, and the Cooler stores it while it captures. -/
def wakeInstant (s : State) (n : Csn) : State :=
  let r := (List.zip (List.range 4) s.wake.beams).map (fun x => beamStep s x.1 x.2 n)
  let ys := r.map (fun x => x.2)
  let s := modWake s (fun w => { w with
    beams := r.map (fun x => x.1),
    dets := (List.zip (List.range 4) w.dets).map (fun x => detSample s x.1 (ys.getD x.1 0) x.2) })
  if !s.wake.capturing then s
  else
    let vals := (List.range 5).map (fun l => laneValue s ys l n)
    let slot := n.toNat % 32768
    modWake s (fun w =>
      let old := match w.range with
        | some (_, o) => if (n - o).toNat < 32768 then o else n - 32767#42
        | none => n
      { w with cooler := coolerPut w.cooler n vals, range := some (n, old),
               bad := w.bad.filter (fun x => x / 5 != slot) })

/-- The Cooler words in which double-bit errors are found read as zero samples; each counts and raises EV043 (R301). -/
def coolerErrors (s : State) (words : List (List (Nat × Nat))) : State :=
  words.foldl (fun s cells =>
    let cells := cells.filter (fun c => c.1 < 32768 && c.2 < 5)
    if cells.isEmpty then s
    else
      let s := modWake s (fun w => { w with
        cooler := cells.foldl (fun m c =>
          let a := (c.1 * 5 + c.2) * 2
          memoryWrite (memoryWrite m a 0#8) (a + 1) 0#8) w.cooler,
        bad := (cells.map (fun c => c.1 * 5 + c.2)) ++ w.bad, eccCount := bump 0xFFFF w.eccCount })
      raise s 43 s.wake.eccCount) s

/-- The wake path at a block boundary (R292); the Cooler is read while the path stands too (R300, R301). -/
def wakeBlock (s : State) (feeds : List (Nat × List Int)) (words : List (List (Nat × Nat))) : State :=
  let s := coolerErrors s words
  if !s.wake.pathOn then s
  else
    let s := pushFeeds s feeds
    let n := csnReadable s.bsn
    if csnReached n s.wake.pathFrom then
      [0#42, 1#42, 2#42, 3#42].foldl (fun t i => wakeInstant t (n + i)) s
    else s

/-! ## Reading the Cooler (R309) -/

/-- What a fetch returns: header and samples for `count` instants from `first`. -/
def fetchPayload (s : State) (first : Csn) (count lanes : Nat) (clamped : Bool) : List Byte :=
  let w := s.wake
  let ls := (List.range 5).filter (fun l => bit lanes l)
  let at_ (i : Nat) : Csn := first + BitVec.ofNat 42 i
  let cellOf (i l : Nat) : Nat := (at_ i).toNat % 32768 * 5 + l
  let bridged : Option (Csn × Nat) := w.bridgeLog.find? (fun x => (List.range count).any (fun i => csnIn (at_ i) x.1 x.2))
  let lost := (List.range count).any (fun i => ls.any (fun l => w.bad.contains (cellOf i l)))
  csn8 first ++ u16 count ++ u8 (maskOf ((List.range 5).map (fun l => bit lanes l))) ++
    u8 (b2n clamped + b2n bridged.isSome * 2 + b2n lost * 4) ++
    (match bridged with
      | some x => csn8 x.1
      | none => leBytes 8 (2 ^ 63)) ++ zeros 4 ++
    (List.range count).flatMap (fun i => ls.flatMap (fun l =>
      [memoryRead w.cooler (cellOf i l * 2), memoryRead w.cooler (cellOf i l * 2 + 1)]))

/-- Instants of a fetch that are readable now. -/
def fetchReady (s : State) (first : Csn) (count : Nat) : Nat :=
  match s.wake.range with
  | some (newest, _) => if csnReached newest first then min count ((newest - first).toNat + 1) else 0
  | none => 0

/-- The job of a COOLER_FETCH with WAIT. -/
def isFetch : Job → Bool
  | .coolerFetch _ _ _ _ => true
  | _ => false

/-- Every waiting fetch completes with the samples gathered so far (R309). -/
def endFetches (s : State) : State :=
  completeJobs s isFetch (fun j => match j with
    | .coolerFetch first count lanes clamped =>
      (.ok, fetchPayload s first (fetchReady s first count) lanes clamped)
    | _ => (.ok, []))

/-- A fetch whose last sample is readable. -/
def fetchDone (s : State) : Job → Bool
  | .coolerFetch first count _ _ => fetchReady s first count == count
  | _ => false

/-- COOLER_FETCH_COMPLETE (R309). -/
def execCoolerFetchComplete (s : State) : Step :=
  .next (completeJobs s (fetchDone s) (fun j => match j with
    | .coolerFetch first count lanes clamped => (.ok, fetchPayload s first count lanes clamped)
    | _ => (.ok, [])))

/-- COOLER_FETCH (R309). -/
def doCoolerFetch : Request → State → State :=
  runOp 0x91 (lenIs 12) (fun s q =>
    let first : Csn := BitVec.ofNat 42 (leField q.payload 0 8)
    let count := pay16 q 8
    let lanes := pay8 q 10 % 32
    let n := ((List.range 5).filter (fun l => bit lanes l)).length
    let wait := bit (pay8 q 11) 0
    let clamp := bit (pay8 q 11) 1
    if count = 0 ∨ 4072 < count * n * 2 ∨ lanes = 0 then .refuse .range []
    else match s.wake.range with
      | none => .refuse .state []
      | some (newest, oldest) =>
        let last := first + BitVec.ofNat 42 (count - 1)
        let old := !csnReached first oldest
        if (old && !clamp) || (wait && csnReached last newest && decide (4096 < (last - newest).toNat)) then
          .refuse .range []
        else
          let f := if old then oldest else first
          let c := if old then (if csnReached last oldest then (last - oldest).toNat + 1 else 0) else count
          let got := fetchReady s f c
          if wait && s.wake.capturing && decide (got < c) then .pend s (.coolerFetch f c lanes old) none
          else .done s (fetchPayload s f got lanes old))

/-- COOLER_FETCH (R309). -/
def execCoolerFetch (q : Request) (s : State) : Step := .next (doCoolerFetch q s)

/-! ## Path, capture, detectors (R297, R300) -/

/-- The detector of beam `b` starts (R297). -/
def detStart (s : State) (b : Nat) (d : Detector) : Detector :=
  let f := toSigned 32 (rd s (.detFloor b))
  { d with on := true, s := f, f := f, windows := 0, run := 0, fired := false, quiet := 0, hit := false,
           filt := List.replicate 6 0, buf := [] }

/-- EN and WATCH of a beam are 1. -/
def beamWatched (s : State) (b : Nat) : Bool := bit (rd s (.beamCfg b)) 0 && bit (rd s (.beamCfg b)) 1

/-! ## Detections (R298) -/

/-- First CSN of the window whose last sample becomes readable at the boundary that begins the present block, if one
does. -/
def windowFirst (s : State) : Option Csn :=
  if s.bsn.toNat % 4 = 0 then some (csnOf (s.bsn - 16#40)) else none

/-- Every running detector that holds all of window `w` has ended it; one that started inside the window takes no part. -/
def windowOver (s : State) (w : Csn) : Bool := s.wake.dets.all (fun d => !(d.on && d.buf.length == 16) || d.win == w)

/-- R298: once every running detector has ended window `w`, the beams that fired form one detection. -/
def detectionEvent (s : State) (w : Csn) : State :=
  let hits := (List.zip (List.range 4) s.wake.dets).filter (fun x => x.2.on && x.2.win == w && x.2.hit)
  if !windowOver s w then s
  else match hits with
    | [] => s
    | h :: _ =>
      let src := hits.any (fun x => bit (rd s (.detCfg x.1)) 2)
      let mask := hits.foldl (fun m x => m + 2 ^ x.1) 0
      raise (modWake s (fun k => { k with srcFired := k.srcFired || src })) 89 (mask + h.2.onset.toNat % 2 ^ 28 * 16)

/-- A detection that waited for a detector which has stopped or started afresh is made; `s` is the state before that. -/
def detectionLeft (s t : State) : State :=
  match windowFirst s with
  | some w => if !windowOver s w then detectionEvent t w else t
  | none => t

/-- Start (`again`: every watched one; otherwise those that do not run) and stop detectors. -/
def detUpdate (s : State) (again : Bool) : State :=
  detectionLeft s <| modWake s (fun w => { w with dets := (List.zip (List.range 4) w.dets).map (fun x =>
    if !(w.pathOn && beamWatched s x.1) then { x.2 with on := false }
    else if again || !x.2.on then detStart s x.1 x.2 else x.2) })

/-- Capture starts or stops as COOLER_CFG and the path say (R300). -/
def captureUpdate (s : State) : State :=
  match s.wake.pathOn && bit (rd s .coolerCfg) 0, s.wake.capturing with
  | true, false =>
    detUpdate (modWake s (fun w => { w with capturing := true, range := none, cooler := [], bad := [], bridge := none,
                                            bridgeLog := [] })) true
  | false, true => endFetches (modWake s (fun w => { w with capturing := false }))
  | _, _ => s

/-- The wake path starts with the present block. -/
def pathStart (s : State) : State :=
  captureUpdate (detUpdate (modWake s (fun w => { w with
    pathOn := true, pathFrom := csnOf s.bsn, feeds := List.replicate 16 [], filters := List.replicate 16 {},
    bridges := [] })) true)

/-- The wake path stops (R478, R480). -/
def pathStop (s : State) : State := detUpdate (captureUpdate (modWake s (fun w => { w with pathOn := false }))) false

/-- A clock takes the rate of the present mode; `listen` says that it comes from the crystal. -/
def clockTo (s : State) (c : Nat) (listen : Bool) : State :=
  modWake s (fun w => { w with clocks := modAt w.clocks c (fun _ =>
    { rate := if listen then pdmLrate s c else pdmRate s c, listen := listen }) })

/-- A change of a clock to the source and the rate of its field falls due at the boundary that begins `b` (R293). -/
def clockDue (s : State) (c : Nat) (listen : Bool) (b : Bsn) : State :=
  modWake s (fun w => { w with clocks := modAt w.clocks c (fun k =>
    { k with change := k.change ++ [(b, listen, if listen then pdmLrate s c else pdmRate s c)] }) })

/-- Both PDM clocks stop low (R478, R480). -/
def clocksStop (s : State) : State :=
  modWake s (fun w => { w with clocks := w.clocks.map (fun _ => {}) })

/-- A parallel run under way of a decimator on clock `c` is abandoned (R294). -/
def abandonSwaps (s : State) (c : Nat) : State :=
  let ds := ((List.range 16).filter (fun m => micClock m = c)).map (fun m => s.health.decMap.getD m m)
  { s with health := { s.health with swaps := s.health.swaps.map (fun x =>
      if ds.contains x.old then { x with new := none, begun := none } else x) } }

/-- R294: the boundary at which a change at the present one is complete: sample s0 + S leaves the wake decimators 16 samples
after it was taken (DEDUCED from the 48 samples of delay and the 32 of lookahead). -/
def changeDone (s : State) : Bsn := s.bsn + BitVec.ofNat 40 ((pdmSettle s + 16) / 4 + 1)

/-- At a change of source each beam moves between its sets: to set L at once, bridged, or to set A after 16 blocks (R294,
R295). -/
def beamMove (s : State) (listen : Bool) (b : Beam) : Beam :=
  let n := csnOf s.bsn
  let now := (b.segs.head?.getD (0#42, .setA)).2
  if listen then
    if now = .setL then { b with xfDue := none }
    else { b with segs := ((n, .setL) :: b.segs).take 4, xfDue := none, bridge := some (n, pdmSettle s, 0) }
  else if now = .setL then { b with xfDue := some (s.bsn + 16#40) } else b

/-- PDM_CLOCK_CHANGE (R293-R295): at its boundary the clock changes, its feeds are bridged, the 96 kHz sources on it
settle, and with a change of source the beams move between their sets. A change for the source of a mode that has been left
has no effect. -/
def execPdmClockChange (c : Fin 2) (s : State) : Step :=
  let k := s.wake.clocks.getD c {}
  let due := k.change.filter (fun e => bsnReached s.bsn e.1)
  let listen := s.power.mode == .listen
  if s.cycle ≠ 0 ∨ due.isEmpty ∨ (listen && s.clock.xtalFault) = true then .next s
  else
    let t := modWake s (fun w => { w with clocks := modAt w.clocks c (fun k =>
      { k with change := k.change.filter (fun e => !bsnReached s.bsn e.1) }) })
    match (due.filter (fun e => e.2.1 == listen)).getLast? with
    | none => .next t
    | some e =>
      let t := modWake t (fun w => { w with clocks := modAt w.clocks c (fun k =>
        { k with rate := e.2.2, listen := listen, doneAt := some (changeDone s) }) })
      let t := abandonSwaps (bridgeMics t ((List.range 16).filter (fun m => micClock m == c.val && hasFeed t m))) c
      let t := modSrcs t c (fun a => if a.stage = .off then a else
        { a with stage := .settling, since := s.bsn, frame := frameOf s, ramp := Ramp.zero })
      if k.listen = listen then .next t
      else
        let moves := (List.zip (List.range 4) t.wake.beams).any (fun x =>
          listen && bit (rd t (.beamCfg x.1)) 0 && (x.2.segs.head?.getD (0#42, .setA)).2 != .setL)
        let t := if moves then noteBridge t else t
        .next (modWake t (fun w => { w with beams := w.beams.map (beamMove s listen) }))

/-- SET_A_CROSSFADE (R295). -/
def execSetACrossfade (b : Fin 4) (s : State) : Step :=
  match (s.wake.beams.getD b {}).xfDue with
  | none => .next s
  | some h =>
    if s.cycle ≠ 0 ∨ bsnReached s.bsn h = false then .next s
    else .next (modWake s (fun w => { w with beams := modAt w.beams b (fun k =>
      { k with segs := ((csnOf s.bsn, .fade) :: k.segs).take 4, xfDue := none }) }))

/-! ## The Rooster (R296-R298) -/

/-- A D24 value moved toward a target by a coefficient exp(−1/τ) of τ windows (R296, R297). -/
def toward (tau : Nat) (v : Int) (target : Frac) : Int :=
  let x := (fx v 24).add ((fx (2 ^ 31 - expC31 1 tau) 31).mul (target.sub (fx v 24)))
  privateRound x.n x.d 24

/-- R296: 10·log10(2e) of a window's samples, as 3.010299957·(log2 e + 1) by the log unit of R84; −128.0 where e is 0. -/
def windowLevel (xs : List Int) : Frac :=
  let sum := (xs.foldl (fun a x => a + x * x) 0).toNat
  if sum = 0 then lowLevel else lowLevel.max ⟨3010299957 * (logUnit sum (2 ^ 66) + 2 ^ 24), 10 ^ 9 * 2 ^ 24⟩

/-- The floor after a window (R297). -/
def floorStep (s : State) (b : Nat) (d : Detector) (lvl : Int) : Int :=
  let rise := toSigned 32 (rd s (.detRise b))
  let f :=
    if d.windows < 256 ∨ lvl < d.f then toward (rd s (.detTauDn b)) d.f (fx lvl 24)
    else if lvl - d.f < toSigned 32 (rd s (.detThresh b)) then min lvl (privateRound (d.f * 1000 + rise) (1000 * 2 ^ 24) 24)
    else d.f
  max f (toSigned 32 (rd s (.detFloor b)))

/-- One window of a detector (R296-R298); `w` is its first CSN. -/
def detWindow (s : State) (b : Nat) (w : Csn) (d : Detector) : Detector :=
  let lvl := toward (rd s (.detTauS b)) d.s (windowLevel d.buf)
  let margin := lvl - d.f
  let thresh := toSigned 32 (rd s (.detThresh b))
  let hyst := toSigned 32 (rd s (.detHyst b))
  let learned := decide (256 ≤ d.windows)
  let run := if learned && decide (thresh ≤ margin) then d.run + 1 else 0
  let runCsn := if run = 1 then w else d.runCsn
  let quiet := if d.fired ∧ margin < thresh - hyst then d.quiet + 1 else 0
  let rearmed := d.fired && decide (rd s (.detOff b) ≤ quiet)
  let hit := !d.fired && run == rd s (.detOn b)
  { d with
    s := lvl, f := floorStep s b d lvl, windows := d.windows + 1, run := run, runCsn := runCsn, win := w, hit := hit,
    fired := if hit then true else d.fired && !rearmed, quiet := if rearmed || hit then 0 else quiet,
    flag := d.flag || hit, onset := if hit then runCsn else d.onset,
    count := if hit then bump 0xFFFFFFFF d.count else d.count }

/-- ROOSTER_WINDOW (R296-R298): a window of 16 filtered samples has ended; the row brings nothing, since the samples are the
detector's own. -/
def execRoosterWindow (b : Fin 4) (_ : Unit) (s : State) : Step :=
  let d := s.wake.dets.getD b {}
  match windowFirst s with
  | none => .next s
  | some w =>
    if !(d.on && s.cycle == 0 && csnReached w s.wake.pathFrom && d.buf.length == 16 && (d.windows == 0 || d.win != w))
    then .next s
    else .next (detectionEvent (modWake s (fun k => { k with dets := modAt k.dets b (detWindow s b w) })) w)

/-- State code of a detector in WAKE_STATUS (R308); the crossfade by the samples that the present block takes. -/
def detState (s : State) (b : Nat) : Nat :=
  let d := s.wake.dets.getD b {}
  let g := beamModeAt (s.wake.beams.getD b {}) (csnOf s.bsn)
  if !d.on then 0
  else if g.2 = .fade ∧ (csnOf s.bsn - g.1).toNat < 64 then 5
  else if d.windows < 256 then 1
  else if d.fired then 4
  else if 0 < d.run then 3
  else 2

/-- WAKE_STATUS (R308). -/
def doWakeStatus : Request → State → State :=
  runOp 0x90 (lenIs 0) (fun s _ =>
    let w := s.wake
    let r := w.range.getD (0#42, 0#42)
    .done s (csn8 r.1 ++ csn8 r.2 ++ (match w.bridge with
        | some c => csn8 c
        | none => leBytes 8 (2 ^ 63)) ++
      u8 (b2n w.capturing + b2n (w.clocks.any (fun k => k.listen)) * 2) ++
      u8 (maskOf (w.dets.map (fun d => d.flag))) ++ u16 w.eccCount ++ zeros 4 ++
      (List.range 4).flatMap (fun b =>
        let d := w.dets.getD b {}
        i32 d.s ++ i32 d.f ++ u8 (detState s b) ++ zeros 3 ++ csn8 d.onset ++ u32 d.count)))

/-- WAKE_STATUS (R308). -/
def execWakeStatus (q : Request) (s : State) : Step := .next (doWakeStatus q s)

/-- WAKE_REARM (R310); a mask that names no beam is out of range (log entry 18). -/
def doWakeRearm : Request → State → State :=
  runOp 0x92 (lenIs 4) (fun s q =>
    let mask := pay8 q 0 % 16
    let again := bit (pay8 q 1) 0
    if mask = 0 then .refuse .range []
    else .done (detectionLeft s <| modWake s (fun w => { w with dets := (List.zip (List.range 4) w.dets).map (fun x =>
      if !bit mask x.1 then x.2
      else
        let d := { x.2 with fired := false, quiet := 0, flag := false }
        if again && d.on then detStart s x.1 d else d) })) [])

/-- WAKE_REARM (R310). -/
def execWakeRearm (q : Request) (s : State) : Step := .next (doWakeRearm q s)

/-! ## Writes of the fields (R302-R307) -/

/-- PDM_CFG is written (R293, R304). -/
def applyPdmCfg (s : State) (v : Nat) : State :=
  let old := s
  let s := wr s .pdmCfg v
  [0, 1].foldl (fun t c =>
    if !t.wake.pathOn then t
    else if modeHigh t && pdmRate old c != pdmRate t c then
      clockDue (modSrcs t c (fun a =>
        if a.stage = .running then { a with ramp := rampFrom a.ramp false 48 t.bsn (frameOf t) } else a)) c false (t.bsn + 2#40)
    else if t.power.mode == .listen && pdmLrate old c != pdmLrate t c then clockDue t c true (t.bsn + 2#40)
    else t) s

/-- MIC_CFG of a PDM microphone is written (R289, R290). -/
def applyPmicCfg (s : State) (m v : Nat) : State :=
  let old := rd s (.pmicCfg m)
  let s := wr s (.pmicCfg m) v
  modWake s (fun w => { w with srcs := modAt w.srcs m (fun a =>
    if bit v 0 && !bit old 0 then adcOn s false a else if !bit v 0 && bit old 0 then adcOff s a else a) })

/-- Once a commit has changed MIC_CFG words, every microphone whose wake decimator changed is bridged (R290, R294); `before`
are the wake microphones before it. -/
def wakeMoved (s : State) (before : List Nat) : State :=
  let now := wakeMics s
  if s.wake.pathOn && before != now then bridgeMics s (now.filter (fun m => before.contains m && before.idxOf m != now.idxOf m)) else s

/-- BEAM_CFG is written. -/
def applyBeamCfg (s : State) (b v : Nat) : State := detUpdate (wr s (.beamCfg b) v) false

/-- COOLER_CFG is written (R300). -/
def applyCoolerCfg (s : State) (v : Nat) : State := captureUpdate (wr s .coolerCfg v)

/-- The PDM sources at the start of a frame: ramps that ended, settling that ended (R261, R289, R293). -/
def micFrame (s : State) : State :=
  modWake s (fun w => { w with srcs := w.srcs.map (fun a => adcSettled s false (adcEnd s a)) })

end Sys2Proof.Machine
end

