-- ==== Sys2Proof/Machine/PStage.lean ====
section
/-!
DEFINITION. The power stage (ch. 10): channels, start and stop sequences, shutdowns and retries, the sag limiter and
thermal fold-back at a block boundary, committed changes, and the opcodes 0x60 to 0x62. Channels 0-15 are half-bridges,
16-31 XPWM outputs. The rows that may end a diagnostic sweep stand in Machine/Bridge.lean.
-/

namespace Sys2Proof.Machine

open Sys2Proof

/-! ## Channels and their configuration -/

/-- Change one channel. -/
def modChan (s : State) (c : Nat) (f : Chan → Chan) : State :=
  { s with stage := { s.stage with chans := modAt s.stage.chans c f } }

/-- Configuration register of a channel. -/
def chanReg (c : Nat) : Reg := if c < 16 then .hbCfg c else .xpCfg (c - 16)

/-- EN, LOOP, START_MS and STOP_MS of a channel (R337). -/
def chanEn (s : State) (c : Nat) : Bool := bit (rd s (chanReg c)) 0
def chanLoopBit (s : State) (c : Nat) : Bool := decide (c < 16) && bit (rd s (chanReg c)) 2
def startMs (s : State) (c : Nat) : Nat := if c < 16 then bits (rd s (.hbCfg c)) 13 7 else bits (rd s (.xpCfg (c - 16))) 12 6
def stopMs (s : State) (c : Nat) : Nat := if c < 16 then bits (rd s (.hbCfg c)) 20 14 else bits (rd s (.xpCfg (c - 16))) 19 13

/-- The channel leads (R312, R313). -/
def leads (s : State) (c : Nat) : Bool := leaderOf s c == c

/-- A half-bridge channel of an SE pair. -/
def isSe (s : State) (c : Nat) : Bool := decide (c < 16) && hbPair s (c / 2) == 0

/-- The stage is available to a channel, and the die link is up (R321): XPWM channels depend on neither (R19, R328). -/
def stageFor (s : State) (c : Nat) : Bool := decide (16 ≤ c) || (s.stage.stage == .available && !s.stage.linkDown)

/-- A sweep has been accepted, or is due after the boot, and waits for this channel (R344, R347, R354). -/
def diagHolds (s : State) (c : Nat) : Bool :=
  (s.diag.state == .waiting && bit s.diag.mask c) || (s.diag.bootDue && decide (c < 16))

/-- A channel may run the start sequence: ACTIVE and not leaving it, fabric clocked, stage available, EN 1, leading (R321, R476);
the bridges stay Hi-Z in a boundary-scan test (R526). -/
def mayStart (s : State) (c : Nat) : Bool :=
  s.power.mode == .active && s.power.fabricOn && !leavingActive s && stageFor s c && chanEn s c && leads s c && !diagHolds s c &&
    !(decide (c < 16) && testMode s)

/-- The channel switches: STARTING, PLAY or STOPPING. -/
def running (x : Chan) : Bool := x.state == .starting || x.state == .play || x.state == .stopping

/-! ## Sequences (R322, R323) -/

/-- Frames of the running sequence passed. -/
def seqAge (s : State) (x : Chan) : Nat := x.seqSkip + (bsnSince s.bsn x.seqBsn * 24 + frameOf s - x.seqFrame)

/-- Frame s of the start sequence and frame e of the stop sequence. -/
def seqS (se : Bool) : Nat := if se then 19202 else 3
def seqE (se : Bool) (ms : Nat) : Nat := if se then 96 * ms + 19200 else 96 * ms + 1

/-- The start sequence begins now. -/
def beginStart (s : State) (c : Nat) : State :=
  modChan s c (fun x => { x with
    state := .starting, seqBsn := s.bsn, seqFrame := frameOf s, seqSkip := 0, seqMs := startMs s c, ramp := Ramp.zero,
    waiting := false })

/-- The stop sequence begins `lag` frames from now with STOP_MS taken as `ms`; from before frame s of a start it is at step e. -/
def beginStop (s : State) (c ms lag : Nat) (dest : ChState) : State :=
  let se := isSe s c
  modChan s c (fun x =>
    let early := x.state == .starting && decide (seqAge s x < seqS se)
    { x with
      state := .stopping, seqBsn := s.bsn, seqFrame := frameOf s + lag, seqSkip := if early then seqE se ms else 0,
      seqMs := ms, ramp := if early then Ramp.zero else rampDown x.ramp (96 * ms) s.bsn (frameOf s + lag), stopTo := dest,
      dcLp := 0, dcRun := 0 })

/-- The outputs are Hi-Z or SAFE from now on, and the channel is in `st`. -/
def hiZ (st : ChState) (x : Chan) : Chan :=
  { x with state := st, ramp := Ramp.zero, loop := false, limRun := 0, playFor := 0, wasPlay := false, wasLoop := false,
           sag := false, sagWin := ({} : Chan).sagWin, sagGain := 2 ^ 31, sagDb := 0, waiting := false, held := false,
           line := [], taps := [], out := [], target := [], index := [], drive := [], spans := [], integ := 0, dcLp := 0,
           dcRun := 0 }

/-- The loop of channel `c` closes, from frame s of the start sequence on (R319, R322). -/
def closeLoop (s : State) (c : Nat) (x : Chan) : Chan :=
  let live := x.state == .play || (x.state == .starting && decide (seqS (isSe s c) ≤ seqAge s x))
  if live && chanLoopBit s c && !x.loopLost then
    { x with loop := true, wasLoop := x.wasLoop || (x.state == .play && frameOf s == 0) }
  else x

/-- What a channel does at a frame start: its sequence moves on. -/
def chanStep (s : State) (c : Nat) (x : Chan) : Chan :=
  let se := isSe s c
  let age := seqAge s x
  let n := 96 * x.seqMs
  match x.state with
  | .starting =>
    if seqS se + n + 1 ≤ age then
      let x := closeLoop s c { x with state := .play, ramp := Ramp.one }
      if frameOf s = 0 then { x with wasPlay := true, wasLoop := x.loop } else x
    else
      let x := closeLoop s c x
      if seqS se + 1 = age then { x with ramp := rampFull true n s.bsn (frameOf s) } else x
  | .stopping =>
    if seqE se x.seqMs + 2 ≤ age then
      hiZ (if x.stopTo = .unavailable ∧ stageFor s c = true then .off else x.stopTo) x
    else x
  | .faultWait => if !chanEn s c && frameOf s == 0 then { hiZ .off x with retries := 0 } else x
  | _ => x

/-- The frame work of every channel. -/
def chanFrame (s : State) : State :=
  { s with stage := { s.stage with
      chans := (List.zip (List.range 32) s.stage.chans).map (fun p => chanStep s p.1 p.2) } }

/-- CHANNEL_START (R321, R322): at a block boundary. -/
def execChannelStart (c : Fin 32) (s : State) : Step :=
  if s.cycle = 0 ∧ (chan s c).state = .off ∧ mayStart s c = true then .next (beginStart s c) else .next s

/-! ## Committed changes -/

/-- EN of a channel changes from `a` to `b` (R321, R326); in DIAG the rules of retries and latches do not apply (R345). -/
def enChange (s : State) (c lag : Nat) (a b : Bool) : State :=
  if !(a && !b) || !leads s c || (chan s c).state == .diag then s
  else
    let s := match (chan s c).state with
      | .starting | .play => beginStop s c (stopMs s c) lag .off
      | .faultWait | .latched => modChan s c (hiZ .off)
      | .unavailable => modChan s c (fun x => { x with waiting := false, held := false })
      | _ => s
    modChan s c (fun x => { x with retries := 0 })

/-- HB_CFG or XP_CFG is written. -/
def applyChanCfg (s : State) (c v : Nat) : State :=
  let old := rd s (chanReg c)
  let s := wr s (chanReg c) v
  let s := enChange s c 0 (bit old 0) (bit v 0)
  if c < 16 && leads s c && bit old 2 != bit v 2 then
    if bit v 2 then modChan s c (fun x => closeLoop s c { x with loopLost := false })
    else modChan s c (fun x => { x with loop := false })
  else s

/-- CHANNEL_STOP (R321, R323): a commit of EN = 0. -/
def execChannelStop (c : Fin 32) (s : State) : Step := fieldStep s (applyChanCfg s c (withBits (rd s (chanReg c)) 1 0))

/-- VFS of a channel as it moves over 96 frames after a commit (R315), K23 times 96, in frame `f` of block `b`. -/
def vfsAt (s : State) (c : Nat) (b : Bsn) (f : Nat) : Int :=
  let new := toSigned 32 (rd s (.vfs c))
  match (chan s c).vfsOld with
  | some (old, from_) =>
    let j := bsnSince b from_ * 24 + f + 1
    if 96 ≤ j then new * 96 else old * (96 - j) + new * (j : Nat)
  | none => new * 96

/-- VFS is written: it moves from the value it has reached. -/
def applyVfs (s : State) (h v : Nat) : State :=
  let old := vfsAt s h s.bsn (frameOf s) / 96
  if rd s (.vfs h) = v then s
  else modChan (wr s (.vfs h) v) h (fun x => { x with vfsOld := some (old, s.bsn) })

/-- VFS_CHANGE (R315). -/
def execVfsChange (h : Fin 16) (value : Word) (s : State) : Step :=
  if (Reg.vfs h).rangeOk s value.toNat then fieldStep s (applyVfs s h value.toNat) else .next s

/-- Channels are members or lead after PAIR_CFG took its value (R313). -/
def memberUpdate (s : State) : State :=
  { s with stage := { s.stage with
      chans := (List.zip (List.range 32) s.stage.chans).map (fun p =>
        if !leads s p.1 then { hiZ .member p.2 with retries := 0, cause := 0 }
        else if p.2.state = .member then { p.2 with state := .off } else p.2) } }

/-- Every channel is in one of the states (R336). -/
def chansIn (s : State) (cs : List Nat) (l : List ChState) : Bool := cs.all (fun c => l.contains (chan s c).state)

/-- R336: a commit may change PS_CFG, and PAIR_CFG from its present word to `v`. -/
def psCfgFree (s : State) : Bool := chansIn s (List.range 32) [.off, .latched, .unavailable, .member]
def pairFree (s : State) (v : Nat) : Bool :=
  let old := rd s .pairCfg
  (List.range 16).all (fun p => bits old (2 * p + 1) (2 * p) == bits v (2 * p + 1) (2 * p) ||
    chansIn s [2 * p, 2 * p + 1] [.off, .latched, .member])

/-! ## Shutdowns, limits and retries (R324-R327, R335) -/

/-- RETRY_MAX and RETRY_MS. -/
def retryMax (s : State) : Nat := bits (rd s .retryCfg) 3 0
def retryMs (s : State) : Nat := bits (rd s .retryCfg) 15 4

/-- A leading channel shuts down (R325, R326): FAULT_WAIT, or LATCHED with no retry left or cause 3 or 6; the fault
event of a half-bridge channel, and the counts. -/
def shutdown (s : State) (c cause : Nat) : State :=
  let x := chan s c
  let latch := cause == 3 || cause == 6 || decide (retryMax s ≤ x.retries)
  let s := modChan s c (fun x => { hiZ (if latch then .latched else .faultWait) x with
    cause := cause, downCause := cause, downBsn := s.bsn, downCyc := s.cycle })
  if c < 16 then
    raise (addCount s (.hbCount c) 23 16 1) (52 + 2 * c) (cause + b2n latch * 16 + x.retries * 256)
  else addCount s (.xpCount (c - 16)) 7 0 (b2n (cause == 7))

/-- A warning condition `w` (bit number) holds on half-bridge channel `c` in this block (R335). -/
def warnNow (s : State) (c w : Nat) : State :=
  let x := chan s c
  let now := Nat.lor x.warnNow (2 ^ w)
  let new := Nat.land now (7 - x.warn % 8)
  let fresh := !bit x.warn w && !x.warned
  let t := modChan s c (fun x => { x with warnNow := now, warned := x.warned || fresh })
  if fresh then raise t (53 + 2 * c) (now + new * 16) else t

/-- Fingers of a half-bridge in service (R187). -/
def fingersIn (s : State) (h : Nat) : Nat := 8 - (s.health.fingers.getD h []).length

/-- The fewest fingers in service of a channel's members (R188, R324). -/
def weakest (s : State) (c : Nat) : Nat :=
  ((List.range 16).filter (fun h => leaderOf s h = c)).foldl (fun n h => min n (fingersIn s h)) 8

/-- Cycle-by-cycle limit and instant-shutdown threshold for `n` fingers, µA (R188). -/
def fingerLimits (n : Nat) : Nat × Nat :=
  if 8 ≤ n then (7500000, 11000000) else if n = 7 then (6562500, 9625000) else (5625000, 8250000)

/-- The limits of channel `c` (R324): in DIAG the cycle-by-cycle limit is 1.5 A (R345). -/
def chanLimits (s : State) (c : Nat) : Nat × Nat :=
  let l := fingerLimits (weakest s c)
  if (chan s c).state = .diag then (1500000, l.2) else l

/-- The timer of a channel that waits for its retry has run out at this boundary (R326, R333). -/
def retryDue (s : State) (c : Nat) (x : Chan) : Bool :=
  let wait := 1000 * retryMs s
  let after (t : Option (Bsn × Nat)) (us : Nat) : Bool := t.all (fun x => bsnReached s.bsn x.1 && usPassed s us x.1 x.2)
  after (some (x.downBsn, x.downCyc)) wait && (x.downCause != 5 || after s.stage.linkBad 10000) &&
    (x.downCause != 7 || after (s.stage.xBad.getD ((c - 16) / 4) none) wait)

/-- CHANNEL_RETRY (R326): at a block boundary, one more retry is counted and the start sequence runs. -/
def execChannelRetry (c : Fin 32) (s : State) : Step :=
  let x := chan s c
  if s.cycle = 0 ∧ x.state = .faultWait ∧ x.retries < retryMax s ∧ retryDue s c x = true ∧ mayStart s c = true then
    .next (modChan (beginStart s c) c (fun x => { x with retries := x.retries + 1 }))
  else .next s

/-- RETRIES_RESET (R326). -/
def execRetriesReset (c : Fin 32) (s : State) : Step :=
  if (chan s c).state = .play ∧ 40000 ≤ (chan s c).playFor then .next (modChan s c (fun x => { x with retries := 0 }))
  else .next s

/-- R319: 64 consecutive sense samples off the target by more than 0.2 × PVDD while no current limit acts. -/
def loopFar (pvdd : Nat) (l : List LoopSample) : Bool :=
  l.length == 64 &&
    l.all (fun x => !x.limited && decide (200 * (pvdd : Int) * 2 ^ 23 < 1000000 * ((x.target - x.sensed).natAbs : Int)))

/-- LOOP_OPEN (R319). -/
def execLoopOpen (h : LoopReport) (s : State) : Step :=
  let c := h.channel.val
  if (chan s c).loop && loopFar s.stage.pvdd h.samples then
    .next (warnNow (modChan s c (fun x => { x with loop := false, loopLost := true, wasLoop := false })) c 2)
  else .next s

/-- R327: the low-passed voltage has lain above DC_THRESH for DC_TIME. -/
def dcLong (s : State) (x : Chan) : Bool := decide (96 * bits (rd s .dcCfg) 18 8 ≤ x.dcRun)

/-- DC_DETECT (R327): from frame s of the start sequence on, with DC_EN = 1. -/
def execDcDetect (h : Fin 16) (s : State) : Step :=
  let x := chan s h
  let live := x.state == .play || (x.state == .starting && decide (seqS (isSe s h) ≤ seqAge s x))
  if live && dcLong s x && bit (rd s (.hbCfg h)) 21 && leads s h then .next (shutdown s h 3) else .next s

/-- XFAULT (R333), while IO1 and the core are powered (R17): the running channels led in the quad of XFAULTq shut down, and the event carries them. -/
def execXfault (q : Fin 4) (s : State) : Step :=
  if !(coreOn s && s.power.pwrEn0) then .next s else
  let hit := (List.range 4).filter (fun i => running (chan s (16 + 4 * q.val + i)) && leads s (16 + 4 * q.val + i))
  let t := hit.foldl (fun t i => shutdown t (16 + 4 * q.val + i) 7)
    { s with stage := { s.stage with xBad := s.stage.xBad.set q (some (s.bsn, s.cycle)) } }
  if hit.isEmpty then .next t
  else .next (raise t 126 (q.val + (hit.foldl (fun m i => m + 2 ^ i) 0) * 16))

/-! ## The block boundary (R320, R326, R329, R330) -/

/-- T, the highest bridge temperature, in 0.1 °C. -/
def bridgeT (s : State) : Int := s.stage.temps.foldl max (s.stage.temps.headD 0)

/-- The fold-back target G_f in D24 dB (R330). -/
def foldTarget (s : State) : Int :=
  let excess := max 0 (bridgeT s * 2 ^ 23 - toSigned 32 (rd s .tfStart) * 10)
  min (toSigned 32 (rd s .tfMax)) (roundHalfEven (toSigned 32 (rd s .tfSlope) * excess) (10 * 2 ^ 23))

/-- The reduction G_s in D24 dB for a PVDD of `mv` (R329 step 2). -/
def sagTarget (s : State) (mv : Nat) : Int :=
  let knee := toSigned 32 (rd s .sagKnee)
  if knee = 0 then 0
  else
    let under := max 0 (knee * 1000 - (mv : Int) * 2 ^ 23)
    min (toSigned 32 (rd s .sagMax)) (roundHalfEven (toSigned 32 (rd s .sagSlope) * under) (1000 * 2 ^ 23))

/-- A reduction in D24 dB as a gain in C31 (R329, R330). -/
def gainOf (d24 : Int) : Int := if d24 = 0 then 2147483647 else dbToC31 (-d24)

/-- The reduction of a gain in F31, in 0.01 dB (R340), as −602.0599913·log2; one of the two neighbours (log entry 6). -/
def toCentiDb (g : Nat) : Nat :=
  if g = 0 then 0xFFFF else min 0xFFFF (privateRound (-(6020599913 * rLog2 g (2 ^ 31))) (10 ^ 7 * 2 ^ 60) 0).toNat

/-- D24 dB in 0.01 dB. -/
def centiDb (d24 : Int) : Nat := (roundHalfEven (d24 * 100) (2 ^ 24)).toNat

/-- P[n] of each frame of the block that ends, from the lowest sample of each frame and of the three before it. -/
def sagPs (before now : List Nat) : List Nat :=
  let all := before.reverse ++ now
  let skip := before.length
  (List.range now.length).map (fun n =>
    let w := (all.drop (n + skip - 3)).take (min 4 (n + skip + 1))
    w.foldl min (w.headD 0))

/-- What the sag limiter of a channel keeps: histories, gain, whether any frame lay below −0.1 dB, the first frame in which a span
began, and the gain of each frame. -/
structure SagRun where
  win   : Window
  gain  : Nat
  any   : Bool
  began : Option Nat
  gains : List Nat

/-- −0.1 dB in F31. -/
def sagFloor (g : Nat) : Bool := decide (g * 100000 < 98855 * 2 ^ 31)

/-- One frame of the sag limiter of channel `c` in the block `b` that ends (R329): sample `x`, PVDD `p` in mV. -/
def sagFrame (s : State) (c : Nat) (b : Bsn) (alpha : Int) (k : SagRun) (f : Nat) (x : Int) (p : Nat) : SagRun :=
  let g := f31 (rampGain (chan s c).ramp b f)
  let vfs := (vfsAt s c b f).toNat
  let num := (if isSe s c then 475 else 950) * p * (gainOf (sagTarget s p)).toNat * 2 ^ 23 * 96 * 2 ^ 31
  let den := 1000000 * vfs * x.natAbs * g
  let w := windowGain 4 alpha k.win (ratioF31 num den)
  { win := w.1, gain := w.2, any := k.any || sagFloor w.2,
    began := if k.began.isNone && sagFloor w.2 && !sagFloor k.gain then some f else k.began, gains := k.gains ++ [w.2] }

/-- The sag limiter of a half-bridge channel over the block that ends, with the gain a_s of each frame; the warning is stamped with
the frame in which its span begins (R456). -/
def sagBlock (s : State) (c : Nat) (ps : List Nat) : State × List Nat :=
  let x := chan s c
  let xs := (s.graph.sinks.getD c {}).playing
  let alpha := alphaOf (rd s .sagRel)
  let b := s.bsn - 1#40
  let r := (List.range ps.length).foldl (fun k f => sagFrame s c b alpha k f (xs.getD f 0) (ps.getD f 0))
    { win := x.sagWin, gain := x.sagGain, any := false, began := none, gains := [] }
  let s := modChan s c (fun x => { x with
    sagWin := r.win, sagGain := r.gain, sag := sagFloor r.gain, sagDb := toCentiDb r.gain })
  let s := if r.any then
      modChan (addCount s (.hbCount c) 31 24 1) c (fun x => { x with warnNow := Nat.lor x.warnNow 2 })
    else s
  let y := chan s c
  match r.began with
  | some f =>
    if y.warned then (s, r.gains)
    else
      (raiseAt (modChan s c (fun x => { x with warned := true })) (53 + 2 * c)
        (y.warnNow + Nat.lor 2 (Nat.land y.warnNow (7 - y.warn % 8)) * 16) b (f * Config.frameCycles), r.gains)
  | none => (s, r.gains)

/-! ## The output path (R314, R315) -/

/-- g_f in frame `f` of the block that ends, C31 times 24 (R330). -/
def foldAt (s : State) (f : Nat) : Int := s.stage.foldOld * ((23 - f : Nat) : Int) + s.stage.foldNew * ((f + 1 : Nat) : Int)

/-- The sample that channel `c` took in frame `f` of block `b`; an XPWM channel has no fold-back gain (R314, R332). -/
def pathSample (s : State) (c : Nat) (b : Bsn) (f : Nat) : PathSample :=
  { x := ((s.graph.sinks.getD c {}).playing).getD f 0, ramp := f31 (rampGain (chan s c).ramp b f),
    fold := if c < 16 then foldAt s f else 24 * 2 ^ 31, vfs := if c < 16 then vfsAt s c b f else 0 }

/-- Steps 2 to 4 as one gain in C31, with the sag gain `a` in F31 (R314). -/
def pathGain (p : PathSample) (a : Nat) : Int :=
  clampInt 0 (2 ^ 31 - 1) (roundHalfEven ((p.ramp : Int) * a * p.fold) (24 * 2 ^ 62))

/-- The sample after step 4 (R314, R82). -/
def pathOut (p : PathSample) (a : Nat) : Int := clampInt (sMin 32) (sMax 32) (roundHalfEven (p.x * pathGain p a) (2 ^ 31))

/-! ## Carrier and modulation (R316, R317, R332) -/

/-- The carrier frequency in Hz, as numerator and denominator (R316): FSW, or the present frequency of a synthesizer, which a ratio
ramp or a profile moves (R376, R377), divided by CAR_DIV. -/
def carrierHz (s : State) : Nat × Nat :=
  let w := rd s .psCfg
  if bits w 5 3 = 0 then (2359296000, [6144, 4096, 3072, 2048, 1536].getD (bits w 2 0) 3072)
  else
    let f := auxNow s (bits w 5 3 - 1)
    (f.1, f.2 * bits w 11 6)

/-- The carrier runs: no synthesizer gives one before it is LOCKED (R374). -/
def carrierRuns (s : State) : Bool :=
  let src := bits (rd s .psCfg) 5 3
  src == 0 || auxRuns s (src - 1)

/-- Root cycles in a carrier period (R316); whole for the settings of FSW. -/
def carrierCycles (s : State) : Nat :=
  let f := carrierHz s
  2359296000 * f.2 / max 1 f.1

/-- Root cycles from the point where the common phase was 0 to the block's start: the last restart of CAR_DIV's count (R382), else
the block's start itself (DESIGN CHOICE, log entry 82). -/
def carrierOrigin (s : State) : Nat :=
  let src := bits (rd s .psCfg) 5 3
  if src = 0 then 0 else auxOrigin s (src - 1)

/-- The carrier period and the end of the half of it that holds root cycle `n` of the block, for a carrier that starts `start` cycles
after the common phase. -/
def carrierHalf (s : State) (start n : Nat) : Nat × Nat :=
  let f := carrierHz s
  let num := max 1 f.1
  let den := 2359296000 * max 1 f.2
  let late := start * num % den
  let m := carrierOrigin s + n
  let k := (m * num + den - late) / den
  let ends (h : Nat) : Nat := (h * den + 2 * late) / (2 * num)
  (k, (if m < ends (2 * k - 1) then ends (2 * k - 1) else ends (2 * k)) - carrierOrigin s)

/-- Root cycles by which the carrier of channel `c` starts after the common phase: PHASE/16 of a period (R316). -/
def carrierStart (s : State) (c : Nat) : Nat :=
  carrierCycles s * (if c < 16 then bits (rd s (.hbCfg c)) 6 3 else bits (rd s (.xpCfg (c - 16))) 5 2) / 16

/-- A member's current has reached the limit of channel `c` (R324): for the rest of that half of the carrier period the opposite
switch conducts, and the period is a limited cycle of the channel, counted once. -/
def limitSpan (s : State) (h c : Nat) (r : LimitedPeriod) : LimitSpan :=
  let n := 2 * s.cycle
  let k := carrierHalf s (carrierStart s c) n
  ⟨h, k.1, n, k.2, r.high⟩

/-- The period has been counted as limited already, for another member or the same one. -/
def limitCounted (x : Chan) (sp : LimitSpan) : Bool := x.spans.any (fun y => y.period == sp.period)

/-- One limited cycle of channel `c` more, unless its period has been counted. -/
def limitCount (s : State) (c : Nat) (sp : LimitSpan) : State :=
  let t := modChan s c (fun x => { x with spans := x.spans ++ [sp] })
  if limitCounted (chan s c) sp then t else addCount t (.hbCount c) 15 0 1

/-- A channel of a sweep's mask whose member reaches 1.5 A (R347, R348): in the rise of phase 1 it is in Hi-Z at once, has its result
and takes no slot; in the first two blocks of its slot the precheck notes it. -/
def diagLimited (s : State) (c : Nat) (r : LimitedPeriod) : State :=
  let d := s.diag
  let off := bsnSince s.bsn d.since
  if d.state = .phase1 ∧ d.todo.contains c = true then
    { s with diag := { d with
        hiZ := Nat.lor d.hiZ (2 ^ c), todo := d.todo.filter (fun x => x != c),
        recs := d.recs.set c { code := if 0 < r.ua then 2 else 3 } } }
  else if d.state = .testing ∧ d.cur = some c ∧ bsnReached s.bsn d.since = true then
    { s with diag := { d with sums := { d.sums with
        low := d.sums.low || off == 0, high := d.sums.high || off == 1 } } }
  else s

/-- LIMITED_CYCLE (R324): HBh's current has reached the limit of its channel. -/
def execLimitedCycle (h : Fin 16) (consecutive : LimitedPeriod) (s : State) : Step :=
  let c := leaderOf s h
  let x := chan s c
  let sp := limitSpan s h c consecutive
  if consecutive.ua.natAbs < (chanLimits s c).1 then .next s
  else if x.state = .diag then .next (diagLimited (limitCount s c sp) c consecutive)
  else if !running x then .next s
  else
    let t := limitCount s c sp
    let t := if limitCounted x sp then t
      else modChan t c (fun x => { x with
        limRun := if consecutive.again then x.limRun + 1 else 1, limNow := bump 0xFFFF x.limNow })
    .next (warnNow t c 0)

/-- The largest index that keeps every pulse at 40 ns, 31 fraction bits: 1 − 80 ns × f_sw (R317). -/
def maxIndex (s : State) : Int :=
  let f := carrierHz s
  ((2 ^ 31 * (1000000000 * f.2 - 80 * f.1) / (1000000000 * max 1 f.2) : Nat) : Int)

/-- R317: a modulation index is held where a pulse would be shorter than 40 ns. -/
def holdIndex (s : State) (m : Int) : Int := clampInt (-maxIndex s) (maxIndex s) m

/-- Two levels on one pin: an SE half-bridge channel, or an XPWM channel of an SE pair (R312). -/
def oneSided (s : State) (c : Nat) : Bool :=
  if c < 16 then isSe s c else bits (rd s .pairCfg) (2 * (c / 2) + 1) (2 * (c / 2)) == 0

/-- 40 ns in whole root cycles: 94.37, rounded up (R317). -/
def minPulse : Nat := 95

/-- A duty with 32 fraction bits as a pulse in root cycles: its edges lie on root-clock edges, one of the two neighbours (R316; log
entry 6), and no high or low pulse is shorter than 40 ns (R317). -/
def pulse (s : State) (d : Int) : Nat :=
  let p := carrierCycles s
  let n := (privateRound (d * p) (2 ^ 32) 0).toNat
  if n = 0 ∨ p ≤ n then min n p else max minPulse (min n (p - minPulse))

/-- R317: the switching for index `m` (31 fraction bits): duties 0.5 + m/2 and 0.5 − m/2 against one carrier (BD), or
complementary sides (AD); SE one side. -/
def driveOf (s : State) (c : Nat) (m : Int) : Drive :=
  let ad := bit (rd s (chanReg c)) 1
  let pos := pulse s (2 ^ 31 + m)
  if oneSided s c then ⟨carrierStart s c, pos, 0, false⟩
  else ⟨carrierStart s c, pos, if ad then carrierCycles s - pos else pulse s (2 ^ 31 - m), ad⟩

/-- The index of a half-bridge channel without its loop: the target scaled by the measured PVDD (R318; R312: an SE output swings
by half of PVDD). -/
def feedForward (s : State) (c : Nat) (target : Int) : Int :=
  if s.stage.pvdd = 0 then 0
  else privateRound (target * 1000 * (if isSe s c then 2 else 1)) (s.stage.pvdd * 2 ^ 23) 31

/-- The voltage across the load that a half-bridge channel is to give: VFS times the sample, K23 (R315, R318). -/
def loadTarget (p : PathSample) (y : Int) : Int := roundHalfEven (p.vfs * y) (96 * 2 ^ 31)

/-- The voltage that the loop compares with the sensed one: for SE at the filter output, PVDD/2 above the target (R318). -/
def loopTarget (s : State) (c : Nat) (v : Int) : Int :=
  if isSe s c then v + roundHalfEven ((s.stage.pvdd : Int) * 2 ^ 23) 2000 else v

/-- Frames of the sequence of channel `c` passed in frame `f` of block `b`. -/
def seqAgeAt (x : Chan) (b : Bsn) (f : Nat) : Nat := x.seqSkip + (bsnSince b x.seqBsn * 24 + f - x.seqFrame)

/-- R322, R323: the index that the sequence of an SE channel sets while its duty rises from 0 or falls to 0. -/
def biasIndex (x : Chan) (age : Nat) : Option Int :=
  let at_ (j : Nat) : Int := roundHalfEven (2 ^ 31 * (j : Int)) 19200 - 2 ^ 31
  if x.state = .starting ∧ age < 19202 then some (at_ (age - 1))
  else if x.state = .stopping ∧ 96 * x.seqMs ≤ age then some (at_ (19199 - (age - 96 * x.seqMs)))
  else none

/-! ### Sensing (R318, R320) -/

/-- Sense samples in a frame, and root cycles between two of them. -/
def frameSenses : Nat := 64
def senseCycles : Nat := 384

/-- The sense samples of a channel: the voltage that its loop compares, positive minus negative side or for SE at the filter
output, and the current from the positive side, for PBTL that of both members (R318, R320; the side's first member gives its
voltage, DESIGN CHOICE, log entry 82). -/
def chanSenses (s : State) (raw : List (Nat × List SensePair)) (c : Nat) : List SensePair :=
  let at_ (h : Nat) : List SensePair := (assocFind h raw).getD []
  let across (p n : SensePair) : SensePair := ⟨p.v - n.v, p.i⟩
  let both (a b : SensePair) : SensePair := ⟨a.v, a.i + b.i⟩
  if isSe s c then at_ c
  else if hbPair s (c / 2) = 2 then List.zipWith across (List.zipWith both (at_ c) (at_ (c + 1))) (at_ (c + 2))
  else List.zipWith across (at_ c) (at_ (c + 1))

/-- The step of a first-order low-pass at `num`/`den` Hz and `rate` Hz: 1 − exp(−2π·num/(den·rate)), 128 fraction bits. -/
def lowStep (num den rate : Nat) : Int := rOne - rExp2 (-(2 * rPi * num)) (den * rate * rLn2.toNat)

/-- The voltage across the load of an SE channel: SNSV minus the blocking capacitor's voltage, which is SNSV through a low-pass at
0.5 Hz (R320; of first order, DESIGN CHOICE, log entry 82), with that estimate after the samples. -/
def capRemoved (step : Int) (lp : Int) (xs : List SensePair) : Int × List SensePair :=
  let r := xs.foldl (fun (acc : Int × List SensePair) p =>
    let lp := acc.1 + rMul step (p.v * rOne - acc.1)
    (lp, ⟨p.v - roundHalfEven lp (2 ^ 128), p.i⟩ :: acc.2)) (lp, [])
  (r.1, r.2.reverse)

/-- The means of one frame's samples (R320), each one of the two neighbours (log entry 6). -/
def frameMean (xs : List SensePair) : SensePair :=
  ⟨privateRound ((xs.map (fun p => p.v)).foldl (· + ·) 0) frameSenses 0,
   privateRound ((xs.map (fun p => p.i)).foldl (· + ·) 0) frameSenses 0⟩

/-- The part of a block's sense samples that falls in frame `f`. -/
def inFrame (xs : List SensePair) (f : Nat) : List SensePair := (xs.drop (frameSenses * f)).take frameSenses

/-- What the sense converters made of a block for one channel: the samples that the loop takes, the same across the load, and the
24 pairs of the record (R320). -/
structure Sensed where
  loop  : List SensePair
  load  : List SensePair
  pairs : List SensePair
  cap   : Int

/-- The sense samples and the record of half-bridge channel `c` for the block that ends. -/
def sensedOf (s : State) (raw : List (Nat × List SensePair)) (c : Nat) : Sensed :=
  let xs := if c < 16 && leads s c then chanSenses s raw c else []
  if xs.isEmpty then ⟨[], [], [], (chan s c).capLp⟩
  else
    let r := if isSe s c then capRemoved (lowStep 1 2 6144000) (chan s c).capLp xs else ((chan s c).capLp, xs)
    ⟨xs, r.2, frames.map (fun f => frameMean (inFrame r.2 f)), r.1⟩

/-! ### The modulator (R314 steps 5 and 6, R317-R319) -/

/-- The state as it stood in frame `f` of the block `b`: what moves with time is read there. -/
def atFrame (s : State) (b : Bsn) (f : Nat) : State := { s with bsn := b, cycle := f * Config.frameCycles }

/-- What the modulator of a channel has at one sense sample: the voltage that the loop compares, the interpolated sample, its voltage
across the load, and whether the cycle-by-cycle limit acts. -/
structure ModIn where
  sensed  : Int
  y       : Int
  v       : Int
  limited : Bool

/-- Samples of the output path that the interpolation sees (DESIGN CHOICE, log entry 82). -/
def interpTaps : Nat := 32

/-- R314 step 5: the frame's samples at the modulator rate, one at each sense sample (DESIGN CHOICE, log entry 82). -/
def interpAt (taps : List Int) (j : Nat) : Int := clampInt (sMin 32) (sMax 32) (Config.interp taps j)

/-- The cycle-by-cycle limit of a channel acts at sense sample `n` of the block (R324). -/
def limitActs (x : Chan) (n : Nat) : Bool :=
  x.spans.any (fun sp => decide (sp.from_ ≤ n * senseCycles ∧ n * senseCycles < sp.to_))

/-- One sense sample of a switching channel: the loop or the modulator drives its output (R317-R319, R332); `s` is the state in its
frame, `age` its sequence's frame. While a pulse hold or the cycle-by-cycle limit acts, the integrator holds (R319). -/
def driveSample (s : State) (c age : Nat) (x : Chan) (k : ModIn) : Chan :=
  if (x.state = .starting ∧ age < 2) ∨ (x.state = .stopping ∧ seqE (isSe s c) x.seqMs ≤ age) ∨ carrierRuns s = false then
    { x with index := 0 :: x.index, drive := ⟨0, 0, 0, false⟩ :: x.drive }
  else
    let lc := if c < 16 then rd s (.lcCfg c) else 0
    let t := loopTarget s c k.v
    let bias := if isSe s c then biasIndex x age else none
    let want :=
      if 16 ≤ c then privateRound (toSigned 32 (rd s (.xGain (c - 16))) * k.y) (2 ^ 62) 31
      else bias.getD (if x.loop then Config.loopIndex x.integ t k.sensed lc else feedForward s c k.v)
    let m := if bias.isSome then want else holdIndex s want
    { x with
      index := m :: x.index, drive := driveOf s c m :: x.drive,
      integ := if x.loop && m == want && !k.limited then Config.loopNext x.integ t k.sensed lc else x.integ }

/-- The samples of one frame through the modulator: `ys j` and `vs j` are the sample and the voltage asked for at its sense
sample j. -/
def driveFrame (s : State) (c : Nat) (b : Bsn) (f : Nat) (senses : List SensePair) (ys vs : Nat → Int) (x : Chan) : Chan :=
  let u := atFrame s b f
  let age := seqAgeAt x b f
  let r := (List.range frameSenses).foldl (fun (acc : Chan × List SensePair) j =>
    (driveSample u c age acc.1
      ⟨(acc.2.headD ⟨0, 0⟩).v, ys j, vs j, limitActs acc.1 (f * frameSenses + j)⟩, acc.2.tail)) (x, inFrame senses f)
  r.1

/-- The lists that the modulator filled newest first, in order. -/
def inOrder (x : Chan) : Chan := { x with index := x.index.reverse, drive := x.drive.reverse }

/-- R332: the level of an XPWM pin that does not switch: SAFE in OFF, FAULT_WAIT and LATCHED, low with SAFE = 0 and Hi-Z with 1. -/
def safePin (s : State) (x : Nat) : PinBit := ioPin s (2 + x) (if bit (rd s (.xpCfg x)) 20 then .hiZ else .low)

/-! ## DC detection (R327) -/

/-- One frame of the detector: `v` is the voltage across the load, K23. -/
def dcFrame (s : State) (step : Int) (acc : Int × Nat) (v : Int) : Int × Nat :=
  let lp := acc.1 + rMul step (v * rOne - acc.1)
  let high := decide ((bits (rd s .dcCfg) 7 0 : Int) * 2 ^ 23 * rOne < lp.natAbs * 10)
  (lp, if high then acc.2 + 1 else 0)

/-- The detector over the block, from frame s of a start on (R322): the sensed voltage for BTL and PBTL with the loop closed, the
target otherwise. -/
def dcBlock (s : State) (c : Nat) (sense : List SensePair) (x : Chan) : Chan :=
  if c < 16 && bit (rd s (.hbCfg c)) 21 then
    let use := x.loop && !isSe s c
    let on := frames.filter (fun f => x.state != .starting || decide (seqS (isSe s c) ≤ seqAgeAt x (s.bsn - 1#40) f))
    let r := on.foldl (fun acc f =>
      dcFrame s (lowStep 1 1 96000) acc (if use then (sense.getD f ⟨0, 0⟩).v else x.target.getD f 0)) (x.dcLp, x.dcRun)
    { x with dcLp := r.1, dcRun := r.2 }
  else x

/-! ## The signals of a diagnostic slot (R348) -/

/-- The DC test in frame `j` after block 4 begins: a ramp of 96 frames to DC_V, a hold to block 16, a ramp back; K23. -/
def diagDc (s : State) (j : Nat) : Int :=
  let v := fun (k : Nat) => roundHalfEven ((bits s.diag.cfg.toNat 5 0 : Int) * 2 ^ 23 * (f31 (k, 96) : Nat)) (10 * 2 ^ 31)
  if j < 96 then v (j + 1) else if j < 288 then v 96 else if j < 384 then v (383 - j) else 0

/-- Sense samples in a block. -/
def blockSenses : Nat := 24 * frameSenses

/-- sin and cos of 2π·khz·n/6,144, the reference of an AC test at sense sample `n` (R348), 128 fraction bits. -/
def refSin (khz n : Nat) : Int := sineOf (n * khz * 2 ^ 32 / 6144 % 2 ^ 32)
def refCos (khz n : Nat) : Int := sineOf ((n * khz * 2 ^ 32 / 6144 + 2 ^ 30) % 2 ^ 32)

/-- An AC test at `khz` at sense sample `n` of its 402 blocks: a sine of 0.01 × VFS with linear ramps of 24 frames (R80, R348);
K23. -/
def diagAc (s : State) (h khz n : Nat) : Int :=
  let last := 402 * 24
  let j := n / frameSenses
  let w : Nat × Nat := if j < 24 then (j + 1, 24) else if last ≤ j + 24 then (last - 1 - j, 24) else (1, 1)
  roundHalfEven (toSigned 32 (rd s (.vfs h)) * (f31 w : Nat) * refSin khz n) (100 * 2 ^ 31 * 2 ^ 128)

/-- The differential voltage of the channel under test at sense sample `n` of the slot's block `off`, about the bias for SE
(R348). -/
def diagVolts (s : State) (h off n : Nat) : Int :=
  let ac := bit s.diag.tests 1
  if 4 ≤ off ∧ off < 20 then
    (if bit s.diag.tests 0 && !isSe s h then diagDc s ((off - 4) * 24 + n / frameSenses) else 0)
  else if 20 ≤ off ∧ off < 422 then (if ac then diagAc s h 12 ((off - 20) * blockSenses + n) else 0)
  else if 422 ≤ off ∧ off < 824 then (if ac then diagAc s h 20 ((off - 422) * blockSenses + n) else 0)
  else 0

/-- The index of an SE channel `n` frames after its output began to rise to the bias, over 9,600 frames (R347; the rise is even,
log entry 43). -/
def diagBias (n : Nat) : Int := roundHalfEven (2 ^ 31 * (min n 9600 : Nat)) 9600 - 2 ^ 31

/-- What a channel in DIAG puts across its load in the block that ends, and its switching (R347, R348): SE channels rise to the
bias, hold it and fall; in a BTL slot block 0 has every low side on, block 1 every high side, and the tests close the loop. -/
def diagBlock (s : State) (c : Nat) (senses : List SensePair) : State :=
  let b := s.bsn - 1#40
  let d := s.diag
  let off := bsnSince b d.since
  let mine := d.cur == some c && bsnReached b d.since
  let volts (f j : Nat) : Int := diagVolts s c off (f * frameSenses + j)
  let s := modChan s c (fun x => { x with
    target := if mine then frames.map (fun f => volts f 0) else [], index := [], drive := [] })
  let bias (n : Nat → Nat) : State :=
    let ms := frames.flatMap (fun f => List.replicate frameSenses (diagBias (n (off * 24 + f))))
    modChan s c (fun x => { x with index := ms, drive := ms.map (driveOf s c) })
  let every (n : Nat) : State :=
    modChan s c (fun x => { x with drive := List.replicate blockSenses ⟨carrierStart s c, n, n, false⟩ })
  let loop : State := modChan s c (fun x =>
    { inOrder (frames.foldl (fun k f => driveFrame s c b f senses (fun _ => 0) (volts f) k) { x with loop := true }) with
      loop := false })
  if bit d.hiZ c || !bsnReached b d.since && d.state != .testing then s
  else if isSe s c then match d.state with
    | .phase1 => bias (fun n => n + 1)
    | .phase3 => bias (fun n => 9599 - n)
    | .testing => if mine && 4 ≤ off && off < 824 then loop else bias (fun _ => 9600)
    | _ => s
  else if !mine then s
  else if off = 0 then every 0
  else if off = 1 then every (carrierCycles s)
  else if 4 ≤ off && off < 824 then loop
  else s

/-! ### What a slot measures (R348) -/

/-- A member's current reaches 1.5 A in one of the samples. -/
def reaches15 (xs : List SensePair) : Bool := xs.any (fun p => decide (3 * 2 ^ 22 ≤ p.i.natAbs))

/-- Samples of v and i against the reference sine and cosine at `khz`, from sense sample `n` of the window on. -/
def toneSum (khz n : Nat) (xs : List SensePair) (t : ToneSums) : ToneSums :=
  (xs.foldl (fun (acc : ToneSums × Nat) p =>
    let s := refSin khz acc.2
    let c := refCos khz acc.2
    ({ vSin := acc.1.vSin + p.v * s, vCos := acc.1.vCos + p.v * c,
       iSin := acc.1.iSin + p.i * s, iCos := acc.1.iCos + p.i * c }, acc.2 + 1)) (t, n)).1

/-- The sums of the slot after its block `off`: the precheck over blocks 0 to 3, the DC hold over blocks 8 to 15, the tones over
blocks 21 to 420 and 423 to 822. -/
def slotSums (off : Nat) (members : List (List SensePair)) (load : List SensePair) (k : DiagSums) : DiagSums :=
  let i := (load.map (fun p => p.i)).foldl (· + ·) 0
  let k := { k with
    low := k.low || (off == 0 && members.any reaches15), high := k.high || (off == 1 && members.any reaches15),
    iPre := if off < 4 then k.iPre + i else k.iPre, iOff := if off = 2 ∨ off = 3 then k.iOff + i else k.iOff }
  if 8 ≤ off ∧ off < 16 then
    { k with vDc := k.vDc + (load.map (fun p => p.v)).foldl (· + ·) 0, iDc := k.iDc + i }
  else if 21 ≤ off ∧ off < 421 then { k with t12 := toneSum 12 ((off - 21) * blockSenses) load k.t12 }
  else if 423 ≤ off ∧ off < 823 then { k with t20 := toneSum 20 ((off - 423) * blockSenses) load k.t20 }
  else k

/-- The block that ends is measured for the channel under test. -/
def diagMeasure (s : State) (raw : List (Nat × List SensePair)) : State :=
  let b := s.bsn - 1#40
  let d := s.diag
  match d.cur with
  | some h =>
    if d.state = .testing ∧ bsnReached b d.since = true ∧ bit d.hiZ h = false then
      let members := ((List.range 16).filter (fun k => leaderOf s k == h)).map (fun k => (assocFind k raw).getD [])
      { s with diag := { d with sums := slotSums (bsnSince b d.since) members (sensedOf s raw h).load d.sums } }
    else s
  | none => s

/-- The path of a switching channel over the block that ends: `gains` are its sag gains (R314-R319, R327). -/
def pathBlock (s : State) (c : Nat) (gains : List Nat) (k : Sensed) : State :=
  let b := s.bsn - 1#40
  let x := chan s c
  let ps := (List.replicate (4 - x.line.length) ⟨0, 0, 0, 0⟩) ++ x.line ++ frames.map (pathSample s c b)
  let at_ (f : Nat) : PathSample := ps.getD f ⟨0, 0, 0, 0⟩
  let ys := frames.map (fun f => pathOut (at_ f) (gains.getD f (2 ^ 31)))
  let vs := if c < 16 then frames.map (fun f => loadTarget (at_ f) (ys.getD f 0)) else []
  let s := modChan s c (fun x => { x with line := ps.drop 24, out := ys, target := vs, index := [], drive := [] })
  let frame (x : Chan) (f : Nat) : Chan :=
    let taps := (ys.getD f 0 :: x.taps).take interpTaps
    let y (j : Nat) : Int := interpAt taps j
    driveFrame s c b f k.loop y (fun j => if c < 16 then loadTarget (at_ f) (y j) else 0) { x with taps := taps }
  let s := modChan s c (fun x => inOrder (frames.foldl frame x))
  let live := (chan s c).state == .play || ((chan s c).state == .starting && decide (seqS (isSe s c) < seqAge s (chan s c)))
  if live then modChan s c (dcBlock s c k.pairs) else s

/-- Sag, path, sense record and block counts of one channel for the block that ends (R314, R320, R326, R329, R335, R340). -/
def chanBoundary (i : BlockInput) (ps : List Nat) (s : State) (c : Nat) : State :=
  let x := chan s c
  let k := sensedOf s i.sense c
  let r := if c < 16 && (running x && !(x.state == .starting && decide (seqAge s x ≤ seqS (isSe s c)))) then
      sagBlock s c ps else (s, [])
  let s := if running x && leads s c then pathBlock r.1 c r.2 k
    else if x.state = .diag then diagBlock r.1 c k.loop else r.1
  modChan s c (fun x =>
    let play := x.state == .play
    let valid := play && x.loop && x.wasLoop && decide (c < 16)
    { x with
      senseOk := valid
      senseBsn := if c < 16 then s.bsn - 1#40 else x.senseBsn
      sense := k.pairs
      capLp := k.cap
      playFor := if play && x.wasPlay then x.playFor + 1 else 0
      wasPlay := play
      wasLoop := play && x.loop
      limLast := x.limNow
      limNow := 0
      spans := []
      warn := x.warnNow
      warnNow := b2n (decide (c < 16) && x.loopLost && running x) * 4
      warned := false
      vfsOld := match x.vfsOld with
        | some (v, b) => if 4 ≤ bsnSince s.bsn b then none else some (v, b)
        | none => none })

/-- The fault event at an entry to LATCHED (R335). -/
def latchEvent (s : State) (c : Nat) : State :=
  let x := chan s c
  raise s (52 + 2 * c) (x.cause + 16 + x.retries * 256)

/-- A channel that was UNAVAILABLE is OFF, in FAULT_WAIT where a retry is pending, or LATCHED where it was (R328, R326). -/
def releaseChan (s : State) (c : Nat) : State :=
  let x := chan s c
  if x.state ≠ .unavailable then s
  else if x.held then latchEvent (modChan s c (fun x => { x with state := .latched, held := false })) c
  else modChan s c (fun x => { x with state := if x.waiting then .faultWait else .off, waiting := false })

/-- The half-bridge channels leave UNAVAILABLE, once the stage is available and the die link up (R321, R328). -/
def releaseChans (s : State) : State :=
  if s.stage.stage = .available ∧ s.stage.linkDown = false then (List.range 16).foldl releaseChan s else s

/-- The die link goes down or comes up: a half-bridge channel in OFF is UNAVAILABLE while it is down (R321). -/
def linkTo (s : State) (down : Bool) : State :=
  let t := { s with stage := { s.stage with linkDown := down } }
  if down then
    (List.range 16).foldl (fun t c =>
      if (chan t c).state = .off then modChan t c (hiZ .unavailable) else t) t
  else if s.stage.linkDown then releaseChans t else t

/-- THERMAL_READ (R330): temperatures, fold-back and its event. -/
def thermalRead (s : State) (temps : List Int) : State :=
  let s := { s with stage := { s.stage with temps := temps } }
  let gf := foldTarget s
  let was := s.stage.gf
  let now := gf.toNat
  let s := { s with stage := { s.stage with gf := now, foldOld := s.stage.foldNew, foldNew := gainOf gf } }
  let t := ofSigned 16 (bridgeT s) * 65536
  if was = 0 ∧ 0 < now then raise s 125 (0 + t)
  else if 0 < was ∧ now = 0 then raise s 125 (1 + t)
  else s

/-- The power stage at a block boundary, after BSN has advanced (R320, R326, R328-R330, R333). -/
def stageBoundary (s : State) (i : BlockInput) : State :=
  let ps := sagPs s.stage.lows i.pvddLow
  let s := (List.range 32).foldl (chanBoundary i ps) (diagMeasure s i.sense)
  let p := { s.stage with
    pvdd := i.pvdd, pvddMin := i.pvddLow.foldl min (i.pvddLow.headD i.pvdd),
    lows := (i.pvddLow.reverse ++ s.stage.lows).take 3,
    gs := centiDb (sagTarget s (ps.getLastD i.pvdd)), block := s.bsn - 1#40,
    linkBad := match i.linkBad with
      | some c => some (s.bsn - 1#40, c)
      | none => s.stage.linkBad,
    xBad := (List.range 4).map (fun q => match assocFind q i.xfaultLow with
      | some c => some (s.bsn - 1#40, c)
      | none => s.stage.xBad.getD q none) }
  thermalRead (linkTo { s with stage := p } (i.linkBad.any (fun c => decide (Config.blockCycles ≤ c + 1)))) i.temps

/-! ## Opcodes -/

/-- One channel record of PSTAGE_STATUS (R340). -/
def chanRecord (s : State) (c : Nat) : List Byte :=
  let x := chan s c
  u8 (chCode x.state) ++ u8 x.cause ++ u8 x.retries ++
    u8 (if c < 16 then b2n x.loop + b2n (decide (0 < x.limLast)) * 2 + b2n x.sag * 4 + b2n x.senseOk * 8 +
      b2n (leads s c) * 16 else b2n (leads s c) * 16) ++ u16 x.limLast ++ u16 x.sagDb

/-- PSTAGE_STATUS (R340). -/
def doPstageStatus : Request → State → State :=
  runOp 0x60 (lenIs 0) (fun s _ =>
    let p := s.stage
    .done s (u16 p.pvdd ++ u16 p.pvddMin ++ u8 (stageCode p.stage) ++ zeros 1 ++ u16 (centiDb p.gf) ++ u16 p.gs ++ zeros 2 ++
      (List.range 4).flatMap (fun k => i16 (p.temps.getD k 0)) ++ zeros 4 ++ bsn8 p.block ++
      (List.range 32).flatMap (chanRecord s)))

/-- PSTAGE_STATUS (R340). -/
def execPstageStatus (q : Request) (s : State) : Step := .next (doPstageStatus q s)

/-- The leading channels of a mask, lowest first. -/
def ledBy (s : State) (mask : Nat) : List Nat := (List.range 32).filter (fun c => bit mask c && leads s c)

/-- PSTAGE_CLEAR (R341): scheduled for the first boundary after acceptance. -/
def doPstageClear : Request → State → State :=
  runOp 0x61 (lenIs 4) (fun s q => .pend s (.pstageClear (pay32 q 0)) none)

/-- PSTAGE_CLEAR (R341). -/
def execPstageClear (q : Request) (s : State) : Step := .next (doPstageClear q s)

/-- What PSTAGE_CLEAR does to one named leading channel; the flag says that it was cleared. -/
def clearChan (s : State) (c : Nat) : State × Bool :=
  let x := chan s c
  if x.state = .latched ∨ x.state = .faultWait then
    let s := modChan s c (fun x => { hiZ .off x with retries := 0, cause := 0, loopLost := false })
    (if mayStart s c then beginStart s c else s, true)
  else if x.state = .play then (modChan s c (fun x => closeLoop s c { x with loopLost := false }), false)
  else (s, false)

/-- Clear every named channel; the mask of those cleared. -/
def clearChans (s : State) (mask : Nat) : State × Nat :=
  (ledBy s mask).foldl (fun a c =>
    let r := clearChan a.1 c
    (r.1, a.2 + if r.2 then 2 ^ c else 0)) (s, 0)

/-- The mask of a PSTAGE_CLEAR that waits. -/
def clearMask : Job → Option Nat
  | .pstageClear m => some m
  | _ => none

/-- PSTAGE_CLEAR_APPLY (R341): at a block boundary, every clear accepted before it, in acceptance order. -/
def execPstageClearApply (s : State) : Step :=
  if s.cycle ≠ 0 then .next s
  else
    .next ((findJobs s (fun j => (clearMask j).isSome)).foldl (fun t po =>
        match clearMask po.2.job with
        | some m =>
          if po.2.bsn = s.bsn then t
          else
            let r := clearChans t m
            finalReply r.1 po.1 po.2.tag po.2.op .ok (u32 r.2)
        | none => t) s)

/-- PSTAGE_SENSE_READ (R342). -/
def doPstageSenseRead : Request → State → State :=
  runOp 0x62 (lenIs 4) (fun s q =>
    let h := pay8 q 0
    if 15 < h then .refuse .range []
    else if !leads s h then .refuse .range []
    else
      let x := chan s h
      let pairs := (List.range 24).map (fun f => x.sense.getD f ⟨0, 0⟩)
      .done s (bsn8 x.senseBsn ++ u8 (b2n x.senseOk) ++ zeros 3 ++ pairs.flatMap (fun p => i32 p.v) ++
        pairs.flatMap (fun p => i32 p.i)))

/-- PSTAGE_SENSE_READ (R342). -/
def execPstageSenseRead (q : Request) (s : State) : Step := .next (doPstageSenseRead q s)

end Sys2Proof.Machine
end

