-- ==== Sys2Proof/Machine/Diag.lean ====
section
/-!
DEFINITION. Load diagnostics (ch. 11): acceptance of a sweep, its phases and slots, results, its ends, and the opcodes
0x68 and 0x69.
-/

namespace Sys2Proof.Machine

open Sys2Proof

/-- Change the diagnostics state. -/
def modDiag (s : State) (f : Diag → Diag) : State := { s with diag := f s.diag }

/-- The channels of a half-bridge mask. -/
def maskList (m : Nat) : List Nat := (List.range 16).filter (bit m)

/-- A job is the sweep's. -/
def isDiag : Job → Bool
  | .diagRun => true
  | _ => false

/-- A resting state, in which a channel takes part at once (R344). -/
def atRest (c : ChState) : Bool := c == .off || c == .faultWait || c == .latched

/-- An SE channel takes part (R347). -/
def sweepSe (s : State) : Bool := (maskList s.diag.mask).any (isSe s)

/-- A sweep is accepted, is due after the boot, or runs (R354, R355). -/
def sweeping (s : State) : Bool := s.diag.state != .idle || s.diag.bootDue

/-- The reply of DIAG_RUN (R355): start and end boundary, the channels that took part and those with result OK. -/
def diagReply (start stop : Bsn) (mask ok : Nat) : List Byte := bsn8 start ++ bsn8 stop ++ u16 mask ++ u16 ok

/-- DIAG_RUN (R344, R355); of the reply's fields an ACCEPTED knows the channels that take part (R400). -/
def doDiagRun : Request → State → State :=
  runOp 0x68 (lenIs 4) (fun s q =>
    let named := (List.range 16).filter (fun h => bit (pay16 q 0) h && leads s h)
    let tests := pay8 q 2 % 4
    let force := bit (pay8 q 3) 0
    let runs := named.filter (fun h => running (chan s h))
    if named.isEmpty || tests == 0 then .refuse .range []
    else if s.power.mode != .active || leavingActive s || s.stage.stage != .available || sweeping s ||
        (!runs.isEmpty && !force) then .refuse .state []
    else
      let part := named.filter (fun h => running (chan s h) || atRest (chan s h).state)
      let t := runs.foldl (fun t h =>
        if (chan t h).state = .stopping then t else beginStop t h (stopMs t h) 1 .off) s
      let mask := part.foldl (fun m h => m + 2 ^ h) 0
      .pend (modDiag t (fun d => { d with
        state := .waiting, mask := mask, tests := tests, aborted := false, failed := false, since := s.bsn + 1#40 })) .diagRun
        (some (diagReply 0#40 0#40 mask 0)))

/-- DIAG_RUN (R355). -/
def execDiagRun (q : Request) (s : State) : Step := .next (doDiagRun q s)

/-- Every taking-part channel enters DIAG at the start boundary (R345, R347, R352, R353). -/
def sweepStart (s : State) (mask : Nat) : State :=
  let cs := maskList mask
  let latched := (cs.filter (fun h => (chan s h).state == .latched)).foldl (fun m h => m + 2 ^ h) 0
  let t := cs.foldl (fun t h => modChan t h (fun x => hiZ .diag x)) s
  let se := cs.any (isSe s)
  modDiag t (fun d => { d with
    state := if se then .phase1 else .testing, mask := mask, todo := if se then cs else cs.drop 1,
    cur := if se then none else cs.head?, sums := {}, since := s.bsn, start := s.bsn, latched := latched, hiZ := 0,
    recs := List.replicate 16 {}, exps := (List.range 16).map (fun h => BitVec.ofNat 32 (rd s (.diagExp h))),
    cfg := BitVec.ofNat 32 (rd s .diagCfg), bootDue := false })

/-- DIAG_SWEEP_START (R347, R354): at the first boundary at which every taking-part channel rests; the boot sweep at the
first one in ACTIVE with STAGE AVAILABLE. -/
def execDiagSweepStart (s : State) : Step :=
  let d := s.diag
  if s.cycle ≠ 0 ∨ s.power.mode ≠ .active ∨ leavingActive s = true ∨ s.stage.stage ≠ .available ∨ testMode s = true then .next s
  else if d.state = .waiting then
    if bsnReached s.bsn d.since && (maskList d.mask).all (fun h => atRest (chan s h).state) then
      .next (sweepStart s d.mask)
    else .next s
  else if d.state = .idle ∧ d.bootDue = true then
    let cs := (List.range 16).filter (leads s)
    .next (modDiag (sweepStart s (cs.foldl (fun m h => m + 2 ^ h) 0))
      (fun d => { d with tests := 3, aborted := false, failed := false }))
  else .next s

/-- Write one record. -/
def setRec (d : Diag) (h : Nat) (r : DiagRecord) : Diag := { d with recs := d.recs.set h r }

/-- The tests that channel `h` has run: those of its slot whose blocks are over, none of a channel that had no slot (R348, R356). -/
def testsRun (s : State) (h : Nat) : Nat :=
  let off := if s.diag.cur = some h ∧ bsnReached s.bsn s.diag.since = true then bsnSince s.bsn s.diag.since else 0
  Nat.land s.diag.tests ((if 20 ≤ off ∧ isSe s h = false then 1 else 0) + (if 824 ≤ off then 2 else 0))

/-- A record that carries a code, and the tests run. -/
def codeRec (s : State) (h code : Nat) : DiagRecord := { code := code, tests := testsRun s h }

/-- The next slot begins at BSN `b`, or phase 3, or the end is due there (R347). -/
def nextSlot (s : State) (b : Bsn) : State :=
  match s.diag.todo with
  | h :: rest => modDiag s (fun d => { d with cur := some h, todo := rest, sums := {}, since := b, state := .testing })
  | [] => modDiag s (fun d => { d with cur := none, since := b, state := if sweepSe s then .phase3 else .testing })

/-- The channels of a mask and one more, placed in Hi-Z (R345). -/
def markHiZ (d : Diag) (h : Nat) : Diag := { d with hiZ := Nat.lor d.hiZ (2 ^ h) }

/-- DIAG_BIAS_RISE_END (R347): phase 1 ends, and the slots begin; channels whose rise reached 1.5 A have left it (LIMITED_CYCLE). -/
def execDiagBiasRiseEnd (_ : Unit) (s : State) : Step :=
  let d := s.diag
  if d.state ≠ .phase1 ∨ s.cycle ≠ 0 ∨ !(bsnReached s.bsn (d.since + 400#40)) then .next s
  else .next (nextSlot s (d.since + 400#40))

/-! ### What a slot measures (R348) -/

/-- What a precheck marks. -/
inductive DiagShort where
  | none | gnd | pvdd
  deriving DecidableEq, Repr

/-- The quantities of R350: the precheck, R_DC in mΩ (none: open), the impedances in 0.01 Ω and their phases in 0.1°. -/
structure DiagValues where
  short : DiagShort
  rdc   : Option Nat
  z12   : Nat
  ph12  : Int
  z20   : Nat
  ph20  : Int
  deriving DecidableEq, Repr

/-- The precheck: 1.5 A with every low side on (block 0) or every high side on (block 1), or for SE a mean of more than 0.1 A over
the 6,144 samples of four blocks. -/
def precheck (se : Bool) (m : DiagSums) : DiagShort :=
  if se then
    (if 6144 * 2 ^ 23 < 10 * m.iPre then .gnd else if 10 * m.iPre < -(6144 * 2 ^ 23) then .pvdd else .none)
  else if m.high then .gnd else if m.low then .pvdd else .none

/-- R_DC = Σv/Σi in mΩ over the 12,288 samples of the hold, i without the offset that the 3,072 samples of blocks 2 and 3 showed; a
mean current below 10 mA reads as open. -/
def dcResistance (m : DiagSums) : Option Nat :=
  let i := m.iDc - 4 * m.iOff
  if i.natAbs * 100 < 12288 * 2 ^ 23 then none
  else some (min 0xFFFFFFFE (privateRound ((if 0 < i then m.vDc else -m.vDc) * 1000) i.natAbs 0).toNat)

/-- The largest number of at most 20 bits whose square is at most `n`, bit by bit. -/
def rootBits (n : Nat) : Nat → Nat → Nat
  | 0, r => r
  | k + 1, r => rootBits n k (if (r + 2 ^ k) * (r + 2 ^ k) ≤ n then r + 2 ^ k else r)

/-- |Z| = |V|/|I| in 0.01 Ω, one of the two neighbours (log entry 6); without a current the largest number. -/
def toneZ (t : ToneSums) : Nat :=
  let v2 := (t.vSin * t.vSin + t.vCos * t.vCos).toNat
  let i2 := (t.iSin * t.iSin + t.iCos * t.iCos).toNat
  if i2 = 0 then 2 ^ 20 - 1
  else
    let q := rootBits (10000 * v2 / i2) 20 0
    if q * q * i2 = 10000 * v2 then q else q + b2n (Config.roundUp (10000 * v2) i2 0)

/-- Sine and cosine of `k` tenths of a degree, `k` from 0 to 1,800. -/
def tenthSin (k : Nat) : Int := if k ≤ 900 then rSin (rAngle k 1800) else rSin (rAngle (1800 - k) 1800)
def tenthCos (k : Nat) : Int := if k ≤ 900 then rCos (rAngle k 1800) else -(rCos (rAngle (1800 - k) 1800))

/-- The angle of (x, y), y not negative, in whole tenths of a degree, rounded down, bit by bit. -/
def angleBits (x y : Int) : Nat → Nat → Nat
  | 0, r => r
  | k + 1, r =>
    let c := r + 2 ^ k
    angleBits x y k (if c < 1800 ∧ tenthSin c * x ≤ tenthCos c * y then c else r)

/-- The phase of Z = V/I in 0.1°, one of the two neighbours (log entry 6). -/
def tonePhase (t : ToneSums) : Int :=
  let x := t.vSin * t.iSin + t.vCos * t.iCos
  let y := t.vCos * t.iSin - t.vSin * t.iCos
  if y = 0 then (if x < 0 then 1800 else 0)
  else
    let k : Int := ((angleBits (if 0 < y then x else -x) (if 0 < y then y else -y) 11 0 : Nat) : Int)
    (if 0 < y then k else k - 1800) + b2n (Config.roundUp y x.natAbs 0)

/-- What R350 decides on. -/
def diagValues (se : Bool) (m : DiagSums) : DiagValues :=
  ⟨precheck se m, dcResistance m, toneZ m.t12, tonePhase m.t12, toneZ m.t20, tonePhase m.t20⟩

/-- The result code of R350 from what was measured, with the measured kind: code and kind. -/
def diagResult (se : Bool) (tests exp cfg : Nat) (m : DiagValues) : Nat × Nat :=
  let dc := bit tests 0 && !se
  let ac := bit tests 1
  let rdc := if dc then m.rdc else none
  let rShort := bits cfg 13 6
  let rOpen := bits cfg 21 14
  let expect := bits exp 1 0
  let lo := bits exp 9 2
  let hi := bits exp 17 10
  let kind :=
    if se then (if !ac then 0 else if m.ph12 < m.ph20 - 100 then 2 else 1)
    else if rdc.isSome then 1
    else if dc && ac && decide (m.z20 < m.z12) then 2
    else 0
  let known := if se then ac else dc
  let outside (v unit : Nat) : Bool := decide (v < lo * unit) || decide (hi * unit < v)
  let code :=
    if m.short = .gnd then 2
    else if m.short = .pvdd then 3
    else if (match rdc with
        | some r => decide (r < rShort * 100)
        | none => ac && decide (m.z20 < rShort * 10)) then 4
    else if rdc.isNone && ac && decide (rOpen * 100 < m.z20) then 5
    else if known && decide (expect ≤ 1) && kind != expect + 1 then 7
    else if (match expect with
        | 0 => if se then ac && outside m.z12 25
               else (match rdc with
                 | some r => outside r 250
                 | none => false)
        | 1 => ac && outside m.z20 25
        | _ => false) then 6
    else 1
  (code, kind)

/-- The record of a slot (R350, R356); a code 9 already there stands. -/
def slotRecord (s : State) (h : Nat) (m : DiagSums) : DiagRecord :=
  let d := s.diag
  let se := isSe s h
  let v := diagValues se m
  let r := diagResult se d.tests (d.exps.getD h 0).toNat d.cfg.toNat v
  let ac := bit d.tests 1
  if (d.recs.getD h {}).code = 9 then d.recs.getD h {}
  else {
    code := r.1
    tests := if se then Nat.land d.tests 2 else d.tests
    kind := r.2
    rdc := if bit d.tests 0 && !se then v.rdc else none
    z12 := if ac then min 0xFFFF v.z12 else 0
    ph12 := if ac then v.ph12 else 0
    z20 := if ac then min 0xFFFF v.z20 else 0
    ph20 := if ac then v.ph20 else 0 }

/-- The channel whose slot's 825 blocks are over now. -/
def slotOver (s : State) : Option Nat :=
  let d := s.diag
  if d.state = .testing ∧ s.cycle = 0 ∧ bsnReached s.bsn (d.since + 825#40) = true then d.cur else none

/-- The record of a slot that is over is written and the next slot begins (R348, R350, R352). -/
def slotEnd (s : State) : State :=
  match slotOver s with
  | some h => nextSlot (modDiag s (fun d => setRec d h (slotRecord s h d.sums))) (s.diag.since + 825#40)
  | none => s

/-- DIAG_SLOT_END (R348): the row brings nothing, since the measurements are the sense samples' (BLOCK_BOUNDARY). -/
def execDiagSlotEnd (_ : Unit) (s : State) : Step := .next (slotEnd s)

/-- Channels of the sweep's mask with result OK. -/
def okMask (d : Diag) : Nat :=
  (maskList d.mask).foldl (fun m h => if (d.recs.getD h {}).code = 1 then m + 2 ^ h else m) 0

/-- The sweep is over at BSN `b` (R346, R349, R355): channels leave DIAG, those that become LATCHED with their fault event (R335),
the complete event is raised, DIAG_RUN replies. -/
def sweepFinish (s : State) (b : Bsn) : State :=
  let d := s.diag
  let t := (maskList d.mask).foldl (fun t h =>
    modChan t h (fun x => if x.state = .diag then { x with state := if bit d.latched h then .latched else .off } else x)) s
  let t := modDiag t (fun d => { d with state := .idle, cur := none, todo := [], ended := b })
  let t := (maskList d.mask).foldl (fun t h =>
    if (chan s h).state = .diag ∧ bit d.latched h = true then latchEvent t h else t) t
  let t := raise t 95 (d.mask + okMask d * 65536)
  completeJob t isDiag (if d.failed then .fault else if d.aborted then .aborted else .ok)
    (diagReply d.start b d.mask (okMask d))

/-- The end boundary of the sweep is now, once its last slot has its record (R349): after the last block of phase 3, or of the last
slot. -/
def sweepEndDue (s : State) : Bool :=
  let d := (slotEnd s).diag
  s.cycle == 0 && match d.state with
    | .phase3 => bsnReached s.bsn (d.since + 400#40)
    | .testing => d.cur.isNone && d.todo.isEmpty && bsnReached s.bsn d.since
    | _ => false

/-- DIAG_SWEEP_END (R349). -/
def execDiagSweepEnd (s : State) : Step := if sweepEndDue s then .next (sweepFinish (slotEnd s) s.bsn) else .next s

/-! ## Early ends -/

/-- Give the channel under test a code, and drop the channels not yet tested. -/
def sweepCut (s : State) (code : Nat) : State :=
  let s := match s.diag.cur with
    | some h => modDiag s (fun d => setRec d h (codeRec s h code))
    | none => s
  modDiag s (fun d => { d with cur := none, todo := [] })

/-- A sweep that has not reached its start boundary is dropped with a status (R355). -/
def sweepDrop (s : State) (st : Status) : State :=
  let d := s.diag
  completeJob (modDiag s (fun d => { d with state := .idle })) isDiag st (diagReply 0#40 0#40 d.mask 0)

/-- ABORT of DIAG_RUN (R355): within one block the channel under test is released; SE channels run phase 3. -/
def sweepAbort (s : State) : State :=
  match s.diag.state with
  | .idle => s
  | .waiting => sweepDrop s .aborted
  | .phase3 => modDiag s (fun d => { d with aborted := true })
  | _ =>
    let t := modDiag (sweepCut s 8) (fun d => { d with aborted := true, since := s.bsn + 1#40 })
    modDiag t (fun d => { d with state := if sweepSe t then .phase3 else .testing })

/-- The device leaves ACTIVE during a sweep (R355): it ends as an abort does, with Hi-Z at once. -/
def sweepLeave (s : State) : State :=
  match s.diag.state with
  | .idle => s
  | .waiting => sweepDrop s .aborted
  | _ => sweepFinish (modDiag (sweepCut s 8) (fun d => { d with aborted := true })) s.bsn

/-- STAGE leaves AVAILABLE during a sweep (R355): everything is Hi-Z and the sweep ends at the next boundary. -/
def sweepFail (s : State) : State :=
  match s.diag.state with
  | .idle => s
  | .waiting => sweepDrop s .fault
  | _ => modDiag (sweepCut s 9) (fun d => { d with failed := true, hiZ := 0xFFFF, since := s.bsn + 1#40, state := .testing })

/-- PSTAGE_STOP with IMMEDIATE names a channel in DIAG (R356): its result is ABORTED unless it has one, and the sweep
moves on to the next slot. -/
def sweepSkip (s : State) (h : Nat) : State :=
  if s.diag.cur = some h then
    nextSlot (modDiag s (fun d => setRec (markHiZ d h) h (codeRec s h 8))) (s.bsn + 1#40)
  else if s.diag.todo.contains h then
    modDiag s (fun d => setRec (markHiZ { d with todo := d.todo.filter (fun x => x != h) } h) h (codeRec s h 8))
  else s

/-- A channel in DIAG is placed in Hi-Z at once (R345, R355): under test it reads FAULT. -/
def sweepCutOff (s : State) (c : Nat) : State :=
  let s := modDiag s (fun d => markHiZ d c)
  if s.diag.cur = some c then modDiag s (fun d => setRec d c (codeRec s c 9)) else s

/-- A third finger of a half-bridge fails (R188, R355): the channel latches with cause 6, or in DIAG its test reads FAULT
and it latches when the sweep ends. -/
def fingerLatch (s : State) (h : Nat) : State :=
  let c := leaderOf s h
  if (chan s c).state = .diag then
    let s := sweepCutOff s c
    let s := modDiag s (fun d => { d with latched := Nat.lor d.latched (2 ^ c) })
    let s := modChan s c (fun x => { x with cause := 6, downCause := 6, downBsn := s.bsn, downCyc := s.cycle })
    raise (addCount s (.hbCount c) 23 16 1) (52 + 2 * c) (6 + 16 + (chan s c).retries * 256)
  else shutdown s c 6

/-! ## DIAG_RESULT -/

/-- One record of DIAG_RESULT (R356); a non-leading member reads 0. -/
def diagRecordBytes (s : State) (h : Nat) : List Byte :=
  if !leads s h then zeros 16
  else
    let r := s.diag.recs.getD h {}
    u8 r.code ++ u8 r.tests ++ u8 r.kind ++ zeros 1 ++ u32 (r.rdc.getD 0xFFFFFFFF) ++ u16 r.z12 ++ i16 r.ph12 ++
      u16 r.z20 ++ i16 r.ph20

/-- Sweep state code. -/
def sweepCode : SweepState → Nat
  | .idle | .waiting => 0
  | .phase1 => 1
  | .testing => 2
  | .phase3 => 3

/-- DIAG_RESULT (R356). -/
def doDiagResult : Request → State → State :=
  runOp 0x69 (lenIs 0) (fun s _ =>
    let d := s.diag
    let off := if d.cur.isSome && bsnReached s.bsn d.since then bsnSince s.bsn d.since else 0
    .done s (bsn8 d.ended ++ u8 (sweepCode d.state) ++ u8 (d.cur.getD 0xFF) ++ u16 off ++ zeros 4 ++
      (List.range 16).flatMap (diagRecordBytes s)))

/-- DIAG_RESULT (R356). -/
def execDiagResult (q : Request) (s : State) : Step := .next (doDiagResult q s)

end Sys2Proof.Machine
end

