-- ==== Sys2Proof/Machine/Bridge.lean ====
section
/-!
DEFINITION. The rows of the power stage that also reach a diagnostic sweep: shutdowns and the die link (R19, R325), PVDD
faults, thermal shutdown (R328, R331) and PSTAGE_STOP (R343).
-/

namespace Sys2Proof.Machine

open Sys2Proof

/-- The die link fails (R19, R321, R325): the bridge die places every half-bridge in Hi-Z; every half-bridge channel that switches
shuts down with cause 5, one in OFF is UNAVAILABLE, and a sweep ends as when STAGE leaves AVAILABLE (DESIGN CHOICE, log entry
73). -/
def linkFail (s : State) : State :=
  sweepFail (linkTo ((List.range 16).foldl (fun t c => if running (chan t c) then shutdown t c 5 else t)
    { s with stage := { s.stage with linkBad := some (s.bsn, s.cycle) } }) true)

/-- DIE_LINK_FAIL (R19, R325), while the core is powered (R17). -/
def execDieLinkFail (s : State) : Step := if coreOn s then .next (linkFail s) else .next s

/-- CHANNEL_SHUTDOWN (R325): a short after 32 consecutive limited cycles, a member's current above the instant-shutdown threshold
(R188), a low bootstrap voltage, or the die link. In DIAG only the threshold acts, and the link (R345). -/
def execChannelShutdown (c : Fin 32) (why : ShutdownCause) (s : State) : Step :=
  if decide (c.val < 16) && leads s c && (chan s c).state == .diag then match why with
    | .overcurrent ua => if (chanLimits s c).2 < ua then .next (sweepCutOff s c) else .next s
    | .link => .next (linkFail s)
    | _ => .next s
  else if !(decide (c.val < 16) && leads s c && running (chan s c)) then .next s
  else match why with
    | .short => if 32 ≤ (chan s c).limRun then .next (shutdown s c 1) else .next s
    | .overcurrent ua => if (chanLimits s c).2 < ua then .next (shutdown s c 2) else .next s
    | .bootstrap => .next (shutdown s c 4)
    | .link => .next (linkFail s)

/-- STAGE from its PVDD part and the thermal shutdown (R328, R331, R338). -/
def stageOf (pv : Stage) (thermal : Bool) : Stage := if pv = .available ∧ thermal = true then .thermal else pv

/-- STAGE takes its new value, with the PVDD event at every change (R328); a sweep ends when it leaves AVAILABLE. -/
def setStage (s : State) (pv : Stage) (thermal : Bool) (mv : Nat) : State :=
  let old := s.stage.stage
  let new := stageOf pv thermal
  let s := { s with stage := { s.stage with pv := pv, thermal := thermal, stage := new } }
  if old = new then s
  else
    let s := raise s 124 (stageCode new + mv % 65536 * 65536)
    if old = .available then sweepFail s else s

/-- A channel that a sweep took while LATCHED is LATCHED after it (R346). -/
def sweepLatched (s : State) (c : Nat) : Bool := (chan s c).state == .diag && bit s.diag.latched c

/-- A half-bridge channel becomes UNAVAILABLE at once; one that waits for its retry keeps waiting (R328), and one that is latched, or
will be after its sweep (`latched`), stays so after it (R321). -/
def makeUnavailable (cause : Nat) (latched : Bool) (x : Chan) : Chan :=
  match x.state with
  | .member => x
  | .unavailable => { x with cause := cause }
  | .faultWait => { hiZ .unavailable x with cause := cause, waiting := true }
  | .latched => { hiZ .unavailable x with cause := cause, held := true }
  | _ => { hiZ .unavailable x with cause := cause, held := latched }

/-- PVDD_FAULT (R328): PVDD below 4.2 V or above 27.5 V, while the core is powered (R17). -/
def execPvddFault (mv : Nat) (s : State) : Step :=
  let part : Option Stage := if mv < 4200 then some .unavailable else if 27500 < mv then some .overvoltage else none
  match (if coreOn s then part else none) with
  | none => .next s
  | some pv =>
    let t := setStage s pv s.stage.thermal mv
    .next { t with stage := { t.stage with
      pvdd := mv
      chans := (List.zip (List.range 32) t.stage.chans).map (fun p =>
        if p.1 < 16 then makeUnavailable 9 (sweepLatched t p.1) p.2 else p.2) } }

/-- PVDD_AVAILABLE (R328): PVDD has lain within 4.5-27.0 V for 10 ms, while the core is powered (R17). -/
def execPvddAvailable (mv : Nat) (s : State) : Step :=
  if !coreOn s || !within mv 4500 27000 || s.stage.pv == .available then .next s
  else
    let t := setStage { s with stage := { s.stage with pvdd := mv } } .available s.stage.thermal mv
    .next (releaseChans t)

/-- THERMAL_SHUTDOWN (R331): T has reached 165 °C, while the bridge die is powered (R17). -/
def execThermalShutdown (s : State) : Step :=
  if bridgeT s < 1650 ∨ s.stage.thermal = true ∨ bridgeOn s = false then .next s
  else
    let t := setStage s s.stage.pv true s.stage.pvdd
    let t := (List.range 16).foldl (fun t c =>
      let x := chan t c
      if x.state = .starting ∨ x.state = .play then
        modChan (beginStop t c 1 0 .unavailable) c (fun x => { x with cause := 8 })
      else t) t
    .next (raise t 125 (2 + ofSigned 16 (bridgeT s) * 65536))

/-- THERMAL_RECOVER (R331): T has fallen below 140 °C, while the bridge die is powered (R17). -/
def execThermalRecover (s : State) : Step :=
  if 1400 ≤ bridgeT s ∨ s.stage.thermal = false ∨ bridgeOn s = false then .next s
  else .next (releaseChans (setStage s s.stage.pv false s.stage.pvdd))

/-! ## PSTAGE_STOP -/

/-- PSTAGE_STOP on one named channel (R343, R356): EN becomes 0 at acceptance; the stop sequence starts at the next frame,
or with IMMEDIATE the channel is Hi-Z or SAFE at once. -/
def stopChan (imm : Bool) (s : State) (c : Nat) : State :=
  let v := rd s (chanReg c)
  let s := enChange (wr s (chanReg c) (withBits v 1 0)) c 1 (bit v 0) false
  if !imm then s
  else
    let x := chan s c
    if running x then modChan s c (hiZ (if x.state = .stopping then x.stopTo else .off))
    else if x.state = .diag then sweepSkip s c
    else s

/-- The leading channels that a PSTAGE_STOP waits for. -/
def stopMask : Job → Option Nat
  | .pstageStop m => some m
  | _ => none

/-- Reply to every PSTAGE_STOP whose channels are all OFF (R343). -/
def stopsDone (s : State) : State :=
  (findJobs s (fun j => (stopMask j).isSome)).foldl (fun t po =>
    match stopMask po.2.job with
    | some m =>
      if (List.range 32).all (fun c => !bit m c || (chan t c).state == .off) then
        finalReply t po.1 po.2.tag po.2.op .ok []
      else t
    | none => t) s

/-- PSTAGE_STOP (R343). -/
def doPstageStop : Request → State → State :=
  runOp 0x63 (lenIs 8) (fun s q =>
    let named := ledBy s (pay32 q 0)
    let t := named.foldl (stopChan (bit (pay8 q 4) 0)) s
    if named.all (fun c => (chan t c).state == .off) then .done t []
    else .pend t (.pstageStop (named.foldl (fun m c => m + 2 ^ c) 0)) none)

/-- PSTAGE_STOP (R343). -/
def execPstageStop (q : Request) (s : State) : Step := .next (doPstageStop q s)

end Sys2Proof.Machine
end

