-- ==== Sys2Proof/Machine/Clock.lean ====
section
/-!
DEFINITION. Clocking (ch. 12): the root's rows, the synthesizers and their profiles, SYNC_OUT, the checks that a commit
of clock fields must meet, and the opcodes 0x48 to 0x4A. XTAL_FAULT_CLEAR stands in Machine/Power.lean: a wake may wait
for it.
-/

namespace Sys2Proof.Machine

open Sys2Proof

/-! ## The root -/

/-- ROOT_CFG or REF_FREQ takes an accepted value, without the restart that follows (R364). -/
def rootReg (freq : Bool) : Reg := if freq then .refFreq else .rootCfg

/-- ROOT_CONFIG_WRITE (R364, R383): an accepted write of ROOT_CFG or REF_FREQ, in its acceptance cycle. -/
def execRootConfigWrite (freq : Bool) (value : Word) (s : State) : Step :=
  let r := rootReg freq
  let v := Nat.land value.toNat r.mask
  if r.rangeOk s v then fieldStep s (restartRoot (wr s r v)) else .next s

/-- PLL_ROOT_LOCK (R364): lock within a restart, not while XTAL_FAULT is set (R372). -/
def execPllRootLock (s : State) : Step :=
  let c := s.clock
  if c.state = .restart ∧ c.phase = .onSafe ∧ c.xtalFault = false then
    .next (modClock s (fun c => { c with phase := .locked }))
  else .next s

/-- The job of a ROOT_RESTART. -/
def isRestart : Job → Bool
  | .rootRestart => true
  | _ => false

/-- A period of the phase detector in ns, as numerator and denominator. -/
def pdPeriod (s : State) : Nat × Nat :=
  let f := pdHz s
  (1000000000 * f.2, f.1)

/-- A phase error folded into ±½ of a phase-detector period (R371), for REF_SRC 8 of PERIOD blocks (R380). -/
def foldPhase (p : Nat × Nat) (e : Int) : Int :=
  e - roundHalfEven (roundHalfEven (e * p.2) p.1 * p.1) p.2

/-- SKEW in ns (R380). -/
def skewNs (s : State) : Int := roundHalfEven (toSigned 12 (bits (rd s .syncCfg) 16 5) * 1000000000) 2359296000

/-- The reading that the lock point is to have: the one a whole number of periods from `point` that leaves a folded error. -/
def lockAt (s : State) (point : Int) : State :=
  modClock s (fun c =>
    let e := foldPhase (pdPeriod s) (c.refPhase - point)
    { c with lockPoint := true, lockPhase := c.refPhase - e, phaseErr := e })

/-- A new lock point at qualification (R367): the reference's present phase, with no error; for REF_SRC 8 the one that SKEW fixes,
with the error that PULLIN removes (R380). -/
def newLock (s : State) : State := lockAt s (if refSrc s = 8 then skewNs s else s.clock.refPhase)

/-- The remembered lock point at the return of the reference (R371). -/
def oldLock (s : State) : State := lockAt s (if refSrc s = 8 then skewNs s else s.clock.lockPhase)

/-- The switch back to PLL_ROOT at the end of a restart (R364): FREERUN, or PULLIN with a qualified reference; PLL_ROOT starts
at PLL_SAFE's frequency (R365). -/
def switchBack (s : State) : State :=
  let pull := s.clock.refQual && refSrc s != 0
  let t := modClock s (fun c => { c with word := c.safeWord, ofs := 0, onSafe := false, phase := .none })
  let t := if pull then newLock t else t
  completeJobs (setRoot t (if pull then .pullin else .freerun)) isRestart (fun _ => (.ok, bsn8 s.bsn))

/-- ROOT_SWITCH_BACK (R364). -/
def execRootSwitchBack (s : State) : Step :=
  if s.clock.state = .restart ∧ s.clock.phase = .locked ∧ s.clock.xtalFault = false then .next (switchBack s) else .next s

/-- REF_QUALIFY (R367, R371, R373): 64 comparisons within ±1,000 ppm; `ppm100` is the frequency in 0.01 ppm. -/
def execRefQualify (ppm100 : Int) (s : State) : Step :=
  let c := s.clock
  let src := refSrc s
  if src = 0 ∨ refPortOk s src = false ∨ c.xtalFault = true ∨ ¬(-100000 ≤ ppm100 ∧ ppm100 ≤ 100000) then .next s
  else
    let t := modClock s (fun c => { c with refQual := true, refPpm := ppm100 })
    match c.state with
    | .restart => .next t
    | .freerun => .next (setRoot (newLock t) .pullin)
    | .coast =>
      if c.coastPull then .next (setRoot (newLock t) .pullin)
      else if bit (rd s .rootCfg) 6 && src != 8 then
        if c.realign.isSome then .next t
        else .next (modClock t (fun c => { c with realign := some (bsnNext s), realignOn := false }))
      else .next (setRoot (oldLock t) .reacquire)
    | _ => .next s

/-- TRACK_LOCK (R367, R371): the offset that stands is part of the word from now on. -/
def execTrackLock (s : State) : Step :=
  let c := s.clock
  if (c.state = .pullin ∨ c.state = .reacquire) ∧ c.xtalFault = false then
    .next (setRoot (modClock s (fun c => { c with word := rootTotal c, ofs := 0 })) .track)
  else .next s

/-- REF_LOSS (R369). -/
def execRefLoss (s : State) : Step := .next (refLost s)

/-- COAST_TIMEOUT (R370): COAST has lasted REF_TIMEOUT seconds; a return in the same cycle wins. -/
def execCoastTimeout (s : State) : Step :=
  let c := s.clock
  let t := bits (rd s .rootCfg) 22 15
  if c.state = .coast ∧ t ≠ 0 ∧ c.realign = none ∧ c.xtalFault = false ∧
      usPassed s (t * 1000000) c.coastAt c.coastCyc = true then
    .next (setRoot (modClock s (fun c => { c with lockPoint := false, refQual := false })) .freerun)
  else .next s

/-- SLEW_LIM in word units a block (250 µs): n ppm/s is n × 100 of them. -/
def slewStep (s : State) : Int := ((bits (rd s .rootCfg) 14 7 * 100 : Nat) : Int)

/-- ±1,500 ppm in word units (R360). -/
def wordClamp : Int := 150000 * 4000

/-- A movement of a block's time toward `goal`, at SLEW_LIM. -/
def slewTo (s : State) (now goal : Int) : Int := now + clampInt (-slewStep s) (slewStep s) (goal - now)

/-- The loop's bandwidth in TRACK, Hz as numerator and denominator (R368): BW, or f_pd/20 where that is lower. -/
def loopBand (s : State) : Nat × Nat :=
  let f := pdHz s
  let b := [1, 10, 50].getD (bits (rd s .rootCfg) 5 4) 50
  if f.1 < 20 * f.2 * b then (f.1, 20 * f.2) else (b, 1)

/-- The largest additional offset: 500 ppm in PULLIN, 10 ppm in REACQUIRE (R367, R371). -/
def offsetLimit (r : RootState) : Int := if r = .pullin then 500 * 400000 else 10 * 400000

/-- PLL_ROOT's word and offset after a block of a state (R360, R367-R372), both at SLEW_LIM at most: in FREERUN the word moves to
nominal; in PULLIN and REACQUIRE to the reference, with an offset for the phase error; in TRACK as the loop of bandwidth BW asks;
elsewhere, and while XTAL_FAULT is set, both hold. What the loop's filter asks for is not given (log entry 84). -/
def wordMove (s : State) (c : Clock) : Int × Int :=
  if c.xtalFault then (c.word, c.ofs)
  else match c.state with
    | .freerun => (slewTo s c.word 0, 0)
    | .pullin | .reacquire =>
      let lim := offsetLimit c.state
      (slewTo s c.word (c.refPpm * 4000), slewTo s c.ofs (clampInt (-lim) lim (Config.loopOffset c.phaseErr c.ofs)))
    | .track =>
      let b := loopBand s
      (slewTo s c.word (Config.loopWord b.1 b.2 c.refPpm c.phaseErr c.word), 0)
    | _ => (c.word, c.ofs)

/-- The frequency words after a block; PLL_SAFE follows PLL_ROOT while the root runs from it (R361). -/
def wordStep (s : State) (c : Clock) : Clock :=
  let m := wordMove s c
  let d := { c with word := clampInt (-wordClamp) wordClamp m.1, ofs := m.2 }
  { d with safeWord := if c.onSafe || c.state == .off || c.xtalFault then c.safeWord else rootTotal d }

/-- The frequency of the root against nominal, in 0.01 ppm (R384 ROOT_PPM). -/
def rootOffset (c : Clock) : Int := roundHalfEven (if c.onSafe then c.safeWord else rootTotal c) 4000

/-- R373: in frame 12 of the realign block the word takes the measured reference frequency in one step, and the lock point the
reference's present phase. -/
def wordJump (c : Clock) : Clock :=
  { c with word := clampInt (-wordClamp) wordClamp (c.refPpm * 4000), ofs := 0, stepped := true, lockPoint := true,
           lockPhase := c.refPhase, phaseErr := 0 }

/-- REALIGN_BLOCK (R373): the realign block begins; every ASRC channel ramps out and in around the word step of frame
12 (realignGain), and the block's end brings TRACK (realignEnd). -/
def execRealignBlock (s : State) : Step :=
  match s.clock.realign with
  | some r =>
    if s.cycle = 0 ∧ s.clock.realignOn = false ∧ bsnReached s.bsn r = true ∧ s.clock.state = .coast ∧
        s.clock.xtalFault = false then
      .next (modClock s (fun c => { c with realign := some s.bsn, realignOn := true, stepped := false }))
    else .next s
  | none => .next s

/-- Every LOCKED port's estimator is loaded with the ratio that a step of the root by `d` (word units) leaves: the port against the
fabric, 0.1 ppm (R373, R243). -/
def loadRatios (s : State) (d : Int) : State :=
  { s with dports := s.dports.map (fun p =>
      if p.state = .locked then { p with ppm := clampInt (sMin 16) (sMax 16) (p.ppm - roundHalfEven d 40000) } else p) }

/-- Frame 12 of the realign block (R373); the word does not move while XTAL_FAULT is set (R372). -/
def realignFrame (s : State) : State :=
  if s.clock.realignOn && frameOf s == 12 && !s.clock.xtalFault then
    let t := modClock s wordJump
    loadRatios t (rootTotal t.clock - rootTotal s.clock)
  else s

/-- The boundary after the realign block (R373): TRACK, and the count. A block that XTAL_FAULT kept from its step, or whose end
finds it set, waits and is run again (R372; DEDUCED, log entry 84). -/
def realignEnd (s : State) : State :=
  let c := s.clock
  if !c.realignOn then s
  else if c.xtalFault || !c.stepped then modClock s (fun c => { c with realign := some s.bsn, realignOn := false })
  else
    setRoot (modClock (addCount s .rootCount 23 16 1) (fun c => { c with realign := none, realignOn := false })) .track

/-- The readings of a block, then the words move (R367-R369, R384, R385, R387). PHASE_NS is a follower's. -/
def clockReadings (s : State) (i : BlockInput) : State :=
  modClock s (fun c =>
    let e := if c.lockPoint then i.refPhase - c.lockPhase else 0
    let c := { c with
      refPpm := i.refPpm, refPhase := i.refPhase, phaseErr := e, syncIn := i.syncIn,
      phaseNs := if refSrc s = 8 then clampInt (sMin 16) (sMax 16) e else c.phaseNs,
      edgeWord := if i.refEdge then rootTotal c else c.edgeWord }
    let d := wordStep s c
    { d with rootPpm := rootOffset d })

/-! ## SYNC_OUT (R379, R380) -/

/-- At a block boundary: SYNC_OUT and the restarts of synthesizers with SYNC = 1 at the sync boundaries (R379, R382). -/
def syncBoundary (s : State) (mark : Bool) : State :=
  let here := if refSrc s = 8 then mark else s.bsn.toNat % syncPeriod s == 0
  if here then
    let on := bit (rd s .syncCfg) 0
    let restarts (a : Nat) : Bool := bit (rd s (.auxCfg a)) 0 && bit (rd s (.auxCfg a)) 2
    modClock s (fun c => { c with
      syncOut := on, pulsed := if on then some s.bsn else c.pulsed,
      aux := (List.zip (List.range 4) c.aux).map (fun x => if restarts x.1 then { x.2 with synced := some s.bsn } else x.2) })
  else s

/-- SYNC_CFG, and with it PERIOD, is written: with REF_SRC 8 this acts as loss and requalification, whatever PERIOD was
(R385). -/
def applySync (s : State) (v : Nat) : State :=
  let t := wr s .syncCfg v
  if refSrc s = 8 then refLost t else t

/-! ## Crystal faults (R371, R372) -/

/-- Everything that the crystal carries in LISTEN and RETAIN stops (R372). -/
def crystalStop (s : State) : State :=
  let t := modClock (clocksStop (pathStop s)) (fun c => { c with shipTick := true })
  { t with cycle := 0, bus := { t.bus with ctrlClk := false } }

/-- XTAL_FAULT_SET (R371, R372): the crystal has given no edge for 2 µs. In LISTEN and RETAIN the event finds the clocks
stopped, with cycle offset 0. -/
def execXtalFaultSet (s : State) : Step :=
  if s.clock.xtalFault || !s.clock.xtalOn then .next s
  else
    let t := modClock s (fun c => { c with
      xtalFault := true, phase := if c.phase = .locked then .onSafe else c.phase })
    .next (raise (if modeLow t then crystalStop t else t) 98 0)

/-! ## Synthesizers -/

/-- Change one synthesizer. -/
def modAux (s : State) (a : Nat) (f : Aux → Aux) : State := modClock s (fun c => { c with aux := modAt c.aux a f })

/-- CHG_MS. -/
def chgMs (s : State) (a : Nat) : Nat := bits (rd s (.auxCfg a)) 16 10

/-- Bit clock of port `p` (TP ports and SPDIF_OUT0) if it is an enabled controller on synthesizer `a` (R235, R247). -/
def auxConsumer (s : State) (a p : Nat) : Option Nat :=
  if p < 4 then
    let w := rd s (.tpCfg p)
    if bit w 0 && bit w 1 && bits w 22 20 == a + 1 then some (rateHz (bits w 19 16) * tpFrameBits w) else none
  else if p = 6 then
    let w := rd s .spoCfg
    if bit w 0 && bits w 14 12 == a + 1 then some (rateHz (bits w 11 8) * 64) else none
  else none

/-- The ports that a synthesizer clocks. -/
def auxPorts (s : State) (a : Nat) : List Nat := (List.range 7).filter (fun p => (auxConsumer s a p).isSome)

/-- R375: f_a is D × the bit clock exactly, D from 1 to 4,096. -/
def auxDivides (s : State) (a hz : Nat) : Bool :=
  let n := auxNominal s a
  decide (n.1 % (hz * n.2) = 0) && within (n.1 / (hz * n.2)) 1 4096

/-- CAR_SRC names synthesizer `a`; CAR_DIV. -/
def carrierOn (s : State) (a : Nat) : Bool := bits (rd s .psCfg) 5 3 == a + 1
def carDiv (s : State) : Nat := bits (rd s .psCfg) 11 6

/-- The carrier lies in 384-1536 kHz with f_a offset by `ofs` in 0.01 ppm (R316, R377). -/
def carrierOk (s : State) (a : Nat) (ofs : Int) : Bool :=
  let n := auxNominal s a
  let f : Int := n.1 * (100000000 + ofs)
  let unit : Int := (100000000 * n.2 * carDiv s : Nat)
  decide (384000 * unit ≤ f ∧ f ≤ 1536000 * unit)

/-- R382: with SYNC = 1, f_a × PERIOD × 250 µs is whole and divisible by MDIV, and by CAR_DIV where it is used. -/
def auxSyncOk (s : State) (a : Nat) : Bool :=
  let n := auxNominal s a
  let cfg := rd s (.auxCfg a)
  let top := n.1 * syncPeriod s
  let k := 4000 * n.2
  !bit cfg 2 ||
    (decide (top % k = 0) && decide (top / k % bits cfg 9 4 = 0) &&
      (!carrierOn s a || decide (top / k % carDiv s = 0)) && !(auxAt s a).profile)

/-- What a commit of clock, port and carrier fields must leave true (R316, R374, R375, R382), per synthesizer. -/
def auxCommitOk (s : State) (a : Nat) : Bool :=
  decide (rd s (.auxNum a) < rd s (.auxDen a)) &&
    (List.range 7).all (fun p => match auxConsumer s a p with
      | some hz => auxDivides s a hz && !(auxAt s a).profile
      | none => true) &&
    auxSyncOk s a && (!carrierOn s a || carrierOk s a 0)

/-- The clock pins of the ports on synthesizer `a` follow its output, which no port gets before LOCKED (R374). -/
def auxPins (s : State) (a : Nat) : State := (auxPorts s a).foldl portPins s

/-- AUX_CFG is written (R374, R378). -/
def applyAuxCfg (s : State) (a v : Nat) : State :=
  let old := rd s (.auxCfg a)
  let t := wr s (.auxCfg a) v
  if bit old 0 != bit v 0 then auxPins (modAux t a (fun _ => {})) a
  else modAux t a (fun x => { x with mclkOn := x.locked && bit v 1 })

/-- AUX_LOCK (R374): within 1 ms after EN, while the root runs. -/
def execAuxLock (a : Fin 4) (s : State) : Step :=
  let v := rd s (.auxCfg a)
  if bit v 0 && s.clock.state != .off then
    .next (auxPins (modAux s a (fun x => { x with locked := true, mclkOn := bit v 1 })) a)
  else .next s

/-- MCLK_ENABLE and MCLK_DISABLE (R378): a committed change of MCLK_EN alone, which meets the checks of a commit (R375, R382). -/
def mclkCommit (a v : Nat) (s : State) : State :=
  let t := applyAuxCfg s a (withBits (rd s (.auxCfg a)) 2 v)
  if auxCommitOk t a then t else s

def execMclkEnable (a : Fin 4) (s : State) : Step := fieldStep s (mclkCommit a 2 s)
def execMclkDisable (a : Fin 4) (s : State) : Step := fieldStep s (mclkCommit a 0 s)

/-- The level of MCLK_OUTa at root cycle `n` of the block (R378): f_a/MDIV, high first, counted from the last restart of R382 (else
from the block's start, DESIGN CHOICE, log entry 84). -/
def mclkLevel (s : State) (a n : Nat) : Bool :=
  let f := auxNow s a
  (auxAt s a).mclkOn &&
    (2 * (auxOrigin s a + n) * f.1 / (rootHz * f.2 * max 1 (bits (rd s (.auxCfg a)) 9 4))) % 2 == 0

/-- SYNC_PERIOD_WRITE (R385): a PERIOD that breaks the condition of a synthesizer with SYNC = 1 is refused (R382). -/
def execSyncPeriodWrite (period : Fin 16) (s : State) : Step :=
  let t := applySync s (withBits (rd s .syncCfg) 0x1E (period.val * 2))
  if (List.range 4).all (auxSyncOk t) then fieldStep s t else .next s

/-- INT, NUM and DEN take their values, and an enabled synthesizer moves from its present frequency; its ports ramp out and
enter ACQUIRE when their ramp ends (R376; DEDUCED: the ramp of R242, log entry 74). -/
def applyAuxRatio (s : State) (a int num den : Nat) : State :=
  let from_ := auxHz s a
  let old := auxWordsOf s a
  let t := wr (wr (wr s (.auxInt a) int) (.auxNum a) num) (.auxDen a) den
  if !bit (rd s (.auxCfg a)) 0 || auxWordsOf t a == old then t
  else
    let t := modAux t a (fun x => { x with ratio := some (from_.1, from_.2, chgMs s a, s.bsn) })
    (auxPorts t a).foldl (fun u p => if portIs u p .locked then portLose u p true else u) t

/-- The four words of a synthesizer take their committed values together (R211): the new CHG_MS holds for the ramp, and a
synthesizer that was off or is switched off has none (R374, R376). -/
def applyAuxWords (s : State) (a cfg int num den : Nat) : State :=
  let on := bit (rd s (.auxCfg a)) 0 && bit cfg 0
  let t := applyAuxCfg s a cfg
  if on then applyAuxRatio t a int num den else wr (wr (wr t (.auxInt a) int) (.auxNum a) num) (.auxDen a) den

/-- AUX_RATIO_CHANGE (R376): the three words are checked together. -/
def execAuxRatioChange (a : Fin 4) (int num den : Word) (s : State) : Step :=
  let t := applyAuxRatio s a int.toNat num.toNat den.toNat
  if (Reg.auxInt a).rangeOk s int.toNat && (Reg.auxDen a).rangeOk s den.toNat && decide (num.toNat ≤ 0xFFFFF) &&
      auxCommitOk t a then fieldStep s t
  else .next s

/-- AUX_RAMP_END (R376, R377): a ratio ramp ends; a stopped profile reaches 0. -/
def execAuxRampEnd (a : Fin 4) (s : State) : Step :=
  let x := auxAt s a
  let t := match x.ratio with
    | some (_, _, ms, b) =>
      if usPassed s (ms * 1000) b 0 then modAux s a (fun x => { x with ratio := none }) else s
    | none => s
  if x.stopping && usPassed s x.ofsTime x.ofsBsn x.ofsCyc then .next (modAux t a (fun x => { x with stopping := false }))
  else .next t

/-! ## Profiles (R377, R389) -/

/-- The segments before the first one whose SEG_TIME is 0. -/
def auxSegments (s : State) (a : Nat) : List Nat := (List.range 16).takeWhile (fun k => rd s (.segTime a k) != 0)

/-- Segment `k` of a profile begins at the present offset. -/
def enterSegment (s : State) (a k : Nat) (from_ : Int) : State :=
  modAux s a (fun x => { x with
    profile := true, stopping := false, holds := false, segment := k, ofsFrom := from_,
    ofsTo := toSigned 32 (rd s (.segOfs a k)), ofsTime := rd s (.segTime a k), ofsBsn := s.bsn, ofsCyc := s.cycle })

/-- AUX_SEGMENT_END (R377). -/
def execAuxSegmentEnd (a : Fin 4) (s : State) : Step :=
  let x := auxAt s a
  if !(x.profile && !x.holds && usPassed s x.ofsTime x.ofsBsn x.ofsCyc) then .next s
  else
    let n := x.segment + 1
    if n < 16 ∧ rd s (.segTime a n) ≠ 0 then .next (enterSegment s a n x.ofsTo)
    else if bit (rd s (.auxCfg a)) 3 && rd s (.segTime a 0) != 0 then .next (enterSegment s a 0 x.ofsTo)
    else .next (modAux s a (fun x => { x with holds := true }))

/-- The job of an AUX_PROFILE on synthesizer `a` whose boundary has come: start or stop, and that boundary. -/
def profileDue (s : State) (a : Nat) : Job → Option Bool
  | .auxProfile b start at_ => if b = a ∧ bsnReached s.bsn at_ = true then some start else none
  | _ => none

/-- A profile starts at segment 0, or its return to 0 over CHG_MS begins. -/
def profileAct (s : State) (a : Nat) (start : Bool) : State :=
  if start then enterSegment s a 0 (auxOffset s (auxAt s a))
  else modAux s a (fun x => { x with
    profile := false, holds := false, segment := 0, stopping := true, ofsFrom := auxOffset s x, ofsTo := 0,
    ofsTime := chgMs s a * 1000, ofsBsn := s.bsn, ofsCyc := s.cycle })

/-- AUX_PROFILE_BEGIN (R389): at its boundary, every AUX_PROFILE that is due on the synthesizer. -/
def execAuxProfileBegin (a : Fin 4) (s : State) : Step :=
  if s.cycle ≠ 0 then .next s
  else
    .next ((findJobs s (fun j => (profileDue s a j).isSome)).foldl (fun t po =>
      match profileDue s a po.2.job with
      | some start => finalReply (profileAct t a start) po.1 po.2.tag po.2.op .ok (bsn8 s.bsn)
      | none => t) s)

/-- AUX_PROFILE (R389). -/
def doAuxProfile : Request → State → State :=
  runOp 0x4A (lenIs 16) (fun s q =>
    let a := pay8 q 0
    let start := pay8 q 1 == 1
    let fl := pay8 q 2
    let e := bsnNext s
    let x := auxAt s a
    let cfg := rd s (.auxCfg a)
    let at_ := if bit fl 0 then bsnResolve (payBsn q 8) e else .early
    let segs := auxSegments s a
    if 3 < a ∨ 1 < pay8 q 1 then .refuse .range []
    else if bit fl 0 && (at_ == .tooFar || (at_ == .early && bit fl 1)) then .refuse .range []
    else if start && (segs.isEmpty ||
        (carrierOn s a && !segs.all (fun k => carrierOk s a (toSigned 32 (rd s (.segOfs a k)))))) then .refuse .range []
    else if !bit cfg 0 || bit cfg 2 || !(auxPorts s a).isEmpty || start == x.profile then .refuse .state []
    else .pend s (.auxProfile a start (if at_ = .asked then payBsn q 8 else e))
      (some (bsn8 (if at_ = .asked then payBsn q 8 else e))))

/-- AUX_PROFILE (R389). -/
def execAuxProfile (q : Request) (s : State) : Step := .next (doAuxProfile q s)

/-! ## Opcodes -/

/-- One synthesizer record of CLOCK_STATUS (R387). -/
def auxRecord (s : State) (a : Nat) : List Byte :=
  let x := auxAt s a
  let cfg := rd s (.auxCfg a)
  let f := auxHz s a
  u8 (b2n (bit cfg 0) + b2n x.locked * 2 + b2n (auxRamping x) * 4 + b2n x.profile * 8 + b2n (bit cfg 1) * 16) ++
    u8 x.segment ++ zeros 2 ++ u32 (roundHalfEven f.1 f.2).toNat ++ i32 (auxOffset s x) ++ zeros 4

/-- CLOCK_STATUS (R387). -/
def doClockStatus : Request → State → State :=
  runOp 0x48 (lenIs 0) (fun s _ =>
    let c := s.clock
    .done s (u8 (rootCode c.state) ++ u8 (refSrc s) ++ u8 c.xtalSel ++
      u8 (b2n c.onSafe + b2n (bit (rd s .rootCfg) 6) * 2 + b2n c.xtalFault * 4 + b2n c.refQual * 8) ++
      i32 c.refPpm ++ i32 c.rootPpm ++ i32 c.phaseErr ++ bsn8 c.changed ++ u16 c.losses ++ u16 c.restarts ++
      i16 c.phaseNs ++ zeros 2 ++ (List.range 4).flatMap (auxRecord s)))

/-- CLOCK_STATUS (R387). -/
def execClockStatus (q : Request) (s : State) : Step := .next (doClockStatus q s)

/-- ROOT_RESTART (R388). -/
def doRootRestart : Request → State → State :=
  runOp 0x49 (lenIs 0) (fun s _ =>
    if s.clock.state = .off then .refuse .state [] else .pend (restartRoot s) .rootRestart none)

/-- ROOT_RESTART (R388). -/
def execRootRestart (q : Request) (s : State) : Step := .next (doRootRestart q s)

/-! ## The root off and on (R366, R478, R479) -/

/-- The root stops: no lock point, no qualified reference, no locked synthesizer. -/
def rootStop (s : State) : State :=
  setRoot (modClock s (fun c => { c with
    word := 0, safeWord := 0, ofs := 0, edgeWord := 0, rootPpm := 0, lossHeld := false, phase := .none, onSafe := false,
    safeLock := false, refQual := false, lockPoint := false, realign := none, realignOn := false, syncOut := false,
    aux := c.aux.map (fun x => { x with locked := false, mclkOn := false }) })) .off

/-- The root is to start after being off: PLL_SAFE locks first (R361, R364). -/
def rootStart (s : State) : State :=
  if s.clock.state = .off then modClock s (fun c => { c with phase := .waitSafe }) else s

/-- The root has left OFF and runs from PLL_ROOT (R364). -/
def rootRuns (s : State) : Bool := s.clock.state != .off && s.clock.state != .restart

/-- PLL_SAFE_LOCK (R361, R364): once the PWR_EN1 rails are good and while the crystal runs, PLL_SAFE locks and the steps of
a restart run from that point. -/
def execPllSafeLock (s : State) : Step :=
  let c := s.clock
  if c.state = .off ∧ c.phase = .waitSafe ∧ c.xtalFault = false then
    .next (setRoot (modClock (addCount s .rootCount 15 8 1) (fun c => { c with
      phase := .onSafe, onSafe := true, safeLock := true, restarts := bump 0xFFFF c.restarts })) .restart)
  else .next s

end Sys2Proof.Machine
end

