-- ==== Sys2Proof/Machine/Touch.lean ====
section
/-!
DEFINITION. Touch electrodes and keys (ch. 17): scans, calibration and baselines, the slider, gestures, keys, and the
opcodes 0xA0 to 0xA2.
-/

namespace Sys2Proof.Machine

open Sys2Proof

/-! ## Fields -/

/-- TCH_CFG: EN, T_ON, T_OFF. -/
def tchEn (s : State) (n : Nat) : Bool := bit (rd s (.tchCfg n)) 0
def tOn (s : State) (n : Nat) : Nat := bits (rd s (.tchCfg n)) 8 1
def tOff (s : State) (n : Nat) : Nat := bits (rd s (.tchCfg n)) 16 9

/-- TCH_GLOBAL: SCAN_MS, ON_CNT, OFF_CNT, BL_SHIFT, MAX_ON. -/
def scanMs (s : State) : Nat := bits (rd s .tchGlobal) 6 0
def onCnt (s : State) : Nat := bits (rd s .tchGlobal) 9 7
def offCnt (s : State) : Nat := bits (rd s .tchGlobal) 12 10
def blShift (s : State) : Nat := bits (rd s .tchGlobal) 16 13
def maxOn (s : State) : Nat := bits (rd s .tchGlobal) 23 17

/-- TCH_GEST: TAP, HOLD, SWIPE_DIST. -/
def tapUs (s : State) : Nat := bits (rd s .tchGest) 7 0 * 10000
def holdUs (s : State) : Nat := bits (rd s .tchGest) 15 8 * 100000
def swipeDist (s : State) : Nat := bits (rd s .tchGest) 22 16

/-- The electrodes of the slider (R511). -/
def sliderEls (s : State) : List Nat :=
  let w := rd s .sldCfg
  if bit w 0 then (List.range (bits w 8 5)).map (fun i => bits w 4 1 + i) else []

/-- Electrode `n` reports as the slider. -/
def inSlider (s : State) (n : Nat) : Bool := (sliderEls s).contains n

/-- An electrode, and a change of it. -/
def elAt (s : State) (n : Nat) : Electrode := s.touch.els.getD n {}
def modEl (s : State) (n : Nat) (f : Electrode → Electrode) : State :=
  { s with touch := { s.touch with els := modAt s.touch.els n f } }

/-- D = RAW − B in units of 1/256. -/
def elDelta (e : Electrode) : Int := (e.raw : Int) * 256 - e.base

/-! ## Releases and events -/

/-- A touch of code `c` (electrode, or 0xF) ends (R509, R511, R512): EV112, and a TAP if it was short and did not swipe. -/
def touchEnd (s : State) (c : Nat) (swiped : Bool) (pos : Nat) (b : Bsn) (cyc : Nat) : State :=
  let t := raise s 112 c
  if !swiped && decide (cyclesSince s b cyc * 250 ≤ tapUs s * Config.blockCycles) then
    raise t 113 (c + 16 + pos * 256) else t

/-- A touched electrode is released; one of the slider reports only as the slider. -/
def elRelease (s : State) (n : Nat) : State :=
  let e := elAt s n
  if e.state = .touched ∧ inSlider s n = false then touchEnd s n false 0 e.at_ e.cyc else s

/-- The slider is released. -/
def sliderRelease (s : State) : State :=
  let k := s.touch.slider
  if k.touched then
    touchEnd { s with touch := { s.touch with slider := { k with touched := false, pos := 0 } } } 0xF (k.up || k.down) k.pos
      k.at_ k.cyc
  else s

/-- An electrode starts to calibrate (R508). -/
def elCalibrate (e : Electrode) : Electrode :=
  { e with state := .calibrating, calN := 0, calSum := 0, onRun := 0, offRun := 0, negRun := 0, okRun := 0, held := false,
           recal := false, fresh := false, late := false }

/-- A scan runs: it started before this cycle (R507). What is asked for now waits for the next one. -/
def scanRuns (s : State) : Bool :=
  s.touch.scanning && bsnReached s.bsn s.touch.next && !(s.bsn == s.touch.next && s.cycle == 0)

/-- Whether what is asked of an electrode now waits for the scan after the running one; what waits already stays as it is. -/
def elLate (s : State) (e : Electrode) : Bool := if e.recal || e.fresh then e.late else scanRuns s

/-! ## A scan (R507-R512) -/

/-- R510: the baseline after a scan in IDLE with |D| below T_OFF. -/
def baseStep (s : State) (e : Electrode) : Nat :=
  let k : Nat := 2 ^ blShift s
  (roundHalfEven ((e.base : Int) * (k : Int) + elDelta e) k).toNat

/-- Electrode `n` in IDLE, with this scan's RAW in place; a negative delta sets B to RAW at once and calibrates (R508, R510; log
entry 46). -/
def scanIdle (s : State) (n : Nat) : State :=
  let e := elAt s n
  let d := elDelta e
  let on := if (tOn s n : Int) * 256 ≤ d then e.onRun + 1 else 0
  let neg := if d ≤ -((tOn s n : Int) * 256) then e.negRun + 1 else 0
  if onCnt s ≤ on then
    let t := modEl s n (fun e => { e with
      state := .touched, at_ := s.bsn, cyc := s.cycle, held := false, onRun := 0, offRun := 0, negRun := 0 })
    if inSlider s n then t else raise t 112 (n + 16)
  else if 8 ≤ neg then
    raise (modEl s n (fun e => { elCalibrate e with base := e.raw * 256 })) 114 (n + 32)
  else
    modEl s n (fun e => { e with
      onRun := on, negRun := neg, base := if d.natAbs < tOff s n * 256 then baseStep s e else e.base })

/-- Electrode `n` in TOUCHED. -/
def scanTouched (s : State) (n : Nat) : State :=
  let e := elAt s n
  let off := if elDelta e < (tOff s n : Int) * 256 then e.offRun + 1 else 0
  if offCnt s ≤ off then
    modEl (elRelease s n) n (fun e => { e with state := .idle, offRun := 0, onRun := 0, negRun := 0 })
  else modEl s n (fun e => { e with offRun := off })

/-- Electrode `n` in CALIBRATING: the mean of 16 scans becomes B. -/
def scanCal (s : State) (n : Nat) : State :=
  modEl s n (fun e =>
    let k := e.calN + 1
    let sum := e.calSum + e.raw
    if 16 ≤ k then { e with state := .idle, calN := 0, calSum := 0, base := (roundHalfEven sum 16).toNat * 256 }
    else { e with calN := k, calSum := sum })

/-- What was asked of electrode `n` before the scan is taken up (R508, R518). -/
def scanTakes (s : State) (n : Nat) : State :=
  let e := elAt s n
  if e.late then modEl s n (fun e => { e with late := false })
  else if e.recal || e.fresh then
    let t := modEl (elRelease s n) n elCalibrate
    if e.recal then raise t 114 (n + 48) else t
  else s

/-- Electrode `n` at the end of a scan that measured `raw` (R508-R510). -/
def scanRead (s : State) (n raw : Nat) : State :=
  let s := modEl s n (fun e => { e with
    raw := raw, ffRun := if raw = 0xFFFF then e.ffRun + 1 else 0, okRun := if raw = 0xFFFF then 0 else e.okRun + 1 })
  let e := elAt s n
  if e.state = .fault then
    if 4 ≤ e.okRun then modEl s n elCalibrate else s
  else if 4 ≤ e.ffRun then raise (modEl s n (fun e => { e with state := .fault, okRun := 0 })) 115 n
  else match e.state with
    | .calibrating => scanCal s n
    | .idle => scanIdle s n
    | .touched => scanTouched s n
    | _ => s

/-- The end of a scan for enabled electrode `n` that read `raw`; one whose EN became 1 while the scan ran was not measured. -/
def scanEl (s : State) (n raw : Nat) : State :=
  let e := elAt s n
  if e.late && !e.recal && !e.fresh then scanTakes s n else scanRead (scanTakes s n) n raw

/-- The slider's position from its electrodes with D above 0 (R511); the old one where none has. -/
def sliderPos (s : State) : Nat :=
  let ds := (sliderEls s).map (fun n => max 0 (elDelta (elAt s n)))
  let sum := ds.foldl (fun a d => a + d) 0
  let top := ((List.zip (List.range ds.length) ds).map (fun x => (x.1 : Int) * x.2)).foldl (fun a d => a + d) 0
  if sum = 0 then s.touch.slider.pos else (roundHalfEven (255 * top) ((ds.length - 1) * sum.toNat)).toNat

/-- A swipe of code 3 or 4 with its event (R512). -/
def swipe (s : State) (up : Bool) : State :=
  let k := s.touch.slider
  let t := { s with touch := { s.touch with
    slider := if up then { k with up := true } else { k with down := true } } }
  raise t 113 (0xF + (if up then 3 else 4) * 16 + k.pos * 256)

/-- The slider at the end of a scan (R511, R512). -/
def scanSlider (s : State) : State :=
  let on := (sliderEls s).any (fun n => tchEn s n && (elAt s n).state == .touched)
  let k := s.touch.slider
  if k.late then { s with touch := { s.touch with slider := { k with late := false } } }
  else if !on then sliderRelease s
  else
    let p := sliderPos s
    if !k.touched then
      raise { s with touch := { s.touch with
        slider := { touched := true, pos := p, pos0 := p, at_ := s.bsn, cyc := s.cycle } } } 112 (0xF + 16)
    else
      let t := { s with touch := { s.touch with slider := { k with pos := p } } }
      let t := if !k.up && decide (k.pos0 + swipeDist s ≤ p) then swipe t true else t
      if !k.down && decide (p + swipeDist s ≤ k.pos0) then swipe t false else t

/-- The slider releases where a change has left it no enabled TOUCHED electrode; its position is computed at the end of a scan only
(R511). -/
def sliderLeft (s : State) : State :=
  if (sliderEls s).any (fun n => tchEn s n && (elAt s n).state == .touched) then s else sliderRelease s

/-- The job of a TOUCH_RECAL. -/
def recalMask : Job → Option Nat
  | .touchRecal m => some m
  | _ => none

/-- Reply to every TOUCH_RECAL whose electrodes have finished calibrating (R518). -/
def recalDone (s : State) : State :=
  (findJobs s (fun j => (recalMask j).isSome)).foldl (fun t po =>
    match recalMask po.2.job with
    | some m =>
      if (List.range 12).all (fun n => !bit m n || (!(elAt t n).recal && (elAt t n).state != .calibrating)) then
        finalReply t po.1 po.2.tag po.2.op .ok []
      else t
    | none => t) s

/-- The enabled electrodes. -/
def enabledEls (s : State) : List Nat := (List.range 12).filter (tchEn s)

/-- TOUCH_SCAN (R507): a scan ends, 100 µs per enabled electrode after the boundary at which it started. -/
def execTouchScan (raws : List Nat) (s : State) : Step :=
  let els := enabledEls s
  if !s.touch.scanning || !bsnReached s.bsn s.touch.next || !usPassed s (100 * els.length) s.touch.next 0 then .next s
  else
    let t := els.foldl (fun t n => scanEl t n (min 0xFFFF (raws.getD n 0))) s
    let t := scanSlider t
    .next (recalDone { t with touch := { t.touch with next := t.touch.next + BitVec.ofNat 40 (4 * scanMs s) } })

/-- GESTURE_HOLD (R512): electrode `e`, or the slider for 12. -/
def execGestureHold (e : Fin 13) (s : State) : Step :=
  if e.val = 12 then
    let k := s.touch.slider
    if k.touched && !k.held && usPassed s (holdUs s) k.at_ k.cyc then
      .next (raise { s with touch := { s.touch with slider := { k with held := true } } } 113 (0xF + 32 + k.pos * 256))
    else .next s
  else
    let x := elAt s e
    if x.state == .touched && !inSlider s e && !x.held && usPassed s (holdUs s) x.at_ x.cyc then
      .next (raise (modEl s e (fun x => { x with held := true })) 113 (e.val + 32))
    else .next s

/-- TOUCH_MAX_ON (R510). -/
def execTouchMaxOn (e : Fin 12) (s : State) : Step :=
  let x := elAt s e
  if x.state = .touched ∧ maxOn s ≠ 0 ∧ usPassed s (maxOn s * 1000000) x.at_ x.cyc = true then
    let t := modEl (elRelease s e) e elCalibrate
    let t := if inSlider s e then sliderLeft t else t
    .next (raise t 114 (e.val + 16))
  else .next s

/-- TCH_CFG is written (R508): a changed electrode calibrates, from the next scan; EN = 0 is OFF. -/
def applyTchCfg (s : State) (n v : Nat) : State :=
  let old := rd s (.tchCfg n)
  let t := wr s (.tchCfg n) v
  if old = v ∨ s.touch.scanning = false then t
  else if !bit v 0 then
    let t := modEl (elRelease t n) n (fun _ => {})
    recalDone (if inSlider s n then sliderLeft t else t)
  else if !bit old 0 then modEl t n (fun e => { elCalibrate e with late := scanRuns s })
  else modEl t n (fun e => { e with fresh := true, late := elLate s e })

/-- TOUCH_CONFIG_CHANGE (R508). -/
def execTouchConfigChange (e : Fin 12) (value : Word) (s : State) : Step :=
  let v := Nat.land value.toNat (Reg.tchCfg e).mask
  if (Reg.tchCfg e).rangeOk s v then fieldStep s (applyTchCfg s e v) else .next s

/-- SLD_CFG is written: a touched slider releases at the commit boundary. -/
def applySldCfg (s : State) (v : Nat) : State :=
  if rd s .sldCfg = v then s
  else
    let t := sliderRelease s
    wr { t with touch := { t.touch with slider := { late := scanRuns s } } } .sldCfg v

/-- SLIDER_CONFIG_CHANGE (R511). -/
def execSliderConfigChange (value : Word) (s : State) : Step :=
  let v := Nat.land value.toNat Reg.sldCfg.mask
  if Reg.sldCfg.rangeOk s v then fieldStep s (applySldCfg s v) else .next s

/-- Scanning stops at boundary b (R507): touched electrodes and the slider release, every electrode is OFF. -/
def scanStop (s : State) : State :=
  if !s.touch.scanning then s
  else
    let t := (List.range 12).foldl elRelease s
    let t := sliderRelease t
    { t with touch := { t.touch with scanning := false, els := List.replicate 12 {}, slider := {} } }

/-- Scanning starts at the first block boundary in IDLE: every enabled electrode calibrates (R507). -/
def scanStart (s : State) : State :=
  { s with touch := { s.touch with
      scanning := true, next := s.bsn,
      els := (List.range 12).map (fun n => if tchEn s n then elCalibrate {} else {}) } }

/-! ## Keys (R513, R514) -/

/-- A key, and a change of it. -/
def keyAt (s : State) (k : Nat) : Key := s.touch.keys.getD k {}
def modKey (s : State) (k : Nat) (f : Key → Key) : State :=
  { s with touch := { s.touch with keys := modAt s.touch.keys k f } }

/-- EN and LONG of a key. -/
def keyEn (s : State) (k : Nat) : Bool := bit (rd s (.keyCfg k)) 0
def keyLongUs (s : State) (k : Nat) : Nat := bits (rd s (.keyCfg k)) 16 9 * 100000

/-- Keys are watched, from C of a boot on and in every mode but SHIP (R475, R514). -/
def keysWatched (s : State) : Bool := s.power.mode != .ship || s.power.boot == .released

/-- KEY_PRESS (R513): a press is confirmed; in SHIP it only wakes (R514). -/
def execKeyPress (k : Fin 6) (s : State) : Step :=
  if (keyAt s k).pressed || !keysWatched s then .next s
  else
    let t := modKey s k (fun x => { x with
      pressed := true, long := false, bootHeld := false, presses := bump 0xFFFF x.presses, since := s.bsn, cyc := s.cycle })
    if keyEn s k then .next (raise t 116 (k.val + 8)) else .next t

/-- KEY_RELEASE (R513, R514). -/
def execKeyRelease (k : Fin 6) (s : State) : Step :=
  let x := keyAt s k
  if !x.pressed || !keysWatched s then .next s
  else
    let t := modKey s k (fun x => { x with pressed := false, long := false, bootHeld := false })
    if keyEn s k then .next (raise t 116 (k.val + b2n x.bootHeld * 16)) else .next t

/-- The time of a long press has passed (R513). That of a key which the boot found pressed counts from S (R514), which lies before
the BSN counts: at most 5 ms, but for the hold after a thermal reset (R485). -/
def keyLongOver (s : State) (k : Nat) : Bool :=
  let x := keyAt s k
  if x.bootHeld then s.record.last == 5 || usPassed s (keyLongUs s k - 5000) x.since x.cyc
  else usPassed s (keyLongUs s k) x.since x.cyc

/-- KEY_LONG (R513): once per press, unless LONG is 0. -/
def execKeyLong (k : Fin 6) (s : State) : Step :=
  let x := keyAt s k
  if x.pressed && !x.long && keyEn s k && keyLongUs s k != 0 && keyLongOver s k && keysWatched s then
    .next (raise (modKey s k (fun x => { x with long := true })) 117 k.val)
  else .next s

/-! ## Opcodes -/

/-- State code of an electrode (R508). -/
def elCode : TouchState → Nat
  | .off => 0 | .calibrating => 1 | .idle => 2 | .touched => 3 | .fault => 4

/-- One electrode record (R517). -/
def elRecord (e : Electrode) : List Byte :=
  u8 (elCode e.state) ++ zeros 1 ++ u16 e.raw ++ u16 (e.base / 256) ++ i16 ((e.raw : Int) - (e.base / 256 : Nat))

/-- TOUCH_STATUS (R517). -/
def doTouchStatus : Request → State → State :=
  runOp 0xA0 (lenIs 0) (fun s _ =>
    let k := s.touch.slider
    .done s (u8 (b2n s.touch.scanning + b2n k.touched * 2) ++ u8 (if k.touched then k.pos else 0) ++ zeros 6 ++
      s.touch.els.flatMap elRecord))

/-- TOUCH_STATUS (R517). -/
def execTouchStatus (q : Request) (s : State) : Step := .next (doTouchStatus q s)

/-- TOUCH_RECAL (R518). -/
def doTouchRecal : Request → State → State :=
  runOp 0xA1 (lenIs 4) (fun s q =>
    let m := pay16 q 0
    let named := (List.range 12).filter (bit m)
    if m = 0 ∨ 0xFFF < m then .refuse .range []
    else if !s.touch.scanning || !named.all (tchEn s) then .refuse .state []
    else .pend (named.foldl (fun t n => modEl t n (fun e => { e with recal := true, late := elLate s e })) s)
      (.touchRecal m) none)

/-- TOUCH_RECAL (R518). -/
def execTouchRecal (q : Request) (s : State) : Step := .next (doTouchRecal q s)

/-- One key record (R519). -/
def keyRecord (s : State) (k : Nat) : List Byte :=
  let x := keyAt s k
  u8 (if x.pressed then (if x.long then 2 else 1) else 0) ++ u8 (b2n x.bootHeld + b2n (keyEn s k) * 2) ++ u16 x.presses ++
    u32 (if x.pressed then cyclesSince s x.since x.cyc / (4 * Config.blockCycles) else 0)

/-- KEY_STATUS (R519). -/
def doKeyStatus : Request → State → State :=
  runOp 0xA2 (lenIs 0) (fun s _ => .done s ((List.range 6).flatMap (keyRecord s)))

/-- KEY_STATUS (R519). -/
def execKeyStatus (q : Request) (s : State) : Step := .next (doKeyStatus q s)

end Sys2Proof.Machine
end

