-- ==== Sys2Proof/Machine/Health.lean ====
section
/-!
DEFINITION. Fault detection, replay and repair (ch. 05): reports and the fault table, strikes, port resets, replays, the
retirement of engines, banks, decimators and fingers, self-tests, the repair log, and the opcodes 0x80 to 0x87, 0xF0 and
0xF1.
-/

namespace Sys2Proof.Machine

open Sys2Proof

/-! ## Names (R158, R192) -/

/-- Unit codes. -/
def unitCode : UnitKind → Nat
  | .oe => 1 | .me => 2 | .bank => 3 | .dec => 4 | .finger => 5 | .drover => 6

/-- Units of a kind (R180, R187). -/
def unitCount : UnitKind → Nat
  | .oe => 56 | .me => 16 | .bank => 18 | .dec => 24 | .finger => 16 | .drover => 1

/-- The unit kind of a code. -/
def unitOf : Nat → Option UnitKind
  | 1 => some .oe | 2 => some .me | 3 => some .bank | 4 => some .dec | 5 => some .finger | 6 => some .drover | _ => none

/-- Class codes. -/
def faultCode : FaultClass → Nat
  | .residue => 1 | .unitCompare => 2 | .lbufUe => 3 | .watchdog => 4 | .moveCheck => 5 | .portParity => 6 | .bankWait => 7
  | .bankUe => 8 | .tag => 9 | .descriptor => 10 | .decResidue => 11 | .finger => 12 | .selfTest => 13

/-- The class of a code. -/
def faultOf (n : Nat) : Option FaultClass :=
  [FaultClass.residue, .unitCompare, .lbufUe, .watchdog, .moveCheck, .portParity, .bankWait, .bankUe, .tag, .descriptor,
    .decResidue, .finger, .selfTest][n - 1]?

/-- The kinds of suspect of a class. -/
def suspectKinds : FaultClass → List UnitKind
  | .residue | .unitCompare | .lbufUe | .watchdog => [.oe]
  | .moveCheck => [.me]
  | .portParity | .bankWait | .bankUe | .descriptor => [.bank]
  | .tag => [.oe, .me, .bank]
  | .decResidue => [.dec]
  | .finger => [.finger]
  | .selfTest => [.oe, .dec]

/-- A unit exists. -/
def unitOk (u : UnitRef) : Bool := decide (u.index < unitCount u.kind) && decide (u.finger < 8)

/-- The action of a class is a replay. -/
def replays : FaultClass → Bool
  | .residue | .unitCompare | .lbufUe | .watchdog | .moveCheck | .portParity | .bankWait => true
  | _ => false

/-- Change a decimator. -/
def modDec (s : State) (d : Nat) (f : Decimator → Decimator) : State := modHealth s (fun h => { h with decs := modAt h.decs d f })
def decAt (s : State) (d : Nat) : Decimator := s.health.decs.getD d {}

/-! ## The repair log (R189, R190) -/

/-- A repair-log entry. -/
def logWord (kind : Nat) (spareFail : Bool) (unit finger cause : Nat) : Nat :=
  let v := kind * 2 ^ 29 + b2n spareFail * 2 ^ 28 + unit * 2 ^ 22 + finger * 2 ^ 19 + cause % 16 * 2 ^ 15
  v + logCheck v

/-- No entry is left for one more repair. -/
def logIsFull (s : State) : Bool := decide (32 ≤ logUsed s.otp + s.health.logQueue.length)

/-- A repair takes effect: its event, and its entry where one is wanted and there is room (R190, R191). -/
def logRepair (s : State) (kind : Nat) (spareFail : Bool) (unit finger cause promoted : Nat) (want : Bool) : State :=
  let queued := want && !logIsFull s && decide (s.health.logQueue.length < 8)
  let t := if queued then
      modHealth s (fun h => { h with logQueue := h.logQueue ++ [BitVec.ofNat 32 (logWord kind spareFail unit finger cause)] })
    else s
  let t := raise t 21 (kind + b2n spareFail * 8 + unit * 16 + finger * 1024 + promoted * 65536 + b2n queued * 4194304)
  if want && logIsFull s && !s.health.logFull then raise (modHealth t (fun h => { h with logFull := true })) 22 0 else t

/-- HEALTH_CFG flags: automatic engine, bank and decimator repair, write the log. -/
def autoFlag (s : State) (i : Nat) : Bool := bit s.health.cfg.flags i

/-- REPAIR_LOG_WRITE (R190, R493): the oldest queued entry is programmed; after a failed verification it stays queued for
the next place. -/
def execRepairLogWrite (verified : Bool) (s : State) : Step :=
  match s.health.logQueue, (List.range 32).find? (fun i => plannedWord s.otp (256 + i) == 0) with
  | w :: ws, some i =>
    if !modeHigh s then .next s
    else
      let t := programmed s (256 + i, w) verified
      if verified then .next (modHealth t (fun h => { h with logQueue := ws }))
      else .next { t with otp := { t.otp with fails := s.otp.fails } }
  | _, _ => .next s

/-- Whether a repair that takes effect now is logged: a forced one by its own LOG flag, any other by HEALTH_CFG as it stands
(R190, R198, R199). -/
def wantLog (s : State) (forced : Option Nat) (log : Bool) : Bool := if forced.isSome then log else autoFlag s 3

/-! ## Completion of forced repairs and injections -/

/-- The job of a forced repair. -/
def isRepair (id : Nat) : Job → Bool
  | .repair i => i == id
  | _ => false

/-- A forced repair has taken effect at the present boundary (R199). -/
def forcedDone (s : State) (f : Option Nat) : State :=
  match f with
  | some id => completeJob s (isRepair id) .ok (bsn8 s.bsn)
  | none => s

/-- A forced repair can no longer be done. -/
def forcedLost (s : State) (f : Option Nat) : State :=
  match f with
  | some id => completeJob s (isRepair id) .state []
  | none => s

/-! ## Bank triggers and migrations (R183, R184) -/

/-- The lowest-numbered spare bank not marked failed. -/
def spareBank (s : State) : Option Nat :=
  (List.range 18).find? (fun b => !(bankAt s b).inSvc && !(bankAt s b).failed)

/-- EV042 codes. -/
def triggerCode : BankTrigger → Nat
  | .ue => 1 | .ce2 => 2 | .pass => 3 | .strikes => 4

/-- A copy is abandoned (R184, R199). -/
def dropMigration (s : State) : State :=
  match s.health.migration with
  | none => s
  | some m =>
    let t := modHealth s (fun h => { h with migration := none })
    if m.copied then t else raise t 41 (m.src + m.dst * 256 + 65536)

/-- A bank meets a trigger (R183): a bank in service is migrated; a spare is marked failed, and a copy to it starts again
with the other spare. -/
def bankTrigger (s : State) (b : Nat) (trig : BankTrigger) (cause : Nat) : State :=
  let k := bankAt s b
  let ev := b + triggerCode trig * 256
  if k.inSvc then
    let t := raise s 42 (ev + b2n (spareBank s).isNone * 65536)
    let going := s.health.migQueue.any (fun m => m.src == b) || (s.health.migration.map (fun m => m.src)) == some b
    if going || (spareBank s).isNone || !autoFlag s 1 then t
    else modHealth t (fun h => { h with migQueue := h.migQueue ++ [⟨b, cause, none, false⟩] })
  else if k.failed then s
  else
    let t := modBank s b (fun k => { k with failed := true })
    let t := raise t 42 (ev + b2n (spareBank t).isNone * 65536)
    let t := logRepair t 2 true b 0 cause 0x3F (autoFlag s 3)
    match s.health.migration with
    | some m =>
      if m.dst = b then
        modHealth (dropMigration t) (fun h => { h with migQueue := ⟨m.src, m.cause, m.forced, m.log⟩ :: h.migQueue })
      else t
    | none => t

/-- An incident of a bank is open (R171). -/
def incidentOpen (s : State) (b : Nat) : Bool :=
  s.health.incidents.any (fun x => x.1.kind == .bank && x.1.index == b && decide (bsnSince s.bsn x.2 ≤ 64))

/-- A bank meets a trigger; within one open incident only the first does anything (R170). -/
def triggerOnce (s : State) (b : Nat) (trig : BankTrigger) (cause : Nat) : State :=
  if incidentOpen s b && (bankAt s b).fired then s
  else bankTrigger (modBank s b (fun k => { k with fired := incidentOpen s b })) b trig cause

/-- Migrations that may start: while the flag in force is 0, only forced ones (R198). -/
def mayMigrate (s : State) : List MigrationDue := s.health.migQueue.filter (fun d => d.forced.isSome || autoFlag s 1)

/-- MIGRATION_BEGIN (R184): at a boundary, the oldest waiting migration starts its copy; those that R198 leaves to REPAIR_FORCE are
dropped. -/
def execMigrationBegin (s : State) : Step :=
  match mayMigrate s with
  | [] => if s.cycle ≠ 0 ∨ !ckSys s then .next s else .next (modHealth s (fun h => { h with migQueue := [] }))
  | d :: rest =>
    if s.cycle ≠ 0 ∨ s.health.migration.isSome = true ∨ !ckSys s then .next s
    else if !(bankAt s d.src).inSvc then .next (forcedLost (modHealth s (fun h => { h with migQueue := rest })) d.forced)
    else match spareBank s with
      | none => .next (forcedLost (modHealth s (fun h => { h with migQueue := rest })) d.forced)
      | some x =>
        let t := modHealth s (fun h => { h with
          migQueue := rest, migration := some ⟨d.src, x, s.bsn, 0, false, d.cause, d.forced, d.log⟩ })
        .next (raise t 40 (d.src + x * 256))

/-- The time of a copy: 491,520 CK_MEM cycles, 983,040 fabric cycles. -/
def copyCycles : Nat := 983040

/-- CK_MEM stops at a boundary: a copy in progress stands still. -/
def memStop (s : State) : State :=
  modHealth s (fun h => { h with
    migration := h.migration.map (fun m => { m with before := m.before + bsnSince s.bsn m.begun, begun := s.bsn }),
    banks := h.banks.map (fun k => { k with scrubAt := none }) })

/-- CK_MEM starts at a boundary. -/
def memStart (s : State) : State :=
  modHealth s (fun h => { h with migration := h.migration.map (fun m => { m with begun := s.bsn }) })

/-- MIGRATION_COPY_END (R184). -/
def execMigrationCopyEnd (s : State) : Step :=
  match s.health.migration with
  | some m =>
    if ckSys s && !m.copied && decide (copyCycles ≤ m.before * Config.blockCycles + cyclesSince s m.begun 0) then
      -- poisoned words are copied in poison form
      let t := modBank s m.dst (fun k => { k with poison := (bankAt s m.src).poison })
      .next (raise (modHealth t (fun h => { h with migration := some { m with copied := true } })) 41 (m.src + m.dst * 256))
    else .next s
  | none => .next s

/-- MIGRATION_SWITCH (R184): the spare takes over, the source leaves service. -/
def execMigrationSwitch (s : State) : Step :=
  match s.health.migration with
  | some m =>
    if s.cycle ≠ 0 ∨ m.copied = false ∨ !ckSys s then .next s
    else
      let t := modBank (modBank s m.dst (fun k => { k with
          inSvc := true, role := (bankAt s m.src).role, poison := (bankAt s m.src).poison })) m.src
        (fun k => { k with inSvc := false, failed := true, role := none })
      let t := modHealth t (fun h => { h with migration := none })
      .next (forcedDone (logRepair t 2 false m.src 0 m.cause m.dst (wantLog s m.forced m.log)) m.forced)
  | none => .next s

/-! ## Reads of bank words (R164, R166) -/

/-- The CE2 outcomes of a bank inside the strike window. -/
def liveCe2 (s : State) (b : Nat) : List Bsn :=
  (bankAt s b).ce2At.filter (fun x => decide (bsnSince s.bsn x < s.health.cfg.window * 14400000))

/-- A CE2 outcome in bank `b` (R164, R183): the trigger comes when the outcomes in the window reach the limit, once until
they have fallen below it. The cause code of a repair that no fault class caused is a free value. -/
def ce2Outcome (s : State) (b : Nat) : State :=
  let live := liveCe2 s b ++ [s.bsn]
  let again := (bankAt s b).ce2Done && decide (s.health.cfg.ce2Limit < live.length)
  let hit := decide (s.health.cfg.ce2Limit ≤ live.length)
  let t := modBank s b (fun k => { k with ce2 := bump 0xFFFFFFFF k.ce2, ce2At := live, ce2Done := hit })
  if hit && !again then triggerOnce (nextFree t) b .ce2 (1 + Config.freeNat s.free % 13) else t

/-- An uncorrectable word of bank `b` is read (R164). -/
def ueOutcome (s : State) (b : Nat) : State := modBank s b (fun k => { k with ue := bump 0xFFFF k.ue })

/-- What a read by a task with one or two errors does (R164): it is counted, and the corrected word is written back. A word that
is uncorrectable is FAULT_DETECT's. -/
def taskRead (s : State) (x : Nat × Nat × List Nat) : State :=
  let l := toggled (flipsOf s x.1 x.2.1) x.2.2
  if poisoned s x.1 x.2.1 then s
  else if l.length = 1 then modBank (setFlips s x.1 x.2.1 []) x.1 (fun k => { k with ce1 := bump 0xFFFFFFFF k.ce1 })
  else if l.length = 2 then ce2Outcome (setFlips s x.1 x.2.1 []) x.1
  else setFlips s x.1 x.2.1 l

/-- A corrected error of an engine's local buffer (R160). -/
def localRead (d : Drover) (x : Nat × BitVec 72) : Drover :=
  if localErrors x.2 = 1 then modEngine d false x.1 (fun e => { e with lbufCe := e.lbufCe + 1 }) else d

/-- R160, R164: the corrected errors that the reads of a block's tasks met are counted at the boundary that ends it, and then its
other upsets are noted (DESIGN CHOICE, log entry 67: their instants are not told). -/
def taskErrors (s : State) (i : BlockInput) : State :=
  let t := (i.taskErrors.filter (fun x => decide (x.1 < 18))).foldl taskRead s
  i.upsets.foldl upset { t with drover := i.lbufFixed.foldl localRead t.drover }

/-- Fabric cycles between two scrub reads of a bank: 2^s CK_MEM cycles of two (R166). -/
def scrubCycles (s : State) : Nat := 2 * 2 ^ s.health.cfg.scrubShift

/-- The instant that lies `n` fabric cycles before the present one. -/
def instantBack (s : State) (n : Nat) : Bsn × Nat :=
  if n ≤ s.cycle then (s.bsn, s.cycle - n)
  else
    let k := (n - s.cycle + Config.blockCycles - 1) / Config.blockCycles
    (s.bsn - BitVec.ofNat 40 k, s.cycle + k * Config.blockCycles - n)

/-- When the read that is made now was due, if one is: every 2^s CK_MEM cycles, and later where the port was not free
(R166). -/
def scrubDue (s : State) (b : Nat) : Option (Bsn × Nat) :=
  match (bankAt s b).scrubAt with
  | none => some (s.bsn, s.cycle)
  | some x =>
    let e := cyclesSince s x.1 x.2
    if e < scrubCycles s then none
    else if e < 2 * scrubCycles s then some (instantBack s (e - scrubCycles s))
    else some (s.bsn, s.cycle)

/-- The scrubber takes the next word of a pass (R166, R197): CE1 outcomes of the pass are counted. -/
def scrubNext (s : State) (b errors : Nat) : State :=
  let k := bankAt s b
  let cur := if errors = 1 then k.curCe + 1 else k.curCe
  let passEnd := decide (49152 ≤ k.next + 1)
  let hit := errors = 1 ∧ s.health.cfg.passLimit ≤ cur ∧ k.passDone = false
  let t := modBank s b (fun k => { k with
    ce1 := if errors = 1 then bump 0xFFFFFFFF k.ce1 else k.ce1
    curCe := if passEnd then 0 else cur
    passCe := if passEnd then min 0xFFFF cur else k.passCe
    passDone := !passEnd && (k.passDone || decide hit)
    next := if passEnd then 0 else k.next + 1 })
  if hit then triggerOnce (nextFree t) b .pass (1 + Config.freeNat s.free % 13) else t

/-- The armed injection of class `cls` that an access to bank `b` spends (R200). -/
def bankInjection (s : State) (cls : FaultClass) (b : Nat) : Option Injection :=
  s.health.inject.find? (fun x => x.cls == cls && x.unit.kind == .bank && x.unit.index == b)

/-- The job of an injection. -/
def isInject (id : Nat) : Job → Bool
  | .inject i => i == id
  | _ => false

/-- An injection is detected: FAULT_INJECT replies with the stamp (R200). -/
def injectSpent (s : State) (x : Injection) : State :=
  completeJob (modHealth s (fun h => { h with inject := h.inject.filter (fun y => y.id != x.id) })) (isInject x.id) .ok
    (bsn8 s.bsn ++ leBytes 4 s.cycle)

/-- A port reset of the bank runs: every access to it waits (R175). -/
def bankBusy (s : State) (b : Nat) : Bool := (bankAt s b).reset.any (fun x => decide (cyclesSince s x.1 x.2 < 128))

/-- An armed PORT_PARITY injection meets a scrub read: the transfer fails and is reported, and the word is read again later
(R200). -/
def scrubParity (s : State) (b : Nat) (x : Injection) : State :=
  sendReport (injectSpent s x) ⟨.portParity, ⟨.bank, b, 0⟩, ⟨.bank, b, 0⟩, none, .none, .none⟩ true none

/-- The outcome of a scrub read of word `w` with flipped cells `l` (R164): counted and corrected, or uncorrectable, reported and
rewritten in poison form. An armed BANK_UE injection makes the word uncorrectable (R200). -/
def scrubOutcome (s : State) (b w : Nat) (l : List Nat) : State :=
  let fails := wordFails s b w l
  let inj := if fails then none else bankInjection s .bankUe b
  if fails || inj.isSome then
    let t := scrubNext (poison s b w) b 0
    let u := match inj with
      | some x => injectSpent t x
      | none => t
    sendReport (ueOutcome u b) ⟨.bankUe, ⟨.bank, b, 0⟩, ⟨.bank, b, 0⟩, none, .none, .none⟩ inj.isSome none
  else
    let t := scrubNext (setFlips s b w (if l.length ≤ 2 then [] else l)) b l.length
    if l.length = 2 then ce2Outcome t b else t

/-- SCRUB_READ (R164, R166, R183): the next word of a bank, when a read is due; `flips` are the cells that have flipped since they
were last told. A read waits while the bank's port is being reset (R175). -/
def execScrubRead (bank : Fin 18) (flips : List Nat) (s : State) : Step :=
  let b := bank.val
  match if ckSys s && !bankBusy s b then scrubDue s b else none with
  | none => .next s
  | some due =>
    match bankInjection s .portParity b with
    | some x => .next (scrubParity s b x)
    | none =>
      let w := (bankAt s b).next
      let t := modBank s b (fun k => { k with scrubAt := some due })
      .next (scrubOutcome t b w (toggled (flipsOf t b w) flips))

/-! ## Detection (R158, R162, R173, R174) -/

/-- The engine's task goes to REPLAY_WAIT and the engine to STOP; the flag says whether it may replay (R174, R176). -/
def stopTask (s : State) (u : Option UnitRef) (replay : Bool) : State × Option Task :=
  match u.bind engineOf with
  | none => (s, none)
  | some (me, i) =>
    let e := engineAt s.drover me i
    match e.phase, e.run with
    | .busy, some r =>
      let t := countCycles (strayWrites s (activeImage s) (s.drover.block.getD 0#40) r.task (ranOut s e r.task) true) r e.since
      let d := modEngine t.drover me i (fun e => { e with phase := .stop, run := none, since := s.cycle })
      let r' := { r with tried := r.tried ++ [i] }
      ({ t with drover := { d with waiting := d.waiting ++ [(r', replay && decide (r.attempt < 2))] } }, some r.task)
    | _, _ => (s, none)

/-- The instance whose task the engine runs. -/
def runningInst (s : State) (u : Option UnitRef) : Option Nat :=
  (u.bind engineOf).bind (fun x => ((engineAt s.drover x.1 x.2).run).map (fun r => r.task.inst))

/-- Six samples of one LINE word of an instance read as 0 (R173): the device's placement decides which word, so channel
and word are free values. -/
def blankLine (s : State) (inst : Nat) : State :=
  let m := activeImage s
  let b := (opEntry m inst).lineBuf
  let h := lineOf s.graph.bufs b
  let c := Config.freeNat s.free % max 1 h.length
  let g := Config.freeNat (s.free + 1) % max 1 ((h.getD c []).length / 6)
  match s.graph.bufs[b]? with
  | some (.line hist ts p vs k) =>
    let hist' := modAt hist c (fun l => l.take (6 * g) ++ List.replicate (min 6 (l.length - 6 * g)) 0 ++ l.drop (6 * g + 6))
    nextFree (nextFree { s with graph := { s.graph with bufs := setBuf s.graph.bufs b (.line hist' ts p vs k) } })
  | _ => s

/-- What a BANK_UE or TAG fault does by the kind of word read (R173). -/
def wordFault (s : State) (u : Option UnitRef) (w : WordKind) : State × Option Task :=
  match w, runningInst s u with
  | .signal _, _ => stopTask s u false
  | .state, some i => stopTask { s with graph := { s.graph with reload := i :: s.graph.reload } } u false
  | .blob, some i =>
    let word := Config.freeNat s.free % max 1 ((opEntry (activeImage s) i).blobLen / 4)
    let k := (slotIn s.graph .active).getD 0
    let g := modSlot s.graph k (fun x => { x with muted := (i, word) :: x.muted })
    stopTask (nextFree { s with graph := g }) u false
  | .line, some i => (blankLine s i, none)
  | _, _ => (s, none)

/-- The instant at which the present task of an engine was granted lies at or after an injection's acceptance (R200). -/
def grantedAfter (s : State) (me : Bool) (i : Nat) (x : Injection) : Bool :=
  (engineAt s.drover me i).phase == .busy && (x.bsn != s.bsn || decide (x.cycle ≤ (engineAt s.drover me i).since))

/-- The task that an engine holds accesses bank `b`, which the device's placement decides (R55, R200). -/
def usesBank (s : State) (me : Bool) (i b : Nat) : Bool :=
  ((engineAt s.drover me i).run).any (fun r => Config.taskBank r.task.inst r.task.part b)

/-- The armed injection that a detection without a fault of its own spends (R200): in an engine's own check and in a task's access
to a bank, only that of a task granted after acceptance. -/
def injectionFor (s : State) (r : FaultReport) : Option Injection :=
  s.health.inject.find? (fun x => x.cls == r.cls && x.unit.kind == r.suspect.kind && x.unit.index == r.suspect.index &&
    match (r.engine.bind engineOf).orElse (fun _ => engineOf r.suspect) with
    | some (me, i) => grantedAfter s me i x
    | none => true)

/-- The engine that a TAG fault of a SIGNAL word names: the one that retired the word's producer (R158). -/
def producerUnit (s : State) (b : Nat) : Option UnitRef :=
  let m := activeImage s
  (s.drover.byUnit.find? (fun x => x.1 == lastTask m (bufEntry m b).producer)).map (fun x => x.2)

/-- The suspect of a report: for the TAG fault of a SIGNAL word the engine that retired its producer, else the unit that
the detector names (R158). -/
def trueSuspect (s : State) (r : FaultReport) : FaultReport :=
  match r.cls, r.word with
  | .tag, .signal b => { r with suspect := (producerUnit s b).getD r.suspect }
  | _, _ => r

/-- The check of R159 on what entered an accumulator. -/
def residueFails (l : List (Int × Int × Int)) : Bool :=
  (l.foldl (fun t x => t.mac x.1 x.2.1 x.2.2) ⟨0, 0, false⟩ : Tracked).store.bad

/-- A word of a transfer whose parity bit is not the parity of its 256 bits. -/
def parityFails (x : BitVec 256 × Bool) : Bool := (parityOf 256 x.1.toNat == 1) != x.2

/-- The fault that a task's read of a bank word meets (R164, R165): BANK_UE alone where the code fails, else TAG where the tag is
not the one wanted. -/
def wordClass (s : State) (word : WordKind) (engine : Option UnitRef) (bank addr : Nat) (flips : List Nat) (index tag : Nat) :
    Option FaultClass :=
  let inst := runningInst s engine
  let e := opEntry (activeImage s) (inst.getD 0)
  let buf : Option Nat := match word with
    | .signal b => some b
    | .state => inst.map (fun _ => e.stateBuf)
    | .line => inst.map (fun _ => e.lineBuf)
    | _ => none
  if wordFails s bank addr (toggled (flipsOf s bank addr) flips) then some .bankUe
  else if (buf.bind (fun b => wantedTag s (s.drover.block.getD 0#40) b index)).any (fun want => want != tag) then some .tag
  else none

/-- The class of the fault that a report's detector finds by its check (R158-R161, R163-R165, R181); none where the check
passes. A word that fails its code and its tag check is BANK_UE only (R165). -/
def foundClass (s : State) (r : FaultReport) : Option FaultClass :=
  let holds (b : Bool) : Option FaultClass := if b then some r.cls else none
  match r.cls, r.found with
  | .residue, .macs l | .decResidue, .macs l => holds (residueFails l)
  | .unitCompare, .copies a b | .selfTest, .copies a b => holds (a != b)
  | .lbufUe, .localWord _ v => holds (localErrors v == 2)
  | .moveCheck, .transfer ws n => holds (ws.any parityFails || ws.length != n)
  | .portParity, .transfer ws _ => holds (ws.any parityFails)
  | .bankWait, .waited n => holds (decide (1024 < n))
  | .bankUe, .bankWord bank addr flips index tag | .tag, .bankWord bank addr flips index tag =>
    if bank < 18 then wordClass s r.word r.engine bank addr flips index tag else none
  | .descriptor, .descriptor bytes => holds (!descriptorOk bytes)
  | .watchdog, _ => match r.suspect.kind, engineAt s.drover false r.suspect.index with
    | .oe, e => holds (e.phase == .busy && e.since + 17 + 16384 + e.waits == s.cycle)
    | _, _ => none
  | _, _ => none

/-- The bank of a report whose word is uncorrectable (R158). -/
def ueBank (r : FaultReport) : Nat :=
  match r.found with
  | .bankWord bank _ _ _ _ => bank
  | _ => r.suspect.index

/-- A task's read leaves the word it read in poison form where it is uncorrectable, else with its flipped cells corrected or noted
(R164). -/
def readLeaves (s : State) (r : FaultReport) (cls : FaultClass) : State :=
  match r.found with
  | .bankWord bank addr flips _ _ =>
    if cls = .bankUe then poison s bank addr
    else if cls = .tag then
      let l := toggled (flipsOf s bank addr) flips
      setFlips s bank addr (if l.length ≤ 2 then [] else l)
    else s
  | _ => s

/-- A fault is found (R158, R162): the Drover acts on the task, the unit's own action follows, and the report goes to the fault
table. -/
def faultFound (s : State) (r : FaultReport) (injected : Bool) : State :=
  let s := readLeaves s r r.cls
  let s := if r.cls = .bankUe then ueOutcome s r.suspect.index else s
  let x := if replays r.cls then stopTask s r.engine true
    else if r.cls = .bankUe ∨ r.cls = .tag then wordFault s r.engine r.word
    else (s, none)
  let s := if r.cls = .decResidue then
      modHealth x.1 (fun h => { h with holds := h.holds ++ [(r.suspect.index, frameOf s)] }) else x.1
  let s := match r.cls, x.2 with
    | .portParity, some t | .bankWait, some t =>
      { s with drover := { s.drover with bankHold := s.drover.bankHold ++ [(t, r.suspect.index)] } }
    | _, _ => s
  sendReport s r injected x.2

/-- The report of class `cls` that a detector makes: for an uncorrectable word its bank is the suspect, for the TAG fault of a
SIGNAL word the engine that retired its producer (R158, R165). -/
def reportOf (s : State) (r : FaultReport) (cls : FaultClass) : FaultReport :=
  if cls = .bankUe ∧ r.cls ≠ .bankUe then { r with cls := .bankUe, suspect := ⟨.bank, ueBank r, 0⟩ }
  else trueSuspect s { r with cls := cls }

/-- An engine's own check is one of the task it runs. -/
def ownEngine (r : FaultReport) : FaultReport :=
  match r.cls with
  | .residue | .unitCompare | .lbufUe | .watchdog | .moveCheck => { r with engine := some r.suspect }
  | _ => r

/-- A detector's check (R158, R162, R200): it fails by what the detector has before it, or by an armed injection. -/
def detect (s : State) (r : FaultReport) : State :=
  let r := trueSuspect s (ownEngine r)
  if !((suspectKinds r.cls).contains r.suspect.kind && unitOk r.suspect && unitOk r.reporter) then s
  else match foundClass s r, injectionFor s r with
    | some c, _ => faultFound s (reportOf s r c) false
    | none, some x => faultFound (injectSpent s x) r true
    | none, none => s

/-- The access or check of the present task of an engine that an armed injection makes fail (R200): the engine's own, or the task's
reads of a bank, which the device's placement decides, and of the SIGNAL words of producers that an engine retired. -/
def taskMeets (s : State) (me : Bool) (i : Nat) (x : Injection) : Option FaultReport :=
  let u : UnitRef := ⟨if me then .me else .oe, i, 0⟩
  let b := x.unit.index
  let m := activeImage s
  let inst := (runningInst s (some u)).getD 0
  let e := opEntry m inst
  let words : List WordKind := (if e.stateBuf = 0xFFFF then [] else [.state]) ++ (if e.lineBuf = 0xFFFF then [] else [.line])
  if !grantedAfter s me i x then none
  else match x.cls with
    | .moveCheck => if me && x.unit.index == i then some ⟨x.cls, x.unit, x.unit, some u, .none, .none⟩ else none
    | .residue | .unitCompare | .lbufUe =>
      if !me && x.unit.index == i then some ⟨x.cls, x.unit, x.unit, some u, .none, .none⟩ else none
    | .portParity | .bankWait =>
      if usesBank s me i b then some ⟨x.cls, x.unit, x.unit, some u, .none, .none⟩ else none
    | .bankUe =>
      if usesBank s me i b then
        let ws := words ++ [.blob] ++ (opIns m e).map .signal
        some ⟨x.cls, x.unit, x.unit, some u, if me then .none else ws.getD (Config.freeNat s.free % ws.length) .blob, .none⟩
      else none
    | .tag =>
      if x.unit.kind = .bank then
        (if !me && usesBank s me i b && !words.isEmpty then
          some ⟨x.cls, x.unit, x.unit, some u, words.getD (Config.freeNat s.free % words.length) .state, .none⟩
        else none)
      else ((opIns m e).find? (fun c => producerUnit s c == some x.unit)).map (fun c =>
        ⟨x.cls, x.unit, u, some u, .signal c, .none⟩)
    | _ => none

/-- The first armed injection that the present task of an engine meets before it can retire (R200). -/
def taskInjection (s : State) (me : Bool) (i : Nat) : Option (Injection × FaultReport) :=
  s.health.inject.findSome? (fun x => (taskMeets s me i x).map (fun r => (x, r)))

/-- The task retires where the engine still runs it. -/
def retireRunning (s : State) (k : Bsn) (me : Bool) (i : Nat) (r : Ready) (since : Nat) : State :=
  if (engineAt s.drover me i).phase = .busy then retireTask s k me i r since else s

/-- TASK_RETIRE (R86, R135, R144, R147): in cycle g + 24 + cost + bank waits, g being the grant. A task that an armed injection was
for meets the fault here at the latest (R162, R200; log entry 35) and retires only where the fault lets it go on (R173). -/
def execTaskRetire (u : UnitRef) (s : State) : Step :=
  match engineOf u, s.drover.block with
  | some (me, i), some k =>
    let e := engineAt s.drover me i
    match e.phase, e.run with
    | .busy, some r =>
      if s.cycle = e.since + 24 + taskCost s (activeImage s) r.task + e.waits then
        match taskInjection s me i with
        | some (x, f) => .next (retireRunning (faultFound (injectSpent (nextFree s) x) f true) k me i r e.since)
        | none => .next (retireTask s k me i r e.since)
      else .next s
    | _, _ => .next s
  | _, _ => .next s

/-- R200, WATCHDOG: an injection stands in for the count in the first RUN cycle of the engine's next task. -/
def injectWatchdog (s : State) : State :=
  (s.health.inject.filter (fun x => x.cls == .watchdog)).foldl (fun t x =>
    let e := engineAt t.drover false x.unit.index
    if e.since + 17 = t.cycle ∧ grantedAfter t false x.unit.index x = true then
      faultFound (injectSpent t x) ⟨.watchdog, x.unit, x.unit, some x.unit, .none, .none⟩ true
    else t) s

/-- R200, DEC_RESIDUE: the next output sample of the decimator, at the start of a frame. -/
def injectFrame (s : State) : State :=
  if !ckSys s then s
  else (s.health.inject.filter (fun x => x.cls == .decResidue && !(x.bsn == s.bsn && x.cycle == s.cycle))).foldl
    (fun t x => faultFound (injectSpent t x) ⟨.decResidue, x.unit, x.unit, none, .none, .none⟩ true) s

/-- One descriptor of a refill (R139, R158, R200): a bad one, or one that an armed injection of its bank was for, is reported
against its bank, which only the device's placement tells. -/
def refillOne (bad : List Nat) (s : State) (i : Nat) : State :=
  let b := Config.freeNat s.free % 18
  let t := nextFree s
  let r : FaultReport := ⟨.descriptor, ⟨.bank, b, 0⟩, ⟨.drover, 0, 0⟩, none, .paddock, .none⟩
  match bankInjection s .descriptor b with
  | some x => sendReport (injectSpent t x) r true none
  | none => if bad.contains i then sendReport t r false none else t

/-- PEN_REFILL (R139): up to 32 descriptors move from the ring's head; each bad one is rebuilt in its place. -/
def execPenRefill (p : Fin 32) (bad : List Nat) (s : State) : Step :=
  let list := s.drover.pens.getD p []
  let ring := s.drover.rings.getD p []
  if ring.isEmpty || 96 < list.length then .next s
  else
    let n := min 32 ring.length
    let moved := (List.zip (List.range n) (ring.take 32)).map (fun x => refilled s (bad.contains x.1) x.2)
    let d := { s.drover with pens := modAt s.drover.pens p (fun l => l ++ moved),
                             rings := modAt s.drover.rings p (fun l => l.drop 32) }
    .next ((List.range n).foldl (refillOne bad) { s with drover := d })

/-! ## Self-tests (R181, R186, R419) -/

/-- A unit of a self-test is a spare that is not marked failed. -/
def isSpare (s : State) (u : UnitRef) : Bool :=
  match u.kind with
  | .oe => (engineAt s.drover false u.index).spare
  | .dec => !(decAt s u.index).inSvc && !(decAt s u.index).failed
  | _ => false

/-- A spare fails its self-test: SELF_TEST is reported and it is marked failed; a replacement that it was to take starts again with
another (R181, R186, R190). -/
def spareFails (s : State) (u : UnitRef) : State :=
  let t := sendReport s ⟨.selfTest, u, u, none, .none, .none⟩ false none
  let t := if u.kind = .oe then
      modHealth { t with drover := modEngine t.drover false u.index (fun e => { e with spare := false }) } (fun h => { h with
        oePassed := h.oePassed.filter (fun k => k != u.index), oeFailed := u.index :: h.oeFailed })
    else modHealth (modDec t u.index (fun d => { d with failed := true, passed := false })) (fun h => { h with
      swaps := h.swaps.map (fun x => if x.new = some u.index then { x with new := none, begun := none } else x) })
  logRepair t (if u.kind = .oe then 1 else 3) true u.index 0 13 0x3F (autoFlag s 3)

/-- A finger fails (R187, R188): it waits for the next carrier period; the third of a half-bridge latches its channel. -/
def fingerFailed (s : State) (hb f : Nat) : State :=
  let out := s.health.fingers.getD hb []
  let due := s.health.fingerDue.filter (fun d => d.hb == hb)
  let s := sendReport s ⟨.finger, ⟨.finger, hb, f⟩, ⟨.finger, 0, 0⟩, none, .none, .none⟩ false none
  if out.contains f || due.any (fun d => d.finger == f) then s
  else
    let s := modHealth s (fun h => { h with fingerDue := h.fingerDue ++ [⟨hb, f, none, false⟩] })
    if out.length + due.length = 2 then fingerLatch s hb else s

/-- The domain of a detector's unit is powered and clocked (R17, R472): the fabric's units and the banks, a decimator, the
bridge die with its link. -/
def unitPowered (s : State) (k : UnitKind) : Bool :=
  match k with
  | .oe | .me | .drover => coreOn s && s.power.fabricOn
  | .bank => coreOn s && ckSys s && s.power.sramOn
  | .dec => coreOn s && ckSys s
  | .finger => bridgeOn s && ckSys s

/-- One carrier cycle (R187): the half-bridge's current exceeds 1.0 A, and the finger's share lies outside 0.5 to 1.5 times the mean
of the fingers in service. -/
def shareOff (out : List Nat) (f : Nat) (cycle : List Nat) : Bool :=
  let on := (List.range 8).filter (fun i => !out.contains i)
  let sum := on.foldl (fun a i => a + cycle.getD i 0) 0
  let x := 2 * on.length * cycle.getD f 0
  decide (1000 < sum) && (decide (x < sum) || decide (3 * sum < x))

/-- The bridge die's checks of a finger in service fail (R187): one gate-drive check, or 64 successive carrier cycles. -/
def fingerChecks (s : State) (hb f : Nat) (gate : Bool) (cycles : List (List Nat)) : Bool :=
  let out := s.health.fingers.getD hb []
  !out.contains f && (gate || (cycles.length == 64 && cycles.all (shareOff out f)))

/-- A report on a spare's self-test (R158, R181): the spare is marked failed where its signature is not the fixed one. -/
def testReport (s : State) (r : FaultReport) : State :=
  if isSpare s r.suspect && (foundClass s r).isSome then spareFails s r.suspect else s

/-- FAULT_DETECT (R158). A finger's fault is that of FINGER_FAIL, a self-test's that of SELF_TEST_END; a unit without power detects
nothing (R17). -/
def execFaultDetect (r : FaultReport) (s : State) : Step :=
  if !unitPowered s r.suspect.kind then .next s
  else if r.cls = .finger then
    match r.found with
    | .shares gate cycles =>
      if r.suspect.kind = .finger ∧ unitOk r.suspect = true ∧
          fingerChecks s r.suspect.index r.suspect.finger gate cycles = true then
        .next (fingerFailed s r.suspect.index r.suspect.finger)
      else .next s
    | _ => .next s
  else if r.cls = .selfTest then .next (testReport s r)
  else .next (detect s r)

/-- FINGER_FAIL (R187). -/
def execFingerFail (hb : Fin 16) (report : FingerReport) (s : State) : Step :=
  if unitPowered s .finger && fingerChecks s hb report.finger report.gate report.cycles then
    .next (fingerFailed s hb report.finger)
  else .next s

/-- WATCHDOG_EXPIRE (R161, R200): the count of the RUN phase, which starts 17 cycles after the grant and leaves out the bank-port
waits, reaches 16,385, or an injection stands in for it in the first RUN cycle. -/
def execWatchdogExpire (oe : Fin 56) (s : State) : Step :=
  let u : UnitRef := ⟨.oe, oe, 0⟩
  let e := engineAt s.drover false oe
  let r : FaultReport := ⟨.watchdog, u, u, some u, .none, .none⟩
  if (foundClass s r).isSome then .next (faultFound s r false)
  else if e.phase = .busy ∧ e.since + 17 = s.cycle then .next (detect s r)
  else .next s

/-- BANK_WAIT_TIMEOUT (R158): a wait of the engine's task on the bank's port has lasted more than 1,024 cycles. -/
def execBankWaitTimeout (bank : Fin 18) (engine : UnitRef) (s : State) : Step :=
  let u : UnitRef := ⟨.bank, bank, 0⟩
  match engineOf engine with
  | some (me, i) =>
    let e := engineAt s.drover me i
    if e.phase = .busy then .next (detect s ⟨.bankWait, u, u, some engine, .none, .waited (s.cycle - e.since)⟩) else .next s
  | none => .next s

/-! ## The fault table (R167-R171) -/

/-- Reports of one key. -/
def sameKey (a b : Report) : Bool := a.rep.suspect == b.rep.suspect && a.rep.cls == b.rep.cls

/-- Reporter order (R192). -/
def reporterRank (u : UnitRef) : Nat := unitCode u.kind * 256 + u.index

/-- The report of the lowest reporter. -/
def firstReport (r : Report) (rs : List Report) : Report :=
  rs.foldl (fun a b => if reporterRank b.rep.reporter < reporterRank a.rep.reporter then b else a) r

/-- Open entries. -/
def openEntries (h : Health) : Nat := (h.table.filter Option.isSome).length

/-- The reports `r :: rs` of one key and cycle enter the table (R168, R169). -/
def enterTable (s : State) (r : Report) (rs : List Report) : State :=
  let n := rs.length + 1
  let f := firstReport r rs
  let h := s.health
  match h.table.findIdx? (fun x => match x with
    | some e => e.cls == r.rep.cls && e.suspect == r.rep.suspect
    | none => false) with
  | some i =>
    modHealth s (fun h => { h with table := modAt h.table i (fun x =>
      x.map (fun e => { e with count := min 65535 (e.count + n), last := r.bsn })) })
  | none =>
    match h.table.findIdx? Option.isNone with
    | some i =>
      let e : FaultEntry := { cls := r.rep.cls, suspect := r.rep.suspect, injected := f.injected, count := min 65535 n,
                              first := f.rep.reporter, bsn := r.bsn, cycle := r.cycle, last := r.bsn, replays := 0 }
      let t := modHealth s (fun h => { h with
        table := h.table.set i (some e), ovfRaised := h.ovfRaised && openEntries h + 1 != 64 })
      raiseAt t 19 (i + faultCode r.rep.cls * 256 + unitCode r.rep.suspect.kind * 4096 + r.rep.suspect.index * 65536 +
        r.rep.suspect.finger * 16777216 + b2n f.injected * 134217728) r.bsn r.cycle
    | none =>
      let t := modHealth s (fun h => { h with overflow := bump 0xFFFF h.overflow, ovfRaised := true })
      if h.ovfRaised then t
      else raiseAt t 20 (faultCode r.rep.cls + unitCode r.rep.suspect.kind * 16 + r.rep.suspect.index * 256) r.bsn r.cycle

/-- Unexpired strikes of a unit (R179). -/
def strikesOf (s : State) (u : UnitRef) : Nat :=
  (s.health.strikes.filter (fun x => x.1.kind == u.kind && x.1.index == u.index &&
    decide (bsnSince s.bsn x.2 < s.health.cfg.window * 14400000))).length

/-- A unit has reached its strike limit (R182, R183, R186). -/
def limitReached (s : State) (u : UnitRef) (cls : FaultClass) : State :=
  match u.kind with
  | .oe | .me =>
    if autoFlag s 0 && (engineAt s.drover (u.kind == .me) u.index).inSvc then
      { s with drover := modEngine s.drover (u.kind == .me) u.index (fun e => { e with leaves := some cls }) }
    else s
  | .bank => if cls = .bankUe then s else triggerOnce s u.index .strikes (faultCode cls)
  | .dec =>
    if autoFlag s 2 && (decAt s u.index).inSvc && !s.health.swaps.any (fun x => x.old == u.index) then
      modHealth s (fun h => { h with swaps := h.swaps ++ [⟨u.index, none, none, faultCode cls, none, false, 0⟩] })
    else s
  | _ => s

/-- A real report's incident and strike (R171). -/
def incident (s : State) (u : UnitRef) (cls : FaultClass) (b : Bsn) : State :=
  let known := (s.health.incidents.find? (fun x => x.1 == u)).map (fun x => x.2)
  let new := match known with
    | some l => decide (64 < bsnSince b l)
    | none => true
  let t := modHealth s (fun h => { h with incidents := (u, b) :: h.incidents.filter (fun x => x.1 != u) })
  if !new || u.kind == .finger then t
  else
    let t := modHealth t (fun h => { h with strikes := h.strikes ++ [(u, b)] })
    let t := if u.kind = .bank then modBank t u.index (fun k => { k with fired := false, resetDone := false }) else t
    if s.health.cfg.strikeLimit ≤ strikesOf t u then limitReached t u cls else t

/-- The 128-cycle port reset of a bank starts (R175). -/
def portReset (s : State) (b : Nat) : State :=
  if (bankAt s b).reset.isSome then s else modBank s b (fun k => { k with reset := some (s.bsn, s.cycle) })

/-- Insert a waiting task by in-flight record index (R175). -/
def insertRecord (r : Ready) : List Ready → List Ready
  | [] => [r]
  | x :: xs => if r.record.getD 512 ≤ x.record.getD 512 then r :: x :: xs else x :: insertRecord r xs

/-- The waiting tasks that reports of one cycle name join the replay queue in the order of their records, or for move tasks
the head of the move queue (R174, R175); the descriptor is built anew with the attempt's number. -/
def joinReplays (s : State) (ts : List Task) : State :=
  let d := s.drover
  let m := activeImage s
  let go := (d.waiting.filter (fun x => x.2 && ts.contains x.1.task)).map (fun x =>
    { x.1 with attempt := x.1.attempt + 1, ready := s.cycle, listed := s.cycle,
               desc := descriptor s m x.1.task x.1.record (x.1.attempt + 1) })
  let rest := d.waiting.filter (fun x => !(x.2 && ts.contains x.1.task))
  let ops := (go.filter (fun r => r.task.kind == .op)).foldr insertRecord []
  let mvs := go.filter (fun r => r.task.kind != .op)
  { s with drover := { d with waiting := rest, replays := d.replays ++ ops, moves := mvs ++ d.moves } }

/-- Tasks that the reports of a key send to a replay, each once (R170). -/
def keyTasks (s : State) (rs : List Report) (before : List Task) : List Task :=
  (((rs.filterMap (fun x => x.task)).eraseDups).filter (fun t => !before.contains t)).filter (fun t =>
    s.drover.waiting.any (fun x => x.2 && x.1.task == t))

/-- PORT_PARITY and BANK_WAIT (R170, R175): the port of the bank is reset once for an incident, whichever report began it, and for
each injected report; where no reset runs, the tasks that waited for the bank wait no longer. -/
def portAction (s : State) (b : Nat) (real : Bool) : State :=
  if !real then portReset s b
  else if !(bankAt s b).resetDone then portReset (modBank s b (fun k => { k with resetDone := true })) b
  else if (bankAt s b).reset.isSome then s
  else { s with drover := { s.drover with bankHold := s.drover.bankHold.filter (fun x => x.2 != b) } }

/-- One key of the cycle: table, incident, port reset, trigger (R168-R171, R183); `ts` are the tasks it sends to a replay. -/
def enterKey (s : State) (r : Report) (rs : List Report) (ts : List Task) : State :=
  let u := r.rep.suspect
  let t := enterTable s r rs
  let real := (r :: rs).any (fun x => !x.injected)
  let t := if real then incident t u r.rep.cls r.bsn else t
  let t := if r.rep.cls = .portParity ∨ r.rep.cls = .bankWait then portAction t u.index real else t
  let t := if r.rep.cls = .bankUe ∧ real = true then triggerOnce t u.index .ue 8 else t
  modHealth t (fun h => { h with table := h.table.map (fun x =>
    x.map (fun e => if e.cls = r.rep.cls ∧ e.suspect = u then { e with replays := min 0xFFFF (e.replays + ts.length) } else e)) })

/-- Enter up to `n` keys of one cycle in the order of their first report; `ts` are the tasks they send to a replay. -/
def enterKeys : Nat → State → List Report → List Task → State
  | 0, s, rs, ts => joinReplays (modHealth s (fun h => { h with reports := rs ++ h.reports })) ts
  | _, s, [], ts => joinReplays s ts
  | n + 1, s, r :: rs, ts =>
    let mine := rs.filter (sameKey r)
    let new := keyTasks s (r :: mine) ts
    enterKeys n (enterKey s r mine new) (rs.filter (fun x => !sameKey r x)) (ts ++ new)

/-- FAULT_TABLE_ENTRY (R167, R168): up to 8 keys of the oldest reporting cycle; a further key waits for the next entry. -/
def execFaultTableEntry (s : State) : Step :=
  match s.health.reports with
  | [] => .next s
  | r :: _ =>
    let now := s.health.reports.filter (fun x => x.bsn == r.bsn && x.cycle == r.cycle)
    let later := s.health.reports.filter (fun x => !(x.bsn == r.bsn && x.cycle == r.cycle))
    .next (enterKeys 8 (modHealth s (fun h => { h with reports := later })) now [])

/-- PORT_RESET_DONE (R175): the 128 cycles are over, and tasks that waited for the bank may be granted. -/
def execPortResetDone (bank : Fin 18) (s : State) : Step :=
  match (bankAt s bank).reset with
  | some (b, c) =>
    if 128 ≤ cyclesSince s b c then
      .next { modBank s bank (fun k => { k with reset := none }) with
        drover := { s.drover with bankHold := s.drover.bankHold.filter (fun x => x.2 != bank.val) } }
    else .next s
  | none => .next s

/-- STRIKE_EXPIRE (R179): strikes and CE2 outcomes past the strike window are dropped. -/
def execStrikeExpire (s : State) : Step :=
  let live (b : Bsn) : Bool := decide (bsnSince s.bsn b < s.health.cfg.window * 14400000)
  .next (modHealth s (fun h => { h with
    strikes := h.strikes.filter (fun x => live x.2),
    banks := h.banks.map (fun k => { k with ce2At := k.ce2At.filter live }) }))

/-! ## Engines (R181, R182) -/

/-- The lowest-numbered spare operator engine that passed its last self-test. -/
def spareOe (s : State) : Option Nat :=
  (List.range 56).find? (fun i => (engineAt s.drover false i).spare && s.health.oePassed.contains i)

/-- An operator engine leaves service, with a spare in its place where one is ready; `floor` is the E that must remain. -/
def retireOe (s : State) (i cause floor : Nat) (log : Bool) : State × Bool :=
  match spareOe s with
  | some j =>
    let d := modEngine (modEngine s.drover false i engineLeave) false j
      (fun e => { e with phase := .wait, spare := false, run := none })
    let t := modHealth { s with drover := d } (fun h => { h with
      tests := h.tests.filter (fun x => !(x.unit.kind == .oe && x.unit.index == j)),
      oePassed := h.oePassed.filter (fun k => k != j) })
    (logRepair t 1 false i 0 cause j log, true)
  | none =>
    if enginesE s.drover < floor + 1 then (s, false)
    else (logRepair { s with drover := modEngine s.drover false i engineLeave } 1 false i 0 cause 0x3F log, true)

/-- A move engine leaves service. -/
def retireMe (s : State) (i cause floor : Nat) (log : Bool) : State × Bool :=
  if moveEngines s.drover < floor + 1 then (s, false)
  else (logRepair { s with drover := modEngine s.drover true i engineLeave } 5 false i 0 cause 0x3F log, true)

/-- Every engine of a kind that has reached its limit, lowest first (R182); one that must stay keeps its strikes, and while the flag
in force is 0 all stay (R198). -/
def retireStruck (s : State) (me : Bool) : State :=
  (List.range (if me then 16 else 56)).foldl (fun t i =>
    match (engineAt t.drover me i).leaves with
    | some cls =>
      let r := if !autoFlag t 0 then (t, false)
        else if me then retireMe t i (faultCode cls) 12 (autoFlag t 3) else retireOe t i (faultCode cls) 40 (autoFlag t 3)
      { r.1 with drover := modEngine r.1.drover me i (fun e => { e with leaves := none }) }
    | none => t) s

/-- The forced retirements (R199). -/
def retireForced (s : State) : State :=
  s.health.forced.foldl (fun t f =>
    let r := if (engineAt t.drover f.me f.unit).inSvc = false then (t, false)
      else if f.me then retireMe t f.unit 0 8 f.log else retireOe t f.unit 0 32 f.log
    if r.2 then forcedDone r.1 (some f.id) else forcedLost r.1 (some f.id)) (modHealth s (fun h => { h with forced := [] }))

/-- ENGINE_RETIRE (R182, R199): at a block boundary. -/
def execEngineRetire (s : State) : Step :=
  if s.cycle ≠ 0 then .next s
  else
    let t := retireForced (retireStruck (retireStruck s false) true)
    .next { t with graph := { t.graph with meter := { t.graph.meter with e := enginesE t.drover } } }

/-! ## Decimators (R185, R186) -/

/-- The lowest-numbered spare decimator that passed its self-test and is not in a replacement. -/
def spareDec (s : State) : Option Nat :=
  (List.range 24).find? (fun d => !(decAt s d).inSvc && !(decAt s d).failed && (decAt s d).passed &&
    !s.health.swaps.any (fun x => x.new == some d))

/-- The PDM clock of a decimator's source is changing (R186, R294). -/
def decWaits (s : State) (d : Nat) : Bool :=
  match s.health.decMap.findIdx? (fun x => x == d) with
  | some k =>
    let c := s.wake.clocks.getD (k / 8) {}
    decide (k < 16) && (!c.change.isEmpty || c.doneAt.any (fun b => !bsnReached s.bsn b))
  | none => false

/-- Start one replacement that waits; one that R198 leaves to REPAIR_FORCE is dropped. -/
def swapStart (s : State) (x : DecSwap) : State :=
  if x.begun.isSome || decWaits s x.old then s
  else if x.forced.isNone && !autoFlag s 2 then modHealth s (fun h => { h with swaps := h.swaps.filter (fun y => y.old != x.old) })
  else match spareDec s with
    | some n =>
      modHealth s (fun h => { h with swaps := h.swaps.map (fun y =>
        if y.old = x.old then { y with new := some n, begun := some s.bsn, last := 0 } else y) })
    | none => forcedLost (modHealth s (fun h => { h with swaps := h.swaps.filter (fun y => y.old != x.old) })) x.forced

/-- DECIMATOR_PARALLEL_START (R186): at a block boundary. -/
def execDecimatorParallelStart (s : State) : Step :=
  if s.cycle ≠ 0 ∨ !ckSys s then .next s else .next (s.health.swaps.foldl swapStart s)

/-- Finish one replacement whose 4 blocks are over. -/
def swapEnd (s : State) (x : DecSwap) : State :=
  match x.begun, x.new with
  | some b, some n =>
    if bsnReached s.bsn (b + 4#40) && !(decAt s n).failed then
      let t := modDec (modDec s n (fun d => { d with inSvc := true })) x.old (fun d => { d with inSvc := false, failed := true })
      let t := modHealth t (fun h => { h with
        swaps := h.swaps.filter (fun y => y.old != x.old), decMap := h.decMap.map (fun d => if d = x.old then n else d),
        decFades := h.decFades ++
          (List.range 22).filterMap (fun k => if h.decMap.getD k k = x.old then some ⟨k, s.bsn, x.old, x.last⟩ else none),
        tests := h.tests.filter (fun y => !(y.unit.kind == .dec && y.unit.index == n)) })
      forcedDone (logRepair t 3 false x.old 0 x.cause n (wantLog s x.forced x.log)) x.forced
    else s
  | _, _ => s

/-- DECIMATOR_SWITCH (R186): at the boundary after 4 blocks in parallel. -/
def execDecimatorSwitch (s : State) : Step :=
  if s.cycle ≠ 0 then .next s else .next (s.health.swaps.foldl swapEnd s)

/-! ## Fingers (R188) -/

/-- FINGER_RETIRE (R188): at the next carrier period every failed finger is retired. -/
def execFingerRetire (s : State) : Step :=
  .next (s.health.fingerDue.foldl (fun t d =>
    let t := modHealth t (fun h => { h with fingers := modAt h.fingers d.hb (fun l => l ++ [d.finger]) })
    forcedDone (logRepair t 4 false d.hb d.finger (if d.forced.isSome then 0 else 12) 0x3F (wantLog t d.forced d.log)) d.forced)
    (modHealth s (fun h => { h with fingerDue := [] })))

/-! ## The rows of self-tests (R181, R419) -/

/-- The first test of a unit is over: the unit's next test, if there is one, runs from now on. -/
def testOver (s : State) (x : SelfTest) : State :=
  let rest := s.health.tests.erase x
  let next := (rest.find? (fun y => y.unit == x.unit)).toList
  modHealth s (fun h => { h with tests := rest.map (fun y => if next.contains y then { y with from_ := (s.bsn, s.cycle) } else y) })

/-- SELF_TEST_END (R181, R419): 16,384 cycles after the unit began to run the test. -/
def execSelfTestEnd (unit : UnitRef) (pass : Bool) (s : State) : Step :=
  match s.health.tests.find? (fun x => x.unit == unit) with
  | none => .next s
  | some x =>
    if !isSpare s unit || decide (cyclesSince s x.from_.1 x.from_.2 < 16384) then .next s
    else
      let t := testOver s x
      let t := if !pass then spareFails t unit
        else if unit.kind = .oe then modHealth t (fun h => { h with
          oePassed := unit.index :: h.oePassed.filter (fun k => k != unit.index) })
        else modDec t unit.index (fun d => { d with passed := true })
      match x.svc with
      | some n => .next (completeSeq t n .ok (u8 (b2n (!pass)) ++ zeros 7 ++ bsn8 x.from_.1))
      | none => .next t

/-- The unit of a SVC_SPARE_TEST that waits. -/
def testUnit : Job → Option UnitRef
  | .svcTest u => some u
  | _ => none

/-- A unit's clock runs: the fabric for an engine, CK_PER for a decimator. -/
def testClock (s : State) (u : UnitRef) : Bool := if u.kind = .oe then s.power.fabricOn else ckSys s

/-- The periodic tests of a boundary: blocks whose BSN is a multiple of 4,096 (R181, R186). -/
def periodicTests (s : State) : List SelfTest :=
  if s.bsn.toNat % 4096 ≠ 0 ∨ s.power.fabricOn = false then []
  else
    (((List.range 56).map (fun i => UnitRef.mk .oe i 0)) ++ ((List.range 24).map (fun i => UnitRef.mk .dec i 0))).filterMap
      (fun u => if isSpare s u then some ⟨u, s.bsn, (s.bsn, 0), none⟩ else none)

/-- A test has begun: it is the first of its unit (R404, R419). -/
def testBegun (s : State) (u : UnitRef) (n : Nat) : Bool :=
  match s.health.tests.find? (fun x => x.unit == u) with
  | some x => x.svc == some n
  | none => false

/-- The tests that SVC_SPARE_TEST asked for in an earlier block; one whose unit is no longer a spare gives STATE (R419). -/
def serviceTests (s : State) : State :=
  (findJobs s (fun j => (testUnit j).isSome)).foldl (fun t po =>
      match testUnit po.2.job with
      | some u =>
        if !isSpare t u then finalReply t po.1 po.2.tag po.2.op .state []
        else if po.2.bsn = s.bsn ∨ testClock s u = false ∨ t.health.tests.any (fun x => x.svc == some po.2.seq) then t
        else modHealth t (fun h => { h with tests := h.tests ++ [⟨u, s.bsn, (s.bsn, 0), some po.2.seq⟩] })
      | none => t) s

/-! ## The block boundary -/

/-- HEALTH_CFG in its 12 bytes (R198). -/
def cfgBytes (c : HealthSettings) : List Byte :=
  u8 c.strikeLimit ++ u8 c.scrubShift ++ u16 c.window ++ u16 c.ce2Limit ++ u16 c.passLimit ++ u8 c.flags ++ zeros 3

/-- HEALTH_CFG from its 12 bytes. -/
def cfgOf (p : List Byte) : HealthSettings :=
  { strikeLimit := leField p 0 1, scrubShift := leField p 1 1, window := leField p 2 2, ce2Limit := leField p 4 2,
    passLimit := leField p 6 2, flags := leField p 8 1 % 16 }

/-- The ranges of R198. -/
def cfgOk (c : HealthSettings) : Bool :=
  within c.strikeLimit 1 15 && within c.scrubShift 8 16 && within c.window 1 720 && within c.ce2Limit 1 255 &&
    within c.passLimit 1 49152

/-- The job of HEALTH_CFG. -/
def isHealthCfg : Job → Bool
  | .healthCfg => true
  | _ => false

/-- R200: an injection that nothing has detected within 4,000 blocks of its acceptance ends with BUSY. -/
def injectExpired (s : State) (x : Injection) : Bool := decide (4000 * Config.blockCycles ≤ cyclesSince s x.bsn x.cycle)

/-- The injections whose time is over end (R200). -/
def injectExpire (s : State) : State :=
  if s.health.inject.isEmpty then s
  else
    let t := modHealth s (fun h => { h with inject := h.inject.filter (fun x => !injectExpired s x) })
    (s.health.inject.filter (injectExpired s)).foldl (fun t x => completeJob t (isInject x.id) .busy []) t

/-- Health at a block boundary, after BSN has advanced (R176, R181, R198, R200). -/
def healthBoundary (s : State) : State :=
  let t := modHealth s (fun h => { h with
    cfg := h.cfgNext.getD h.cfg, cfgNext := none, repCycles := h.repNow, repNow := 0 })
  let t := completeJobs t isHealthCfg (fun _ => (.ok, cfgBytes t.health.cfg))
  let t := injectExpire t
  let t := modHealth t (fun h => { h with tests := h.tests ++ periodicTests t })
  serviceTests t

/-! ## Opcodes -/

/-- Bit list to a mask. -/
def serviceMask (l : List Bool) : Nat := maskOf l

/-- Fingers in service of half-bridge `hb` as HEALTH_STATUS shows them: 0 from the third failure on, which latches it off at once
(R188, R193). -/
def fingersShown (h : Health) (hb : Nat) : Nat :=
  let out := (h.fingers.getD hb []).length
  if 3 ≤ out + (h.fingerDue.filter (fun d => d.hb == hb)).length then 0 else 8 - out

/-- HEALTH_STATUS (R193). -/
def doHealthStatus : Request → State → State :=
  runOp 0x80 (lenIs 0) (fun s _ =>
    let h := s.health
    let d := s.drover
    .done s (u8 (enginesE d) ++ u8 (spareOes d) ++ u8 (moveEngines d) ++ u8 (spareBanks h) ++ u8 (spareDecs h) ++
      u8 (logUsed s.otp) ++ u8 (openEntries h) ++
      u8 (b2n h.migration.isSome + b2n (decide (32 ≤ logUsed s.otp)) * 2 + b2n (!h.logQueue.isEmpty) * 4) ++
      u32 h.replays ++ u32 h.repCycles ++ u16 h.overflow ++ zeros 2 ++ (List.range 16).flatMap (fun hb => u8 (fingersShown h hb)) ++
      leBytes 8 (serviceMask (d.oes.map Engine.inSvc)) ++
      u32 (serviceMask (h.banks.map (fun b => b.inSvc))) ++ u32 (serviceMask (h.decs.map (fun x => x.inSvc)))))

/-- HEALTH_STATUS (R193). -/
def execHealthStatus (q : Request) (s : State) : Step := .next (doHealthStatus q s)

/-- One record of FAULT_TABLE_READ (R194). -/
def entryBytes (s : State) (x : Option FaultEntry) : List Byte :=
  match x with
  | none => zeros 24
  | some e =>
    u8 (faultCode e.cls) ++ u8 (unitCode e.suspect.kind) ++ u8 e.suspect.index ++ u8 (e.suspect.finger % 8 + b2n e.injected * 128) ++
      u16 e.count ++ u8 (unitCode e.first.kind) ++ u8 e.first.index ++ leBytes 5 e.bsn.toNat ++ leBytes 3 e.cycle ++
      leBytes 5 e.last.toNat ++ u8 (strikesOf s e.suspect) ++ u16 e.replays

/-- FAULT_TABLE_READ (R194). -/
def doFaultTableRead : Request → State → State :=
  runOp 0x81 (lenIs 4) (fun s q =>
    let f := pay8 q 0
    let n := pay8 q 1
    if !(within f 0 63 && within n 1 64 && decide (f + n ≤ 64)) then .refuse .range []
    else .done s (((s.health.table.drop f).take n).flatMap (entryBytes s)))

/-- FAULT_TABLE_READ (R194). -/
def execFaultTableRead (q : Request) (s : State) : Step := .next (doFaultTableRead q s)

/-- FAULT_TABLE_CLEAR (R195). -/
def doFaultTableClear : Request → State → State :=
  runOp 0x82 (lenIs 4) (fun s q =>
    let e := pay8 q 0
    if 63 < e ∧ e ≠ 0xFF then .refuse .range []
    else .done (modHealth s (fun h => { h with
      table := if e = 0xFF then List.replicate 64 none else h.table.set e none })) [])

/-- FAULT_TABLE_CLEAR (R195). -/
def execFaultTableClear (q : Request) (s : State) : Step := .next (doFaultTableClear q s)

/-- REPAIR_LOG_READ (R196). -/
def doRepairLogRead : Request → State → State :=
  runOp 0x83 (lenIs 0) (fun s _ =>
    let es := logEntries s.otp
    .done s (es.flatMap u32 ++ u32 (maskOf (es.map logEntryOk)) ++ u8 s.health.logQueue.length))

/-- REPAIR_LOG_READ (R196). -/
def execRepairLogRead (q : Request) (s : State) : Step := .next (doRepairLogRead q s)

/-- BANK_COUNTERS (R197). -/
def doBankCounters : Request → State → State :=
  runOp 0x84 (lenIs 0) (fun s _ =>
    .done s (s.health.banks.flatMap (fun k => u32 k.ce1 ++ u32 k.ce2 ++ u16 k.ue ++ u16 k.passCe)))

/-- BANK_COUNTERS (R197). -/
def execBankCounters (q : Request) (s : State) : Step := .next (doBankCounters q s)

/-- HEALTH_CFG (R198). -/
def doHealthCfg : Request → State → State :=
  runOp 0x85 (fun p => p.length == 0 || p.length == 12) (fun s q =>
    if q.payload.isEmpty then .done s (cfgBytes s.health.cfg)
    else if !cfgOk (cfgOf q.payload) then .refuse .range []
    else .pend (modHealth s (fun h => { h with cfgNext := some (cfgOf q.payload) })) .healthCfg none)

/-- HEALTH_CFG (R198). -/
def execHealthCfg (q : Request) (s : State) : Step := .next (doHealthCfg q s)

/-- The unit of a REPAIR_FORCE is in service. -/
def forceInService (s : State) (a u f : Nat) : Bool :=
  match a with
  | 1 => (engineAt s.drover false u).inSvc
  | 2 => (bankAt s u).inSvc
  | 3 => (decAt s u).inSvc
  | 4 => !(s.health.fingers.getD u []).contains f && !s.health.fingerDue.any (fun d => d.hb == u && d.finger == f)
  | _ => (engineAt s.drover true u).inSvc

/-- What forbids a REPAIR_FORCE with STATE, beyond a unit out of service (R199). -/
def forceBlocked (s : State) (a u : Nat) : Bool :=
  let h := s.health
  let oes := (h.forced.filter (fun f => !f.me)).length + 1
  let mes := (h.forced.filter (fun f => f.me)).length + 1
  let ready := ((List.range 56).filter (fun i => (engineAt s.drover false i).spare && h.oePassed.contains i)).length
  match a with
  | 1 => decide (enginesE s.drover < 32 + (oes - ready)) || h.forced.any (fun f => !f.me && f.unit == u)
  | 2 => (spareBank s).isNone
  | 3 => (spareDec s).isNone || h.swaps.any (fun x => x.old == u)
  | 4 => decide (2 ≤ (h.fingers.getD u []).length + (h.fingerDue.filter (fun d => d.hb == u)).length)
  | _ => decide (moveEngines s.drover < 8 + mes) || h.forced.any (fun f => f.me && f.unit == u)

/-- The forced repair waits for its boundary or carrier period. -/
def forceStart (h : Health) (id a u f : Nat) (log : Bool) : Health :=
  match a with
  | 1 => { h with forced := h.forced ++ [⟨id, false, u, log⟩] }
  | 2 => { h with migQueue := h.migQueue ++ [⟨u, 0, some id, log⟩] }
  | 3 => { h with swaps := h.swaps ++ [⟨u, none, none, 0, some id, log, 0⟩] }
  | 4 => { h with fingerDue := h.fingerDue ++ [⟨u, f, some id, log⟩] }
  | _ => { h with forced := h.forced ++ [⟨id, true, u, log⟩] }

/-- REPAIR_FORCE (R199). -/
def doRepairForce : Request → State → State :=
  runOp 0x86 (lenIs 4) (fun s q =>
    let a := pay8 q 0
    let u := pay8 q 1
    let f := pay8 q 2
    let log := bit (pay8 q 3) 0
    let count := [0, 56, 18, 24, 16, 16].getD a 0
    if !(within a 1 5 && decide (u < count) && (a != 4 || decide (f < 8))) then .refuse .range []
    else if !forceInService s a u f || s.health.migration.isSome || forceBlocked s a u then .refuse .state []
    else if log && logIsFull s then .refuse .noSpace []
    else
      let id := s.health.nextId
      .pend (modHealth s (fun h => forceStart { h with nextId := id + 1 } id a u f log)) (.repair id)
        (some (if a = 1 ∨ a = 5 then bsn8 (bsnNext s) else zeros 8)))

/-- REPAIR_FORCE (R199). -/
def execRepairForce (q : Request) (s : State) : Step := .next (doRepairForce q s)

/-- ABORT of a REPAIR_FORCE before it takes effect (R199): nothing is repaired, a copy in progress is abandoned. -/
def forceAbort (s : State) (id : Nat) : State :=
  let t := if (s.health.migration.bind (fun m => m.forced)) = some id then dropMigration s else s
  modHealth t (fun h => { h with
    forced := h.forced.filter (fun f => f.id != id),
    migQueue := h.migQueue.filter (fun m => m.forced != some id),
    swaps := h.swaps.filter (fun x => x.forced != some id),
    fingerDue := h.fingerDue.filter (fun d => d.forced != some id) })

/-- A unit is in service. -/
def unitInService (s : State) (u : UnitRef) : Bool :=
  match u.kind with
  | .oe => (engineAt s.drover false u.index).inSvc
  | .me => (engineAt s.drover true u.index).inSvc
  | .bank => (bankAt s u.index).inSvc
  | .dec => (decAt s u.index).inSvc
  | _ => true

/-- FAULT_INJECT (R200). -/
def doFaultInject : Request → State → State :=
  runOp 0x87 (lenIs 4) (fun s q =>
    match faultOf (pay8 q 0), unitOf (pay8 q 1) with
    | some c, some k =>
      let u : UnitRef := ⟨k, pay8 q 2, 0⟩
      if !(within (pay8 q 0) 1 11 && (suspectKinds c).contains k && decide (u.index < unitCount k)) then .refuse .range []
      else if !unitInService s u then .refuse .state []
      else
        let id := s.health.nextId
        .pend (modHealth s (fun h => { h with nextId := id + 1, inject := h.inject ++ [⟨id, c, u, s.bsn, s.cycle⟩] })) (.inject id) none
    | _, _ => .refuse .range [])

/-- FAULT_INJECT (R200). -/
def execFaultInject (q : Request) (s : State) : Step := .next (doFaultInject q s)

/-! ## Service opcodes (R418, R419) -/

/-- SVC_RAW_READ (R418). -/
def doSvcRawRead : Request → State → State :=
  runOp 0xF0 (lenIs 8) (fun s q =>
    let b := pay8 q 0
    let n := pay16 q 2
    let f := pay32 q 4
    if !(decide (b ≤ 17) && within n 1 113 && decide (f + n ≤ 49152)) then .refuse .range []
    else .pend s (.svcRaw b f n) none)

/-- SVC_RAW_READ (R418). -/
def execSvcRawRead (q : Request) (s : State) : Step := .next (doSvcRawRead q s)

/-- The words that a SVC_RAW_READ asks for. -/
def rawJob : Job → Option (Nat × Nat × Nat)
  | .svcRaw b f n => some (b, f, n)
  | _ => none

/-- SVC_RAW_READ_DONE (R418): the oldest read is complete. -/
def execSvcRawReadDone (s : State) : Step :=
  match findJobs s (fun j => (rawJob j).isSome) with
  | [] => .next s
  | po :: _ =>
    match rawJob po.2.job with
    | some (b, f, n) =>
      .next (finalReply s po.1 po.2.tag po.2.op .ok ((List.range n).flatMap (fun i => rawRecord s b (f + i))))
    | none => .next s

/-- SVC_SPARE_TEST (R419). -/
def doSvcSpareTest : Request → State → State :=
  runOp 0xF1 (lenIs 4) (fun s q =>
    let c := pay8 q 0
    let u : UnitRef := ⟨if c = 1 then .oe else .dec, pay8 q 1, 0⟩
    if !((c == 1 || c == 4) && unitOk u) then .refuse .range []
    else if !isSpare s u then .refuse .state []
    else .pend s (.svcTest u) none)

/-- SVC_SPARE_TEST (R419). -/
def execSvcSpareTest (q : Request) (s : State) : Step := .next (doSvcSpareTest q s)

/-! ## The repair log at boot (R191) -/

/-- One log entry with a correct CHECK is applied. -/
def applyLogEntry (s : State) (w : Nat) : State :=
  let kind := bits w 31 29
  let unit := bits w 27 22
  if bit w 28 then
    match kind with
    | 1 => modHealth { s with drover := modEngine s.drover false unit (fun e => { e with spare := false, phase := .out }) }
        (fun h => { h with oeFailed := unit :: h.oeFailed })
    | 2 => modBank s unit (fun k => { k with failed := true, inSvc := false, role := none })
    | 3 => modDec s unit (fun d => { d with failed := true, inSvc := false })
    | _ => s
  else
    match kind with
    | 1 =>
      let next := (List.range 56).find? (fun i => (engineAt s.drover false i).spare && i != unit)
      let d := modEngine s.drover false unit (fun _ => { phase := .out })
      match next with
      | some j => { s with drover := modEngine d false j (fun e => { e with phase := .wait, spare := false }) }
      | none => { s with drover := d }
    | 2 =>
      let t := modBank s unit (fun k => { k with inSvc := false, failed := true, role := none })
      match spareBank t with
      | some j => modBank t j (fun k => { k with inSvc := true, role := (bankAt s unit).role })
      | none => t
    | 3 =>
      let t := modDec s unit (fun d => { d with inSvc := false, failed := true })
      match (List.range 24).find? (fun i => !(decAt t i).inSvc && !(decAt t i).failed) with
      | some j =>
        modHealth (modDec t j (fun d => { d with inSvc := true })) (fun h => { h with
          decMap := h.decMap.map (fun d => if d = unit then j else d) })
      | none => t
    | 4 => modHealth s (fun h => { h with fingers := modAt h.fingers unit (fun l => l ++ [bits w 21 19]) })
    | 5 => { s with drover := modEngine s.drover true unit (fun _ => { phase := .out }) }
    | _ => s

/-- Boot first applies the factory area (R180, R191): a blank one leaves the default assignment; what another stands for is
private (log entry 50). -/
def applyFactory (s : State) : State :=
  let ws := s.otp.words.filter (fun x => decide (2 ≤ x.1) && decide (x.1 < 128))
  if ws.isEmpty then s else (Config.factoryLog ws).foldl (fun t w => applyLogEntry t w.toNat) s

/-- Boot applies every log entry whose CHECK is correct, in entry order (R191). -/
def applyLog (s : State) : State := ((logEntries s.otp).filter logEntryOk).foldl applyLogEntry s

end Sys2Proof.Machine
end

