-- ==== Sys2Proof/Machine/Params.lean ====
section
/-!
DEFINITION. Parameters, Hampers and commits (ch. 06): the checks of a written or staged entry (R202-R205), immediate
writes, the commit boundary with its ramps and crossfades (R209-R219), the opcodes 0x10 to 0x16, and the rows of a
register's own write.
-/

namespace Sys2Proof.Machine

open Sys2Proof

/-- An entry: PADDR and value. -/
abbrev Entry := Nat × Nat

/-! ## Space 0x1: words of an instance (R203) -/

/-- A slot that is READY, ARMED or ACTIVE. -/
def slotLive (s : State) (i : Nat) : Bool :=
  let p := (slotAt s i).phase
  p == .ready || p == .armed || p == .active

/-- PADDR of word `i` of an instance. -/
def wordAddr (inst i : Nat) : Nat := 0x10000000 + inst * 0x1000 + i

/-- The words of an instance with a list of entries applied; the last entry for a PADDR stands. -/
def overWord (es : List Entry) (m : Memory) (inst : Nat) (e : OpEntry) (i : Nat) : Nat :=
  match es.reverse.find? (fun x => x.1 == wordAddr inst i) with
  | some x => x.2
  | none => blobWord m e i

/-- The cross-word conditions that name word `i` (R97, R107, R109, R119). -/
def OpEntry.crossAt (e : OpEntry) (g : Nat → Nat) (i : Nat) : Bool :=
  if e.type = tBIQ then i == 0 || sectionOk g (1 + 5 * ((i - 1) / 5))
  else if e.type = tXOVER then
    (i == 0 || decide (g (i - 1) < g i)) && (decide (e.nOut ≤ i + 2) || decide (g i < g (i + 1)))
  else if e.type = tGATE then decide (1 < i) || e.crossOk g
  else if e.type = tPROT then
    if i = 10 ∨ i = 13 then decide (toSigned 32 (g 10) ≤ toSigned 32 (g 13))
    else decide (i < 22) || sectionOk g (22 + 5 * ((i - 22) / 5))
  else true

/-- RANGE and STATE of one space-0x1 entry, against slot `slot` with the entries `es` applied (R203, R220, R223). -/
def opFails (s : State) (slot : Nat) (es : List Entry) (a v : Nat) : Bool × Bool :=
  if slot = 0xFF then (false, true)
  else if 1 < slot then (true, false)
  else if !slotLive s slot then (false, true)
  else
    let m := (slotAt s slot).image
    let inst := paUnit a
    let i := paField a
    if hOps m ≤ inst then (true, false)
    else
      let e := opEntry m inst
      let g := overWord es m inst e
      if e.blobWords (blobWord m e) ≤ i ∨ e.mark i = .f then (true, false)
      else (!(e.wordOk g i v && e.crossAt g i), false)

/-! ## Registers (R201, R202) -/

/-- The writable bits of a value. -/
def maskTo (r : Reg) (v : Nat) : Nat := Nat.land v r.mask

/-- The state with the words of a list of register entries stored, and nothing else done. -/
def rawRegs (s : State) (es : List Entry) : State :=
  es.foldl (fun t x => match paddrReg x.1 with
    | some r => if r.access = .rw then wr t r (maskTo r x.2) else t
    | none => t) s

/-- Both slots are EMPTY. -/
def slotsEmpty (s : State) : Bool := s.graph.slots.all (fun x => x.phase == .empty)

/-- What one entry is refused for: RANGE, DENIED, STATE. -/
structure EntryFails where
  range  : Bool
  denied : Bool
  state  : Bool
  deriving DecidableEq, Repr

/-- Something refuses the entry. -/
def EntryFails.any (f : EntryFails) : Bool := f.range || f.denied || f.state

/-- The checks of a register entry; `t` is `s` with the command's immediate entries stored. -/
def regFails (s t : State) (stage : Bool) (cls : Nat) (a v : Nat) : EntryFails :=
  match paddrReg a with
  | none => ⟨true, false, false⟩
  | some .drvHole => ⟨true, false, false⟩
  | some r =>
    if r.access ≠ .rw then ⟨false, decide (cls < r.writeClass), true⟩
    else
      { range := !r.rangeOk t (maskTo r v), denied := decide (cls < r.writeClass),
        state := (stage && r.immediate) || (!stage && paSpace a == 2) || (r == .drvCfg && !slotsEmpty s) }

/-- The checks of one entry of a PARAM_WRITE or HAMPER_STAGE. -/
def entryFails (s t : State) (stage : Bool) (cls slot : Nat) (es : List Entry) (x : Entry) : EntryFails :=
  if paSpace x.1 = 1 then
    let f := opFails s slot es x.1 x.2
    ⟨f.1, false, f.2⟩
  else regFails s t stage cls x.1 x.2

/-- R237 for a PARAM_WRITE: an OUT_MAP entry that leaves two output channels on one slot. -/
def mapClash (s : State) (es : List Entry) (x : Entry) : Bool :=
  match paddrReg x.1 with
  | some (.outMap c) =>
    let t := rawRegs s es
    let w := rd t (.outMap c)
    decide (bits w 2 0 ≠ 7) && decide (((List.range 32).filter (fun i => rd t (.outMap i) == w)).length ≠ 1)
  | _ => false

/-- The first status of RANGE, DENIED, STATE that applies. -/
def failStatus (range denied state : Bool) : Option Status :=
  if range then some .range else if denied then some .denied else if state then some .state else none

/-- The `n` entries of a payload from offset 4 on. -/
def payEntries (q : Request) (n : Nat) : List Entry := (List.range n).map (fun i => (pay32 q (4 + 8 * i), pay32 q (8 + 8 * i)))

/-- Length 4 + k × count of a payload with its count at offset 2. -/
def countLen (k : Nat) (p : List Byte) : Bool := decide (4 ≤ p.length) && p.length == 4 + k * leField p 2 2

/-! ## Effects of a register write -/

/-- A register whose write has an effect beyond its stored value, as its chapter gives; the others are only stored. -/
def applyReg (s : State) (r : Reg) (v : Nat) : State :=
  match r with
  | .tpCfg n => applyPortCfg s n v
  | .spiCfg n => applyPortCfg s (4 + n) v
  | .spoCfg => applyPortCfg s 6 v
  | .inMap c => applyMap s false c v
  | .outMap c => applyMap s true c v
  | .ainCfg n => applyAdcCfg s n v
  | .micCfg n => applyAdcCfg s (4 + n) v
  | .micbiasCfg => applyMicbias s v
  | .hpCfg => applyHpCfg s v
  | .loCfg => applyLoCfg s v
  | .hbCfg n => applyChanCfg s n v
  | .xpCfg n => applyChanCfg s (16 + n) v
  | .vfs n => applyVfs s n v
  | .pairCfg => memberUpdate (wr s .pairCfg v)
  | .auxCfg n => applyAuxCfg s n v
  | .auxInt n => applyAuxRatio s n v (rd s (.auxNum n)) (rd s (.auxDen n))
  | .auxNum n => applyAuxRatio s n (rd s (.auxInt n)) v (rd s (.auxDen n))
  | .auxDen n => applyAuxRatio s n (rd s (.auxInt n)) (rd s (.auxNum n)) v
  | .syncCfg => applySync s v
  | .pdmCfg => applyPdmCfg s v
  | .pmicCfg n => wakeMoved (applyPmicCfg s n v) (wakeMics s)
  | .beamCfg n => applyBeamCfg s n v
  | .coolerCfg => applyCoolerCfg s v
  | .tchCfg n => applyTchCfg s n v
  | .sldCfg => applySldCfg s v
  | .rootCfg | .refFreq => restartRoot (wr s r v)
  | _ => wr s r v

/-- The order in which the entries of one instant act, which is none of the payload's (R211): pairs first, then fields that are only
stored or that others read, then the enables; last those that act on units which the enables have just changed. -/
def applyRank : Reg → Nat
  | .pairCfg => 0
  | .tpCfg _ | .spiCfg _ | .spoCfg | .ainCfg _ | .micCfg _ | .hpCfg | .loCfg | .hbCfg _ | .xpCfg _
  | .auxCfg _ | .pdmCfg | .pmicCfg _ | .beamCfg _ | .coolerCfg | .tchCfg _ | .inMap _ | .outMap _ => 2
  | .sldCfg | .micbiasCfg => 3
  | _ => 1

/-- What a commit of register fields must leave true (R237, R302, R316, R374, R375, R382). -/
def regsCommitOk (t : State) : Bool :=
  mapsDistinct ((List.range 32).map (fun i => rd t (.outMap i))) && (List.range 4).all (auxCommitOk t) &&
    decide ((wakeMics t).length ≤ 4) &&
    (List.range 4).all (fun b => (List.range 16).all (fun m => !bit (rd t (.maskL b)) m || micWake t m)) &&
    (wakeMics t).all (fun m => pdmLrate t (micClock m) != 0)

/-- R336: the commit of `es` may change PS_CFG and PAIR_CFG now. -/
def stageFree (s t : State) : Bool :=
  (rd s .psCfg == rd t .psCfg || psCfgFree s) && pairFree s (rd t .pairCfg)

/-! ## Immediate entries (R204) -/

/-- An entry that takes effect in the acceptance cycle. -/
def isImmediate (x : Entry) : Bool :=
  paSpace x.1 != 1 && (match paddrReg x.1 with
    | some r => r.immediate
    | none => false)

/-- The immediate entries act; several writes of ROOT_CFG and REF_FREQ restart the root once. -/
def applyImmediate (s : State) (es : List Entry) : State :=
  let t := rawRegs s es
  if es.any (fun x => x.1 == Reg.rootCfg.addr || x.1 == Reg.refFreq.addr) then restartRoot t else t

/-! ## Scheduling (R209) -/

/-- The boundary, by the BSN it begins, that is the first at least 32,768 cycles from now. -/
def earliestCommit (s : State) : Bsn :=
  if s.cycle + 32768 ≤ Config.blockCycles then s.bsn + 1#40 else s.bsn + 2#40

/-- The words of a list of entries. -/
def entryWords (es : List Entry) : List (Word × Word) := es.map (fun x => (BitVec.ofNat 32 x.1, BitVec.ofNat 32 x.2))
def wordEntries (es : List (Word × Word)) : List Entry := es.map (fun x => (x.1.toNat, x.2.toNat))

/-- Put a commit at the end of the list; its identity is the one handed out next. -/
def schedule (s : State) (c : Commit) : State :=
  { s with params := { s.params with commits := s.params.commits ++ [c], nextId := s.params.nextId + 1 } }

/-- Change a Hamper. -/
def modHamper (s : State) (h : Nat) (f : Hamper → Hamper) : State :=
  { s with params := { s.params with hampers := modAt s.params.hampers h f } }
def hamperAt (s : State) (h : Nat) : Hamper := s.params.hampers.getD h {}

/-! ## Opcodes 0x10 to 0x16 -/

/-- PARAM_WRITE (R204, R205, R220). -/
def doParamWrite : Request → State → State :=
  runOp 0x10 (countLen 8) (fun s q =>
    let slot := pay8 q 0
    let n := pay16 q 2
    let es := payEntries q n
    let t := rawRegs s (es.filter isImmediate)
    let fails := es.map (fun x =>
      let f := entryFails s t false (classOf s q) slot es x
      { f with range := f.range || mapClash s es x })
    let refused := (fails.findIdx? EntryFails.any).getD 0xFFFF
    let pay (c : Bsn) (i : Nat) : List Byte := bsn8 c ++ u16 i
    if !within n 1 64 then .refuse .range (pay 0#40 0xFFFF)
    else match failStatus (fails.any (fun f => f.range)) (fails.any (fun f => f.denied)) (fails.any (fun f => f.state)) with
      | some st => .refuse st (pay 0#40 refused)
      | none =>
        let now := es.filter isImmediate
        let later := es.filter (fun x => !isImmediate x)
        let u := applyImmediate s now
        if later.isEmpty then .done u (pay 0#40 0xFFFF)
        else
          let c : Commit := { id := s.params.nextId, hamper := none,
                              slot := if later.any (fun x => paSpace x.1 == 1) then slot else 0xFF,
                              entries := entryWords later, interp := none, boundary := earliestCommit s,
                              strict := false, deferred := false, stale := false }
          .pend (schedule u c) (.commit c.id) none)

/-- PARAM_WRITE (R220). -/
def execParamWrite (q : Request) (s : State) : Step := .next (doParamWrite q s)

/-- RANGE, DENIED and STATE of one address of a PARAM_READ (R221). -/
def readFails (s : State) (cls slot a : Nat) : EntryFails :=
  if paSpace a = 1 then
    if slot = 0xFF then ⟨false, false, true⟩
    else if 1 < slot then ⟨true, false, false⟩
    else if !slotLive s slot then ⟨false, false, true⟩
    else
      let m := (slotAt s slot).image
      let e := opEntry m (paUnit a)
      ⟨decide (hOps m ≤ paUnit a) || decide (e.blobWords (blobWord m e) ≤ paField a), false, false⟩
  else match paddrReg a with
    | none => ⟨true, false, false⟩
    | some r => ⟨false, r.access == .rc && decide (cls < 1), false⟩

/-- The value at a PADDR. -/
def readAt (s : State) (slot a : Nat) : Nat :=
  if paSpace a = 1 then
    let m := (slotAt s slot).image
    blobWord m (opEntry m (paUnit a)) (paField a)
  else match paddrReg a with
    | none => 0
    | some r => readWord s r

/-- A read of an RC word clears it (R7, R10); a FLOW_CANC beyond the flow count holds nothing to clear. -/
def readClear (s : State) (a : Nat) : State :=
  if paSpace a = 1 then s
  else match paddrReg a with
    | some (.flowCanc f) => if f < hFlows (activeImage s) then rcClear s (.flowCanc f) else s
    | some r => if r.access = .rc then rcClear s r else s
    | none => s

/-- PARAM_READ (R221). -/
def doParamRead : Request → State → State :=
  runOp 0x11 (countLen 4) (fun s q =>
    let slot := pay8 q 0
    let n := pay16 q 2
    let as := (List.range n).map (fun i => pay32 q (4 + 4 * i))
    let fails := as.map (readFails s (classOf s q) slot)
    if !within n 1 64 then .refuse .range []
    else match failStatus (fails.any (fun f => f.range)) (fails.any (fun f => f.denied)) (fails.any (fun f => f.state)) with
      | some st => .refuse st []
      | none => .done (as.foldl readClear s) (as.flatMap (fun a => u32 (readAt s slot a))))

/-- PARAM_READ (R221). -/
def execParamRead (q : Request) (s : State) : Step := .next (doParamRead q s)

/-- HAMPER_OPEN (R206, R222). -/
def doHamperOpen : Request → State → State :=
  runOp 0x12 (lenIs 4) (fun s q =>
    let t := pay8 q 0
    if !(t == 0 || t == 1 || t == 0xFF) then .refuse .range []
    else if t != 0xFF && !slotLive s t then .refuse .state []
    else match s.params.hampers.findIdx? (fun h => h.phase == .empty) with
      | none => .refuse .noSpace []
      | some h =>
        let gid : Word := if t = 0xFF then 0#32 else (slotAt s t).graphId
        .done (modHamper s h (fun _ => { phase := .opened, slot := t, port := portNum q.port, graphId := gid, entries := [] }))
          (u8 h ++ zeros 3 ++ u32 gid.toNat))

/-- HAMPER_OPEN (R222). -/
def execHamperOpen (q : Request) (s : State) : Step := .next (doHamperOpen q s)

/-- R208: the opener, or a port of class OWNER. -/
def mayUse (s : State) (q : Request) (h : Hamper) : Bool :=
  h.phase == .empty || h.port == portNum q.port || decide (2 ≤ classOf s q)

/-- A staged entry replaces the value its PADDR has, or joins at the end (R207). -/
def stageOne (es : List (Word × Word)) (x : Word × Word) : List (Word × Word) :=
  if es.any (fun y => y.1 == x.1) then es.map (fun y => if y.1 = x.1 then x else y) else es ++ [x]

/-- HAMPER_STAGE (R205, R207, R208, R223). -/
def doHamperStage : Request → State → State :=
  runOp 0x13 (countLen 8) (fun s q =>
    let h := pay8 q 0
    let n := pay16 q 2
    let hd := hamperAt s h
    let es := payEntries q n
    let all := wordEntries hd.entries ++ es
    let fails := es.map (fun x =>
      if hd.phase != .opened && paSpace x.1 == 1 then ⟨false, false, true⟩
      else entryFails s s true (classOf s q) hd.slot all x)
    let staged := (entryWords es).foldl stageOne hd.entries
    let refused := (fails.findIdx? EntryFails.any).getD 0xFFFF
    let pay (i : Nat) : List Byte := u16 hd.entries.length ++ u16 i
    if !within h 0 7 then .refuse .range (u16 0 ++ u16 0xFFFF)
    else if !within n 1 511 then .refuse .range (pay 0xFFFF)
    else if fails.any (fun f => f.range) then .refuse .range (pay refused)
    else if !mayUse s q hd then .refuse .denied (pay 0xFFFF)
    else if fails.any (fun f => f.denied) then .refuse .denied (pay refused)
    else if hd.phase != .opened then .refuse .state (pay 0xFFFF)
    else if fails.any (fun f => f.state) then .refuse .state (pay refused)
    else if 4096 < staged.length then .refuse .noSpace (pay 0xFFFF)
    else .done (modHamper s h (fun x => { x with entries := staged })) (u16 staged.length ++ u16 0xFFFF))

/-- HAMPER_STAGE (R223). -/
def execHamperStage (q : Request) (s : State) : Step := .next (doHamperStage q s)

/-- The space-0x1 entries of a list meet R203 against the slot as it stands. -/
def opsHold (s : State) (slot : Nat) (es : List Entry) : Bool :=
  es.all (fun x => paSpace x.1 != 1 || opFails s slot es x.1 x.2 == (false, false))

/-- HAMPER_COMMIT (R209, R224). -/
def doHamperCommit : Request → State → State :=
  runOp 0x14 (lenIs 16) (fun s q =>
    let h := pay8 q 0
    let fl := pay8 q 1
    let ms := pay16 q 2
    let hd := hamperAt s h
    let c0 := earliestCommit s - 1#40
    let req := payBsn q 8
    let r := bsnResolve req c0
    let late := bit fl 0 && (r == .tooFar || (r == .early && bit fl 1))
    if !within h 0 7 || (bit fl 2 && !within ms 1 50) || late ||
        (hd.phase == .opened && !opsHold s hd.slot (wordEntries hd.entries)) then .refuse .range []
    else if hd.phase != .opened then .refuse .state []
    else if !mayUse s q hd then .refuse .denied []
    else
      let c := if bit fl 0 && r == .asked then req else c0
      let k : Commit := { id := s.params.nextId, hamper := some h, slot := hd.slot, entries := hd.entries,
                          interp := if bit fl 2 then some ms else none, boundary := c + 1#40, strict := bit fl 1,
                          deferred := false, stale := false }
      .pend (modHamper (schedule s k) h (fun x => { x with phase := .committing })) (.commit k.id) (some (bsn8 c)))

/-- HAMPER_COMMIT (R224). -/
def execHamperCommit (q : Request) (s : State) : Step := .next (doHamperCommit q s)

/-- HAMPER_DISCARD (R225). -/
def doHamperDiscard : Request → State → State :=
  runOp 0x15 (lenIs 4) (fun s q =>
    let h := pay8 q 0
    let hd := hamperAt s h
    if !within h 0 7 then .refuse .range []
    else if !mayUse s q hd then .refuse .denied []
    else if !(hd.phase == .opened || hd.phase == .stale) then .refuse .state []
    else .done (modHamper s h (fun _ => {})) [])

/-- HAMPER_DISCARD (R225). -/
def execHamperDiscard (q : Request) (s : State) : Step := .next (doHamperDiscard q s)

/-- Codes of a Hamper's state. -/
def hamperCode : HamperPhase → Nat
  | .empty => 0 | .opened => 1 | .committing => 2 | .stale => 3

/-- One record of HAMPER_STATUS. -/
def hamperRecord (s : State) (h : Nat) : List Byte :=
  let hd := hamperAt s h
  if hd.phase = .empty then zeros 16
  else
    let c := if hd.phase = .committing then s.params.commits.find? (fun c => c.hamper == some h) else none
    u8 (hamperCode hd.phase) ++ u8 hd.slot ++ u8 hd.port ++ u8 (b2n ((c.map (fun c => c.deferred)).getD false)) ++
      u16 hd.entries.length ++ zeros 2 ++ (match c with
        | some c => bsn8 (c.boundary - 1#40)
        | none => zeros 8)

/-- HAMPER_STATUS (R226). -/
def doHamperStatus : Request → State → State :=
  runOp 0x16 (lenIs 0) (fun s _ => .done s ((List.range 8).flatMap (hamperRecord s)))

/-- HAMPER_STATUS (R226). -/
def execHamperStatus (q : Request) (s : State) : Step := .next (doHamperStatus q s)

/-! ## A slot loses its graph (R206) -/

/-- Every open or committing Hamper of slot `i`, and every commit on its way with it, goes stale. -/
def slotGone (s : State) (i : Nat) : State :=
  { s with params := { s.params with
    hampers := s.params.hampers.map (fun h =>
      if h.slot = i ∧ (h.phase = .opened ∨ h.phase = .committing) then { h with phase := .stale } else h),
    commits := s.params.commits.map (fun c => if c.slot = i then { c with stale := true, hamper := none } else c) } }

/-! ## The commit boundary (R209-R219) -/

/-- The crossfade of a route unit is still running at the present boundary (R217). -/
def fadeRuns (s : State) (x : Crossfade) : Bool := decide (bsnSince s.bsn x.block < x.blocks + 1)

/-- The route units that entries name. -/
def routeUnits (es : List Entry) : List Nat := (es.filter (fun x => paSpace x.1 == 2)).map (fun x => paUnit x.1)

/-- The running crossfades of a commit's entries. -/
def fadesOn (s : State) (es : List Entry) : List Crossfade :=
  s.params.fades.filter (fun x => fadeRuns s x && (routeUnits es).contains x.unit)

/-- Sinks bound after a commit, with those that crossfade to unbound (R216); `t` holds the route words after it. -/
def boundSinks (s t : State) : Nat :=
  ((List.range 68).filter (fun k => sinkFeed t k != 0xFF || sinkFeed s k != 0xFF ||
    s.params.fades.any (fun x => x.unit == 0x100 + k && fadeRuns s x && x.old != 0xFF))).length

/-- Store one word of an instance in its slot's blob (R89). -/
def putWord (s : State) (slot inst i v : Nat) : State :=
  { s with graph := modSlot s.graph slot (fun x =>
    let e := opEntry x.image inst
    { x with image := imageWrite x.image (hBlobOff x.image + e.blobOff + 4 * i) (leBytes 4 v) }) }

/-- The state with the words of all entries stored and nothing else done. -/
def rawAll (s : State) (slot : Nat) (es : List Entry) : State :=
  es.foldl (fun t x => if paSpace x.1 = 1 then putWord t slot (paUnit x.1) (paField x.1) x.2 else rawRegs t [x]) s

/-- One entry of the changes of a boundary: slot, PADDR, value and the interpolation of its commit (R212). -/
structure CommitEntry where
  slot   : Nat
  addr   : Nat
  value  : Nat
  interp : Option Nat
  deriving DecidableEq, Repr

/-- Merge a commit's entries into the changes of the boundary: the later value and interpolation stand. -/
def mergeEntries (l : List CommitEntry) (new : List CommitEntry) : List CommitEntry :=
  l.filter (fun x => !new.any (fun y => y.addr == x.addr && (y.slot == x.slot || paSpace x.addr != 1))) ++ new

/-- The commits of a boundary as they are judged: the state with replies and Hampers settled, the working state with the
words of every commit that applies, and the merged changes. -/
structure CommitAcc where
  real  : State
  work  : State
  list  : List CommitEntry

/-- The job of a commit. -/
def isCommit (id : Nat) : Job → Bool
  | .commit i => i == id
  | _ => false

/-- Take a commit off the list; its Hamper goes to a phase. -/
def endCommit (s : State) (c : Commit) (ok : Bool) : State :=
  let s := { s with params := { s.params with commits := s.params.commits.filter (fun x => x.id != c.id) } }
  match c.hamper with
  | some h => modHamper s h (fun x => if ok then {} else { x with phase := .opened })
  | none => s

/-- A commit that applies nothing replies with a status (R211). -/
def failCommit (s : State) (c : Commit) (st : Status) : State := completeJob (endCommit s c false) (isCommit c.id) st []

/-- The last entry for each PADDR. -/
def lastEntries : List Entry → List Entry
  | [] => []
  | x :: xs => if xs.any (fun y => y.1 == x.1) then lastEntries xs else x :: lastEntries xs

/-- The status with which a commit fails at its boundary, if any. -/
def commitStatus (a : CommitAcc) (c : Commit) (es : List Entry) (t : State) : Option Status :=
  if !c.stale && (!opsHold a.work c.slot es || !regsCommitOk t) then some .range
  else if c.stale || (c.strict && !(fadesOn a.real es).isEmpty) || !stageFree a.work t then some .state
  else if !(routeUnits es).isEmpty && decide (64 < boundSinks a.real t) then some .noSpace
  else none

/-- The last boundary that one of the running crossfades of a commit needs. -/
def fadesEnd (l : List Crossfade) (now : Bsn) : Bsn :=
  now + BitVec.ofNat 40 ((l.map (fun x => x.blocks + 1 - bsnSince now x.block)).foldl max 1)

/-- One due commit: deferred, failed, or applied to the working state. -/
def commitOne (a : CommitAcc) (c : Commit) : CommitAcc :=
  let es := lastEntries (wordEntries c.entries)
  let busy := fadesOn a.real es
  if !c.stale && !c.strict && !busy.isEmpty then
    { a with real := { a.real with params := { a.real.params with
      commits := a.real.params.commits.map (fun x =>
        if x.id = c.id then { x with deferred := true, boundary := fadesEnd busy a.real.bsn } else x) } } }
  else
    let t := rawAll a.work c.slot es
    match commitStatus a c es t with
    | some st => { a with real := failCommit a.real c st }
    | none =>
      let b := bsn8 (a.real.bsn - 1#40)
      { real := completeJob (endCommit a.real c true) (isCommit c.id) .ok (if c.hamper.isSome then b else b ++ u16 0xFFFF),
        work := t, list := mergeEntries a.list (es.map (fun x => ⟨c.slot, x.1, x.2, c.interp⟩)) }

/-- A word of an instance takes its committed value (R211, R213, R214). -/
def applyWord (s : State) (x : CommitEntry) : State :=
  let c := s.bsn - 1#40
  let sl := slotAt s x.slot
  let m := sl.image
  let inst := paUnit x.addr
  let i := paField x.addr
  let e := opEntry m inst
  let t := putWord s x.slot inst i x.value
  let t := { t with graph := modSlot t.graph x.slot (fun k =>
    { k with muted := k.muted.filter (fun u => !(u.1 == inst && u.2 == i)) }) }
  -- R111: a commit to the slot that takes over with this block names that block
  let taking := s.graph.act.any (fun a => a.slot == some x.slot && a.n + 1#40 == s.bsn)
  let clear := e.type == tMETER && i == 2 && blobWord m e 2 != x.value && (sl.phase == .active || taking)
  let t := if clear && !t.graph.cleared.contains (x.slot, inst) then
      { t with graph := { t.graph with cleared := (x.slot, inst) :: t.graph.cleared } }
    else t
  if sl.phase != .active then t
  else
    let old := liWord s m (c - 1#40) inst e i 23
    let had := s.graph.ramps.any (fun r => r.op == inst && r.word == i)
    let rest := s.graph.ramps.filter (fun r => !(r.op == inst && r.word == i))
    let new := toSigned 32 x.value
    let ramps := match x.interp with
      | some ms =>
        if e.mark i == .li && sl.n != c && (old != new || had) then rest ++ [⟨inst, i, old, new, c, 96 * ms⟩] else rest
      | none => rest
    { t with graph := { t.graph with ramps := ramps } }

/-- A route entry changes, and with its FEED its crossfade begins with block c (R215, R217, R218). -/
def applyRoute (s : State) (r : Reg) (unit v : Nat) : State :=
  let w := maskTo r v
  let old := bits (rd s r) 7 0
  let t := wr s r w
  if old = bits w 7 0 then t
  else
    let x : Crossfade := { unit := unit, old := old, block := s.bsn - 1#40, blocks := 4 * bits w 21 16, equal := bit w 22 }
    let t := { t with params := { t.params with fades := t.params.fades.filter (fun y => y.unit != unit) ++ [x] } }
    if unit < 0x100 then t
    else { t with graph := { t.graph with
      sinks := modAt t.graph.sinks (unit - 0x100) (fun k => { k with guardOld := k.guard, guard := 2 ^ 31 }) } }

/-- One change of the boundary reaches its unit. -/
def applyChange (s : State) (x : CommitEntry) : State :=
  if paSpace x.addr = 1 then applyWord s x
  else match paddrReg x.addr with
    | none => s
    | some (.pmicCfg m) => applyPmicCfg s m (maskTo (.pmicCfg m) x.value)
    | some r => if paSpace x.addr = 2 then applyRoute s r (paUnit x.addr) x.value else applyReg s r (maskTo r x.value)

/-- The rank of a change. -/
def rankOf (x : CommitEntry) : Nat :=
  if paSpace x.addr = 1 then 1
  else match paddrReg x.addr with
    | some r => applyRank r
    | none => 1

/-- The value that a register takes with the changes of a boundary. -/
def changedTo (s : State) (l : List CommitEntry) (r : Reg) : Nat :=
  match l.find? (fun x => paSpace x.addr != 1 && x.addr == r.addr) with
  | some x => maskTo r x.value
  | none => rd s r

/-- The change names a word of synthesizer `a`. -/
def namesAux (a : Nat) (x : CommitEntry) : Bool :=
  paSpace x.addr != 1 && [Reg.auxCfg a, .auxInt a, .auxNum a, .auxDen a].any (fun r => r.addr == x.addr)

/-- The words of the synthesizers that the changes name, each synthesizer's together (R211). -/
def applyAuxChanges (s : State) (l : List CommitEntry) : State :=
  (List.range 4).foldl (fun t a =>
    if l.any (namesAux a) then
      applyAuxWords t a (changedTo t l (.auxCfg a)) (changedTo t l (.auxInt a)) (changedTo t l (.auxNum a))
        (changedTo t l (.auxDen a))
    else t) s

/-- A change comes before another: by rank, then by PADDR and slot. -/
def changeLe (x y : CommitEntry) : Bool :=
  let k (z : CommitEntry) : Nat := (rankOf z * 2 ^ 32 + z.addr) * 256 + z.slot
  decide (k x ≤ k y)

/-- A change takes its place in an ordered list. -/
def placeChange (x : CommitEntry) : List CommitEntry → List CommitEntry
  | [] => [x]
  | y :: ys => if changeLe x y then x :: y :: ys else y :: placeChange x ys

/-- All changes of a boundary reach their units together: the order of the entries in their commits is of no account (R211). -/
def applyChanges (s : State) (l : List CommitEntry) : State :=
  let rest := l.filter (fun x => !(List.range 4).any (fun a => namesAux a x))
  let t := (rest.foldr placeChange []).foldl applyChange (applyAuxChanges s l)
  wakeMoved t (wakeMics s)

/-- COMMIT_APPLY (R209-R219): every commit due at the present boundary, in acceptance order. -/
def execCommitApply (s : State) : Step :=
  let due := s.params.commits.filter (fun c => bsnReached s.bsn c.boundary)
  if s.cycle ≠ 0 ∨ due.isEmpty then .next s
  else
    let a := due.foldl commitOne { real := s, work := s, list := [] }
    .next (applyChanges a.real a.list)

/-- ROUTE_CROSSFADE_END (R217): frame N − 1 has been computed. -/
def execRouteCrossfadeEnd (sink : Bool) (entry : Fin 68) (s : State) : Step :=
  let unit := (if sink then 0x100 else 0) + entry.val
  .next { s with params := { s.params with fades := s.params.fades.filter (fun x => x.unit != unit || fadeRuns s x) } }

/-- INTERP_RAMP_END (R213): the ramp's last frame has been computed. -/
def execInterpRampEnd (op word : Nat) (s : State) : Step :=
  .next { s with graph := { s.graph with
    ramps := s.graph.ramps.filter (fun r =>
      !(r.op == op && r.word == word && decide (r.n / 24 + 1 ≤ bsnSince s.bsn r.block))) } }

/-! ## Direct writes -/

/-- PORT_ENABLE and PORT_CONFIG_CHANGE (R228, R235, R248): a committed change of EN, or of the whole configuration, that a
commit would take. -/
def execPortEnable (p : Fin 7) (s : State) : Step :=
  let v := rd s (portCfg p)
  if bit v 0 then .next s
  else if (portCfg p).rangeOk s (v + 1) && regsCommitOk (wr s (portCfg p) (v + 1)) then fieldStep s (applyPortCfg s p (v + 1))
  else .next s
def execPortConfigChange (p : Fin 7) (value : Word) (s : State) : Step :=
  let v := Nat.land value.toNat (portCfg p).mask
  if portEn s p && bit v 0 && (portCfg p).rangeOk s v && regsCommitOk (wr s (portCfg p) v) then fieldStep s (applyPortCfg s p v)
  else .next s

/-- PADDOCK_SIZE_WRITE (R156). -/
def execPaddockSizeWrite (value : Word) (s : State) : Step :=
  let v := maskTo .drvCfg value.toNat
  if Reg.drvCfg.rangeOk s v && slotsEmpty s then fieldStep s (wr s .drvCfg v) else .next s

/-- REGISTER_WRITE (R202, R297, R300): a field outside spaces 0x1 and 0x2 takes a value in range that a commit of it alone
would take. DRV_CFG has a row of its own. -/
def execRegisterWrite (paddr value : Word) (s : State) : Step :=
  match paddrReg paddr.toNat with
  | none => .next s
  | some r =>
    let v := maskTo r value.toNat
    let t := wr s r v
    if r.access ≠ .rw ∨ paSpace paddr.toNat = 2 ∨ r = .drvCfg then .next s
    else if r.rangeOk s v && regsCommitOk t && stageFree s t then fieldStep s (applyReg s r v)
    else .next s

end Sys2Proof.Machine
end

