-- ==== Sys2Proof/Machine/Slots.lean ====
section
/-!
DEFINITION. Graph slots (ch. 02): the graph opcodes 0x20 to 0x27, the end of a check, the switch of R58, bulk memory
0xB0 and 0xB1, and the loss of SRAM (R57).
-/

namespace Sys2Proof.Machine

open Sys2Proof

/-! ## Memory and guarantee (R55, R63, R67) -/

/-- The graph memory in bytes. -/
def graphMemory (s : State) : Int :=
  (1572864 * (s.health.banks.filter (fun b => b.inSvc)).length : Nat) - (65536 * bits (rd s .drvCfg) 4 0 : Nat) - 524288

/-- What a slot occupies. -/
def occupied (x : Slot) : Nat :=
  match x.phase with
  | .empty => 0
  | .loading => x.imageLen
  | _ => x.footprint

/-- What `bytes` in slot `i` beside the other slot would take fits. -/
def fits (s : State) (i bytes : Nat) : Bool := decide ((occupied (slotAt s (1 - i)) + bytes : Int) ≤ graphMemory s)

/-- Static load S of a slot (R63). -/
def loadOf (s : State) (x : Slot) : Nat := loadPct (loadSum x.image) (enginesE s.drover)

/-- The guarantee conditions (R67). -/
def guaranteed (s : State) (x : Slot) : Bool :=
  decide (32768 ≤ x.slack) && decide (loadOf s x ≤ 8500) && decide (0 < enginesE s.drover)

/-- A MEM_READ or MEM_WRITE on slot `i` is outstanding (R69, R73, R397). -/
def bulkOn (s : State) (i : Nat) : Bool := allPorts.any (fun p => (getPort s p).outstanding.any (fun o => o.slot == i))

/-- Replace slot `i`. -/
def setSlot (s : State) (i : Nat) (x : Slot) : State := { s with graph := modSlot s.graph i (fun _ => x) }

/-! ## Loading (R69-R71, R73) -/

/-- GRAPH_BEGIN (R69). -/
def doGraphBegin : Request → State → State :=
  runOp 0x20 (lenIs 8) (fun s q =>
    let i := pay8 q 0
    let len := pay32 q 4
    let x := slotAt s i
    if 1 < i || !(within len 64 12582912 && len % 32 == 0) then .refuse .range []
    else if x.phase == .active || x.phase == .armed then .refuse .state []
    else if x.checking || bulkOn s i then .refuse .busy []
    else if !fits s i len then .fail (slotGone (setSlot s i {}) i) .noSpace []
    else .done { slotGone (setSlot s i { phase := .loading, imageLen := len }) i with sramClean := false } [])

/-- GRAPH_BEGIN (R69). -/
def execGraphBegin (q : Request) (s : State) : Step := .next (doGraphBegin q s)

/-- GRAPH_DATA (R70). -/
def doGraphData : Request → State → State :=
  runOp 0x21 (fun p => within p.length 9 4096) (fun s q =>
    let i := pay8 q 0
    let off := pay32 q 4
    let data := q.payload.drop 8
    let x := slotAt s i
    if 1 < i || off % 4 != 0 || (x.phase == .loading && decide (x.imageLen < off + data.length)) then .refuse .range []
    else if x.phase != .loading then .refuse .state []
    else if x.checking then .refuse .busy []
    else .done (setSlot s i { x with image := imageWrite x.image off data }) [])

/-- GRAPH_DATA (R70). -/
def execGraphData (q : Request) (s : State) : Step := .next (doGraphData q s)

/-- The 16 bytes of a GRAPH_END reply. -/
def endReply (code unlimited idx : Nat) (slack : Int) (load tasks foot : Nat) : List Byte :=
  u8 code ++ u8 unlimited ++ u16 idx ++ i32 slack ++ u16 load ++ u16 tasks ++ u32 foot

/-- GRAPH_END (R71). -/
def doGraphEnd : Request → State → State :=
  runOp 0x22 (lenIs 4) (fun s q =>
    let i := pay8 q 0
    let x := slotAt s i
    if 1 < i then .refuse .range (zeros 16)
    else if x.phase != .loading then .refuse .state []
    else if x.checking then .refuse .busy (zeros 16)
    else .pend (setSlot s i { x with checking := true }) (.graphEnd i) none)

/-- GRAPH_END (R71). -/
def execGraphEnd (q : Request) (s : State) : Step := .next (doGraphEnd q s)

/-- The job of a GRAPH_END. -/
def isGraphEnd : Job → Bool
  | .graphEnd _ => true
  | _ => false

/-- What a check of slot `i` ends with: the slot, the status and the reply (R71). A reply other than OK gives only the fields that
the model takes as computed: none on RANGE, all but slack and S on NO_SPACE and FAULT (DESIGN CHOICE, log entry 77). -/
def checkSlot (s : State) (i : Nat) (copyFault : Bool) : Slot × Status × List Byte :=
  let x := slotAt s i
  let m := x.image
  let r := graphCheck m x.imageLen s.free
  let foot := footprintOf m
  let un := unlimitedOuts m
  let tasks := taskTotal m
  if r.1 ≠ 0 then ({}, .range, endReply r.1 0 r.2 0 0 0 0)
  else if !fits s i foot then ({}, .noSpace, endReply 0 un 0xFFFF 0 0 tasks foot)
  else if copyFault then ({}, .fault, endReply 0 un 0xFFFF 0 0 tasks foot)
  else
    let y : Slot := { phase := .ready, imageLen := x.imageLen, image := m, graphId := BitVec.ofNat 32 (imgN m 0x2C 4),
                      footprint := foot, unlimited := un, slack := slackOf m, tasks := tasks }
    (y, .ok, endReply 0 un 0xFFFF y.slack (loadOf s y) tasks foot)

/-- GRAPH_CHECK_DONE (R54, R71): the GRAPH_END accepted first among those that run. -/
def execGraphCheckDone (copyFault : Bool) (s : State) : Step :=
  match (findJobs s isGraphEnd).head? with
  | some (p, o) =>
    match o.job with
    | .graphEnd i =>
      let r := checkSlot s i copyFault
      .next (finalReply (setSlot (nextFree s) i r.1) p o.tag o.op r.2.1 r.2.2)
    | _ => .next s
  | none => .next s

/-- GRAPH_UNLOAD (R73). -/
def doGraphUnload : Request → State → State :=
  runOp 0x24 (lenIs 4) (fun s q =>
    let i := pay8 q 0
    let x := slotAt s i
    if 1 < i then .refuse .range []
    else if x.phase == .active || x.phase == .armed then .refuse .state []
    else if x.phase == .empty then .done s []
    else if x.checking || bulkOn s i then .refuse .busy []
    else .done (slotGone (setSlot s i {}) i) [])

/-- GRAPH_UNLOAD (R73). -/
def execGraphUnload (q : Request) (s : State) : Step := .next (doGraphUnload q s)

/-! ## Activation (R58-R61, R72) -/

/-- The earliest switch block of an activation accepted now (R61). -/
def earliestSwitch (s : State) (fade : Bool) (f : Nat) : Bsn := s.bsn + BitVec.ofNat 40 (1 + if fade then 4 * f else 0)

/-- GRAPH_ACTIVATE (R72). -/
def doGraphActivate : Request → State → State :=
  runOp 0x23 (lenIs 16) (fun s q =>
    let i := pay8 q 0
    let mode := pay8 q 1
    let fl := pay8 q 2
    let f := pay16 q 4
    let fade := mode == 1
    let x := slotAt s i
    let n0 := earliestSwitch s fade f
    let req := payBsn q 8
    let r := bsnResolve req n0
    if !(i == 0 || i == 1 || i == 0xFF) || 1 < mode || (fade && !within f 1 50) ||
        (bit fl 0 && (r == .tooFar || (r == .early && bit fl 1))) ||
        (i != 0xFF && slotLive s i && !bit fl 2 && !guaranteed s x) then .refuse .range []
    else if (i != 0xFF && x.phase != .ready) || (i == 0xFF && !graphActive s) || s.graph.act.isSome then
      .refuse .state []
    else
      let n := if bit fl 0 && r == .asked then req else n0
      let a : Activation := { slot := if i = 0xFF then none else some i, fade := fade, f := f, n := n, falls := graphActive s }
      let t := if i = 0xFF then s else setSlot s i { x with phase := .armed, n := n, noGuar := bit fl 2 }
      .pend { t with graph := { t.graph with act := some a } } .graphActivate (some (bsn8 n)))

/-- GRAPH_ACTIVATE (R72). -/
def execGraphActivate (q : Request) (s : State) : Step := .next (doGraphActivate q s)

/-- The job of a GRAPH_ACTIVATE. -/
def isActivate : Job → Bool
  | .graphActivate => true
  | _ => false

/-- The boundary at which the first move-out with a falling gain is computed, or the switch boundary (R72). -/
def activationCommit (a : Activation) : Bsn :=
  if a.fade && a.falls then a.n + 1#40 - BitVec.ofNat 40 (4 * a.f) else a.n + 1#40

/-- The slot that an activation armed goes back to READY. -/
def disarm (s : State) (a : Activation) : State :=
  let t := { s with graph := { s.graph with act := none } }
  match a.slot with
  | some i => setSlot t i { slotAt t i with phase := .ready, n := 0#40, noGuar := false }
  | none => t

/-- The slots after a switch. -/
def switchSlots (g : Graph) (a : Activation) : Graph :=
  let old := g.slots.map (fun x => if x.phase = .active then { x with phase := .ready, n := 0#40, noGuar := false, sat := 0 } else x)
  match a.slot with
  | some i => { g with slots := modAt old i (fun x => { x with phase := .active, n := a.n, sat := 0 }),
                       cleared := g.cleared.filter (fun x => x.1 == i) }
  | none => { g with slots := old, cleared := [] }

/-- The switch of an activation (R58-R60, R62): slots, buffers, the guard limiters' start and the rise. -/
def switchGraph (s : State) (a : Activation) : State :=
  let g := switchSlots s.graph a
  let image := match a.slot with
    | some i => (g.slots.getD i {}).image
    | none => []
  { s with graph := { g with
    act := none,
    rises := (if a.fade && a.slot.isSome then [⟨a.n, a.f⟩] else []) ++
      g.rises.filter (fun r => decide (bsnSince s.bsn r.n < 4 * r.f + 2)),
    bufs := if a.slot.isSome then loadBuffers image a.n else [], ramps := [], reload := [],
    sinks := g.sinks.map (fun x => { x with guard := 2 ^ 31, guardOld := 2 ^ 31, engaged := false }) } }

/-- GRAPH_SWITCH (R58): the switch, and the compute of block n where the fabric is clocked. No task of another graph is left
(R127, R153). -/
def execGraphSwitch (s : State) : Step :=
  match s.graph.act with
  | none => .next s
  | some a =>
    if s.cycle ≠ 0 ∨ bsnReached s.bsn (a.n + 1#40) = false then .next s
    else
      let t := completeJobs (switchGraph s a) isActivate (fun _ => (.ok, bsn8 a.n))
      let t := { t with drover := tasksGone t.drover }
      if a.slot.isSome && t.power.fabricOn then .next (computeStart t (t.bsn - 1#40)) else .next t

/-! ## Status (R74-R76) -/

/-- Slot state codes. -/
def slotCode : SlotPhase → Nat
  | .empty => 0 | .loading => 1 | .ready => 2 | .armed => 3 | .active => 4

/-- One record of GRAPH_STATUS. -/
def graphRecord (s : State) (i : Nat) : List Byte :=
  let x := slotAt s i
  let live := slotLive s i
  let on := x.phase == .armed || x.phase == .active
  let pick (b : Bool) (n : Nat) : Nat := if b then n else 0
  u8 (slotCode x.phase) ++ u8 (b2n (live && guaranteed s x) + b2n (on && x.noGuar) * 2 + b2n x.checking * 4) ++
    u8 (pick live x.unlimited) ++ zeros 1 ++ u32 (pick live x.graphId.toNat) ++
    u32 (if x.phase = .loading then x.imageLen else pick live x.footprint) ++ i32 (if live then x.slack else 0) ++
    u16 (if live then loadOf s x else 0) ++ u16 (pick live x.tasks) ++ (if on then bsn8 x.n else zeros 8) ++
    u32 (pick (x.phase == .active) x.sat)

/-- GRAPH_STATUS (R74). -/
def doGraphStatus : Request → State → State :=
  runOp 0x25 (lenIs 0) (fun s _ => .done s (graphRecord s 0 ++ graphRecord s 1))

/-- GRAPH_STATUS (R74). -/
def execGraphStatus (q : Request) (s : State) : Step := .next (doGraphStatus q s)

/-- LOAD_METER (R75). -/
def doLoadMeter : Request → State → State :=
  runOp 0x26 (lenIs 0) (fun s _ =>
    let k := s.graph.meter
    .done s (u8 (enginesE s.drover) ++ zeros 1 ++ u16 k.threshold ++
      u16 (match slotIn s.graph .active with
        | some i => loadOf s (slotAt s i)
        | none => 0) ++
      u16 k.last ++ u16 k.peak ++ zeros 2 ++ u32 k.late ++ bsn8 k.lastBsn))

/-- LOAD_METER (R75). -/
def execLoadMeter (q : Request) (s : State) : Step := .next (doLoadMeter q s)

/-- LOAD_METER_SET (R76). -/
def doLoadMeterSet : Request → State → State :=
  runOp 0x27 (lenIs 4) (fun s q =>
    let v := pay16 q 0
    if !within v 1 10000 then .refuse .range []
    else .done { s with graph := { s.graph with meter := { s.graph.meter with
      threshold := v, peak := if bit (pay8 q 2) 0 then 0 else s.graph.meter.peak } } } [])

/-- LOAD_METER_SET (R76). -/
def execLoadMeterSet (q : Request) (s : State) : Step := .next (doLoadMeterSet q s)

/-! ## Bulk memory (R77, R78) -/

/-- A target exists in the slot's graph, and `count` words from `first` lie in it. -/
def bulkOk (m : Memory) (target buf first count : Nat) : Bool :=
  if target = 1 then decide (first + count ≤ hBlobLen m / 32)
  else decide (buf < hBufs m) && decide (first + count ≤ (bufEntry m buf).len)

/-- The words that a READY or ARMED slot shows (R77). -/
def readyWord (m : Memory) (target buf w : Nat) : Nat :=
  if target = 1 then blobAreaWord m w
  else
    let b := bufEntry m buf
    if b.kind = 1 ∨ b.init = 0xFFFFFFFF then 0 else imgN m (hBlobOff m + b.init + 32 * w) 30

/-- The words that the ACTIVE slot shows (R77). -/
def activeWords (s : State) (m : Memory) (target buf first count : Nat) : List (BitVec 256) :=
  (List.range count).map (fun i =>
    let w := first + i
    if target = 1 then BitVec.ofNat 256 (blobAreaWord m w)
    else match s.graph.bufs[buf]? with
      | some d => BitVec.ofNat 256 (activeWord m (bufEntry m buf) d w)
      | none => 0#256)

/-- Bytes of words. -/
def wordBytes (ws : List (BitVec 256)) : List Byte := ws.flatMap (fun w => leBytes 32 w.toNat)

/-- MEM_READ (R77). -/
def doMemRead : Request → State → State :=
  runOp 0xB0 (lenIs 12) (fun s q =>
    let i := pay8 q 0
    let target := pay8 q 1
    let buf := pay16 q 2
    let first := pay32 q 4
    let count := pay16 q 8
    let x := slotAt s i
    if 1 < i || 1 < target || !within count 1 127 || (slotLive s i && !bulkOk x.image target buf first count) then
      .refuse .range []
    else if !slotLive s i then .refuse .state []
    else if x.phase == .ready then
      .done s (wordBytes ((List.range count).map (fun k => BitVec.ofNat 256 (readyWord x.image target buf (first + k)))))
    else .pend s (.memRead i target buf first count) none)

/-- MEM_READ (R77). -/
def execMemRead (q : Request) (s : State) : Step := .next (doMemRead q s)

/-- The job of a MEM_READ. -/
def memJob : Job → Option (Nat × Nat × Nat × Nat × Nat)
  | .memRead i target buf first count => some (i, target, buf, first, count)
  | _ => none

/-- The words of a MEM_READ at its boundary. A slot that is READY by then, after an abort of its activation or as the old slot
of a switch, shows what a READY slot shows (DESIGN CHOICE, log entry 68: R77 gives the contents by the slot's phase and does
not say of which instant). -/
def memWords (s : State) (j : Nat × Nat × Nat × Nat × Nat) : List (BitVec 256) :=
  let x := slotAt s j.1
  if x.phase = .active then activeWords s x.image j.2.1 j.2.2.1 j.2.2.2.1 j.2.2.2.2
  else (List.range j.2.2.2.2).map (fun k => BitVec.ofNat 256 (readyWord x.image j.2.1 j.2.2.1 (j.2.2.2.1 + k)))

/-- MEM_READ_SNAPSHOT (R77): every read accepted before the present block. -/
def execMemReadSnapshot (s : State) : Step :=
  if s.cycle ≠ 0 then .next s
  else
    .next ((findJobs s (fun j => (memJob j).isSome)).foldl (fun t po =>
      match memJob po.2.job with
      | some j =>
        if po.2.bsn = t.bsn then t
        else finalReply t po.1 po.2.tag po.2.op .ok (wordBytes (memWords t j))
      | none => t) s)

/-- Length 12 + 32 × count (R78). -/
def memWriteLen (p : List Byte) : Bool := decide (12 ≤ p.length) && p.length == 12 + 32 * leField p 8 2

/-- Byte ranges [a, a + n) and [b, b + k) meet. -/
def overlaps (a n b k : Nat) : Bool := decide (a < b + k) && decide (b < a + n)

/-- The image after a MEM_WRITE, with the offset in the blob area at which it wrote (R78). -/
def memWritten (m : Memory) (target buf first : Nat) (data : List Byte) : Memory × Nat :=
  let off := if target = 1 then 32 * first else (bufEntry m buf).init + 32 * first
  let kept := (List.zip (List.range data.length) data).map (fun x => if target = 0 ∧ 30 ≤ x.1 % 32 then 0#8 else x.2)
  (imageWrite m (hBlobOff m + off) kept, off)

/-- R78: checks 0x0B and 0x0C for the instances whose blob the write touches. -/
def recheck (m : Memory) (off len : Nat) : Bool :=
  (opList m).all (fun x => !overlaps x.2.blobOff x.2.blobLen off len ||
    (x.2.paramsOk (blobWord m x.2) && x.2.costOk (blobWord m x.2)))

/-- MEM_WRITE (R78). -/
def doMemWrite : Request → State → State :=
  runOp 0xB1 memWriteLen (fun s q =>
    let i := pay8 q 0
    let target := pay8 q 1
    let buf := pay16 q 2
    let first := pay32 q 4
    let count := pay16 q 8
    let x := slotAt s i
    let m := x.image
    let data := q.payload.drop 12
    let w := memWritten m target buf first data
    let bad := slotLive s i && (!bulkOk m target buf first count ||
      (target == 0 && ((bufEntry m buf).kind == 1 || (bufEntry m buf).init == 0xFFFFFFFF)))
    if 1 < i || 1 < target || !within count 1 127 || bad || (x.phase == .ready && !recheck w.1 w.2 (32 * count)) then
      .refuse .range []
    else if x.phase != .ready then .refuse .state []
    else .done (setSlot s i { x with image := w.1 }) [])

/-- MEM_WRITE (R78). -/
def execMemWrite (q : Request) (s : State) : Step := .next (doMemWrite q s)

/-! ## Loss of SRAM (R57) -/

/-- The graph commands that a loss of SRAM ends: a GRAPH_ACTIVATE only where it armed a slot. -/
def slotJob (a : Option Activation) : Job → Bool
  | .graphEnd _ => true
  | .memRead _ _ _ _ _ => true
  | .graphActivate => (a.bind (fun x => x.slot)).isSome
  | _ => false

/-- Both slots become EMPTY and their outstanding commands complete with STATE (R57, R206); no word in poison form is left
(R163). -/
def sramLost (s : State) : State :=
  let t := completeJobs s (slotJob s.graph.act) (fun _ => (.state, []))
  let u := slotGone (slotGone t 0) 1
  let keep := match s.graph.act with
    | some a => if a.slot.isSome then none else some a
    | none => none
  { u with
    graph := { u.graph with slots := [{}, {}], act := keep, bufs := [], ramps := [], reload := [], cleared := [] },
    health := { u.health with banks := u.health.banks.map (fun k => { k with poison := [], flips := [] }) },
    power := { u.power with sramOn := false }, sramClean := false }

end Sys2Proof.Machine
end

