-- ==== Sys2Proof/Machine/Power.lean ====
section
/-!
DEFINITION. Power modes (R472-R484, R495-R498): the steps of a change of mode, wakes, resets as one shared operation, and
the opcodes 0x40 to 0x43.
-/

namespace Sys2Proof.Machine

open Sys2Proof

/-- Change the power state. -/
def modPower (s : State) (f : Power → Power) : State := { s with power := f s.power }

/-- The device is in SHIP, and no boot runs. -/
abbrev inShip (s : State) : Bool := shipMode s

/-! ## Resets (R488, R489) -/

/-- The reset record after reset `code` (R489): power-on clears it. -/
def resetRecord (s : State) (code : Nat) : ResetRecord :=
  if code = 1 then {}
  else { s.record with
    last := code, bsnBefore := s.bsn, counts := s.record.counts.modify (code - 2) (bump 0xFFFF) }

/-- What of the power state outlives reset `code`: PWR_EN0 and ISO_GATE in resets 2 to 5, the settings and confirmed
levels that AON holds in all but power-on, and what the sensors read. -/
def resetPower (s : State) (code : Nat) : Power :=
  let p := s.power
  let keep := within code 2 5
  let q : Power := {
    pwrEn0 := keep && p.pwrEn0, isoGate := keep && p.isoGate, bootPor := code == 1, coreTemp := p.coreTemp,
    vstby := p.vstby }
  if code = 1 then q else { q with charger := p.charger, wake := p.wake, shipClock := p.shipClock }

/-- A reset that restarts the device (R488, R489, and the effects that R57, R190, R206, R270, R300, R332, R334, R354,
R414, R449 and R462 give it): every field takes its Reset value; the OTP array, the reset record and the sensors' present
readings stay. The boot starts with BOOT_START. -/
def deviceReset (code : Nat) (s : State) : State :=
  { State.reset with
    pending := s.pending, otp := { words := s.otp.words, weak := s.otp.weak }, power := resetPower s code,
    record := resetRecord s code, stage := { temps := s.stage.temps },
    jtag := if within code 2 5 then s.jtag else 0xF#4, free := s.free }

/-- A wake from SHIP (R484): reset 6 with its wake source. -/
def shipExit (code : Nat) (s : State) : State :=
  let t := deviceReset 6 s
  { t with record := { t.record with wakeSrc := code }, power := { t.power with bootWake := code } }

/-! ## Completion of a change (R482, R484, R496) -/

/-- EV127 (R482). -/
def powerEvent (s : State) (new prev : Mode) (reason source : Nat) : State :=
  raise s 127 (modeCode new + modeCode prev * 16 + reason * 256 + source * 4096 + ofSigned 16 s.power.coreTemp * 65536)

/-- The reply of POWER_MODE_SET. -/
def modeReply (s : State) (m : Mode) : List Byte := u8 (modeCode m) ++ zeros 7 ++ bsn8 s.bsn

/-- The job of a POWER_MODE_SET. -/
def isPowerMode : Job → Bool
  | .powerMode => true
  | _ => false

/-- Steps of a change between two modes (R476-R481). -/
def changeSteps : Mode → Mode → List ModeStep
  | .active, .idle => [.d1, .gate]
  | .active, .listen => [.d1, .gate, .d2]
  | .active, .retain => [.d1, .gate, .d2]
  | .active, .ship => [.d1, .gate, .d2, .d3]
  | .idle, .active => [.a2]
  | .idle, .listen => [.d2]
  | .idle, .retain => [.d2]
  | .idle, .ship => [.d2, .d3]
  | .listen, .retain => [.swap]
  | .retain, .listen => [.swap]
  | .listen, .idle => [.a1]
  | .retain, .idle => [.a1]
  | .listen, .active => [.a1, .a2]
  | .retain, .active => [.a1, .a2]
  | .listen, .ship => [.d3]
  | .retain, .ship => [.d3]
  | _, _ => []

/-- A1 begins (R479): PWR_EN1 rises, and the root starts once its rails are good. -/
def a1Begin (s : State) : State := rootStart (modPower s (fun p => { p with pwrEn1 := true }))

/-- A change starts (R476-R481); A1 begins at once, and the other steps at a boundary after this block. -/
def startChange (s : State) (target : Mode) (reason source : Nat) (keep : Bool) (cmd : Option Nat) : State :=
  let steps := changeSteps s.power.mode target
  let up := steps.head? == some .a1
  let t := modPower s (fun p => { p with change := some {
    steps := steps, target := target, start := p.mode, reason := reason, source := source, keepSram := keep,
    notBefore := bsnNext s, begun := up || steps.head? == some .d3, cmd := cmd, replied := none,
    asked := (s.bsn, s.cycle) } })
  if up then a1Begin t else t

/-- A held wake acts on the mode reached (R484): in SHIP one of its mask restarts the device (ch. 17); one that must start the root
waits while XTAL_FAULT is set (R372). -/
def actHeld (s : State) : State :=
  match s.power.heldWake with
  | none => s
  | some c =>
    if modeLow s && s.clock.xtalFault then s
    else
      let t := modPower s (fun p => { p with heldWake := none })
      if inShip t then (if bit t.power.wake.ship (c - 1) then shipExit c t else t)
      else if modeLow t then startChange t t.power.wake.target 2 c false none
      else if t.power.mode = .idle ∧ t.power.wake.target = .active then startChange t .active 2 c false none
      else t

/-- A change completes: EV127, the BSN of the last change, the reply, and a held wake. -/
def completeChange (s : State) (c : Change) : State :=
  let t := powerEvent s s.power.mode c.start c.reason c.source
  let t := modPower t (fun p => { p with lastChange := s.bsn, change := none })
  actHeld (completeJob t isPowerMode .ok (modeReply t t.power.mode))

/-- D3 begins: the reply of POWER_MODE_SET is produced (R481). -/
def d3Begin (s : State) (c : Change) : State :=
  let t := modPower s (fun p => { p with change := some { c with replied := some s.bsn } })
  completeJob t isPowerMode .ok (modeReply t .ship)

/-- The first step of a change has been done; the next may act at BSN `b` or later. -/
def stepDone (s : State) (c : Change) (b : Bsn) : State :=
  let c := { c with steps := c.steps.tail, begun := true, notBefore := b }
  match c.steps with
  | [] => completeChange s c
  | x :: _ =>
    let t := modPower s (fun p => { p with change := some c })
    if x = .d3 then d3Begin t c else t

/-! ## When a step acts -/

/-- A sequence of D1 still runs (R476). -/
def soundsEnding (s : State) : Bool :=
  let live (o : Output) : Bool := o.state == .powerUp || o.state == .on || o.state == .powerDown
  s.stage.chans.any running || live s.analog.hp || live s.analog.lo

/-- 100 ms have passed since POWER_MODE_SET's reply was produced, in the cycle that asked for D3 or else at a boundary, or the reply has been delivered (R481). -/
def replyOver (s : State) (c : Change) : Bool :=
  match c.cmd, c.replied with
  | some n, some b =>
    usPassed s 100000 b (if c.asked.1 = b then c.asked.2 else 0) || !allPorts.any (fun p => (getPort s p).outstanding.any (fun o => o.seq == n))
  | _, _ => true

/-- The first remaining step of a change may act now. -/
def stepDue (s : State) (c : Change) : Bool :=
  let edge := s.cycle == 0 && bsnReached s.bsn c.notBefore
  match c.steps.head? with
  | some .d1 | some .a2 | some .swap => edge
  | some .gate => edge && !soundsEnding s
  | some .d2 => edge && s.power.mode == .idle && s.health.logQueue.isEmpty
  | some .d3 => replyOver s c
  | some .a1 => s.cycle == 0 && rootRuns s && !s.clock.xtalFault
  | none => false

/-- The change whose first remaining step is `x` and may act now. -/
def changeDue (s : State) (x : ModeStep) : Option Change :=
  match s.power.change with
  | some c => if c.steps.head? = some x ∧ stepDue s c = true then some c else none
  | none => none

/-! ## Going down -/

/-- D1 (R476): sequences of the running channels and outputs begin. -/
def d1Act (s : State) : State :=
  let t := sweepLeave s
  let t := (List.range 32).foldl (fun u ch =>
    match (chan u ch).state with
    | .starting | .play => beginStop u ch (stopMs u ch) 0 .off
    | _ => u) t
  let t := modHp t (fun o => if outLive o then hpDown t (outN (rd t .hpCfg)) o else { o with again := false })
  modLo t (fun o => if outLive o then loDown t (outN (rd t .loCfg)) o else { o with again := false })

/-- MODE_D1 (R476). -/
def execModeD1 (s : State) : Step :=
  match changeDue s .d1 with
  | some c => .next (stepDone (d1Act s) c s.bsn)
  | none => .next s

/-- The engine self-tests of the boundary that gates the fabric do not start (R181, R419). -/
def testsGated (s : State) : State :=
  modHealth s (fun h => { h with tests := h.tests.filter (fun x => x.unit.kind != .oe || x.bsn != s.bsn) })

/-- FABRIC_GATE (R476, R153): the gating boundary g. -/
def execFabricGate (s : State) : Step :=
  match changeDue s .gate with
  | some c =>
    let t := modPower (testsGated (cancelBlock s)) (fun p => { p with fabricOn := false, mode := .idle })
    .next (stepDone t c (bsnNext t))
  | none => .next s

/-- Both PDM clocks run from now on, from a stop: sources settle, beams use the mode's set, and the wake path starts
(R293, R300, R480). -/
def clocksStart (s : State) (listen : Bool) : State :=
  let t := clockTo (clockTo s 0 listen) 1 listen
  let on (a : Adc) : Adc := if a.stage = .off then a else { a with stage := .settling, since := s.bsn, frame := frameOf s, ramp := Ramp.zero }
  let t := modSrcs (modSrcs t 0 on) 1 on
  pathStart (modWake t (fun w => { w with beams := w.beams.map (fun b => { b with
    segs := [(csnOf s.bsn, if listen then .setL else .setA)], xfDue := none, bridge := none }) }))

/-- ANA and its rails lose their supply (R259, R264, R270, R274): the shorting switch is closed, MICBIAS is off and no
classification runs. -/
def anaOff (s : State) : State :=
  { s with analog := { s.analog with
      hp := { s.analog.hp with shorted := true, railsHigh := false, limL := false, limR := false }, micbias := false, biasLimit := false, jack := { s.analog.jack with
        measuring := false, measA := none, ringGnd := s.analog.jack.kind != .omtp, sleeveGnd := s.analog.jack.kind != .ctia } } }

/-- D2 (R478): everything that happens at boundary b. A change to SHIP passes through RETAIN. -/
def d2Act (s : State) (c : Change) : State :=
  let listen := c.target == .listen
  let t := memStop (scanStop (rootStop (portsTo s .noClock)))
  let t := anaOff (modPower t (fun p => { p with pwrEn1 := false, mode := if listen then .listen else .retain }))
  let t := if c.keepSram then t else sramLost t
  if t.clock.xtalFault then crystalStop t
  else if listen then clockDue (clockDue (endFetches t) 0 true (bsnNext t)) 1 true (bsnNext t) else clocksStop (pathStop t)

/-- MODE_D2 (R478). -/
def execModeD2 (s : State) : Step :=
  match changeDue s .d2 with
  | some c => .next (stepDone (d2Act s c) c (bsnNext s))
  | none => .next s

/-- A port after SHIP has cut its power: nothing received, outstanding or queued. -/
def portOff (p : Port) : Port := { cls := p.cls, bootCls := p.bootCls }

/-- CORE loses its state (R461): no record of the FIFO, no pending bit of its own and no alert is left, and the routing fields hold
their reset values. -/
def routingLost (s : State) : State :=
  let t := { s with events := { s.events with fifo := [], pend := 0, newBits := 0, lost := 0, lostSince := 0, alert := none } }
  (List.range 128).foldl (fun u n => wr u (.evCfgReg n) (Reg.reset (.evCfgReg n))) (wr t .evGlobalReg (Reg.reset .evGlobalReg))

/-- SHIP (R472, R481): crystal, Cooler, SRAM and every enable off; every Hamper is EMPTY (R206); the commands still outstanding get no reply. -/
def shipEnter (s : State) : State :=
  let t := routingLost (sramLost (rootStop (clocksStop (pathStop s))))
  let t := { modWake t (fun w => { w with cooler := [], range := none, bad := [], capturing := false }) with params := {} }
  let t := modClock t (fun k => { k with xtalOn := false, xtalFault := false })
  let t := { t with
    mapDue := [], spi := portOff t.spi, addrA := portOff t.addrA, addrB := portOff t.addrB, jtag := 0xF#4,
    bus := { t.bus with ctrlClk := false, ctrlStart := false, spiOpen := false, target := none, controller := false } }
  modPower t (fun p => { p with
    mode := .ship, pwrEn0 := false, pwrEn1 := false, isoGate := false, sramOn := false, fabricOn := false,
    accepting := false })

/-- MODE_D3 (R481): the reply has been delivered, or 100 ms have passed. -/
def execModeD3 (s : State) : Step :=
  match changeDue s .d3 with
  | some c => .next (stepDone (shipEnter s) c s.bsn)
  | none => .next s

/-- LISTEN and RETAIN change places (R480, R474). -/
def swapAct (s : State) (c : Change) : State :=
  let t := modPower s (fun p => { p with mode := c.target })
  let t := if c.keepSram || !t.power.sramOn then t else sramLost t
  if c.target = .listen && !t.clock.xtalFault then clocksStart t true else clocksStop (pathStop t)

/-- LISTEN_RETAIN_SWITCH (R480). -/
def execListenRetainSwitch (s : State) : Step :=
  match changeDue s .swap with
  | some c => .next (stepDone (swapAct s c) c (bsnNext s))
  | none => .next s

/-! ## Going up -/

/-- SRAM is powered and initialised, where it was cut (R474). -/
def sramInit (s : State) : State :=
  if s.power.sramOn then s else { s with power := { s.power with sramOn := true }, sramClean := true }

/-- CK_SYS starts at this boundary (R479, R228, R507, R274). -/
def sysStart (s : State) : State :=
  let t := modPower (memStart (sramInit s)) (fun p => { p with mode := .idle })
  let t := { t with bus := { t.bus with ctrlClk := true, ctrlStart := false } }
  classifyStart (biasUpdate (scanStart (portsTo t .acquire)))

/-- IDLE_REACHED (R479, R293): the BSN moves back to the root; the PDM clocks change at this boundary when the device
leaves LISTEN, and start when it leaves RETAIN. -/
def execIdleReached (s : State) : Step :=
  match changeDue s .a1 with
  | some c =>
    let listen := s.power.mode == .listen
    let t := sysStart s
    let t := if listen then clockDue (clockDue (endFetches t) 0 false s.bsn) 1 false s.bsn else clocksStart t false
    .next (stepDone t c (bsnNext s))
  | none => .next s

/-- BOOT_PLAY (R486): EN in HB_CFG of every leading half-bridge. -/
def bootPlay (s : State) : State :=
  (List.range 16).foldl (fun t h => if leads t h then applyChanCfg t h (withBits (rd t (.hbCfg h)) 1 1) else t) s

/-- A GRAPH_SWITCH falls due at this boundary: no compute of the old graph starts, and the switch starts that of the new
graph itself, if there is one (R58, R127). -/
def switchDue (s : State) : Bool :=
  match s.graph.act with
  | some a => s.cycle == 0 && bsnReached s.bsn (a.n + 1#40)
  | none => false

/-- The engine self-tests that waited for the fabric's clock start at the boundary that ungates it (R181, R419). -/
def testsUngated (s : State) : State :=
  serviceTests (modHealth s (fun h => { h with tests := h.tests ++ periodicTests s }))

/-- A2 at boundary u (R477, R486): compute of block u − 1 starts, delay lines restart from silence, and the channels and
outputs with EN = 1 may start. -/
def a2Act (s : State) : State :=
  let t := modPower s (fun p => { p with fabricOn := true, mode := .active, firstA2 := false })
  let t := { t with graph := { t.graph with bufs := t.graph.bufs.map (voidAll (s.bsn - 2#40)) } }
  let t := if graphActive t && !switchDue t then computeStart t (s.bsn - 1#40) else t
  let t := if s.power.firstA2 && s.power.bootPlay then bootPlay t else t
  loTryUp (hpTryUp t)

/-- FABRIC_UNGATE (R477). -/
def execFabricUngate (s : State) : Step :=
  match changeDue s .a2 with
  | some c => .next (stepDone (testsUngated (a2Act s)) c (bsnNext s))
  | none => .next s

/-- XTAL_FAULT_CLEAR (R371, R372): 64 crystal periods with edges; LISTEN captures again, and a loss and a wake that waited act. -/
def execXtalFaultClear (s : State) : Step :=
  if !s.clock.xtalFault then .next s
  else
    let t := modClock s (fun c => { c with
      xtalFault := false, phase := if c.phase = .waitXtal then .onSafe else c.phase,
      onSafe := c.onSafe || c.phase == .waitXtal, lossHeld := false })
    let t := if s.clock.lossHeld then refLost t else t
    let t := if t.power.mode = .listen then clocksStart t true else t
    .next (if t.power.change.isNone then actHeld t else t)

/-! ## Wake sources and sensors (R473, R482-R484) -/

/-- CHG_DET has a new confirmed level: EV127 in IDLE and ACTIVE (R482). -/
def chargerTo (s : State) (level : Bool) : State :=
  if s.power.charger = some level then s
  else
    let t := modPower s (fun p => { p with charger := some level })
    if modeHigh t then powerEvent t t.power.mode t.power.mode 5 0 else t

/-- The source works in the present mode, its unit is enabled, and its mask bit is set (R483). -/
def wakeMasked (s : State) (c : Nat) : Bool :=
  let p := s.power
  let here := match c with
    | 1 | 5 => true
    | 2 => p.mode != .ship
    | 3 => bit (rd s .hpjCfg) 0
    | 4 => bit (rd s .auxjCfg) 0
    | 6 => p.mode == .listen && s.wake.srcFired
    | _ => false
  here && bit (if p.mode = .ship then p.wake.ship else p.wake.sleep) (c - 1)

/-- A wake of this very tick has started a change (R483). -/
def wokenNow (s : State) : Bool :=
  match s.power.change with
  | some k => k.reason == 2 && k.asked == (s.bsn, s.cycle)
  | none => false

/-- A confirmed and unmasked wake acts (R484): in SHIP it restarts the device, and of sources confirmed in the same tick
the lowest code is recorded (R483); during a change, or while XTAL_FAULT is set, it is held. -/
def wakeAct (s : State) (c : Nat) : State :=
  let p := s.power
  let hold := modPower s (fun p => { p with heldWake := some (min c (p.heldWake.getD c)) })
  if inShip s then shipExit c s
  else if p.boot = .held ∧ s.record.last = 6 then
    { s with record := { s.record with wakeSrc := min c s.record.wakeSrc },
             power := { p with bootWake := min c p.bootWake } }
  else if p.boot ≠ .complete then s
  else if wokenNow s then
    modPower s (fun p => { p with change := p.change.map (fun k => { k with source := min c k.source }) })
  else if p.change.isSome then hold
  else if modeLow s then
    if s.clock.xtalFault then hold else startChange s p.wake.target 2 c false none
  else s

/-- WAKE_SOURCE (R483): source `code` is confirmed. -/
def execWakeSource (code : Fin 7) (s : State) : Step :=
  let c := code.val
  let t := if c = 5 then chargerTo s s.power.wake.chgPol else s
  let on := wakeMasked t c
  let t := if c = 6 ∧ t.power.mode = .listen then modWake t (fun w => { w with srcFired := false }) else t
  .next (if on then wakeAct t c else t)

/-- CHARGER_CHANGE (R483, R482). -/
def execChargerChange (level : Bool) (s : State) : Step := .next (chargerTo s level)

/-- CORE_TEMP_120 (R482): the core die, in 0.1 °C, first reaches 120 °C after a reset. -/
def execCoreTemp120 (temp : Int) (s : State) : Step :=
  if s.power.hot || decide (temp < 1200) || inShip s || s.power.boot == .held then .next s
  else
    let t := modPower s (fun p => { p with hot := true, coreTemp := temp })
    .next (powerEvent t t.power.mode t.power.mode 4 0)

/-- SHIP_CLOCK_MEASURE (R473): a measurement against the running crystal ends. -/
def execShipClockMeasure (periods : Nat) (s : State) : Step :=
  if s.clock.xtalOn && !s.clock.xtalFault then .next (modPower s (fun p => { p with shipClock := periods })) else .next s

/-! ## Opcodes -/

/-- Rails good (R495): VDDC, VDDS, VDDIO1 and VDDIO2 while PWR_EN0 is high; AVDD and HPVDD once PLL_SAFE has locked, and
otherwise as the board's rails stand, which the spec leaves open (log entry 5). -/
def railsGood (s : State) : Nat :=
  (if s.power.pwrEn0 then 15 else 0) + (if s.clock.state != .off then 3 else Config.freeNat s.free % 4) * 16 +
    b2n (within s.stage.pvdd 4500 27000) * 64

/-- POWER_STATUS (R495). -/
def doPowerStatus : Request → State → State :=
  runOp 0x40 (lenIs 0) (fun s _ =>
    let p := s.power
    let target := match p.change with
      | some c => c.target
      | none => p.mode
    .done (nextFree s) (u8 (modeCode p.mode) ++ u8 (modeCode target) ++
      u8 (b2n p.pwrEn0 + b2n p.pwrEn1 * 2 + b2n p.isoGate * 4 + b2n p.sramOn * 8 +
        b2n (p.charger == some p.wake.chgPol) * 16 + b2n p.change.isSome * 32) ++
      u8 (railsGood s) ++ zeros 4 ++ bsn8 p.lastChange ++ i16 p.coreTemp ++ u16 p.vstby ++ zeros 4))

/-- POWER_STATUS (R495). -/
def execPowerStatus (q : Request) (s : State) : Step := .next (doPowerStatus q s)

/-- The mode of a code. -/
def modeOf : Nat → Option Mode
  | 0 => some .ship
  | 1 => some .retain
  | 2 => some .listen
  | 3 => some .idle
  | 4 => some .active
  | _ => none

/-- An OTP command is outstanding (R496, R397). -/
def otpOutstanding (s : State) : Bool :=
  allPorts.any (fun p => (getPort s p).outstanding.any (fun o => within o.op.toNat 0x70 0x76))

/-- POWER_MODE_SET (R496). -/
def doPowerModeSet : Request → State → State :=
  runOp 0x41 (lenIs 4) (fun s q =>
    match modeOf (pay8 q 0) with
    | none => .refuse .range []
    | some m =>
      if s.power.change.isSome || (decide (modeCode m < 3) && (otpOutstanding s || s.otp.openGen.isSome)) then
        .refuse .state []
      else if m = s.power.mode then .done s (modeReply s m)
      else
        let t := startChange s m 1 0 (bit (pay8 q 1) 0) (some (s.seq - 1))
        if changeSteps s.power.mode m = [.d3] then
          .done (modPower t (fun p => { p with
            change := p.change.map (fun c => { c with replied := some s.bsn }) })) (modeReply s .ship)
        else .pend t .powerMode (some (zeros 16)))

/-- POWER_MODE_SET (R496). -/
def execPowerModeSet (q : Request) (s : State) : Step := .next (doPowerModeSet q s)

/-- ABORT of a POWER_MODE_SET (R496): before its first step begins at a boundary. -/
def changeAbortable (s : State) : Bool :=
  match s.power.change with
  | some c => !c.begun && !stepDue s c
  | none => false

/-- The aborted change leaves no effect; a held wake acts. -/
def changeAbort (s : State) : State :=
  actHeld (completeJob (modPower s (fun p => { p with change := none })) isPowerMode .aborted [])

/-- The settings of WAKE_CFG as its payload lays them out. -/
def wakeBytes (w : WakeSettings) : List Byte :=
  u8 w.ship ++ u8 w.sleep ++ u8 (modeCode w.target) ++ u8 w.keyDeb ++ u8 (b2n w.chgPol) ++ zeros 3

/-- WAKE_CFG bytes 0 to 3, if they are in range (R497, R491); CHG_POL stands. -/
def wakeOf (p : List Byte) (pol : Bool) : Option WakeSettings :=
  let ship := leField p 0 1
  let sleep := leField p 1 1
  let target := leField p 2 1
  let deb := leField p 3 1
  if Nat.land ship 0x1D ≠ ship ∨ 0x3F < sleep ∨ (target ≠ 3 ∧ target ≠ 4) ∨ deb < 2 then none
  else some { ship := ship, sleep := sleep, target := if target = 4 then .active else .idle, keyDeb := deb, chgPol := pol }

/-- WAKE_CFG (R497). -/
def doWakeCfg : Request → State → State :=
  runOp 0x42 (fun p => p.length == 0 || p.length == 8) (fun s q =>
    if q.payload.isEmpty then .done s (wakeBytes s.power.wake)
    else match wakeOf q.payload (bit (pay8 q 4) 0) with
      | none => .refuse .range []
      | some w => .done (modPower s (fun p => { p with wake := w })) (wakeBytes w))

/-- WAKE_CFG (R497). -/
def execWakeCfg (q : Request) (s : State) : Step := .next (doWakeCfg q s)

/-- RESET_INFO (R498). -/
def doResetInfo : Request → State → State :=
  runOp 0x43 (lenIs 0) (fun s _ =>
    let r := s.record
    .done s (u8 r.last ++ u8 r.wakeSrc ++ u8 (b2n r.bootFail) ++ [r.rails] ++ zeros 4 ++ bsn8 r.bsnBefore ++
      r.counts.flatMap u16 ++ zeros 2))

/-- RESET_INFO (R498). -/
def execResetInfo (q : Request) (s : State) : Step := .next (doResetInfo q s)

end Sys2Proof.Machine
end

