-- ==== Sys2Proof/Machine/Boot.lean ====
section
/-!
DEFINITION. Resets and boot (R485-R489): the reset rows, what a boot applies from OTP (R491, R492, R494), and the rows of
the boot's steps.
-/

namespace Sys2Proof.Machine

open Sys2Proof

/-! ## Reset rows (R471, R488) -/

/-- POWER_ON_RESET (R488): VSTBY falls below 2.20 V or rises through 2.35 V. -/
def execPowerOnReset (s : State) : Step := .next (deviceReset 1 s)

/-- PIN_RESET (R488): in any mode except SHIP. -/
def execPinReset (s : State) : Step := if inShip s then .next s else .next (deviceReset 2 s)

/-- The device ends in SHIP with BOOT_FAIL set and its enables low (R485, R488). -/
def bootFailed (s : State) : State :=
  let t := rootStop s
  { t with
    jtag := 0xF#4, record := { t.record with bootFail := true }, clock := { t.clock with xtalOn := false, xtalFault := false },
    power := { t.power with
      mode := .ship, boot := .complete, pwrEn0 := false, pwrEn1 := false, isoGate := false, sramOn := false } }

/-- Rails that a supply reset can name: those of the groups whose enable is high (R471). -/
def railMask (s : State) : Nat := (if s.power.pwrEn0 then 15 else 0) + (if s.power.pwrEn1 then 48 else 0)

/-- SUPPLY_RESET (R471, R488, R498): `rails` lie below their fault level; the third within 1 s, 4,000 blocks, ends in SHIP. -/
def execSupplyReset (rails : Byte) (s : State) : Step :=
  let m := Nat.land rails.toNat (railMask s)
  if inShip s || m == 0 then .next s
  else
    let t := deviceReset 4 s
    let ages := 0 :: s.record.supplyAges.filter (fun a => decide (a < 4000))
    let t := { t with record := { t.record with rails := BitVec.ofNat 8 m, supplyAges := ages } }
    .next (if 3 ≤ ages.length then bootFailed t else t)

/-- THERMAL_RESET (R488): the core die at 140 °C. -/
def execThermalReset (s : State) : Step := if inShip s then .next s else .next (deviceReset 5 s)

/-- RESET_DEVICE (R414): no reply, and the command reset. -/
def doResetDevice : Request → State → State := runOp 0x04 (lenIs 0) (fun s _ => .silent (deviceReset 3 s))

/-- RESET_DEVICE (R414). -/
def execResetDevice (q : Request) (s : State) : Step := .next (doResetDevice q s)

/-! ## What a boot applies (R491) -/

/-- Word `i` of the generation that the boot applies; 0 where none is valid. -/
def genWord (s : State) (i : Nat) : Nat :=
  match bootSlot s.otp with
  | some g => otpWord s.otp (slotBase g + i)
  | none => 0

/-- Bit of PRESENT. -/
def genHas (s : State) (b : Nat) : Bool := bit (genWord s 1) b

/-- A group is present: its values are in range and it is applied, or it is rejected. -/
def countGroup (s : State) (b : Nat) (ok : Bool) : State :=
  if !genHas s b then s
  else if ok then { s with otp := { s.otp with groups := s.otp.groups + 2 ^ b } }
  else { s with otp := { s.otp with rejected := s.otp.rejected + 2 ^ b } }

/-- Apply a group where it is present and in range, and count it. -/
def applyGroup (s : State) (b : Nat) (ok : Bool) (f : State → State) : State :=
  countGroup (if genHas s b && ok then f s else s) b ok

/-- BOOT. -/
def applyBootGroup (s : State) : State :=
  let w := genWord s 2
  applyGroup s 0 (decide (bits w 1 0 ≤ 2)) (fun s => { s with
    clock := { s.clock with xtalSel := bits w 1 0 },
    power := { s.power with
      porShip := bit w 2, bootActive := bit w 3, bootPlay := bit w 4, bootDiag := bit w 5,
      wake := { s.power.wake with chgPol := bit w 6 } } })

/-- WAKE. -/
def applyWakeGroup (s : State) : State :=
  let w := wakeOf (u32 (genWord s 3)) s.power.wake.chgPol
  applyGroup s 1 w.isSome (fun s => modPower s (fun p => { p with wake := w.getD p.wake }))

/-- R408, R409: the classes that a boot gives from a mapping. -/
def bootClasses (s : State) (cs : List Nat) : List Nat :=
  let cs := if serviceOn s then cs else cs.map (min 2)
  if mappingOk cs then cs else cs.set 0 2

/-- CLASS, with the lock area (R407-R409, R494). -/
def applyClassGroup (s : State) : State :=
  let w := genWord s 4
  let s := { s with otp := { s.otp with locks := bootLocks s.otp } }
  let s := applyGroup s 2 true (fun s => { s with otp := { s.otp with service := bit w 6 } })
  let cs := match lockClasses s.otp with
    | some cs => cs
    | none => if genHas s 2 then [bits w 1 0, bits w 3 2, bits w 5 4] else [2, 1, 0]
  let cs := bootClasses s cs
  setBootClasses (setClasses s cs) cs

/-- ADDR_A of a base and the straps (R432). -/
def addrOf (base : Nat) (straps : Straps) : Nat := base + 2 * (b2n straps.asel1 * 2 + b2n straps.asel0)

/-- The TWO_WIRE group is in range on these straps (R491, R432, R453). -/
def twoWireOk (w : Nat) (straps : Straps) : Bool :=
  let base := bits w 6 0
  let a := addrOf base straps
  let alert := bits w 17 11
  within base 0x08 0x70 && base % 2 == 0 && within alert 0x08 0x77 && alert != a && alert != a + 1 &&
    (!bit w 18 || within (bits w 25 19) 0x08 0x77)

/-- ADDR_A and ADDR_B of a base. -/
def setAddrs (s : State) (a : Nat) : State :=
  { s with bus := { s.bus with addrA := BitVec.ofNat 7 a, addrB := BitVec.ofNat 7 (a + 1) } }

/-- TW_CFG, TW_TIMING, TW_LIMITS and TW_ADDR are in force as they stand (R452). -/
def twInForce (s : State) : State :=
  { s with bus := { s.bus with
      effCfg := BitVec.ofNat 32 (rd s .twCfg), effTiming := BitVec.ofNat 32 (rd s .twTiming),
      effLimits := BitVec.ofNat 32 (rd s .twLimits), effAddr := BitVec.ofNat 32 (rd s .twAddr) } }

/-- TWO_WIRE, with the straps (R432, R491). -/
def applyTwoWireGroup (s : State) (straps : Straps) : State :=
  let w := genWord s 5
  let s := setAddrs s (addrOf 0x38 straps)
  let s := applyGroup s 3 (twoWireOk w straps) (fun s =>
    let t := wr s .twCfg (bits w 8 7 + b2n (bit w 9) * 4 + b2n (bit w 10) * 8 + bits w 17 11 * 16)
    let group := bits w 25 19
    let t := wr t .twAddr (b2n (bit w 18) * 2 ^ 15 + (if within group 0x08 0x77 then group else 0x08) * 2 ^ 16)
    setAddrs t (addrOf (bits w 6 0) straps))
  twInForce s

/-- JACK. -/
def applyJackGroup (s : State) : State :=
  let w := genWord s 6
  applyGroup s 4 true (fun s =>
    wr (wr s .hpjCfg (withBits (rd s .hpjCfg) 3 (bits w 1 0))) .auxjCfg (withBits (rd s .auxjCfg) 3 (bits w 3 2)))

/-- PAIR_CFG. -/
def applyPairGroup (s : State) : State :=
  let w := genWord s 7
  memberUpdate (applyGroup s 5 (Reg.rangeOk s .pairCfg w) (fun s => wr s .pairCfg w))

/-- DIAG_EXP of the 16 half-bridges. -/
def applyDiagGroup (s : State) : State :=
  let ws := (List.range 16).map (fun h => (h, Nat.land (genWord s (8 + h)) (Reg.diagExp h).mask))
  applyGroup s 6 (ws.all (fun x => (Reg.diagExp x.1).rangeOk s x.2))
    (fun s => ws.foldl (fun t x => wr t (.diagExp x.1) x.2) s)

/-- HEALTH_CFG. -/
def applyHealthGroup (s : State) : State :=
  let c := cfgOf (u32 (genWord s 24) ++ u32 (genWord s 25) ++ u32 (genWord s 26))
  applyGroup s 7 (cfgOk c) (fun s => modHealth s (fun h => { h with cfg := c }))

/-- Everything a boot applies, in its order: the factory area and the repair log (R191), the lock area and the
generation (R491). -/
def applyOtp (s : State) (straps : Straps) : State :=
  let s := { s with otp := { s.otp with applied := bootSlot s.otp },
                    power := { s.power with wake := {} } }
  let s := applyLog (applyFactory s)
  let s := applyClassGroup (applyWakeGroup (applyBootGroup s))
  applyHealthGroup (applyDiagGroup (applyPairGroup (applyJackGroup (applyTwoWireGroup s straps))))

/-! ## Steps of a boot (R485) -/

/-- BOOT_START (R485, S): the enables rise and the crystal starts; after a thermal reset the boot holds before C. -/
def execBootStart (s : State) : Step :=
  if s.power.boot ≠ .held then .next s
  else
    let t := modClock s (fun c => { c with xtalOn := true })
    .next (modPower t (fun p => { p with
      pwrEn0 := true, isoGate := true, boot := if s.record.last = 5 then .thermalHold else .started }))

/-- BOOT_THERMAL_RELEASE (R485): the core die is below 110 °C. -/
def execBootThermalRelease (s : State) : Step :=
  if s.power.boot = .thermalHold then .next (modPower s (fun p => { p with boot := .started })) else .next s

/-- The keys that the boot finds pressed (R514). -/
def bootKeys (s : State) (pressed : List Bool) : State :=
  { s with touch := { s.touch with
      keys := (List.range 6).map (fun k => if pressed.getD k false then { pressed := true, bootHeld := true } else {}) } }

/-- CORE_RELEASE (R485, C): CORE leaves reset, BSN 0 counts on the LISTEN tick, OTP is applied, and PWR_EN1 rises. -/
def execCoreRelease (straps : Straps) (pressed : List Bool) (s : State) : Step :=
  if s.power.boot ≠ .started ∨ s.clock.xtalFault = true then .next s
  else
    let t := bootKeys (applyOtp s straps) pressed
    let t := { t with diag := { t.diag with bootDue := t.power.bootDiag } }
    .next (a1Begin (modPower t (fun p => { p with boot := .released })))

/-- The change of mode that ends a boot: D3 (R486), or A2 (R485). -/
def bootChange (s : State) : State :=
  let go (x : ModeStep) (m : Mode) : State := modPower s (fun p => { p with change := some {
    steps := [x], target := m, start := .idle, reason := 3, source := 0, keepSram := false, notBefore := bsnNext s,
    begun := true, cmd := none, replied := none, asked := (s.bsn, s.cycle) } })
  if s.power.bootPor && s.power.porShip then go .d3 .ship
  else if s.power.bootActive then go .a2 .active
  else s

/-- BOOT_COMPLETE (R485, R482): the root runs and SRAM is initialised; at this boundary the device is in IDLE. -/
def execBootComplete (s : State) : Step :=
  if s.power.boot ≠ .released ∨ s.cycle ≠ 0 ∨ rootRuns s = false ∨ s.clock.xtalFault = true then .next s
  else
    let t := modPower (sysStart s) (fun p => { p with boot := .complete, accepting := true, lastChange := s.bsn })
    let t := clocksStart t false
    .next (bootChange (powerEvent t .idle .ship 3 t.power.bootWake))

/-- BOOT_FAIL (R485): a rail was not good within 20 ms of its enable rising. -/
def execBootFail (s : State) : Step :=
  match s.power.boot with
  | .held | .complete => .next s
  | .released => if s.clock.state = .off then .next (bootFailed s) else .next s
  | _ => .next (bootFailed s)

end Sys2Proof.Machine
end

