-- ==== Sys2Proof/Machine/Block.lean ====
section
/-!
DEFINITION. The block boundary (R12, R22-R26) and the passing of cycles: what a frame start does, what the sources deliver
into the captured block, the compute deadline with its late block (R25, R64, R68, R150, R177, R178), and the row
BLOCK_BOUNDARY; then the boundary-scan row (R526).
-/

namespace Sys2Proof.Machine

open Sys2Proof

/-! ## Time -/

/-- The BSN counts: not in SHIP, and in a boot only from C on (R26, R485). -/
def counting (s : State) : Bool := coreOn s

/-- What happens at the start of a frame: sequences, ramps and the replies that wait for them, the guard limiter events of
the frame's samples (R126), and injected decimator faults (R200). -/
def frameTick (s : State) : State :=
  stopsDone (chanFrame (micFrame (analogFrame (portFrame (realignFrame (injectFrame (guardFrame s (frameOf s))))))))

/-- The frames of the present block that have not started yet pass. -/
def catchUp (s : State) : State :=
  ((List.range 24).drop (frameOf s + 1)).foldl (fun t f => frameTick { t with cycle := f * Config.frameCycles }) s

/-- What the fabric does in a cycle of its own: tasks become ready, watchdog injections are met, and injections run out. -/
def cycleTick (s : State) : State := injectExpire (injectWatchdog (comeReady s))

/-- The cycles of the present block that no step let pass are passed: a block has its 294,912 cycles and 24 frames whenever
BLOCK_BOUNDARY comes (R22; log entry 1). -/
def blockRest (s : State) : State :=
  if s.cycle + 1 < Config.blockCycles then
    let t := cycleTick { s with cycle := s.cycle + 1 }
    let t := if t.cycle % Config.frameCycles = 0 then frameTick t else t
    cycleTick { catchUp t with cycle := Config.blockCycles - 1 }
  else s

/-- One cycle passes, held at the block's last cycle until its boundary: a fabric cycle in IDLE and ACTIVE, a LISTEN tick
of 1,536 cycles in LISTEN, RETAIN and a boot; none there from a crystal fault to the boundary after it (R26, R372; log entry 1). -/
def tick (s : State) : State :=
  let s := mapApply s
  if !counting s then s
  else if modeHigh s then
    if s.cycle + 1 < Config.blockCycles then
      let t := cycleTick { s with cycle := s.cycle + 1 }
      if t.cycle % Config.frameCycles = 0 then frameTick t else t
    else s
  else if s.clock.shipTick then s
  else if s.cycle + Config.tickCycles < Config.blockCycles then injectExpire { s with cycle := s.cycle + Config.tickCycles }
  else s

/-! ## Capture (R23, R24) -/

/-- The ADC source of a source code: a converter (R259) or a PDM microphone (R287). -/
def srcAdc (s : State) (c : Nat) : Adc := if c < 0x30 then s.analog.adc.getD (c - 0x20) {} else s.wake.srcs.getD (c - 0x30) {}

/-- Change the ADC source of a source code. -/
def modSrc (s : State) (c : Nat) (f : Adc → Adc) : State :=
  if c < 0x30 then modAdc s (c - 0x20) f else modWake s (fun w => { w with srcs := modAt w.srcs (c - 0x30) f })

/-- The source can deliver: the converters while AVDD is present, a microphone while it is enabled and clocked (R259,
R289). -/
def srcLive (s : State) (c : Nat) : Bool := if c < 0x30 then s.power.pwrEn1 else micLive s (c - 0x30)

/-- The place in DEC order of a source's decimator (R180, R259, R287). -/
def decPlace (c : Nat) : Nat := if c < 0x30 then c - 0x10 else c - 0x30

/-- R185: in the frames in which decimator `d` met a residue fault, its sample of the previous frame stands in; `before` is its
last sample of the block before. -/
def heldSamples (s : State) (d : Nat) (before : Int) (xs : List Int) : List Int :=
  ((frames.foldl (fun acc f =>
    let x := if s.health.holds.contains (d, f) then acc.2 else xs.getD f 0
    (acc.1 ++ [x], x)) (([] : List Int), before))).1

/-- R186: the source moves from its old decimator's samples to the spare's over the block's 24 frames. -/
def crossDec (xs ys : List Int) : List Int :=
  frames.map (fun f =>
    let w := rampWeight f 24
    roundHalfEven (xs.getD f 0 * (2 ^ 31 - (w : Int)) + ys.getD f 0 * w) (2 ^ 31))

/-- The decimator of a source. -/
def decOf (s : State) (c : Nat) : Nat := s.health.decMap.getD (decPlace c) (decPlace c)

/-- What the spare decimator `n` of a source delivers, held where it failed; `last` is its sample before the block (R185, R186). -/
def spareSamples (s : State) (i : BlockInput) (c n : Nat) (last : Int) : List Int :=
  heldSamples s n last ((assocFind c i.parallel).getD ((assocFind c i.sources).getD []))

/-- What a source's decimator delivers in the block: held where it failed, crossed over where it has been replaced. -/
def rawSamples (s : State) (i : BlockInput) (c : Nat) : List Int :=
  let before := (srcAdc s c).raw
  let xs := (assocFind c i.sources).getD []
  match s.health.decFades.find? (fun x => x.place == decPlace c && x.bsn == s.bsn) with
  | none => heldSamples s (decOf s c) before xs
  | some x => crossDec (heldSamples s x.old before xs) (spareSamples s i c (decOf s c) x.last)

/-- The samples of a converter or microphone in frame order, under its ramp (R261, R289, R80). -/
def rampSamples (s : State) (c : Nat) (xs : List Int) : List Int :=
  if srcLive s c then frames.map (fun f => weigh (xs.getD f 0) [rampGain (srcAdc s c).ramp s.bsn f])
  else frames.map (fun _ => 0)

/-- One source of converters and microphones is captured. -/
def captureSrc (i : BlockInput) (s : State) (c : Nat) : State :=
  let a := srcAdc s c
  if (assocFind c i.sources).isNone ∧ a.raw = 0 ∧ a.hpX = 0 ∧ a.hpY = 0 then s
  else
    let xs := rawSamples s i c
    let r := filterBlock (trimGain s c) (srcHpf s c) (a.hpX, a.hpY) xs
    let ys := rampSamples s c r.2
    let t := modSrc s c (fun _ => if a.stage = .off then { a with raw := 0, hpX := 0, hpY := 0 }
      else { a with raw := xs.getLastD a.raw, hpX := r.1.1, hpY := r.1.2 })
    if ys.all (fun y => y == 0) then t
    else { t with graph := { t.graph with inputs := t.graph.inputs ++ [(c, ys)] } }

/-- An input channel's samples of the block, under its gains (R80, R238-R241, R373). -/
def portSamples (s : State) (c : Nat) : List Int :=
  let x := asrcAt s c
  if !mapLive s x.map then []
  else frames.map (fun f => weigh (asrcSample s x f) (asrcGains s c s.bsn f ++ [(realignGain s s.bsn f, 12)]))

/-- The codes of the sources that a decimator delivers (R216). -/
def decimatorCodes : List Nat := (List.range 6).map (fun a => 0x20 + a) ++ (List.range 16).map (fun m => 0x30 + m)

/-- The last sample of the spare that runs in parallel in a replacement (R185). -/
def swapLast (s : State) (i : BlockInput) (x : DecSwap) : DecSwap :=
  match x.new, decimatorCodes.find? (fun c => decOf s c == x.old) with
  | some n, some c => { x with last := (spareSamples s i c n x.last).getLastD x.last }
  | _, _ => x

/-- The block that ends is captured: what each source delivered, in S32 (R23). -/
def capture (s : State) (i : BlockInput) : State :=
  let one (c : Nat) : Option (Nat × List Int) :=
    let ys := portSamples s c
    if ys.all (fun y => y == 0) then none else some (c, ys)
  let t := { s with graph := { s.graph with inputs := (List.range 32).filterMap one } }
  let t := decimatorCodes.foldl (captureSrc i) t
  modHealth t (fun h => { h with holds := [], swaps := h.swaps.map (swapLast t i), decFades := h.decFades.filter (fun x => x.bsn != t.bsn) })

/-! ## The compute deadline -/

/-- M(k) in 0.01 % (R64). -/
def loadOfBlock (s : State) (late : Bool) : Nat :=
  let m := s.graph.meter
  if late || m.e == 0 then 10000 else min 10000 (m.cycles * 10000 / (m.e * Config.blockCycles))

/-- The load meter after block `k` (R68, R75). -/
def meterBlock (s : State) (k : Bsn) (late : Bool) : State :=
  let v := loadOfBlock s late
  let m := s.graph.meter
  let t := { s with graph := { s.graph with meter := { m with
    last := v, lastBsn := k, peak := max m.peak v, late := if late then bump 0xFFFFFFFF m.late else m.late } } }
  if m.threshold < v then raise t 16 v else t

/-- LINE buffers whose instance did not retire its last task of block `k` (R178), and STATE buffers to reload (R173), whose words
take the tag of the late block `k` (DESIGN CHOICE, log entry 78). -/
def mendBuffers (s : State) (m : Memory) (k : Bsn) : State :=
  let one (x : Nat × BufData) : BufData :=
    let b := bufEntry m x.1
    let e := opEntry m b.producer
    if b.kind = 2 ∧ s.drover.retired.contains ⟨.op, b.producer, e.parts - 1⟩ = false then
      voidLine k (b.len / max 1 (lineChans e)) x.2
    else if b.kind = 3 ∧ s.graph.reload.contains b.producer = true then
      .state (loadState e (blobWord m e) (initWords m b)) k true
    else x.2
  { s with graph := { s.graph with
      bufs := (List.zip (List.range s.graph.bufs.length) s.graph.bufs).map one, reload := [] } }

/-- Every sink starts to play the block whose deadline has come; saturations and substitutes are counted (R60, R177,
R218). -/
def playSinks (s : State) (b : Bsn) (late : Bool) : State × Nat :=
  let m := activeImage s
  let rs := (List.zip (List.range 68) s.graph.sinks).map (fun x => sinkPlay s m b late x.1 x.2)
  let t := { s with graph := { s.graph with
    sinks := rs.map (fun r => r.1),
    rises := s.graph.rises.filter (fun r => decide (bsnSince b r.n < 4 * r.f) || !bsnReached b r.n) } }
  (addCount t .routeSat 31 0 (rs.foldl (fun n r => n + r.2.1) 0), rs.foldl (fun n r => n + r.2.2) 0)

/-- The deadline of the block in compute (R25, R150, R154, R177): it is late if a task has not retired. Without one,
every bound sink plays digital zero. -/
def deadline (s : State) : State :=
  match s.drover.block with
  | none => (playSinks s (s.bsn - 2#40) false).1
  | some k =>
    let m := activeImage s
    let late := !(unretired m s.drover).isEmpty
    let t := meterBlock (mendBuffers s m k) k late
    let r := playSinks (cancelBlock t) k late
    if late then raise r.1 17 r.2 else r.1

/-! ## The boundary -/

/-- Readings of a boundary: ports (R243), current limits (R284), clocks (R384, R387). -/
def readings (s : State) (i : BlockInput) : State :=
  clockReadings (limitBlock (portReadings s i) i.hpLimit.1 i.hpLimit.2) i

/-- What the block that ends leaves at the device's edges, before the BSN advances: captured samples, port frames and DAC
samples (R23, R230, R269). -/
def edgesBlock (s : State) (i : BlockInput) : State :=
  let t := blockRest s
  dacBlock (portBlock (capture (takeInputs t i) i) i)

/-- What a boundary does while CK_SYS runs, after the BSN has advanced: power stage for the block that has been played, deadline,
readings, health, clocks, port channels, and the compute of the captured block (R23) unless a GRAPH_SWITCH of this boundary starts it. -/
def sysBoundary (s : State) (i : BlockInput) : State :=
  let t := readings (deadline (stageBoundary (taskErrors s i) i)) i
  let t := frameTick (asrcRestart (realignEnd (healthBoundary t)))
  let t := syncBoundary t i.syncMark
  if graphActive t && t.power.fabricOn && !switchDue t then computeStart t (t.bsn - 1#40) else t

/-- BLOCK_BOUNDARY (R12, R22, R23): the BSN advances by one; `i` is what the outside and the sensors bring. -/
def execBlockBoundary (i : BlockInput) (s : State) : Step :=
  if !counting s then .next s
  else
    let s := mapApply s
    let high := modeHigh s
    let t := if high then edgesBlock s i else s
    let t := { t with
      bsn := t.bsn + 1#40, cycle := 0,
      clock := { t.clock with shipTick := t.clock.shipTick && t.clock.xtalFault },
      power := { t.power with coreTemp := i.coreTemp, vstby := i.vstby },
      record := { t.record with supplyAges := t.record.supplyAges.map (fun a => a + 1) } }
    let t := if high then sysBoundary t i else healthBoundary t
    .next (jackBlock (wakeBlock t i.feeds i.badWords) i.contact)

/-! ## Boundary scan (R526) -/

/-- TEST_INSTRUCTION_UPDATE (R526): a code that is not listed selects BYPASS; while EXTEST, CLAMP or HIGHZ is in force the
half-bridges are Hi-Z and a sweep ends. The port lies in IO1, so it acts only while PWR_EN0 is high. -/
def execTestInstructionUpdate (code : BitVec 4) (s : State) : Step :=
  if !s.power.pwrEn0 then .next s
  else
    let t := { s with jtag := if code.toNat ≤ 3 then code else 0xF#4 }
    if !testMode t then .next t
    else
      let t := sweepLeave t
      .next ((List.range 16).foldl (fun u h => if running (chan u h) then modChan u h (hiZ .off) else u) t)

end Sys2Proof.Machine
end

