-- ==== Sys2Proof/Machine/Abort.lean ====
section
/-!
DEFINITION. ABORT (R404, R405, R413): which outstanding commands have not reached their commit point, what an aborted one
leaves, and the opcode.
-/

namespace Sys2Proof.Machine

open Sys2Proof

/-- A forced repair takes effect in this cycle (R199). -/
def forceDue (s : State) (id : Nat) (accepted : Bsn) : Bool :=
  s.cycle == 0 &&
    ((accepted != s.bsn && s.health.forced.any (fun f => f.id == id)) ||
      (match s.health.migration with
        | some m => m.forced == some id && m.copied
        | none => false) ||
      s.health.swaps.any (fun x => x.forced == some id && (match x.begun with
        | some b => decide (4 ≤ bsnSince s.bsn b)
        | none => false)))

/-- The commit point of an outstanding command has not been reached (R404), by its job. Jobs not named here have their
acceptance as commit point. -/
def abortable (s : State) (o : Outstanding) : Bool :=
  !o.final && match o.job with
    | .graphEnd _ => true
    | .graphActivate => (match s.graph.act with
        | some a => !bsnReached s.bsn (activationCommit a)
        | none => false)
    | .commit id => s.params.commits.any (fun c => c.id == id && !bsnReached s.bsn c.boundary)
    | .powerMode => changeAbortable s
    | .auxProfile _ _ at_ => !bsnReached s.bsn at_
    | .pstageClear _ => o.bsn == s.bsn
    | .diagRun => !sweepEndDue s
    | .otp => o.op == 0x73#8 || o.op == 0x76#8
    | .repair id => !forceDue s id o.bsn
    | .coolerFetch _ _ _ _ => !fetchDone s o.job
    | .svcRaw _ _ _ => true
    | .svcTest u => !testBegun s u o.seq
    | _ => false

/-- A programming job stops after the word in progress; one that has not begun is taken off (R502, R505). -/
def stopOtpJob (s : State) (p : PortId) (tag : Byte) : State :=
  let mine (j : OtpJob) : Bool := j.port == p && j.tag == tag
  let js := match s.otp.jobs with
    | [] => []
    | j :: rest => (if mine j then { j with stop := true } else j) :: rest.filter (fun x => !mine x)
  { s with otp := { s.otp with jobs := js } }

/-- DIAG_RUN ends early and replies at once with its payload (R355, R405). -/
def abortSweep (s : State) : State :=
  let t := sweepAbort s
  let d := t.diag
  let b := if d.state = .phase3 then d.since + 400#40 else d.since
  completeJob t isDiag .aborted (diagReply d.start b d.mask (okMask d))

/-- An abortable command is aborted: its chapter's partial effects, and its ABORTED reply (R405). -/
def abortCommand (s : State) (p : PortId) (o : Outstanding) : State :=
  let reply (t : State) (payload : List Byte) : State := finalReply t p o.tag o.op .aborted payload
  match o.job with
  | .graphEnd i => reply (setSlot s i {}) (zeros 16)
  | .graphActivate => reply (match s.graph.act with
      | some a => disarm s a
      | none => s) []
  | .commit id =>
    let t := match s.params.commits.find? (fun c => c.id == id) with
      | some c => endCommit s c false
      | none => s
    reply t (if o.op = 0x10#8 then bsn8 0 ++ u16 0xFFFF else [])
  | .powerMode => changeAbort s
  | .diagRun => abortSweep s
  | .otp => reply (stopOtpJob s p o.tag) []
  | .repair id => reply (forceAbort s id) []
  | .svcTest _ => reply (modHealth s (fun h => { h with tests := h.tests.filter (fun x => x.svc != some o.seq) })) []
  | _ => reply s []

/-- The outstanding command that an ABORT names, other than the ABORT itself. -/
def abortTarget (s : State) (p : PortId) (tag : Byte) (self : Nat) : Option Outstanding :=
  (getPort s p).outstanding.find? (fun o => o.tag == tag && o.seq != self)

/-- ABORT (R413, R405). -/
def doAbort : Request → State → State :=
  runOp 0x03 (lenIs 4) (fun s q =>
    match if pay8 q 1 = 0xFF then some q.port else portOf (pay8 q 1) with
    | none => .refuse .range []
    | some p =>
      match abortTarget s p (BitVec.ofNat 8 (pay8 q 0)) (s.seq - 1) with
      | none => .refuse .unknownTag []
      | some o =>
        if !abortable s o then .refuse .tooLate []
        else if p ≠ q.port ∧ classOf s q < 2 then .refuse .denied []
        else .done (abortCommand s p o) [])

/-- ABORT (R413). -/
def execAbort (q : Request) (s : State) : Step := .next (doAbort q s)

end Sys2Proof.Machine
end

