-- ==== Sys2Proof/Machine/Transport.lean ====
section
/-!
DEFINITION. The control ports (ch. 13 and 14): the byte streams and the acceptance of packets (R391-R398), delivery
(R397, R428), SPI and two-wire transactions (R422-R437), the control clock (R430), alert writes and stuck buses
(R444-R451), and two-wire fields coming into force (R452).
-/

namespace Sys2Proof.Machine

open Sys2Proof

/-! ## Packets (R391-R395) -/

/-- The opcode table of R417: a packet with a good CRC passes to its opcode; any other opcode is not defined. -/
def dispatch (op : Byte) (q : Request) (s : State) : State :=
  match op.toNat with
  | 0x00 => doPing q s
  | 0x01 => doIdentify q s
  | 0x02 => doGetStatus q s
  | 0x03 => doAbort q s
  | 0x04 => doResetDevice q s
  | 0x05 => doPortClassGet q s
  | 0x06 => doPortClassSet q s
  | 0x10 => doParamWrite q s
  | 0x11 => doParamRead q s
  | 0x12 => doHamperOpen q s
  | 0x13 => doHamperStage q s
  | 0x14 => doHamperCommit q s
  | 0x15 => doHamperDiscard q s
  | 0x16 => doHamperStatus q s
  | 0x20 => doGraphBegin q s
  | 0x21 => doGraphData q s
  | 0x22 => doGraphEnd q s
  | 0x23 => doGraphActivate q s
  | 0x24 => doGraphUnload q s
  | 0x25 => doGraphStatus q s
  | 0x26 => doLoadMeter q s
  | 0x27 => doLoadMeterSet q s
  | 0x30 => doPortStatus q s
  | 0x31 => doSpdifCsRead q s
  | 0x32 => doRouteRead q s
  | 0x33 => doPortRestart q s
  | 0x40 => doPowerStatus q s
  | 0x41 => doPowerModeSet q s
  | 0x42 => doWakeCfg q s
  | 0x43 => doResetInfo q s
  | 0x48 => doClockStatus q s
  | 0x49 => doRootRestart q s
  | 0x4A => doAuxProfile q s
  | 0x50 => doEventStatus q s
  | 0x51 => doEventRead q s
  | 0x52 => doEventPeek q s
  | 0x53 => doEventClear q s
  | 0x60 => doPstageStatus q s
  | 0x61 => doPstageClear q s
  | 0x62 => doPstageSenseRead q s
  | 0x63 => doPstageStop q s
  | 0x68 => doDiagRun q s
  | 0x69 => doDiagResult q s
  | 0x70 => doOtpStatus q s
  | 0x71 => doOtpRead q s
  | 0x72 => doOtpGenBegin q s
  | 0x73 => doOtpGenData q s
  | 0x74 => doOtpGenCommit q s
  | 0x75 => doOtpLock q s
  | 0x76 => doOtpFactoryWrite q s
  | 0x80 => doHealthStatus q s
  | 0x81 => doFaultTableRead q s
  | 0x82 => doFaultTableClear q s
  | 0x83 => doRepairLogRead q s
  | 0x84 => doBankCounters q s
  | 0x85 => doHealthCfg q s
  | 0x86 => doRepairForce q s
  | 0x87 => doFaultInject q s
  | 0x90 => doWakeStatus q s
  | 0x91 => doCoolerFetch q s
  | 0x92 => doWakeRearm q s
  | 0xA0 => doTouchStatus q s
  | 0xA1 => doTouchRecal q s
  | 0xA2 => doKeyStatus q s
  | 0xB0 => doMemRead q s
  | 0xB1 => doMemWrite q s
  | 0xF0 => doSvcRawRead q s
  | 0xF1 => doSvcSpareTest q s
  | _ => badOpcode q op s

/-- A packet that fails step 1 or 2 of R395: a reply through the reserved slot (R398), and the port discards to the end of
the transport transaction (R394). -/
def badPacket (s : State) (p : PortId) (op tag : Byte) (st : Status) : State :=
  let free := !(getPort s p).replies.any (fun r => r.reserved)
  let t := reservedReply s p op tag st
  modPort t p (fun v => { v with
    rx := [], discarding := true, badCrc := if st = .badCrc && free then bump 0xFFFFFFFF v.badCrc else v.badCrc })

/-- One packet at the head of a port's stream, if it is complete there (R391, R394, R395): the state after it. `none`:
more bytes are needed, or the stream is used up. -/
def takePacket (s : State) (p : PortId) : Option State :=
  match (getPort s p).rx.dropWhile (fun b => b != 0x5A#8) with
  | [] => none
  | head =>
    let n := leField head 4 2
    if head.length < 6 then none
    else
      let op := head.getD 1 0
      let tag := head.getD 2 0
      if 4096 < n then some (badPacket s p op tag .badLength)
      else if head.length < n + 10 then none
      else if crc32c ((head.drop 1).take (n + 5)) ≠ leField head (6 + n) 4 then some (badPacket s p op tag .badCrc)
      else
        let t := modPort s p (fun v => { v with rx := head.drop (n + 10) })
        some (dispatch op { port := p, tag := tag, flags := head.getD 3 0, payload := (head.drop 6).take n } t)

/-- Every complete packet of a port's stream is taken, oldest first; bytes before a sync byte are discarded (R394). A
reset or a change of port class stops nothing that has been received. `fuel` bounds the packets. -/
def takePackets (p : PortId) : Nat → State → State
  | 0, s => s
  | fuel + 1, s =>
    if (getPort s p).discarding then modPort s p (fun v => { v with rx := [] })
    else match takePacket s p with
      | some t => takePackets p fuel t
      | none => modPort s p (fun v => { v with rx := v.rx.dropWhile (fun b => b != 0x5A#8) })

/-- A byte of a transaction passed at a control port, or its last reply was delivered (R430). -/
def touchPorts (s : State) : State := { s with bus := { s.bus with activeAt := s.bsn, activeCyc := s.cycle } }

/-- Bytes join a port's stream (R394, R423, R434), and its complete packets are checked (R395). -/
def feedPort (s : State) (p : PortId) (bytes : List Byte) : State :=
  if !portOpen s p || bytes.isEmpty then s
  else
    let t := modPort (touchPorts s) p (fun v => { v with rx := v.rx ++ bytes })
    takePackets p (getPort t p).rx.length t

/-- COMMAND_PACKET (R395): bytes arrive on a port, as a rule one complete packet. -/
def execCommandPacket (p : PortId) (bytes : List Byte) (s : State) : Step := .next (feedPort s p bytes)

/-- A packet in progress is discarded without a reply (R423, R427, R433, R436), with what is known of its header. -/
def dropPartial (s : State) (p : PortId) (reason : Nat) : State :=
  match (getPort s p).rx with
  | [] => s
  | head =>
    dropPacket (modPort s p (fun v => { v with rx := [] })) p reason (head.getD 1 0).toNat (head.getD 2 0).toNat

/-! ## Delivery (R397, R428) -/

/-- The oldest reply of a port has been taken whole: a final reply frees its place and tag. -/
def deliver (s : State) (p : PortId) : State :=
  match (getPort s p).replies with
  | [] => s
  | r :: rest =>
    let frees := !r.reserved && r.status != .accepted
    modPort (touchPorts s) p (fun v => { v with
      replies := rest, taken := 0,
      outstanding := if frees then v.outstanding.filter (fun o => o.tag != r.tag) else v.outstanding })

/-- REPLY_DELIVERED (R428). -/
def execReplyDelivered (p : PortId) (s : State) : Step := if portsRun s then .next (deliver s p) else .next s

/-- A reply packet as the host reads it (R392): its CRC-32C covers bytes 1 to 5 + length. -/
def replyBytes (r : Reply) : List Byte :=
  let body := [r.op, r.tag] ++ u8 (statusCode r.status) ++ u16 r.payload.length ++ r.payload
  0xA5#8 :: body ++ u32 (crc32c body)

/-- Bytes leave the device on a port. -/
def sendBytes (s : State) (p : PortId) (bs : List Byte) : State := modPort s p (fun v => { v with sent := v.sent ++ bs })

/-- The host reads `n` bytes after the status byte (R424): the bytes of the oldest reply first, from the first untaken one
(R428), and 0x00 where none waits. Of the replies, the first `old` waited when the transaction began, and `gaps` are the fill
bytes before each later one. `fuel` bounds the replies. -/
def takeBytes (p : PortId) : Nat → Nat → Nat → List Nat → State → State
  | 0, n, _, _, s => sendBytes s p (zeros n)
  | fuel + 1, n, old, gaps, s =>
    match (getPort s p).replies with
    | [] => sendBytes s p (zeros n)
    | r :: _ =>
      let gap := min n (if old = 0 then gaps.headD 0 else 0)
      let left := (replyBytes r).drop (getPort s p).taken
      let t := sendBytes s p (zeros gap ++ left.take (n - gap))
      if n - gap < left.length then modPort t p (fun v => { v with taken := v.taken + (n - gap) })
      else takeBytes p fuel (n - gap - left.length) (old - 1) (if old = 0 then gaps.drop 1 else gaps) (deliver t p)

/-- A transaction has read `r.bytes` bytes of a port: the status byte, from which on DROP counts afresh (R425), then reply bytes
and fill (R424, R428, R435). -/
def readPort (s : State) (p : PortId) (r : ReadOut) : State :=
  if r.bytes = 0 then s
  else
    let s := modPort (touchPorts s) p (fun v => { v with sent := [], drop := v.dropNew })
    takeBytes p ((getPort s p).replies.length + 1) (r.bytes - 1) (getPort s p).before r.gaps s

/-- The port status byte (R425). -/
def statusByteOf (s : State) (p : PortId) : Nat :=
  let v := getPort s p
  b2n (!v.replies.isEmpty) + b2n (decide (v.rx.length + 4106 ≤ 8192)) * 2 + b2n v.drop * 4 +
    b2n (!s.events.fifo.isEmpty) * 8 + b2n (decide (0 < v.taken)) * 16

/-- The status byte is loaded (R425), and the replies that wait stand (R424). -/
def shiftStatus (s : State) (p : PortId) : State :=
  let b := statusByteOf s p
  modPort s p (fun v => { v with statusByte := BitVec.ofNat 8 b, dropNew := false, before := v.replies.length })

/-! ## SPI (R422-R427) -/

/-- SPI_TRANSACTION_START (R422, R424, R430): SPI_CS_N falls. While the control clock is stopped it is asked to start, and
the transaction carries nothing. -/
def execSpiTransactionStart (sclkHigh : Bool) (s : State) : Step :=
  if s.bus.spiOpen || !s.power.accepting then .next s
  else
    let t := { s with bus := { s.bus with spiOpen := true, mode3 := sclkHigh, spiDead := !s.bus.ctrlClk } }
    if s.bus.ctrlClk then .next (shiftStatus t .spi) else .next { t with bus := { t.bus with ctrlStart := true } }

/-- A transaction of a port is over: the next byte is searched for a sync byte (R394). -/
def endTransaction (s : State) (p : PortId) : State := modPort s p (fun v => { v with discarding := false })

/-- SPI_TRANSACTION_END (R423): the transaction shifted `bytes` in and as many out, with `extraBits` bits of a partial byte; a
transaction that began with the control clock stopped read 0x00 only (R430). -/
def execSpiTransactionEnd (bytes : List Byte) (extraBits : Fin 8) (gaps : List Nat) (s : State) : Step :=
  if !s.bus.spiOpen then .next s
  else
    let t := { s with bus := { s.bus with spiOpen := false, spiDead := false } }
    let t := if bytes.isEmpty then t else touchPorts t
    if s.bus.spiDead || !portsRun s then .next (modPort t .spi (fun v => { v with sent := zeros bytes.length }))
    else
      let t := readPort (feedPort t .spi bytes) .spi ⟨bytes.length, gaps⟩
      let t := if extraBits.val = 0 then t else addCount (dropPartial t .spi 3) .spiCount 7 0 1
      .next (endTransaction t .spi)

/-- RX_FIFO_OVERFLOW (R427): a byte arrives while port 0's FIFO is full. -/
def execRxFifoOverflow (_byte : Byte) (s : State) : Step :=
  if !portsRun s then .next s
  else
    let head := s.spi.rx
    let t := modPort s .spi (fun v => { v with rx := [], discarding := true })
    .next (addCount (dropPacket t .spi 4 (head.getD 1 0).toNat (head.getD 2 0).toNat) .spiCount 15 8 1)

/-! ## Two-wire target (R432-R437) -/

/-- A backoff that waited for the free bus starts `wait` cycles from now (R445, R446). -/
def startBackoff (s : State) (wait : Nat) : State :=
  { s with events := { s.events with alert := s.events.alert.map (fun a =>
    match a.phase with
    | .held n => { a with phase := .backoff n, at_ := s.bsn, cyc := s.cycle, wait := wait }
    | _ => a) } }

/-- A STOP is detected: the bus is free SCL_LOW × T later (R444). -/
def busStop (s : State) : State :=
  startBackoff { s with bus := { s.bus with busy := true, stopAt := some (s.bsn, s.cycle) } } (busFreeCycles s)

/-- Both lines have been high long enough, or a recovery has freed the bus (R444, R450). -/
def busIdle (s : State) : State := startBackoff { s with bus := { s.bus with busy := false, stopAt := none } } 0

/-- A START is detected: the bus is busy, and a backoff whose bus was not yet free waits again (R444, R446). -/
def busStart (s : State) : State :=
  { s with
    bus := { s.bus with busy := true, stopAt := none }
    events := { s.events with alert := s.events.alert.map (fun a =>
      match a.phase with
      | .backoff n => if a.wait ≤ cyclesSince s a.at_ a.cyc then a else { a with phase := .held n }
      | _ => a) } }

/-- A group address (R433). -/
def groupAddr (s : State) (a : BitVec 7) : Bool :=
  let w := s.bus.effAddr
  let mask := twBits w 30 24
  twBits w 15 15 == 1 && Nat.land a.toNat (127 - mask) == Nat.land (twBits w 22 16) (127 - mask) &&
    a != s.bus.addrA && a != s.bus.addrB && a.toNat != twBits s.bus.effCfg 10 4 && within a.toNat 0x08 0x77

/-- The transaction that an address byte names (R432-R434). -/
def twNames (s : State) (a : BitVec 7) (read : Bool) : Option TwTransaction :=
  if a = s.bus.addrA then some ⟨.addrA, false, read⟩
  else if a = s.bus.addrB then if twBits s.bus.effCfg 2 2 = 1 then some ⟨.addrB, false, read⟩ else none
  else if groupAddr s a then some ⟨.addrA, true, read⟩
  else none

/-- An address byte of a transaction that the device serves, or must refuse while its control clock is stopped (R437). -/
def twAddress (s : State) (a : BitVec 7) (read : Bool) : State :=
  match twNames s a read with
  | none => s
  | some t =>
    let s := touchPorts s
    if !s.bus.ctrlClk then addCount { s with bus := { s.bus with ctrlStart := true } } .twCount 31 24 1
    else if t.group && read then s
    else
      let s := { s with bus := { s.bus with target := some t } }
      if read then shiftStatus s t.port else s

/-- TW_TARGET_ADDRESS (R434, R435, R437): the address byte after a START, which another device's transaction may begin. -/
def execTwTargetAddress (addr : BitVec 7) (read : Bool) (s : State) : Step :=
  if s.bus.target.isSome || s.bus.controller || !s.power.accepting then .next s
  else .next (twAddress (busStart s) addr read)

/-- A STOP, or a repeated START (R434, R444). -/
def twEnds (s : State) (stop : Bool) : State := if stop then busStop s else busStart s

/-- TW_TRANSACTION_END (R434, R433): a STOP or repeated START, also of a transaction that is not the device's; `bytes` were
written, or bytes were read. -/
def execTwTransactionEnd (bytes : List Byte) (how : TwEnd) (s : State) : Step :=
  match s.bus.target with
  | none => if s.bus.controller || !s.power.accepting then .next s else .next (twEnds s how.stop)
  | some t =>
    let s := twEnds { s with bus := { s.bus with target := none } } how.stop
    if t.read then .next (readPort s t.port how.read)
    else
      let s := feedPort s t.port bytes
      .next (endTransaction (if t.group then dropPartial s t.port 6 else s) t.port)

/-- STRETCH_TIMEOUT (R436): the device releases the bus and discards the transaction; what a read took stays taken (R428). The
bus is busy until the next START or STOP. -/
def execStretchTimeout (how : StretchEnd) (s : State) : Step :=
  match s.bus.target with
  | none => .next s
  | some t =>
    let s := { s with bus := { s.bus with target := none, busy := true, stopAt := none } }
    let s := if t.read then readPort s t.port how.read else s
    let s := addCount (endTransaction (dropPartial s t.port 5) t.port) .twCount 23 16 1
    .next (raise s 104 ((if t.group then 3 else portNum t.port) + b2n how.sdaHold * 4))

/-! ## The control clock (R430) -/

/-- CONTROL_CLOCK_START (R430, R437): within 300 µs of the edge or address that asked for it, while the crystal runs. -/
def execControlClockStart (s : State) : Step :=
  if modeLow s && s.bus.ctrlStart && !s.bus.ctrlClk && !s.clock.xtalFault then
    .next { s with bus := { s.bus with ctrlClk := true, ctrlStart := false } }
  else .next s

/-- CONTROL_CLOCK_STOP (R430): 100 ms with no byte, no command outstanding and no reply untaken. -/
def execControlClockStop (s : State) : Step :=
  let quiet := allPorts.all (fun p => (getPort s p).outstanding.isEmpty && (getPort s p).replies.isEmpty)
  if modeLow s && s.bus.ctrlClk && quiet && usPassed s 100000 s.bus.activeAt s.bus.activeCyc then
    .next { s with bus := { s.bus with ctrlClk := false, ctrlStart := false } }
  else .next s

/-! ## Two-wire fields (R452) -/

/-- The bus is free, and the device is neither controller nor target. -/
def busFree (s : State) : Bool := !busBusy s && !s.bus.controller && s.bus.target.isNone

/-- TW_FIELD_APPLY (R452). -/
def execTwFieldApply (s : State) : Step := if busFree s && s.power.accepting then .next (twInForce s) else .next s

/-! ## Alert writes (R444-R448) -/

/-- Change the alert. -/
def modAlert (s : State) (f : Alert → Option Alert) : State :=
  { s with events := { s.events with alert := s.events.alert.bind f } }

/-- The device is no longer controller, and the bus stays busy. -/
def releaseBus (s : State) : State := { s with bus := { s.bus with controller := false, busy := true, stopAt := none } }

/-- The alert is in transfer. -/
def alertWriting (s : State) : Bool := (s.events.alert.map (fun a => a.phase == .writing)).getD false

/-- The alert waits for the bus. -/
def alertWaiting (s : State) : Bool := (s.events.alert.map (fun a => a.phase == .waiting)).getD false

/-- The alert needs the bus: it waits for it, or for the free bus that starts its backoff (R445, R446, R450). -/
def alertNeedsBus (s : State) : Bool :=
  (s.events.alert.map (fun a => match a.phase with | .waiting | .held _ => true | _ => false)).getD false

/-- A backoff is drawn (R445); it starts once the bus is free (R446 and its example). -/
def alertBackoff (s : State) : State :=
  let n := Config.backoff s.free % 25
  modAlert (nextFree s) (fun a => some { a with phase := .held n, at_ := s.bsn, cyc := s.cycle })

/-- ALERT_WRITE (R444): the bus is free, ALERT_EN is 1, IO2 is powered and TWCLK runs. -/
def execAlertWrite (s : State) : Step :=
  if alertEn s && alertWaiting s && busFree s && !s.bus.stuck && s.power.accepting && !s.clock.xtalFault then
    .next (modAlert { s with bus := { s.bus with controller := true, busy := true, stopAt := none } }
      (fun a => some { a with phase := .writing }))
  else .next s

/-- ALERT_DELIVERED (R447): with the device's STOP. -/
def execAlertDelivered (s : State) : Step :=
  if alertWriting s then
    let t := busStop (releaseBus s)
    .next { t with events := { t.events with alert := none, alertEnd := some (s.bsn, s.cycle) } }
  else .next s

/-- After a NACK the device's STOP follows at once; after a stretch, or with a line low, only once TW_SCL is high (R445; the bus
stays busy until BUS_FREE, log entry 76). -/
def failStop (why : AlertFailure) (s : State) : State := if why = .nack then busStop s else s

/-- ALERT_ATTEMPT_FAIL (R445): in transfer, or at its start where a line is low; after ALERT_TRIES attempts the alert is
discarded with EV107. -/
def execAlertAttemptFail (why : AlertFailure) (s : State) : Step :=
  if !(alertWriting s || (why == .lineLow && alertWaiting s && alertEn s && busFree s)) then .next s
  else
    let t := addCount (releaseBus s) .twCount2 23 16 1
    let t := modAlert t (fun a => some { a with tries := a.tries + 1 })
    match t.events.alert with
    | none => .next t
    | some a =>
      if twBits t.bus.effLimits 16 13 ≤ a.tries then
        let u := failStop why { t with events := { t.events with alert := none, alertEnd := some (s.bsn, s.cycle) } }
        .next (raise (addCount u .twCount2 15 8 1) 107 a.num)
      else .next (failStop why (alertBackoff t))

/-- ALERT_BACKOFF_END (R445): 1.000 ms + n × 125 µs have passed since the bus was free. -/
def execAlertBackoffEnd (s : State) : Step :=
  match s.events.alert with
  | some a =>
    match a.phase with
    | .backoff n =>
      if (1000 + 125 * n) * Config.blockCycles + a.wait * 250 ≤ cyclesSince s a.at_ a.cyc * 250 then .next (modAlert s (fun a => some { a with phase := .waiting }))
      else .next s
    | _ => .next s
  | none => .next s

/-- ARBITRATION_LOST (R446): the device drives SDA no more and retries later; a loss within the address byte leaves the
winning address to the target logic. -/
def execArbitrationLost (winner : Option (BitVec 7 × Bool)) (s : State) : Step :=
  if !alertWriting s then .next s
  else
    let t := alertBackoff (addCount (releaseBus s) .twCount 7 0 1)
    match winner with
    | some (a, read) => .next (twAddress t a read)
    | none => .next t

/-- ARB_LATE (R448). -/
def execArbLate (s : State) : Step :=
  if !alertWriting s then .next s
  else .next (raise (alertBackoff (addCount (releaseBus s) .twCount 15 8 1)) 105 0)

/-! ## Stuck buses (R450, R451) -/

/-- The bus is stuck: the device drives neither line, an alert in transfer waits again, and the event is counted and reported
once. -/
def busStuck (s : State) (scl : Nat) : State :=
  let t := if alertWriting s then modAlert s (fun a => some { a with phase := .waiting }) else s
  raise (addCount { releaseBus t with bus := { (releaseBus t).bus with stuck := true } } .twCount2 7 0 1) 106 scl

/-- BUS_STUCK (R450): an alert waits while SDA has been low for STUCK_MS; a recovery frees the bus, or three fail. -/
def execBusStuck (recovered : Bool) (s : State) : Step :=
  if !(alertNeedsBus s && alertEn s) || s.bus.stuck || s.clock.xtalFault || !s.power.accepting then .next s
  else if recovered then .next (busIdle s)
  else .next (busStuck s 0)

/-- SCL_STUCK (R451). -/
def execSclStuck (s : State) : Step :=
  if s.bus.stuck || s.clock.xtalFault || !s.power.accepting then .next s else .next (busStuck s 1)

/-- BUS_FREE (R444, R446, R450): both lines have been high for 100 µs; after STUCK the alert starts afresh. -/
def execBusFree (s : State) : Step :=
  let t := if s.bus.stuck then
    modAlert { s with bus := { s.bus with stuck := false } } (fun a => some { a with tries := 0, phase := .waiting }) else s
  if s.bus.controller || s.bus.target.isSome then .next t else .next (busIdle t)

end Sys2Proof.Machine
end

