-- ==== Sys2Proof/Machine/Dispatch.lean ====
section
/-!
DEFINITION. The dispatch: one arm per constructor of `Instr`, each a direct call of its meaning.
-/

namespace Sys2Proof.Machine

open Sys2Proof

/-- The effect of a command on everything but the queue. -/
def exec (i : Instr) (s : State) : Host.Outcome State Fault Refusal :=
  match i with
  | .commandPacket p bytes => Sys2Proof.Machine.execCommandPacket p bytes s
  | .replyDelivered p => Sys2Proof.Machine.execReplyDelivered p s
  | .spiTransactionStart sclkHigh => Sys2Proof.Machine.execSpiTransactionStart sclkHigh s
  | .spiTransactionEnd bytes extraBits gaps => Sys2Proof.Machine.execSpiTransactionEnd bytes extraBits gaps s
  | .rxFifoOverflow byte => Sys2Proof.Machine.execRxFifoOverflow byte s
  | .twTargetAddress addr read => Sys2Proof.Machine.execTwTargetAddress addr read s
  | .twTransactionEnd bytes how => Sys2Proof.Machine.execTwTransactionEnd bytes how s
  | .stretchTimeout how => Sys2Proof.Machine.execStretchTimeout how s
  | .controlClockStart => Sys2Proof.Machine.execControlClockStart s
  | .controlClockStop => Sys2Proof.Machine.execControlClockStop s
  | .twFieldApply => Sys2Proof.Machine.execTwFieldApply s
  | .alertCompose => Sys2Proof.Machine.execAlertCompose s
  | .alertWrite => Sys2Proof.Machine.execAlertWrite s
  | .alertDelivered => Sys2Proof.Machine.execAlertDelivered s
  | .alertAttemptFail why => Sys2Proof.Machine.execAlertAttemptFail why s
  | .alertBackoffEnd => Sys2Proof.Machine.execAlertBackoffEnd s
  | .arbitrationLost winner => Sys2Proof.Machine.execArbitrationLost winner s
  | .arbLate => Sys2Proof.Machine.execArbLate s
  | .busStuck recovered => Sys2Proof.Machine.execBusStuck recovered s
  | .sclStuck => Sys2Proof.Machine.execSclStuck s
  | .busFree => Sys2Proof.Machine.execBusFree s
  | .ping q => Sys2Proof.Machine.execPing q s
  | .identify q => Sys2Proof.Machine.execIdentify q s
  | .getStatus q => Sys2Proof.Machine.execGetStatus q s
  | .abort q => Sys2Proof.Machine.execAbort q s
  | .resetDevice q => Sys2Proof.Machine.execResetDevice q s
  | .portClassGet q => Sys2Proof.Machine.execPortClassGet q s
  | .portClassSet q => Sys2Proof.Machine.execPortClassSet q s
  | .paramWrite q => Sys2Proof.Machine.execParamWrite q s
  | .paramRead q => Sys2Proof.Machine.execParamRead q s
  | .hamperOpen q => Sys2Proof.Machine.execHamperOpen q s
  | .hamperStage q => Sys2Proof.Machine.execHamperStage q s
  | .hamperCommit q => Sys2Proof.Machine.execHamperCommit q s
  | .hamperDiscard q => Sys2Proof.Machine.execHamperDiscard q s
  | .hamperStatus q => Sys2Proof.Machine.execHamperStatus q s
  | .graphBegin q => Sys2Proof.Machine.execGraphBegin q s
  | .graphData q => Sys2Proof.Machine.execGraphData q s
  | .graphEnd q => Sys2Proof.Machine.execGraphEnd q s
  | .graphCheckDone copyFault => Sys2Proof.Machine.execGraphCheckDone copyFault s
  | .graphActivate q => Sys2Proof.Machine.execGraphActivate q s
  | .graphSwitch => Sys2Proof.Machine.execGraphSwitch s
  | .graphUnload q => Sys2Proof.Machine.execGraphUnload q s
  | .graphStatus q => Sys2Proof.Machine.execGraphStatus q s
  | .loadMeter q => Sys2Proof.Machine.execLoadMeter q s
  | .loadMeterSet q => Sys2Proof.Machine.execLoadMeterSet q s
  | .memRead q => Sys2Proof.Machine.execMemRead q s
  | .memReadSnapshot => Sys2Proof.Machine.execMemReadSnapshot s
  | .memWrite q => Sys2Proof.Machine.execMemWrite q s
  | .portStatus q => Sys2Proof.Machine.execPortStatus q s
  | .spdifCsRead q => Sys2Proof.Machine.execSpdifCsRead q s
  | .routeRead q => Sys2Proof.Machine.execRouteRead q s
  | .portRestart q => Sys2Proof.Machine.execPortRestart q s
  | .powerStatus q => Sys2Proof.Machine.execPowerStatus q s
  | .powerModeSet q => Sys2Proof.Machine.execPowerModeSet q s
  | .wakeCfg q => Sys2Proof.Machine.execWakeCfg q s
  | .resetInfo q => Sys2Proof.Machine.execResetInfo q s
  | .clockStatus q => Sys2Proof.Machine.execClockStatus q s
  | .rootRestart q => Sys2Proof.Machine.execRootRestart q s
  | .auxProfile q => Sys2Proof.Machine.execAuxProfile q s
  | .eventStatus q => Sys2Proof.Machine.execEventStatus q s
  | .eventRead q => Sys2Proof.Machine.execEventRead q s
  | .eventPeek q => Sys2Proof.Machine.execEventPeek q s
  | .eventClear q => Sys2Proof.Machine.execEventClear q s
  | .pstageStatus q => Sys2Proof.Machine.execPstageStatus q s
  | .pstageClear q => Sys2Proof.Machine.execPstageClear q s
  | .pstageClearApply => Sys2Proof.Machine.execPstageClearApply s
  | .pstageSenseRead q => Sys2Proof.Machine.execPstageSenseRead q s
  | .pstageStop q => Sys2Proof.Machine.execPstageStop q s
  | .diagRun q => Sys2Proof.Machine.execDiagRun q s
  | .diagResult q => Sys2Proof.Machine.execDiagResult q s
  | .otpStatus q => Sys2Proof.Machine.execOtpStatus q s
  | .otpRead q => Sys2Proof.Machine.execOtpRead q s
  | .otpGenBegin q => Sys2Proof.Machine.execOtpGenBegin q s
  | .otpGenData q => Sys2Proof.Machine.execOtpGenData q s
  | .otpGenCommit q => Sys2Proof.Machine.execOtpGenCommit q s
  | .otpLock q => Sys2Proof.Machine.execOtpLock q s
  | .otpFactoryWrite q => Sys2Proof.Machine.execOtpFactoryWrite q s
  | .otpWordProgrammed verified => Sys2Proof.Machine.execOtpWordProgrammed verified s
  | .healthStatus q => Sys2Proof.Machine.execHealthStatus q s
  | .faultTableRead q => Sys2Proof.Machine.execFaultTableRead q s
  | .faultTableClear q => Sys2Proof.Machine.execFaultTableClear q s
  | .repairLogRead q => Sys2Proof.Machine.execRepairLogRead q s
  | .bankCounters q => Sys2Proof.Machine.execBankCounters q s
  | .healthCfg q => Sys2Proof.Machine.execHealthCfg q s
  | .repairForce q => Sys2Proof.Machine.execRepairForce q s
  | .faultInject q => Sys2Proof.Machine.execFaultInject q s
  | .wakeStatus q => Sys2Proof.Machine.execWakeStatus q s
  | .coolerFetch q => Sys2Proof.Machine.execCoolerFetch q s
  | .coolerFetchComplete => Sys2Proof.Machine.execCoolerFetchComplete s
  | .wakeRearm q => Sys2Proof.Machine.execWakeRearm q s
  | .touchStatus q => Sys2Proof.Machine.execTouchStatus q s
  | .touchRecal q => Sys2Proof.Machine.execTouchRecal q s
  | .keyStatus q => Sys2Proof.Machine.execKeyStatus q s
  | .svcRawRead q => Sys2Proof.Machine.execSvcRawRead q s
  | .svcSpareTest q => Sys2Proof.Machine.execSvcSpareTest q s
  | .registerWrite paddr value => Sys2Proof.Machine.execRegisterWrite paddr value s
  | .paddockSizeWrite value => Sys2Proof.Machine.execPaddockSizeWrite value s
  | .commitApply => Sys2Proof.Machine.execCommitApply s
  | .routeCrossfadeEnd sink entry => Sys2Proof.Machine.execRouteCrossfadeEnd sink entry s
  | .interpRampEnd op word => Sys2Proof.Machine.execInterpRampEnd op word s
  | .blockBoundary inp => Sys2Proof.Machine.execBlockBoundary inp s
  | .selfTestEnd unit pass => Sys2Proof.Machine.execSelfTestEnd unit pass s
  | .taskGrant port => Sys2Proof.Machine.execTaskGrant port s
  | .taskRetire engine => Sys2Proof.Machine.execTaskRetire engine s
  | .heldAdmit => Sys2Proof.Machine.execHeldAdmit s
  | .penRefill pen bad => Sys2Proof.Machine.execPenRefill pen bad s
  | .engineStopEnd engine => Sys2Proof.Machine.execEngineStopEnd engine s
  | .faultDetect r => Sys2Proof.Machine.execFaultDetect r s
  | .watchdogExpire oe => Sys2Proof.Machine.execWatchdogExpire oe s
  | .bankWaitTimeout bank engine => Sys2Proof.Machine.execBankWaitTimeout bank engine s
  | .faultTableEntry => Sys2Proof.Machine.execFaultTableEntry s
  | .aonQueueDrain => Sys2Proof.Machine.execAonQueueDrain s
  | .portResetDone bank => Sys2Proof.Machine.execPortResetDone bank s
  | .scrubRead bank flips => Sys2Proof.Machine.execScrubRead bank flips s
  | .strikeExpire => Sys2Proof.Machine.execStrikeExpire s
  | .engineRetire => Sys2Proof.Machine.execEngineRetire s
  | .migrationBegin => Sys2Proof.Machine.execMigrationBegin s
  | .migrationCopyEnd => Sys2Proof.Machine.execMigrationCopyEnd s
  | .migrationSwitch => Sys2Proof.Machine.execMigrationSwitch s
  | .decimatorParallelStart => Sys2Proof.Machine.execDecimatorParallelStart s
  | .decimatorSwitch => Sys2Proof.Machine.execDecimatorSwitch s
  | .fingerFail hb report => Sys2Proof.Machine.execFingerFail hb report s
  | .fingerRetire => Sys2Proof.Machine.execFingerRetire s
  | .repairLogWrite verified => Sys2Proof.Machine.execRepairLogWrite verified s
  | .portEnable p => Sys2Proof.Machine.execPortEnable p s
  | .portDisable p => Sys2Proof.Machine.execPortDisable p s
  | .portConfigChange p value => Sys2Proof.Machine.execPortConfigChange p value s
  | .channelMapChange output ch value => Sys2Proof.Machine.execChannelMapChange output ch value s
  | .portClockFound p => Sys2Proof.Machine.execPortClockFound p s
  | .portLock p rate ppm delayNs => Sys2Proof.Machine.execPortLock p rate ppm delayNs s
  | .portLockLoss p why clockLeft => Sys2Proof.Machine.execPortLockLoss p why clockLeft s
  | .framingError p consecutive => Sys2Proof.Machine.execFramingError p consecutive s
  | .spdifParityError r biphase => Sys2Proof.Machine.execSpdifParityError r biphase s
  | .spdifNonpcm r preamble => Sys2Proof.Machine.execSpdifNonpcm r preamble s
  | .spdifNonpcmExit r => Sys2Proof.Machine.execSpdifNonpcmExit r s
  | .spdifBlockCapture r csA csB => Sys2Proof.Machine.execSpdifBlockCapture r csA csB s
  | .adcEnable a => Sys2Proof.Machine.execAdcEnable a s
  | .adcSettleEnd a => Sys2Proof.Machine.execAdcSettleEnd a s
  | .adcDisable a => Sys2Proof.Machine.execAdcDisable a s
  | .adcMute a => Sys2Proof.Machine.execAdcMute a s
  | .adcUnmute a => Sys2Proof.Machine.execAdcUnmute a s
  | .pgaChange m gain => Sys2Proof.Machine.execPgaChange m gain s
  | .pgaStep m => Sys2Proof.Machine.execPgaStep m s
  | .micbiasEnable => Sys2Proof.Machine.execMicbiasEnable s
  | .micbiasOverload => Sys2Proof.Machine.execMicbiasOverload s
  | .classGHigh => Sys2Proof.Machine.execClassGHigh s
  | .classGLow => Sys2Proof.Machine.execClassGLow s
  | .hpPowerUp => Sys2Proof.Machine.execHpPowerUp s
  | .hpPowerDown => Sys2Proof.Machine.execHpPowerDown s
  | .hpMute line mute => Sys2Proof.Machine.execHpMute line mute s
  | .loPowerUp => Sys2Proof.Machine.execLoPowerUp s
  | .loPowerDown => Sys2Proof.Machine.execLoPowerDown s
  | .hpOvercurrent left right => Sys2Proof.Machine.execHpOvercurrent left right s
  | .hpFaultRetry => Sys2Proof.Machine.execHpFaultRetry s
  | .jackLevelChange inserted => Sys2Proof.Machine.execJackLevelChange inserted s
  | .jackInsert aux => Sys2Proof.Machine.execJackInsert aux s
  | .jackRemove aux => Sys2Proof.Machine.execJackRemove aux s
  | .classifyMeasure mv => Sys2Proof.Machine.execClassifyMeasure mv s
  | .classifyRetry => Sys2Proof.Machine.execClassifyRetry s
  | .threePoleRepeat mvA mvB => Sys2Proof.Machine.execThreePoleRepeat mvA mvB s
  | .headsetMicSwitch => Sys2Proof.Machine.execHeadsetMicSwitch s
  | .hsButtonPress mv => Sys2Proof.Machine.execHsButtonPress mv s
  | .hsButtonRelease => Sys2Proof.Machine.execHsButtonRelease s
  | .pdmClockChange c => Sys2Proof.Machine.execPdmClockChange c s
  | .setACrossfade b => Sys2Proof.Machine.execSetACrossfade b s
  | .roosterWindow b filtered => Sys2Proof.Machine.execRoosterWindow b filtered s
  | .channelStart c => Sys2Proof.Machine.execChannelStart c s
  | .channelStop c => Sys2Proof.Machine.execChannelStop c s
  | .vfsChange h value => Sys2Proof.Machine.execVfsChange h value s
  | .limitedCycle h consecutive => Sys2Proof.Machine.execLimitedCycle h consecutive s
  | .channelShutdown c why => Sys2Proof.Machine.execChannelShutdown c why s
  | .channelRetry c => Sys2Proof.Machine.execChannelRetry c s
  | .retriesReset c => Sys2Proof.Machine.execRetriesReset c s
  | .loopOpen h => Sys2Proof.Machine.execLoopOpen h s
  | .dcDetect h => Sys2Proof.Machine.execDcDetect h s
  | .pvddFault mv => Sys2Proof.Machine.execPvddFault mv s
  | .pvddAvailable mv => Sys2Proof.Machine.execPvddAvailable mv s
  | .thermalShutdown => Sys2Proof.Machine.execThermalShutdown s
  | .thermalRecover => Sys2Proof.Machine.execThermalRecover s
  | .xfault q => Sys2Proof.Machine.execXfault q s
  | .dieLinkFail => Sys2Proof.Machine.execDieLinkFail s
  | .diagSweepStart => Sys2Proof.Machine.execDiagSweepStart s
  | .diagBiasRiseEnd shorts => Sys2Proof.Machine.execDiagBiasRiseEnd shorts s
  | .diagSlotEnd m => Sys2Proof.Machine.execDiagSlotEnd m s
  | .diagSweepEnd => Sys2Proof.Machine.execDiagSweepEnd s
  | .rootConfigWrite freq value => Sys2Proof.Machine.execRootConfigWrite freq value s
  | .pllSafeLock => Sys2Proof.Machine.execPllSafeLock s
  | .pllRootLock => Sys2Proof.Machine.execPllRootLock s
  | .rootSwitchBack => Sys2Proof.Machine.execRootSwitchBack s
  | .refQualify ppm100 => Sys2Proof.Machine.execRefQualify ppm100 s
  | .trackLock => Sys2Proof.Machine.execTrackLock s
  | .refLoss => Sys2Proof.Machine.execRefLoss s
  | .coastTimeout => Sys2Proof.Machine.execCoastTimeout s
  | .realignBlock => Sys2Proof.Machine.execRealignBlock s
  | .xtalFaultSet => Sys2Proof.Machine.execXtalFaultSet s
  | .xtalFaultClear => Sys2Proof.Machine.execXtalFaultClear s
  | .auxLock a => Sys2Proof.Machine.execAuxLock a s
  | .auxRatioChange a int num den => Sys2Proof.Machine.execAuxRatioChange a int num den s
  | .auxRampEnd a => Sys2Proof.Machine.execAuxRampEnd a s
  | .auxProfileBegin a => Sys2Proof.Machine.execAuxProfileBegin a s
  | .auxSegmentEnd a => Sys2Proof.Machine.execAuxSegmentEnd a s
  | .mclkEnable a => Sys2Proof.Machine.execMclkEnable a s
  | .mclkDisable a => Sys2Proof.Machine.execMclkDisable a s
  | .syncPeriodWrite period => Sys2Proof.Machine.execSyncPeriodWrite period s
  | .powerOnReset => Sys2Proof.Machine.execPowerOnReset s
  | .pinReset => Sys2Proof.Machine.execPinReset s
  | .supplyReset rails => Sys2Proof.Machine.execSupplyReset rails s
  | .thermalReset => Sys2Proof.Machine.execThermalReset s
  | .bootStart => Sys2Proof.Machine.execBootStart s
  | .bootThermalRelease => Sys2Proof.Machine.execBootThermalRelease s
  | .bootComplete => Sys2Proof.Machine.execBootComplete s
  | .bootFail => Sys2Proof.Machine.execBootFail s
  | .modeD1 => Sys2Proof.Machine.execModeD1 s
  | .fabricGate => Sys2Proof.Machine.execFabricGate s
  | .modeD2 => Sys2Proof.Machine.execModeD2 s
  | .modeD3 => Sys2Proof.Machine.execModeD3 s
  | .idleReached => Sys2Proof.Machine.execIdleReached s
  | .fabricUngate => Sys2Proof.Machine.execFabricUngate s
  | .listenRetainSwitch => Sys2Proof.Machine.execListenRetainSwitch s
  | .wakeSource code => Sys2Proof.Machine.execWakeSource code s
  | .coreTemp120 temp => Sys2Proof.Machine.execCoreTemp120 temp s
  | .chargerChange level => Sys2Proof.Machine.execChargerChange level s
  | .shipClockMeasure periods => Sys2Proof.Machine.execShipClockMeasure periods s
  | .touchScan raws => Sys2Proof.Machine.execTouchScan raws s
  | .gestureHold e => Sys2Proof.Machine.execGestureHold e s
  | .touchMaxOn e => Sys2Proof.Machine.execTouchMaxOn e s
  | .touchConfigChange e value => Sys2Proof.Machine.execTouchConfigChange e value s
  | .sliderConfigChange value => Sys2Proof.Machine.execSliderConfigChange value s
  | .keyPress k => Sys2Proof.Machine.execKeyPress k s
  | .keyRelease k => Sys2Proof.Machine.execKeyRelease k s
  | .keyLong k => Sys2Proof.Machine.execKeyLong k s
  | .coreRelease straps pressed => Sys2Proof.Machine.execCoreRelease straps pressed s
  | .micbiasOverloadEnd => Sys2Proof.Machine.execMicbiasOverloadEnd s
  | .portClockLost p => Sys2Proof.Machine.execPortClockLost p s
  | .otpReadDone => Sys2Proof.Machine.execOtpReadDone s
  | .svcRawReadDone => Sys2Proof.Machine.execSvcRawReadDone s
  | .testInstructionUpdate code => Sys2Proof.Machine.execTestInstructionUpdate code s

end Sys2Proof.Machine
end

