-- ==== Sys2Proof/WellFormed.lean ====
section
/-!
DEFINITION. Which commands the outside can send: the operand ranges that the spec gives and that the types of Syntax.lean
do not say by themselves. `exec` is defined on every command; statements about encodings and inputs cite these checks.
-/

namespace Sys2Proof

/-- Units of each kind (R180, R187, R192); a half-bridge stands for its eight fingers. -/
def unitTotal : UnitKind → Nat
  | .oe => 56 | .me => 16 | .bank => 18 | .dec => 24 | .finger => 16 | .drover => 1

/-- A unit that exists; only a finger has a finger number, 0 to 7 (R187). -/
def UnitRef.wf (u : UnitRef) : Bool :=
  decide (u.index < unitTotal u.kind) && (if u.kind = .finger then decide (u.finger < 8) else decide (u.finger = 0))

/-- A unit that runs tasks: an operator engine or a move engine (R127, R143). -/
def UnitRef.isEngine (u : UnitRef) : Bool := u.wf && (u.kind == .oe || u.kind == .me)

/-- Kinds of unit that a class may name as its suspect (R158). -/
def suspectOk (c : FaultClass) (k : UnitKind) : Bool :=
  match c with
  | .residue | .unitCompare | .lbufUe | .watchdog => k == .oe
  | .moveCheck => k == .me
  | .portParity | .bankWait | .bankUe | .descriptor => k == .bank
  | .tag => k == .oe || k == .me || k == .bank
  | .decResidue => k == .dec
  | .finger => k == .finger
  | .selfTest => k == .oe || k == .dec

/-- Bits of a bank word, each once (R163). -/
def flipsOk (l : List Nat) : Bool := l.all (fun b => decide (b < 275)) && l.eraseDups == l

/-- The currents of eight fingers in each carrier cycle (R187). -/
def cyclesOk (l : List (List Nat)) : Bool := l.all (fun c => c.length == 8)

/-- What a detector may have before it: words and places that exist (R139, R160, R163, R187). -/
def Evidence.wf : Evidence → Bool
  | .localWord word _ => decide (word < 4096)
  | .bankWord bank addr flips index tag =>
    decide (bank < 18) && decide (addr < 49152) && flipsOk flips && decide (index < 524288) && decide (tag < 65536)
  | .descriptor bytes => bytes.length == 64
  | .shares _ cycles => cyclesOk cycles
  | .none | .macs _ | .copies _ _ | .transfer _ _ | .waited _ => true

/-- A report names units that exist, and a suspect of its class's kind (R158). -/
def FaultReport.wf (r : FaultReport) : Bool :=
  r.suspect.wf && r.reporter.wf && suspectOk r.cls r.suspect.kind && r.engine.all UnitRef.isEngine && r.found.wf

/-- A command packet: at most 4,096 payload bytes (R391). -/
def Request.wf (q : Request) : Bool := decide (q.payload.length ≤ 4096)

/-- A value of `n` bits, signed. -/
def fitsSigned (n : Nat) (v : Int) : Bool := decide (-(2 ^ (n - 1) : Int) ≤ v) && decide (v < (2 ^ (n - 1) : Int))

/-- Codes of the audio sources (R216). -/
def sourceOk (c : Nat) : Bool := decide (c < 0x26) || (decide (0x30 ≤ c) && decide (c < 0x40))

/-- Codes of the sources that a decimator delivers (R216, R259, R287). -/
def decimatorOk (c : Nat) : Bool := decide (0x20 ≤ c) && sourceOk c

/-- Keys of a list rise strictly, so each stands once. -/
def keysRise {α : Type} : List (Nat × α) → Bool
  | [] => true
  | [_] => true
  | x :: y :: r => decide (x.1 < y.1) && keysRise (y :: r)

/-- What comes to a boundary has the shape of its docstring: 24 samples a source in S32 (R12, R216), 4 a microphone
(R292), 1,536 sense samples in K23 a half-bridge (R318), 24 PVDD readings (R329), 4 temperatures (R330), places inside the
Cooler (R299), offsets of ports 0 to 6 (R243). -/
def BlockInput.wf (i : BlockInput) : Bool :=
  keysRise i.sources && i.sources.all (fun x => decimatorOk x.1 && x.2.length == 24 && x.2.all (fitsSigned 32)) &&
  keysRise i.feeds && i.feeds.all (fun x => decide (x.1 < 16) && (x.2.length == 4 || x.2.length == 24) && x.2.all (fitsSigned 32)) &&
  keysRise i.sense && i.sense.all (fun x => decide (x.1 < 16) && x.2.length == 1536 &&
    x.2.all (fun p => fitsSigned 32 p.v && fitsSigned 32 p.i)) &&
  i.pvddLow.length == 24 && i.temps.length == 4 &&
  i.badWords.all (fun w => w.all (fun x => decide (x.1 < 32768) && decide (x.2 < 5))) &&
  keysRise i.ppm && i.ppm.all (fun x => decide (x.1 < 7) && fitsSigned 16 x.2) &&
  i.upsets.all (fun x => decide (x.1 < 18) && decide (x.2.1 < 49152) && decide (x.2.2 < 275)) &&
  i.taskErrors.all (fun x => decide (x.1 < 18) && decide (x.2.1 < 49152) && flipsOk x.2.2) &&
  i.lbufFixed.all (fun e => decide (e.1 < 56)) &&
  keysRise i.ports && i.ports.all (fun x => decide (x.1 < 7)) && keysRise i.delays && i.delays.all (fun x => decide (x.1 < 7)) &&
  keysRise i.parallel && i.parallel.all (fun x => decimatorOk x.1 && x.2.length == 24 && x.2.all (fitsSigned 32)) &&
  i.contact.all (fun v => decide (v < 4096)) && keysRise i.xfaultLow &&
  i.xfaultLow.all (fun q => decide (q.1 < 4)) && i.linkBad.all (fun c => decide (c < 294912)) &&
  i.xfaultLow.all (fun q => decide (q.2 < 294912))

/-- A command that the outside, or the unit its row names, can send. -/
def Instr.wf : Instr → Bool
  | .ping q | .identify q | .getStatus q | .abort q | .resetDevice q | .portClassGet q | .portClassSet q
  | .paramWrite q | .paramRead q | .hamperOpen q | .hamperStage q | .hamperCommit q | .hamperDiscard q | .hamperStatus q
  | .graphBegin q | .graphData q | .graphEnd q | .graphActivate q | .graphUnload q | .graphStatus q | .loadMeter q
  | .loadMeterSet q | .memRead q | .memWrite q | .portStatus q | .spdifCsRead q | .routeRead q | .portRestart q
  | .powerStatus q | .powerModeSet q | .wakeCfg q | .resetInfo q | .clockStatus q | .rootRestart q | .auxProfile q
  | .eventStatus q | .eventRead q | .eventPeek q | .eventClear q | .pstageStatus q | .pstageClear q | .pstageSenseRead q
  | .pstageStop q | .diagRun q | .diagResult q | .otpStatus q | .otpRead q | .otpGenBegin q | .otpGenData q
  | .otpGenCommit q | .otpLock q | .otpFactoryWrite q | .healthStatus q | .faultTableRead q | .faultTableClear q
  | .repairLogRead q | .bankCounters q | .healthCfg q | .repairForce q | .faultInject q | .wakeStatus q | .coolerFetch q
  | .wakeRearm q | .touchStatus q | .touchRecal q | .keyStatus q | .svcRawRead q | .svcSpareTest q => q.wf
  | .blockBoundary i => i.wf
  | .selfTestEnd u _ => u.wf && (u.kind == .oe || u.kind == .dec)
  | .taskRetire u | .engineStopEnd u | .bankWaitTimeout _ u => u.isEngine
  | .penRefill _ bad => bad.all (fun i => decide (i < 32))
  | .faultDetect r => r.wf
  | .loopOpen r => r.samples.length == 64 && r.samples.all (fun x => fitsSigned 32 x.target && fitsSigned 32 x.sensed)
  | .scrubRead _ flips => flipsOk flips
  | .fingerFail _ r => cyclesOk r.cycles
  | .interpRampEnd op word => decide (op < 4096) && decide (word < 65536)
  | .spdifBlockCapture _ a b => a.length == 24 && b.length == 24
  | .classifyMeasure mv | .hsButtonPress mv => decide (mv < 4096)
  | .threePoleRepeat a b => decide (a < 4096) && decide (b < 4096)
  | .pvddFault mv | .pvddAvailable mv => decide (mv < 65536)
  | .touchScan l => l.length == 12 && l.all (fun v => decide (v < 65536))
  | .coreRelease _ l => l.length == 6
  | .commandPacket .. | .replyDelivered .. | .spiTransactionStart .. | .spiTransactionEnd .. | .rxFifoOverflow ..
  | .twTargetAddress .. | .twTransactionEnd .. | .stretchTimeout .. | .controlClockStart | .controlClockStop | .twFieldApply
  | .alertCompose | .alertWrite | .alertDelivered | .alertAttemptFail .. | .alertBackoffEnd | .arbitrationLost .. | .arbLate
  | .busStuck .. | .sclStuck | .busFree | .graphCheckDone .. | .graphSwitch | .memReadSnapshot | .pstageClearApply
  | .otpWordProgrammed .. | .coolerFetchComplete | .registerWrite .. | .paddockSizeWrite .. | .commitApply
  | .routeCrossfadeEnd .. | .taskGrant .. | .heldAdmit | .watchdogExpire .. | .faultTableEntry | .aonQueueDrain
  | .portResetDone .. | .strikeExpire | .engineRetire | .migrationBegin | .migrationCopyEnd
  | .migrationSwitch | .decimatorParallelStart | .decimatorSwitch | .fingerRetire | .repairLogWrite ..
  | .portEnable .. | .portDisable .. | .portConfigChange .. | .channelMapChange .. | .portClockFound .. | .portLock ..
  | .portLockLoss .. | .framingError .. | .spdifParityError .. | .spdifNonpcm .. | .spdifNonpcmExit .. | .adcEnable ..
  | .adcSettleEnd .. | .adcDisable .. | .adcMute .. | .adcUnmute .. | .pgaChange .. | .pgaStep .. | .micbiasEnable
  | .micbiasOverload | .classGHigh | .classGLow | .hpPowerUp | .hpPowerDown | .hpMute .. | .loPowerUp | .loPowerDown
  | .hpOvercurrent .. | .hpFaultRetry | .jackLevelChange .. | .jackInsert .. | .jackRemove .. | .classifyRetry
  | .headsetMicSwitch | .hsButtonRelease | .roosterWindow .. | .pdmClockChange .. | .setACrossfade .. | .channelStart ..
  | .channelStop .. | .vfsChange .. | .limitedCycle .. | .channelShutdown .. | .channelRetry .. | .retriesReset ..
  | .dcDetect .. | .thermalShutdown | .thermalRecover | .xfault .. | .dieLinkFail | .diagSweepStart | .diagBiasRiseEnd .. | .diagSlotEnd ..
  | .diagSweepEnd | .rootConfigWrite .. | .pllSafeLock | .pllRootLock | .rootSwitchBack | .refQualify .. | .trackLock
  | .refLoss | .coastTimeout | .realignBlock | .xtalFaultSet | .xtalFaultClear | .auxLock .. | .auxRatioChange ..
  | .auxRampEnd .. | .auxProfileBegin .. | .auxSegmentEnd .. | .mclkEnable .. | .mclkDisable .. | .syncPeriodWrite ..
  | .powerOnReset | .pinReset | .supplyReset .. | .thermalReset | .bootStart | .bootThermalRelease | .bootComplete
  | .bootFail | .modeD1 | .fabricGate | .modeD2 | .modeD3 | .idleReached | .fabricUngate | .listenRetainSwitch
  | .wakeSource .. | .coreTemp120 .. | .chargerChange .. | .shipClockMeasure .. | .gestureHold .. | .touchMaxOn ..
  | .touchConfigChange .. | .sliderConfigChange .. | .keyPress .. | .keyRelease .. | .keyLong .. | .micbiasOverloadEnd
  | .portClockLost .. | .otpReadDone | .svcRawReadDone | .testInstructionUpdate .. => true

end Sys2Proof
end

