-- ==== Sys2Proof/Safety.lean ====
section
/-!
DEFINITION. What a sound state is, and the terms that statements use: canonical forms and the bounds the spec gives its
stores, what a heard command leaves, the row of an opcode, the bytes of a packet.
-/

namespace Sys2Proof.Machine

open Sys2Proof

/-! ## Sound states -/

/-- The register file's canonical form: rising PADDRs, and no word equal to its reset value (R201). -/
def regsWf (m : RegFile) : Bool := assocRising m && m.all (fun x => decide (x.2.toNat ≠ regResetAt x.1))

/-- The OTP's canonical form: rising word indices, and no word 0 (R490). -/
def otpWf (m : List (Nat × Word)) : Bool := assocRising m && m.all (fun x => decide (x.2 ≠ 0#32))

/-- An image's canonical form: rising offsets (R70). -/
def imagesWf (l : List Slot) : Bool := l.all (fun x => assocRising x.image)

/-- A port has at most 32 outstanding commands (R397). -/
def placesOk (p : Port) : Bool := decide (p.outstanding.length ≤ 32)

/-- A sound state: every store in canonical form and within the bounds the spec gives it (R15, R201, R299, R397, R458,
R461, R490). -/
structure State.Sound (s : State) : Prop where
  regs   : regsWf s.regs = true
  otp    : otpWf s.otp.words = true
  cooler : Memory.wf s.wake.cooler = true
  images : imagesWf s.graph.slots = true
  spi    : placesOk s.spi = true
  addrA  : placesOk s.addrA = true
  addrB  : placesOk s.addrB = true
  fifo   : s.events.fifo.length ≤ 64
  aon    : s.events.aonQueue.length ≤ 8
  cycle  : s.cycle < 294912

/-! ## Packets and opcodes -/

/-- The row of a defined opcode (R417). -/
def opcodeRow (op : Nat) (q : Request) : Option Instr :=
  match op with
  | 0x00 => some (.ping q) | 0x01 => some (.identify q) | 0x02 => some (.getStatus q) | 0x03 => some (.abort q)
  | 0x04 => some (.resetDevice q) | 0x05 => some (.portClassGet q) | 0x06 => some (.portClassSet q)
  | 0x10 => some (.paramWrite q) | 0x11 => some (.paramRead q) | 0x12 => some (.hamperOpen q)
  | 0x13 => some (.hamperStage q) | 0x14 => some (.hamperCommit q) | 0x15 => some (.hamperDiscard q)
  | 0x16 => some (.hamperStatus q)
  | 0x20 => some (.graphBegin q) | 0x21 => some (.graphData q) | 0x22 => some (.graphEnd q)
  | 0x23 => some (.graphActivate q) | 0x24 => some (.graphUnload q) | 0x25 => some (.graphStatus q)
  | 0x26 => some (.loadMeter q) | 0x27 => some (.loadMeterSet q)
  | 0x30 => some (.portStatus q) | 0x31 => some (.spdifCsRead q) | 0x32 => some (.routeRead q)
  | 0x33 => some (.portRestart q)
  | 0x40 => some (.powerStatus q) | 0x41 => some (.powerModeSet q) | 0x42 => some (.wakeCfg q)
  | 0x43 => some (.resetInfo q) | 0x48 => some (.clockStatus q) | 0x49 => some (.rootRestart q)
  | 0x4A => some (.auxProfile q)
  | 0x50 => some (.eventStatus q) | 0x51 => some (.eventRead q) | 0x52 => some (.eventPeek q)
  | 0x53 => some (.eventClear q)
  | 0x60 => some (.pstageStatus q) | 0x61 => some (.pstageClear q) | 0x62 => some (.pstageSenseRead q)
  | 0x63 => some (.pstageStop q) | 0x68 => some (.diagRun q) | 0x69 => some (.diagResult q)
  | 0x70 => some (.otpStatus q) | 0x71 => some (.otpRead q) | 0x72 => some (.otpGenBegin q)
  | 0x73 => some (.otpGenData q) | 0x74 => some (.otpGenCommit q) | 0x75 => some (.otpLock q)
  | 0x76 => some (.otpFactoryWrite q)
  | 0x80 => some (.healthStatus q) | 0x81 => some (.faultTableRead q) | 0x82 => some (.faultTableClear q)
  | 0x83 => some (.repairLogRead q) | 0x84 => some (.bankCounters q) | 0x85 => some (.healthCfg q)
  | 0x86 => some (.repairForce q) | 0x87 => some (.faultInject q)
  | 0x90 => some (.wakeStatus q) | 0x91 => some (.coolerFetch q) | 0x92 => some (.wakeRearm q)
  | 0xA0 => some (.touchStatus q) | 0xA1 => some (.touchRecal q) | 0xA2 => some (.keyStatus q)
  | 0xB0 => some (.memRead q) | 0xB1 => some (.memWrite q)
  | 0xF0 => some (.svcRawRead q) | 0xF1 => some (.svcSpareTest q)
  | _ => none

/-- The lengths of the opcodes whose payload has one length only. -/
def fixedLength (op : Nat) : Option Nat :=
  if [0x01, 0x02, 0x04, 0x05, 0x16, 0x25, 0x26, 0x30, 0x32, 0x40, 0x43, 0x48, 0x49, 0x50, 0x60, 0x69, 0x70, 0x72, 0x80,
      0x83, 0x84, 0x90, 0xA0, 0xA2].contains op then some 0
  else if [0x03, 0x06, 0x12, 0x15, 0x22, 0x24, 0x27, 0x31, 0x33, 0x41, 0x51, 0x52, 0x61, 0x62, 0x68, 0x71, 0x74, 0x75,
      0x81, 0x82, 0x86, 0x87, 0x92, 0xA1, 0xF1].contains op then some 4
  else if [0x20, 0x63, 0xF0].contains op then some 8
  else if [0x91, 0xB0].contains op then some 12
  else if [0x14, 0x23, 0x4A].contains op then some 16
  else if op = 0x53 then some 20
  else none

/-- The bytes of a command packet (R391): sync, opcode, tag, flags, length, payload, CRC-32C of all but the sync byte. -/
def packetOf (op : Nat) (q : Request) : List Byte :=
  let body := BitVec.ofNat 8 op :: q.tag :: q.flags :: (leBytes 2 q.payload.length ++ q.payload)
  0x5A#8 :: (body ++ leBytes 4 (crc32c body))

/-- A packet can be accepted: its port is open, its tag is free and a place is left (R395 steps 3 and 4). -/
def canTake (s : State) (q : Request) : Bool := portOpen s q.port && !tagHeld s q.port q.tag && !placesFull s q.port

/-- It passes steps 3 to 6 of R395, and R475 does not refuse its opcode. -/
def heard (s : State) (q : Request) (op : Nat) : Bool :=
  canTake s q && (match opClass op with
    | some c => decide (c ≤ (getPort s q.port).cls)
    | none => false) && !(modeLow s && lowRefused op)

/-- The place a command takes (R397). -/
def placeOf (s : State) (q : Request) (op : Nat) (j : Job) (final : Bool) : Outstanding :=
  { tag := q.tag, op := BitVec.ofNat 8 op, seq := s.seq, job := j, bsn := s.bsn, cycle := s.cycle, final := final, slot := 0xFF }

/-- A reply to a command (R392). -/
def replyOf (q : Request) (op : Nat) (st : Status) (payload : List Byte) : Reply :=
  { op := BitVec.ofNat 8 op, tag := q.tag, status := st, payload := payload, reserved := false }

/-- A command is complete at once: it holds a place until its final reply is delivered, and the reply is queued (R397,
R399, R403). -/
def answered (s : State) (q : Request) (op : Nat) (st : Status) (payload : List Byte) : State :=
  modPort { s with seq := s.seq + 1 } q.port (fun p => { p with
    outstanding := p.outstanding ++ [placeOf s q op .none true], replies := p.replies ++ [{ replyOf q op st payload with order := some (s.bsn, s.cycle, s.seq) }] })

/-- A command waits with its job; where its status list has ACCEPTED and EARLY is set, that reply is queued (R400). -/
def waitsWith (s : State) (q : Request) (op : Nat) (j : Job) (early : Option (List Byte)) : State :=
  modPort { s with seq := s.seq + 1 } q.port (fun p => { p with
    outstanding := p.outstanding ++ [placeOf s q op j false],
    replies := p.replies ++ (match early with
      | some payload => if bit q.flags.toNat 0 then [replyOf q op .accepted payload] else []
      | none => []) })

/-- The state with its bus noted as active now (R430). -/
def busActive (s : State) : State := { s with bus := { s.bus with activeAt := s.bsn, activeCyc := s.cycle } }

end Sys2Proof.Machine
end

