-- ==== Sys2Proof/Certificates/Slice0/Obligations.lean ====
section
/-!
DEFINITION. The statements for the provers: what each row of the command table does, and what every step keeps.
-/

open Sys2Proof Sys2Proof.Machine

/-- A step takes the front command: it acts on the state that holds the queue's rest. -/
def Obligations.StepRunsTheFrontCommand : Prop :=
  ∀ (s : State) (c : Instr) (rest : List Instr), s.pending = c :: rest → step s = exec c { s with pending := rest }

/-- With no command waiting a step passes time, as log entry 1 chooses: a change of the privilege mapping that an earlier
cycle completed comes into force (R409, R416), then a fabric cycle passes in IDLE and ACTIVE, a LISTEN tick of 1,536 cycles
elsewhere (R26), nothing where the BSN does not count, and the last cycle of a block is held. -/
def Obligations.IdleStepPassesTime : Prop :=
  ∀ (s u : State), s.pending = [] → u = mapApply s →
    (counting u = false → step s = .next u) ∧
    (counting u = true → modeHigh u = true → 294912 ≤ u.cycle + 1 → step s = .next u) ∧
    (counting u = true → modeHigh u = true → u.cycle + 1 < 294912 → (u.cycle + 1) % 12288 ≠ 0 →
      step s = .next (cycleTick { u with cycle := u.cycle + 1 })) ∧
    (counting u = true → modeHigh u = true → u.cycle + 1 < 294912 → (u.cycle + 1) % 12288 = 0 →
      step s = .next (frameTick (cycleTick { u with cycle := u.cycle + 1 }))) ∧
    (counting u = true → modeHigh u = true → u.cycle + 1 < 294912 → (u.cycle + 1) % 12288 ≠ 0 → u.drover.coming = [] →
      u.health.inject = [] → step s = .next { u with cycle := u.cycle + 1 }) ∧
    (counting u = true → modeHigh u = false → u.clock.shipTick = true → step s = .next u) ∧
    (counting u = true → modeHigh u = false → 294912 ≤ u.cycle + 1536 → step s = .next u) ∧
    (counting u = true → modeHigh u = false → u.clock.shipTick = false → u.cycle + 1536 < 294912 →
      step s = .next (injectExpire { u with cycle := u.cycle + 1536 })) ∧
    (s.mapDue = [] → u = s) ∧ (s.health.inject = [] → injectExpire s = s)

/-- Every command answers a next state, and it leaves the queue of waiting commands as it was. -/
def Obligations.EveryCommandAnswersAndKeepsTheQueue : Prop :=
  ∀ (c : Instr) (s : State), ∃ t, exec c s = .next t ∧ t.pending = s.pending

/-- R12: a block boundary advances the BSN by one wherever it counts; every reset and every SHIP exit that restarts the
device sets it to 0, with the value before it in the reset record; no command ever changes it otherwise, so no change of
mode and no entry to SHIP does. -/
def Obligations.BsnCountsBlocks : Prop :=
  ∀ (s : State),
    (∀ i, counting s = true → ∃ t, exec (.blockBoundary i) s = .next t ∧ t.bsn = s.bsn + 1#40) ∧
    (exec .powerOnReset s = .next (deviceReset 1 s) ∧ (deviceReset 1 s).bsn = 0) ∧
    (∀ code, 2 ≤ code → code ≤ 6 → (deviceReset code s).bsn = 0 ∧ (deviceReset code s).record.bsnBefore = s.bsn) ∧
    (inShip s = false → (∃ t, exec .pinReset s = .next t ∧ t.bsn = 0) ∧ (∃ t, exec .thermalReset s = .next t ∧ t.bsn = 0) ∧
      ∀ rails, Nat.land rails.toNat (railMask s) ≠ 0 → ∃ t, exec (.supplyReset rails) s = .next t ∧ t.bsn = 0) ∧
    (∀ q, heard s q 0x04 = true → q.payload = [] → ∃ t, exec (.resetDevice q) s = .next t ∧ t.bsn = 0) ∧
    (∀ c : Fin 7, wakeMasked (if c.val = 5 then chargerTo s s.power.wake.chgPol else s) c = true → inShip s = true →
      ∃ t, exec (.wakeSource c) s = .next t ∧ t.bsn = 0 ∧ t.record.bsnBefore = s.bsn) ∧
    (∀ c t, exec c s = .next t → t.bsn = s.bsn ∨
      ((∃ i, c = .blockBoundary i) ∧ t.bsn = s.bsn + 1#40 ∧ t.cycle = 0 ∧ t.power.mode = s.power.mode) ∨
      (t.bsn = 0 ∧ t.cycle = 0 ∧ t.graph = State.reset.graph ∧ t.params = State.reset.params))

/-- The state after reset is sound, and it holds the values that the spec gives: BSN 0 (R12), the class of each port (R390),
no event, record or pending bit (R462), empty slots and Hampers, no outstanding command, a fault table with no entry, and
the reset values of the register tables (log entries 21 and on name the values that the model chooses). -/
def Obligations.ResetStateIsSound : Prop :=
  State.Sound State.reset ∧ State.reset.pending = [] ∧ State.reset.bsn = 0 ∧ State.reset.cycle = 0 ∧
    State.reset.spi.cls = 2 ∧ State.reset.addrA.cls = 1 ∧ State.reset.addrB.cls = 0 ∧
    (∀ p : PortId, (getPort State.reset p).outstanding = [] ∧ (getPort State.reset p).replies = []) ∧
    State.reset.events.fifo = [] ∧ State.reset.events.aonQueue = [] ∧ State.reset.events.pend = 0 ∧
    State.reset.events.aonPend = 0 ∧ State.reset.events.lost = 0 ∧ State.reset.record.last = 1 ∧
    (∀ i : Fin 2, (slotAt State.reset i).phase = .empty) ∧ (∀ h ∈ State.reset.params.hampers, h.phase = .empty) ∧
    State.reset.health.table = List.replicate 64 none ∧ State.reset.power.accepting = false ∧
    (∀ n : Fin 128, rd State.reset (.evCfgReg n) = 3) ∧ rd State.reset .evGlobalReg = 0xA0A ∧
    (∀ i : Fin 64, rd State.reset (.inRoute i) = 0x500FF) ∧ (∀ i : Fin 68, rd State.reset (.sinkRoute i) = 0x500FF) ∧
    (∀ n : Fin 16, rd State.reset (.hbCfg n) = 0x228A04 + 8 * n.val) ∧ rd State.reset .rootCfg = 0x1910 ∧
    (∀ c : Fin 32, rd State.reset (.inMap c) = 7)

/-- The invariant: whatever command waits in front, and where time passes, a step keeps every store in canonical form and
within its bounds (R15, R201, R299, R397, R458, R461, R490). -/
def Obligations.StepKeepsSound : Prop :=
  ∀ (s t : State), s.Sound → step s = .next t → t.Sound

/-- R391, R393, R394, R395, R417: a packet of at most 4,096 payload bytes at the head of a port's stream is taken whole, and
its opcode's row runs with its tag, flags and payload on the state whose stream holds the rest; an opcode that the table
does not define runs the refusal of step 5. The check value of R393 holds. -/
def Obligations.PacketsRunTheirOpcode : Prop :=
  crc32c [0x31#8, 0x32#8, 0x33#8, 0x34#8, 0x35#8, 0x36#8, 0x37#8, 0x38#8, 0x39#8] = 0xE3069283 ∧
  ∀ (s u : State) (q : Request) (op : Nat) (rest : List Byte), op < 256 → q.payload.length ≤ 4096 →
    (getPort s q.port).rx = packetOf op q ++ rest → u = modPort s q.port (fun v => { v with rx := rest }) →
    (packetOf op q).length = q.payload.length + 10 ∧
    (∀ i, opcodeRow op q = some i → ∃ t, takePacket s q.port = some t ∧ exec i u = .next t) ∧
    (opcodeRow op q = none → takePacket s q.port = some (badOpcode q (BitVec.ofNat 8 op) u)) ∧
    (opcodeRow op q = none → canTake u q = true → takePacket s q.port = some (answered u q op .badOpcode []))

/-- R395 steps 3, 6 and 7 and R475, for every defined opcode on an open port: a held tag is discarded and counted with
EV000; a class below the opcode's minimum is answered DENIED; a payload of another length BAD_LENGTH; an opcode that RETAIN
and LISTEN refuse STATE; in this order, each before every check of the opcode itself, and with no other effect (R396). -/
def Obligations.AcceptanceStepsInOrder : Prop :=
  ∀ (s : State) (q : Request) (op : Nat) (i : Instr), opcodeRow op q = some i →
    (portOpen s q.port = false → exec i s = .next s) ∧
    (portOpen s q.port = true → tagHeld s q.port q.tag = true →
      exec i s = .next (raise (modPort s q.port (fun v => { v with dropped := bump 0xFFFFFFFF v.dropped, drop := true, dropNew := true })) 0
        (portNum q.port + 16 + op * 256 + q.tag.toNat * 65536))) ∧
    (∀ c, canTake s q = true → opClass op = some c → (getPort s q.port).cls < c →
      exec i s = .next (answered s q op .denied [])) ∧
    (∀ c n, canTake s q = true → opClass op = some c → c ≤ (getPort s q.port).cls → fixedLength op = some n →
      q.payload.length ≠ n → exec i s = .next (answered s q op .badLength [])) ∧
    (∀ c n, canTake s q = true → opClass op = some c → c ≤ (getPort s q.port).cls → fixedLength op = some n →
      q.payload.length = n → modeLow s = true → lowRefused op = true → exec i s = .next (answered s q op .state []))

/-- R398: with all 32 places of its port taken, a packet that passes step 3 is answered BUSY through the port's reserved
slot, whatever its opcode; while that slot holds a reply the packet is discarded, DROPPED counts it and EV000 is raised. A
packet that fails step 1 or 2 is answered through the same slot and discarded and counted in the same way. -/
def Obligations.ReservedSlotAnswersBusy : Prop :=
  ∀ (s : State),
    (∀ q op, op < 256 → portOpen s q.port = true → tagHeld s q.port q.tag = false →
      (getPort s q.port).outstanding.length = 32 → (getPort s q.port).replies.any (fun r => r.reserved) = false →
      dispatch (BitVec.ofNat 8 op) q s = modPort s q.port (fun v => { v with replies := v.replies ++
        [{ op := BitVec.ofNat 8 op, tag := q.tag, status := .busy, payload := [], reserved := true }] })) ∧
    (∀ q op, op < 256 → portOpen s q.port = true → tagHeld s q.port q.tag = false →
      (getPort s q.port).outstanding.length = 32 → (getPort s q.port).replies.any (fun r => r.reserved) = true →
      dispatch (BitVec.ofNat 8 op) q s = raise (modPort s q.port (fun v => { v with
        dropped := bump 0xFFFFFFFF v.dropped, drop := true, dropNew := true })) 0
        (portNum q.port + 32 + op * 256 + q.tag.toNat * 65536)) ∧
    (∀ p head n, (getPort s p).rx = 0x5A#8 :: head → 5 ≤ head.length → n = leField (0x5A#8 :: head) 4 2 →
      (4096 < n → (getPort s p).replies.any (fun r => r.reserved) = false →
        takePacket s p = some (modPort s p (fun v => { v with
          rx := [], discarding := true,
          replies := v.replies ++ [{
            op := head.getD 0 0, tag := head.getD 1 0, status := .badLength, payload := [], reserved := true }] }))) ∧
      (4096 < n → (getPort s p).replies.any (fun r => r.reserved) = true →
        takePacket s p = some (modPort (raise (modPort s p (fun v => { v with
            dropped := bump 0xFFFFFFFF v.dropped, drop := true, dropNew := true })) 0
            (portNum p + 32 + (head.getD 0 0).toNat * 256 + (head.getD 1 0).toNat * 65536)) p (fun v => { v with
          rx := [], discarding := true }))) ∧
      (n ≤ 4096 → n + 9 ≤ head.length → crc32c (head.take (n + 5)) ≠ leField head (5 + n) 4 →
        (getPort s p).replies.any (fun r => r.reserved) = false →
        takePacket s p = some (modPort s p (fun v => { v with
          rx := [], discarding := true, badCrc := bump 0xFFFFFFFF v.badCrc,
          replies := v.replies ++ [{
            op := head.getD 0 0, tag := head.getD 1 0, status := .badCrc, payload := [], reserved := true }] }))) ∧
      (n ≤ 4096 → n + 9 ≤ head.length → crc32c (head.take (n + 5)) ≠ leField head (5 + n) 4 →
        (getPort s p).replies.any (fun r => r.reserved) = true →
        takePacket s p = some (modPort (raise (modPort s p (fun v => { v with
            dropped := bump 0xFFFFFFFF v.dropped, drop := true, dropNew := true })) 0
            (portNum p + 32 + (head.getD 0 0).toNat * 256 + (head.getD 1 0).toNat * 65536)) p (fun v => { v with
          rx := [], discarding := true }))))

/-- R14, with the earliest blocks of R61, R209 and R389: GRAPH_ACTIVATE, HAMPER_COMMIT and AUX_PROFILE with a requested BSN
at least 2^32 and less than 2^39 blocks after the earliest block fail with RANGE whatever STRICT and have no effect; less
than 2^32 after it they take place at the requested block; and a request that is too early takes the earliest block, or
fails with RANGE where STRICT is set. -/
def Obligations.RequestedBsnResolution : Prop :=
  ∀ (s : State) (q : Request) (r e : Bsn), q.payload.length = 16 → r = payBsn q 8 →
    (heard s q 0x14 = true → bit (pay8 q 1) 0 = true →
      e = (if s.cycle + 32768 ≤ 294912 then s.bsn + 1#40 else s.bsn + 2#40) - 1#40 →
      (2 ^ 32 ≤ (r - e).toNat → (r - e).toNat < 2 ^ 39 → exec (.hamperCommit q) s = .next (answered s q 0x14 .range [])) ∧
      (2 ^ 39 ≤ (r - e).toNat → bit (pay8 q 1) 1 = true → exec (.hamperCommit q) s = .next (answered s q 0x14 .range [])) ∧
      (∀ c, ((r - e).toNat < 2 ^ 32 ∧ c = r) ∨ (2 ^ 39 ≤ (r - e).toNat ∧ bit (pay8 q 1) 1 = false ∧ c = e) →
        pay8 q 0 ≤ 7 → bit (pay8 q 1) 2 = false → (hamperAt s (pay8 q 0)).phase = .opened →
        mayUse s q (hamperAt s (pay8 q 0)) = true →
        opsHold s (hamperAt s (pay8 q 0)).slot (wordEntries (hamperAt s (pay8 q 0)).entries) = true →
        exec (.hamperCommit q) s = .next (waitsWith (modHamper (schedule s {
            id := s.params.nextId, hamper := some (pay8 q 0), slot := (hamperAt s (pay8 q 0)).slot,
            entries := (hamperAt s (pay8 q 0)).entries, interp := none, boundary := c + 1#40, strict := bit (pay8 q 1) 1,
            deferred := false, stale := false }) (pay8 q 0) (fun x => { x with phase := .committing })) q 0x14
          (.commit s.params.nextId) (some (bsn8 c))))) ∧
    (heard s q 0x23 = true → bit (pay8 q 2) 0 = true →
      e = s.bsn + BitVec.ofNat 40 (1 + if pay8 q 1 = 1 then 4 * pay16 q 4 else 0) →
      (2 ^ 32 ≤ (r - e).toNat → (r - e).toNat < 2 ^ 39 → exec (.graphActivate q) s = .next (answered s q 0x23 .range [])) ∧
      (2 ^ 39 ≤ (r - e).toNat → bit (pay8 q 2) 1 = true → exec (.graphActivate q) s = .next (answered s q 0x23 .range [])) ∧
      (∀ n u, ((r - e).toNat < 2 ^ 32 ∧ n = r) ∨ (2 ^ 39 ≤ (r - e).toNat ∧ bit (pay8 q 2) 1 = false ∧ n = e) →
        pay8 q 0 ≤ 1 → (pay8 q 1 = 0 ∨ (pay8 q 1 = 1 ∧ 1 ≤ pay16 q 4 ∧ pay16 q 4 ≤ 50)) →
        (slotAt s (pay8 q 0)).phase = .ready → s.graph.act = none →
        (bit (pay8 q 2) 2 = true ∨ guaranteed s (slotAt s (pay8 q 0)) = true) →
        u = setSlot s (pay8 q 0) { slotAt s (pay8 q 0) with phase := .armed, n := n, noGuar := bit (pay8 q 2) 2 } →
        exec (.graphActivate q) s = .next (waitsWith { u with graph := { u.graph with act := some {
            slot := some (pay8 q 0), fade := pay8 q 1 == 1, f := pay16 q 4, n := n, falls := graphActive s } } } q 0x23
          .graphActivate (some (bsn8 n))))) ∧
    (heard s q 0x4A = true → bit (pay8 q 2) 0 = true → e = s.bsn + 1#40 →
      (2 ^ 32 ≤ (r - e).toNat → (r - e).toNat < 2 ^ 39 → exec (.auxProfile q) s = .next (answered s q 0x4A .range [])) ∧
      (2 ^ 39 ≤ (r - e).toNat → bit (pay8 q 2) 1 = true → exec (.auxProfile q) s = .next (answered s q 0x4A .range [])) ∧
      (∀ b, ((r - e).toNat < 2 ^ 32 ∧ b = r) ∨ (2 ^ 39 ≤ (r - e).toNat ∧ bit (pay8 q 2) 1 = false ∧ b = e) →
        pay8 q 0 ≤ 3 → pay8 q 1 = 0 → bit (rd s (.auxCfg (pay8 q 0))) 0 = true →
        bit (rd s (.auxCfg (pay8 q 0))) 2 = false → auxPorts s (pay8 q 0) = [] → (auxAt s (pay8 q 0)).profile = true →
        exec (.auxProfile q) s = .next (waitsWith s q 0x4A (.auxProfile (pay8 q 0) false b) (some (bsn8 b)))))

/-- R26, R457, R458, R459, R460, R461: an event that is off leaves no trace, nor does any in SHIP; one that is on sets its
pending bit and asserts the lines it routes to; it merges into the newest record of its number where number and payload
agree, the count is below 65,535 and no peek of this cycle took it, else joins the FIFO, behind the records of the AON
queue and before those of this cycle with a larger number, else is lost and counted, but that of a full FIFO's newest records of
this cycle the largest number is the one lost (R457 orders them, DEDUCED, log entry 75); while the controller is not clocked it
joins the AON queue in the same way. -/
def Obligations.RaisedEvents : Prop :=
  ∀ (s : State) (n p : Nat) (x : EvRecord) (now : Bsn × Nat), now = (s.bsn, s.cycle) →
    x = { num := n, merged := false, alerted := false, queued := false, count := 1, bsn := s.bsn, cycle := s.cycle,
          payload := BitVec.ofNat 32 p, entered := if n = 108 then none else some now } →
    ((evExists n = false ∨ bit (evCfg s n) 0 = false ∨ shipMode s = true) → raise s n p = s) ∧
    (s.events.aonQueue = [] → s.events.aonPend = 0 → drainAon s = s) ∧
    (s.events.fifo.length + s.events.aonQueue.length ≤ 64 → drainAon s = { s with events := { s.events with
      pend := s.events.pend ||| s.events.aonPend, aonPend := 0, aonQueue := [],
      fifo := s.events.fifo ++ s.events.aonQueue.map (fun y => { y with queued := true, entered := none, due := alertBit s y.num }) } }) ∧
    (evExists n = true → bit (evCfg s n) 0 = true → shipMode s = false →
      (∃ e, raise s n p = { s with events := e }) ∧ (pendingBits (raise s n p)).getLsbD n = true ∧
      (∀ k, k < 2 → bit (evCfg s n) (1 + k) = true → irqActive (raise s n p) k = true) ∧
      (∀ u, evClocked s = true → u = drainAon s →
        (∀ a y b, u.events.fifo = a ++ y :: b → (∀ z ∈ b, z.num ≠ n) → y.num = n → y.payload = x.payload →
          y.count < 65535 → y.peeked ≠ some now → raise s n p = { u with events := { pendingNow u n with
            pend := u.events.pend ||| (1#128 <<< n),
            fifo := a ++ { y with count := y.count + 1, merged := true, due := y.due || alertBit s n } :: b } }) ∧
        (((∀ y ∈ u.events.fifo, y.num ≠ n) ∨
            ∃ a y b, u.events.fifo = a ++ y :: b ∧ (∀ z ∈ b, z.num ≠ n) ∧ y.num = n ∧
              (y.payload ≠ x.payload ∨ 65535 ≤ y.count ∨ y.peeked = some now)) →
          (∀ a b, u.events.fifo.length < 64 → u.events.fifo = a ++ b →
            (∀ y ∈ b, y.entered = some now ∧ n < y.num) →
            (∀ y, a.getLast? = some y → y.entered ≠ some now ∨ y.num ≤ n) →
            raise s n p = { u with events := { pendingNow u n with
              pend := u.events.pend ||| (1#128 <<< n), fifo := a ++ { x with due := alertBit s n } :: b } }) ∧
          (64 ≤ u.events.fifo.length →
            (∀ y, u.events.fifo.getLast? = some y → y.entered ≠ some now ∨ y.num ≤ n) →
            raise s n p = { u with events := { pendingNow u n with
              pend := u.events.pend ||| (1#128 <<< n), lost := bump 65535 u.events.lost,
              lostSince := if n = 108 then u.events.lostSince else bump 65535 u.events.lostSince } }) ∧
          (∀ a b y, 64 ≤ u.events.fifo.length → u.events.fifo = a ++ b ++ [y] → y.entered = some now → n < y.num → n ≠ 108 →
            (∀ z ∈ b, z.entered = some now ∧ n < z.num) →
            (∀ z, a.getLast? = some z → z.entered ≠ some now ∨ z.num ≤ n) →
            raise s n p = { u with events := { pendingNow u n with
              pend := u.events.pend ||| (1#128 <<< n), fifo := a ++ { x with due := alertBit s n } :: b,
              lost := min 65535 (u.events.lost + y.count),
              lostSince := min 65535 (u.events.lostSince + y.count) } }))) ∧
      (evClocked s = false → (∀ y ∈ s.events.aonQueue, y.num ≠ n) →
        (∀ a b, s.events.aonQueue.length < 8 → s.events.aonQueue = a ++ b →
          (∀ y ∈ b, y.entered = some now ∧ n < y.num) →
          (∀ y, a.getLast? = some y → y.entered ≠ some now ∨ y.num ≤ n) →
          raise s n p = { s with events := { pendingNow s n with
            aonPend := s.events.aonPend ||| (1#128 <<< n), aonQueue := a ++ { x with queued := true } :: b } }) ∧
        (8 ≤ s.events.aonQueue.length →
          (∀ y, s.events.aonQueue.getLast? = some y → y.entered ≠ some now ∨ y.num ≤ n) →
          raise s n p = { s with events := { pendingNow s n with
          aonPend := s.events.aonPend ||| (1#128 <<< n), lost := bump 65535 s.events.lost,
          lostSince := bump 65535 s.events.lostSince } })) ∧
      (∀ a y b, evClocked s = false → s.events.aonQueue = a ++ y :: b → (∀ z ∈ b, z.num ≠ n) → y.num = n →
        y.payload = x.payload → y.count < 65535 → y.peeked ≠ some now →
        raise s n p = { s with events := { pendingNow s n with
          aonPend := s.events.aonPend ||| (1#128 <<< n),
          aonQueue := a ++ { y with count := y.count + 1, merged := true } :: b } }))

/-- R201, R202: a register write that a commit of it alone would pass stores the writable bits of its value, whatever else
its chapter makes it do, and every other writable register of the tables reads as before. -/
def Obligations.RegisterWritesReadBack : Prop :=
  ∀ (s : State) (a v : Word) (r : Reg), s.Sound → coreOn s = true → paddrReg a.toNat = some r → r.access = .rw → paSpace a.toNat ≠ 2 →
    r ≠ .drvCfg → r.rangeOk s (maskTo r v.toNat) = true → regsCommitOk (wr s r (maskTo r v.toNat)) = true →
    stageFree s (wr s r (maskTo r v.toNat)) = true →
    ∃ t, exec (.registerWrite a v) s = .next t ∧ rd t r = Nat.land v.toNat r.mask ∧
      ∀ x, paddrReg x.addr = some x → x.access = .rw → x.addr ≠ r.addr → rd t x = rd s x

/-- R299: while the Cooler captures, the instant of CSN n stores its five lanes as halfwords at n mod 32,768 and leaves every
other byte of the Cooler; nothing outside the wake path changes. -/
def Obligations.CoolerStoresItsLanes : Prop :=
  ∀ (s : State) (n : Csn) (ys : List Int) (k : Nat), Memory.wf s.wake.cooler = true → k = n.toNat % 32768 →
    ys = ((List.zip (List.range 4) s.wake.beams).map (fun x => beamStep s x.1 x.2 n)).map (fun x => x.2) →
    wakeInstant s n = { s with wake := (wakeInstant s n).wake } ∧
    (s.wake.capturing = true →
      (∀ l : Fin 5,
        memoryRead (wakeInstant s n).wake.cooler (10 * k + 2 * l) = BitVec.ofNat 8 (ofSigned 16 (laneValue s ys l n)) ∧
        memoryRead (wakeInstant s n).wake.cooler (10 * k + 2 * l + 1) =
          BitVec.ofNat 8 (ofSigned 16 (laneValue s ys l n) / 256)) ∧
      (∀ a, (a < 10 * k ∨ 10 * k + 10 ≤ a) → memoryRead (wakeInstant s n).wake.cooler a = memoryRead s.wake.cooler a) ∧
      Memory.wf (wakeInstant s n).wake.cooler = true) ∧
    (s.wake.capturing = false → (wakeInstant s n).wake.cooler = s.wake.cooler)

/-- R410, R411, R412, R415: PING, IDENTIFY, GET_STATUS and PORT_CLASS_GET answer OK at once and change nothing but their
port's places and replies. GET_STATUS counts its own place and tag (R397). -/
def Obligations.SessionReadsAnswer : Prop :=
  ∀ (s : State) (q : Request),
    (heard s q 0x00 = true → exec (.ping q) s = .next (answered s q 0x00 .ok q.payload)) ∧
    (heard s q 0x01 = true → q.payload = [] → exec (.identify q) s = .next (answered s q 0x01 .ok
      (u16 0x4E4C ++ u16 0x4810 ++ [0x41#8, 0x01#8] ++ zeros 2 ++ u32 (otpWord s.otp 0) ++ u32 (otpWord s.otp 1) ++
        u16 1 ++ u16 4096 ++ u8 32 ++ u8 (portNum q.port) ++ u8 (getPort s q.port).cls ++ zeros 1))) ∧
    (heard s q 0x02 = true → q.payload = [] → exec (.getStatus q) s = .next (answered s q 0x02 .ok
      (bsn8 s.bsn ++ u8 (modeCode s.power.mode) ++ u8 (portNum q.port) ++ u8 (getPort s q.port).cls ++
        u8 (b2n (graphActive s) + b2n (!s.events.fifo.isEmpty) * 2 + b2n (serviceOn s) * 4 + b2n (bit s.otp.locks 0) * 8) ++
        u8 ((getPort s q.port).outstanding.length + 1) ++ u8 s.events.fifo.length ++ zeros 2 ++
        leBytes 32 (Nat.lor (heldTags (getPort s q.port)) (2 ^ q.tag.toNat)) ++ u32 (getPort s q.port).dropped ++
        u32 (getPort s q.port).badCrc))) ∧
    (heard s q 0x05 = true → q.payload = [] → exec (.portClassGet q) s = .next (answered s q 0x05 .ok
      (u8 s.spi.cls ++ u8 s.addrA.cls ++ u8 s.addrB.cls ++ u8 s.spi.bootCls ++ u8 s.addrA.bootCls ++
        u8 s.addrB.bootCls ++ u8 (b2n (bit s.otp.locks 0) + b2n (serviceOn s) * 2) ++ zeros 1)))

/-- R193, R194, R196, R197: HEALTH_STATUS, FAULT_TABLE_READ, REPAIR_LOG_READ and BANK_COUNTERS answer OK at once and
change nothing else; FAULT_TABLE_READ of entries beyond 63 answers RANGE. -/
def Obligations.HealthReadsAnswer : Prop :=
  ∀ (s : State) (q : Request),
    (heard s q 0x80 = true → q.payload = [] → exec (.healthStatus q) s = .next (answered s q 0x80 .ok
      (u8 (enginesE s.drover) ++ u8 (spareOes s.drover) ++ u8 (moveEngines s.drover) ++ u8 (spareBanks s.health) ++
        u8 (spareDecs s.health) ++ u8 (logUsed s.otp) ++ u8 (openEntries s.health) ++
        u8 (b2n s.health.migration.isSome + b2n (decide (32 ≤ logUsed s.otp)) * 2 + b2n (!s.health.logQueue.isEmpty) * 4) ++
        u32 s.health.replays ++ u32 s.health.repCycles ++ u16 s.health.overflow ++ zeros 2 ++
        (List.range 16).flatMap (fun hb => u8 (fingersShown s.health hb)) ++
        leBytes 8 (serviceMask (s.drover.oes.map Engine.inSvc)) ++
        u32 (serviceMask (s.health.banks.map (fun b => b.inSvc))) ++ u32 (serviceMask (s.health.decs.map (fun x => x.inSvc)))))) ∧
    (heard s q 0x81 = true → q.payload.length = 4 → pay8 q 0 ≤ 63 → 1 ≤ pay8 q 1 → pay8 q 0 + pay8 q 1 ≤ 64 →
      exec (.faultTableRead q) s = .next (answered s q 0x81 .ok
        (((s.health.table.drop (pay8 q 0)).take (pay8 q 1)).flatMap (entryBytes s)))) ∧
    (heard s q 0x81 = true → q.payload.length = 4 → 64 < pay8 q 0 + pay8 q 1 →
      exec (.faultTableRead q) s = .next (answered s q 0x81 .range [])) ∧
    (heard s q 0x83 = true → q.payload = [] → exec (.repairLogRead q) s = .next (answered s q 0x83 .ok
      ((logEntries s.otp).flatMap u32 ++ u32 (maskOf ((logEntries s.otp).map logEntryOk)) ++
        u8 s.health.logQueue.length))) ∧
    (heard s q 0x84 = true → q.payload = [] → exec (.bankCounters q) s = .next (answered s q 0x84 .ok
      (s.health.banks.flatMap (fun k => u32 k.ce1 ++ u32 k.ce2 ++ u16 k.ue ++ u16 k.passCe))))

/-- R226, R254, R255, R256, R74, R75: HAMPER_STATUS, PORT_STATUS, SPDIF_CS_READ, ROUTE_READ, GRAPH_STATUS and LOAD_METER
answer OK at once and change nothing else; SPDIF_CS_READ of a receiver with no captured block answers STATE. -/
def Obligations.GraphAndPortReadsAnswer : Prop :=
  ∀ (s : State) (q : Request),
    (heard s q 0x16 = true → q.payload = [] → exec (.hamperStatus q) s =
      .next (answered s q 0x16 .ok ((List.range 8).flatMap (hamperRecord s)))) ∧
    (heard s q 0x30 = true → q.payload = [] → exec (.portStatus q) s =
      .next (answered s q 0x30 .ok (s.dports.flatMap portRecord))) ∧
    (heard s q 0x31 = true → q.payload.length = 4 → (pay8 q 0 = 4 ∨ pay8 q 0 = 5) →
      ((dport s (pay8 q 0)).state = .locked ∨ (dport s (pay8 q 0)).state = .nonpcm) → (dport s (pay8 q 0)).csValid = true →
      exec (.spdifCsRead q) s = .next (answered s q 0x31 .ok
        ((dport s (pay8 q 0)).csA ++ (dport s (pay8 q 0)).csB ++ bsn8 (dport s (pay8 q 0)).csBsn))) ∧
    (heard s q 0x31 = true → q.payload.length = 4 → (pay8 q 0 = 4 ∨ pay8 q 0 = 5) → (dport s (pay8 q 0)).csValid = false →
      exec (.spdifCsRead q) s = .next (answered s q 0x31 .state [])) ∧
    (heard s q 0x32 = true → q.payload = [] → exec (.routeRead q) s = .next (answered s q 0x32 .ok
      ((List.range 64).flatMap (fun i => u32 (readWord s (.inRoute i))) ++
        (List.range 68).flatMap (fun i => u32 (readWord s (.sinkRoute i))) ++ bsn8 s.bsn))) ∧
    (heard s q 0x25 = true → q.payload = [] → exec (.graphStatus q) s =
      .next (answered s q 0x25 .ok (graphRecord s 0 ++ graphRecord s 1))) ∧
    (heard s q 0x26 = true → q.payload = [] → exec (.loadMeter q) s = .next (answered s q 0x26 .ok
      (u8 (enginesE s.drover) ++ zeros 1 ++ u16 s.graph.meter.threshold ++
        u16 (((slotIn s.graph .active).map (fun i => loadOf s (slotAt s i))).getD 0) ++
        u16 s.graph.meter.last ++ u16 s.graph.meter.peak ++ zeros 2 ++ u32 s.graph.meter.late ++
        bsn8 s.graph.meter.lastBsn)))

/-- R495, R498, R387, R308, R517, R519: POWER_STATUS, RESET_INFO, CLOCK_STATUS, WAKE_STATUS, TOUCH_STATUS and KEY_STATUS
answer OK at once. They change nothing else; POWER_STATUS reads one free value of the model (log entry 5). -/
def Obligations.DeviceReadsAnswer : Prop :=
  ∀ (s : State) (q : Request),
    (heard s q 0x40 = true → q.payload = [] → exec (.powerStatus q) s = .next (answered { s with free := s.free + 1 } q 0x40 .ok
      (u8 (modeCode s.power.mode) ++ u8 (modeCode ((s.power.change.map (fun c => c.target)).getD s.power.mode)) ++
        u8 (b2n s.power.pwrEn0 + b2n s.power.pwrEn1 * 2 + b2n s.power.isoGate * 4 + b2n s.power.sramOn * 8 +
          b2n (s.power.charger == some s.power.wake.chgPol) * 16 + b2n s.power.change.isSome * 32) ++
        u8 (railsGood s) ++ zeros 4 ++ bsn8 s.power.lastChange ++ i16 s.power.coreTemp ++ u16 s.power.vstby ++ zeros 4))) ∧
    (heard s q 0x43 = true → q.payload = [] → exec (.resetInfo q) s = .next (answered s q 0x43 .ok
      (u8 s.record.last ++ u8 s.record.wakeSrc ++ u8 (b2n s.record.bootFail) ++ [s.record.rails] ++ zeros 4 ++
        bsn8 s.record.bsnBefore ++ s.record.counts.flatMap u16 ++ zeros 2))) ∧
    (heard s q 0x48 = true → q.payload = [] → exec (.clockStatus q) s = .next (answered s q 0x48 .ok
      (u8 (rootCode s.clock.state) ++ u8 (refSrc s) ++ u8 s.clock.xtalSel ++
        u8 (b2n s.clock.onSafe + b2n (bit (rd s .rootCfg) 6) * 2 + b2n s.clock.xtalFault * 4 + b2n s.clock.refQual * 8) ++
        i32 s.clock.refPpm ++ i32 s.clock.rootPpm ++ i32 s.clock.phaseErr ++ bsn8 s.clock.changed ++ u16 s.clock.losses ++
        u16 s.clock.restarts ++ i16 s.clock.phaseNs ++ zeros 2 ++ (List.range 4).flatMap (auxRecord s)))) ∧
    (heard s q 0x90 = true → q.payload = [] → exec (.wakeStatus q) s = .next (answered s q 0x90 .ok
      (csn8 (s.wake.range.getD (0#42, 0#42)).1 ++ csn8 (s.wake.range.getD (0#42, 0#42)).2 ++ ((s.wake.bridge.map csn8).getD (leBytes 8 (2 ^ 63))) ++
        u8 (b2n s.wake.capturing + b2n (s.wake.clocks.any (fun k => k.listen)) * 2) ++
        u8 (maskOf (s.wake.dets.map (fun d => d.flag))) ++ u16 s.wake.eccCount ++ zeros 4 ++
        (List.range 4).flatMap (fun b =>
          i32 (s.wake.dets.getD b {}).s ++ i32 (s.wake.dets.getD b {}).f ++ u8 (detState s b) ++ zeros 3 ++
            csn8 (s.wake.dets.getD b {}).onset ++ u32 (s.wake.dets.getD b {}).count)))) ∧
    (heard s q 0xA0 = true → q.payload = [] → exec (.touchStatus q) s = .next (answered s q 0xA0 .ok
      (u8 (b2n s.touch.scanning + b2n s.touch.slider.touched * 2) ++
        u8 (if s.touch.slider.touched then s.touch.slider.pos else 0) ++ zeros 6 ++ s.touch.els.flatMap elRecord))) ∧
    (heard s q 0xA2 = true → q.payload = [] → exec (.keyStatus q) s =
      .next (answered s q 0xA2 .ok ((List.range 6).flatMap (keyRecord s))))

/-- R340, R342, R356, R499: PSTAGE_STATUS, PSTAGE_SENSE_READ, DIAG_RESULT and OTP_STATUS answer OK at once and change
nothing else; PSTAGE_SENSE_READ of an index above 15, or of a member that leads no channel, answers RANGE. -/
def Obligations.StageAndOtpReadsAnswer : Prop :=
  ∀ (s : State) (q : Request),
    (heard s q 0x60 = true → q.payload = [] → exec (.pstageStatus q) s = .next (answered s q 0x60 .ok
      (u16 s.stage.pvdd ++ u16 s.stage.pvddMin ++ u8 (stageCode s.stage.stage) ++ zeros 1 ++ u16 (centiDb s.stage.gf) ++
        u16 s.stage.gs ++ zeros 2 ++ (List.range 4).flatMap (fun k => i16 (s.stage.temps.getD k 0)) ++ zeros 4 ++
        bsn8 s.stage.block ++ (List.range 32).flatMap (chanRecord s)))) ∧
    (heard s q 0x62 = true → q.payload.length = 4 → pay8 q 0 ≤ 15 → leads s (pay8 q 0) = true →
      exec (.pstageSenseRead q) s = .next (answered s q 0x62 .ok
        (bsn8 (chan s (pay8 q 0)).senseBsn ++ u8 (b2n (chan s (pay8 q 0)).senseOk) ++ zeros 3 ++
          ((List.range 24).map (fun f => (chan s (pay8 q 0)).sense.getD f ⟨0, 0⟩)).flatMap (fun p => i32 p.v) ++
          ((List.range 24).map (fun f => (chan s (pay8 q 0)).sense.getD f ⟨0, 0⟩)).flatMap (fun p => i32 p.i)))) ∧
    (heard s q 0x62 = true → q.payload.length = 4 → (15 < pay8 q 0 ∨ leads s (pay8 q 0) = false) →
      exec (.pstageSenseRead q) s = .next (answered s q 0x62 .range [])) ∧
    (heard s q 0x69 = true → q.payload = [] → exec (.diagResult q) s = .next (answered s q 0x69 .ok
      (bsn8 s.diag.ended ++ u8 (sweepCode s.diag.state) ++ u8 (s.diag.cur.getD 0xFF) ++
        u16 (if s.diag.cur.isSome && bsnReached s.bsn s.diag.since then bsnSince s.bsn s.diag.since else 0) ++ zeros 4 ++
        (List.range 16).flatMap (diagRecordBytes s)))) ∧
    (heard s q 0x70 = true → q.payload = [] → exec (.otpStatus q) s = .next (answered s q 0x70 .ok
      (u8 (s.otp.applied.getD 0xFF) ++ u8 (s.otp.openGen.getD 0xFF) ++
        (List.range 5).flatMap (fun g => u8 (slotState s.otp g)) ++ u8 s.otp.groups ++ u8 s.otp.rejected ++ u8 s.otp.locks ++
        u8 (locksUsed s.otp) ++ u8 (logUsed s.otp) ++ u16 s.otp.fails ++ zeros 2)))

/-- R457, R459, R465 to R468: EVENT_STATUS and EVENT_PEEK read (a record peeked at takes no merge in that cycle), EVENT_READ
removes the oldest records, EVENT_CLEAR clears the pending bits of its mask, but for those set in the same cycle, and, with
FLUSH, the FIFO, the AON queue and LOST. -/
def Obligations.EventCommandsAnswer : Prop :=
  ∀ (s : State) (q : Request),
    (heard s q 0x50 = true → q.payload = [] → exec (.eventStatus q) s = .next (answered s q 0x50 .ok
      (u32 (evStatusWord s) ++ leBytes 16 (s.events.pend ||| s.events.aonPend).toNat ++ bsn8 s.bsn ++ zeros 4))) ∧
    (heard s q 0x51 = true → q.payload.length = 4 → 1 ≤ pay8 q 0 → pay8 q 0 ≤ 64 →
      exec (.eventRead q) s = .next (answered (takeRecords s (pay8 q 0) (bit (pay8 q 1) 0)) q 0x51 .ok
        (u8 (s.events.fifo.take (pay8 q 0)).length ++ zeros 3 ++ (s.events.fifo.take (pay8 q 0)).flatMap recordBytes))) ∧
    (∀ n, s.events.lostSince = 0 →
      takeRecords s n false = { s with events := { s.events with fifo := s.events.fifo.drop n } }) ∧
    (heard s q 0x51 = true → q.payload.length = 4 → (pay8 q 0 = 0 ∨ 64 < pay8 q 0) →
      exec (.eventRead q) s = .next (answered s q 0x51 .range [])) ∧
    (heard s q 0x52 = true → q.payload.length = 4 → pay8 q 0 ≤ 63 → 1 ≤ pay8 q 1 → pay8 q 0 + pay8 q 1 ≤ 64 →
      exec (.eventPeek q) s = .next (answered (peekRecords s (pay8 q 0) (pay8 q 1)) q 0x52 .ok
        (u8 ((s.events.fifo.drop (pay8 q 0)).take (pay8 q 1)).length ++ zeros 3 ++
          ((s.events.fifo.drop (pay8 q 0)).take (pay8 q 1)).flatMap recordBytes))) ∧
    (∀ f n, (peekRecords s f n).events.fifo.map recordBytes = s.events.fifo.map recordBytes) ∧
    (heard s q 0x53 = true → q.payload.length = 20 → bit (pay8 q 16) 0 = false →
      exec (.eventClear q) s = .next (answered { s with events := { s.events with
        pend := s.events.pend &&& ~~~(BitVec.ofNat 128 (leField q.payload 0 16) &&& ~~~newPending s),
        aonPend := s.events.aonPend &&& ~~~(BitVec.ofNat 128 (leField q.payload 0 16) &&& ~~~newPending s) } } q 0x53 .ok [])) ∧
    (heard s q 0x53 = true → q.payload.length = 20 → bit (pay8 q 16) 0 = true →
      exec (.eventClear q) s = .next (answered { s with events := { s.events with
        pend := s.events.pend &&& ~~~(BitVec.ofNat 128 (leField q.payload 0 16) &&& ~~~newPending s),
        aonPend := s.events.aonPend &&& ~~~(BitVec.ofNat 128 (leField q.payload 0 16) &&& ~~~newPending s),
        fifo := [], aonQueue := [], lost := 0, lostSince := 0 } } q 0x53 .ok []))

/-- R69, R70, R71, R73, R76: GRAPH_BEGIN makes its slot LOADING with no image and its Hampers stale, GRAPH_DATA writes image
bytes, GRAPH_END starts the check and waits, GRAPH_UNLOAD empties the slot, LOAD_METER_SET sets the threshold. -/
def Obligations.GraphLoadingCommandsAct : Prop :=
  ∀ (s : State) (q : Request),
    (heard s q 0x20 = true → q.payload.length = 8 → pay8 q 0 ≤ 1 → 64 ≤ pay32 q 4 → pay32 q 4 ≤ 12582912 →
      pay32 q 4 % 32 = 0 → (slotAt s (pay8 q 0)).phase ≠ .active → (slotAt s (pay8 q 0)).phase ≠ .armed →
      (slotAt s (pay8 q 0)).checking = false → bulkOn s (pay8 q 0) = false → fits s (pay8 q 0) (pay32 q 4) = true →
      exec (.graphBegin q) s = .next (answered
        { slotGone (setSlot s (pay8 q 0) { phase := .loading, imageLen := pay32 q 4 }) (pay8 q 0) with sramClean := false }
        q 0x20 .ok [])) ∧
    (heard s q 0x21 = true → 9 ≤ q.payload.length → q.payload.length ≤ 4096 → pay8 q 0 ≤ 1 → pay32 q 4 % 4 = 0 →
      (slotAt s (pay8 q 0)).phase = .loading → (slotAt s (pay8 q 0)).checking = false →
      pay32 q 4 + (q.payload.length - 8) ≤ (slotAt s (pay8 q 0)).imageLen →
      exec (.graphData q) s = .next (answered (setSlot s (pay8 q 0) { slotAt s (pay8 q 0) with
        image := imageWrite (slotAt s (pay8 q 0)).image (pay32 q 4) (q.payload.drop 8) }) q 0x21 .ok [])) ∧
    (heard s q 0x22 = true → q.payload.length = 4 → pay8 q 0 ≤ 1 → (slotAt s (pay8 q 0)).phase = .loading →
      (slotAt s (pay8 q 0)).checking = false →
      exec (.graphEnd q) s = .next (waitsWith (setSlot s (pay8 q 0) { slotAt s (pay8 q 0) with checking := true }) q 0x22
        (.graphEnd (pay8 q 0)) none)) ∧
    (heard s q 0x24 = true → q.payload.length = 4 → pay8 q 0 ≤ 1 →
      ((slotAt s (pay8 q 0)).phase = .ready ∨ (slotAt s (pay8 q 0)).phase = .loading) →
      (slotAt s (pay8 q 0)).checking = false → bulkOn s (pay8 q 0) = false →
      exec (.graphUnload q) s = .next (answered (slotGone (setSlot s (pay8 q 0) {}) (pay8 q 0)) q 0x24 .ok [])) ∧
    (heard s q 0x24 = true → q.payload.length = 4 → pay8 q 0 ≤ 1 → (slotAt s (pay8 q 0)).phase = .empty →
      exec (.graphUnload q) s = .next (answered s q 0x24 .ok [])) ∧
    (heard s q 0x24 = true → q.payload.length = 4 → pay8 q 0 ≤ 1 →
      ((slotAt s (pay8 q 0)).phase = .active ∨ (slotAt s (pay8 q 0)).phase = .armed) →
      exec (.graphUnload q) s = .next (answered s q 0x24 .state [])) ∧
    (heard s q 0x27 = true → q.payload.length = 4 → 1 ≤ pay16 q 0 → pay16 q 0 ≤ 10000 →
      exec (.loadMeterSet q) s = .next (answered { s with graph := { s.graph with meter := { s.graph.meter with
        threshold := pay16 q 0, peak := if bit (pay8 q 2) 0 then 0 else s.graph.meter.peak } } } q 0x27 .ok []))

/-- R72, R58, R60, R61: GRAPH_ACTIVATE, HARD or FADE, of a READY slot that meets the guarantee or may do without, arms it
for switch block n and waits; of slot 0xFF it selects no graph at n. n is the requested block where it is one of R14's, else the
earliest of R61. GRAPH_SWITCH at the boundary that begins n + 1 makes the armed slot ACTIVE and the old one READY. -/
def Obligations.GraphActivationActs : Prop :=
  ∀ (s : State) (q : Request),
    (∀ n, heard s q 0x23 = true → q.payload.length = 16 → pay8 q 1 ≤ 1 →
      (pay8 q 1 = 1 → 1 ≤ pay16 q 4 ∧ pay16 q 4 ≤ 50) → s.graph.act = none →
      (bit (pay8 q 2) 0 = true → bsnResolve (payBsn q 8) (earliestSwitch s (pay8 q 1 == 1) (pay16 q 4)) ≠ .tooFar ∧
        (bit (pay8 q 2) 1 = true → bsnResolve (payBsn q 8) (earliestSwitch s (pay8 q 1 == 1) (pay16 q 4)) ≠ .early)) →
      n = (if bit (pay8 q 2) 0 = true ∧ bsnResolve (payBsn q 8) (earliestSwitch s (pay8 q 1 == 1) (pay16 q 4)) = .asked
        then payBsn q 8 else earliestSwitch s (pay8 q 1 == 1) (pay16 q 4)) →
      (pay8 q 0 ≤ 1 → (slotAt s (pay8 q 0)).phase = .ready →
        (bit (pay8 q 2) 2 = true ∨ guaranteed s (slotAt s (pay8 q 0)) = true) →
        exec (.graphActivate q) s = .next (waitsWith { (setSlot s (pay8 q 0) { slotAt s (pay8 q 0) with
            phase := .armed, n := n, noGuar := bit (pay8 q 2) 2 }) with
          graph := { (setSlot s (pay8 q 0) { slotAt s (pay8 q 0) with
              phase := .armed, n := n, noGuar := bit (pay8 q 2) 2 }).graph with
            act := some { slot := some (pay8 q 0), fade := pay8 q 1 == 1, f := pay16 q 4, n := n,
                          falls := graphActive s } } }
          q 0x23 .graphActivate (some (bsn8 n)))) ∧
      (pay8 q 0 = 0xFF → graphActive s = true →
        exec (.graphActivate q) s = .next (waitsWith { s with graph := { s.graph with
            act := some { slot := none, fade := pay8 q 1 == 1, f := pay16 q 4, n := n, falls := true } } }
          q 0x23 .graphActivate (some (bsn8 n))))) ∧
    (∀ fade f, earliestSwitch s fade f = s.bsn + BitVec.ofNat 40 (1 + if fade then 4 * f else 0)) ∧
    (∀ i n fade f falls, i ≤ 1 → s.graph.slots.length = 2 → s.cycle = 0 → s.bsn = n + 1#40 →
      s.graph.act = some { slot := some i, fade := fade, f := f, n := n, falls := falls } →
      ∃ t, exec .graphSwitch s = .next t ∧ t.graph.act = none ∧ (t.graph.slots.getD i {}).phase = .active ∧
        (t.graph.slots.getD i {}).n = n ∧ (t.graph.slots.getD i {}).sat = 0 ∧
        ((slotAt s (1 - i)).phase = .active → (t.graph.slots.getD (1 - i) {}).phase = .ready) ∧
        (t.graph.slots.getD i {}).image = (slotAt s i).image)

/-- R206, R222, R223, R225: HAMPER_OPEN takes the lowest EMPTY Hamper, HAMPER_STAGE stages entries that meet R203 and R205,
HAMPER_DISCARD empties one that its opener or an OWNER may use. -/
def Obligations.HamperCommandsAct : Prop :=
  ∀ (s : State) (q : Request),
    (∀ h, heard s q 0x12 = true → q.payload.length = 4 → pay8 q 0 = 0xFF →
      s.params.hampers.findIdx? (fun x => x.phase == .empty) = some h →
      exec (.hamperOpen q) s = .next (answered (modHamper s h (fun _ =>
        { phase := .opened, slot := 0xFF, port := portNum q.port, graphId := 0#32, entries := [] })) q 0x12 .ok
        (u8 h ++ zeros 3 ++ u32 0))) ∧
    (∀ h, heard s q 0x12 = true → q.payload.length = 4 → pay8 q 0 ≤ 1 → slotLive s (pay8 q 0) = true →
      s.params.hampers.findIdx? (fun x => x.phase == .empty) = some h →
      exec (.hamperOpen q) s = .next (answered (modHamper s h (fun _ => {
          phase := .opened, slot := pay8 q 0, port := portNum q.port, graphId := (slotAt s (pay8 q 0)).graphId, entries := [] })) q 0x12 .ok
        (u8 h ++ zeros 3 ++ u32 (slotAt s (pay8 q 0)).graphId.toNat))) ∧
    (heard s q 0x12 = true → q.payload.length = 4 → pay8 q 0 = 0xFF → (∀ x ∈ s.params.hampers, x.phase ≠ .empty) →
      exec (.hamperOpen q) s = .next (answered s q 0x12 .noSpace [])) ∧
    (heard s q 0x13 = true → countLen 8 q.payload = true → pay8 q 0 ≤ 7 → 1 ≤ pay16 q 2 → pay16 q 2 ≤ 511 →
      (hamperAt s (pay8 q 0)).phase = .opened → mayUse s q (hamperAt s (pay8 q 0)) = true →
      (∀ x ∈ payEntries q (pay16 q 2), entryFails s s true (getPort s q.port).cls (hamperAt s (pay8 q 0)).slot
        (wordEntries (hamperAt s (pay8 q 0)).entries ++ payEntries q (pay16 q 2)) x = ⟨false, false, false⟩) →
      ((entryWords (payEntries q (pay16 q 2))).foldl stageOne (hamperAt s (pay8 q 0)).entries).length ≤ 4096 →
      exec (.hamperStage q) s = .next (answered (modHamper s (pay8 q 0) (fun x => { x with
          entries := (entryWords (payEntries q (pay16 q 2))).foldl stageOne (hamperAt s (pay8 q 0)).entries })) q 0x13 .ok
        (u16 ((entryWords (payEntries q (pay16 q 2))).foldl stageOne (hamperAt s (pay8 q 0)).entries).length ++
          u16 0xFFFF))) ∧
    (heard s q 0x15 = true → q.payload.length = 4 → pay8 q 0 ≤ 7 → mayUse s q (hamperAt s (pay8 q 0)) = true →
      ((hamperAt s (pay8 q 0)).phase = .opened ∨ (hamperAt s (pay8 q 0)).phase = .stale) →
      exec (.hamperDiscard q) s = .next (answered (modHamper s (pay8 q 0) (fun _ => {})) q 0x15 .ok []))

/-- R14, R204, R209, R220, R221, R224: HAMPER_COMMIT is scheduled for its requested block, where that is one of R14's, else for
the first boundary at least 32,768 cycles from now, and waits, the Hamper COMMITTING; PARAM_WRITE of good entries stores its
immediate ones at once, and its others wait for that boundary; PARAM_READ answers the words and clears the RC words read. -/
def Obligations.ParameterCommandsAct : Prop :=
  ∀ (s : State) (q : Request),
    (∀ c, heard s q 0x14 = true → q.payload.length = 16 → pay8 q 0 ≤ 7 →
      (bit (pay8 q 1) 2 = true → 1 ≤ pay16 q 2 ∧ pay16 q 2 ≤ 50) →
      (bit (pay8 q 1) 0 = true → bsnResolve (payBsn q 8) (earliestCommit s - 1#40) ≠ .tooFar ∧
        (bit (pay8 q 1) 1 = true → bsnResolve (payBsn q 8) (earliestCommit s - 1#40) ≠ .early)) →
      c = (if bit (pay8 q 1) 0 = true ∧ bsnResolve (payBsn q 8) (earliestCommit s - 1#40) = .asked
        then payBsn q 8 else earliestCommit s - 1#40) →
      (hamperAt s (pay8 q 0)).phase = .opened → mayUse s q (hamperAt s (pay8 q 0)) = true →
      opsHold s (hamperAt s (pay8 q 0)).slot (wordEntries (hamperAt s (pay8 q 0)).entries) = true →
      exec (.hamperCommit q) s = .next (waitsWith (modHamper (schedule s {
          id := s.params.nextId, hamper := some (pay8 q 0), slot := (hamperAt s (pay8 q 0)).slot,
          entries := (hamperAt s (pay8 q 0)).entries, interp := if bit (pay8 q 1) 2 then some (pay16 q 2) else none,
          boundary := c + 1#40, strict := bit (pay8 q 1) 1, deferred := false, stale := false }) (pay8 q 0)
          (fun x => { x with phase := .committing })) q 0x14 (.commit s.params.nextId) (some (bsn8 c)))) ∧
    (earliestCommit s = if s.cycle + 32768 ≤ 294912 then s.bsn + 1#40 else s.bsn + 2#40) ∧
    (∀ es now later, heard s q 0x10 = true → countLen 8 q.payload = true → 1 ≤ pay16 q 2 → pay16 q 2 ≤ 64 →
      es = payEntries q (pay16 q 2) → now = es.filter isImmediate → later = es.filter (fun x => !isImmediate x) →
      (∀ x ∈ es, mapClash s es x = false ∧
        entryFails s (rawRegs s now) false (getPort s q.port).cls (pay8 q 0) es x = ⟨false, false, false⟩) →
      (later = [] → exec (.paramWrite q) s = .next (answered (applyImmediate s now) q 0x10 .ok (bsn8 0 ++ u16 0xFFFF))) ∧
      (later ≠ [] → exec (.paramWrite q) s = .next (waitsWith (schedule (applyImmediate s now) {
          id := s.params.nextId, hamper := none, slot := if later.any (fun x => paSpace x.1 == 1) then pay8 q 0 else 0xFF,
          entries := entryWords later, interp := none, boundary := earliestCommit s, strict := false,
          deferred := false, stale := false }) q 0x10 (.commit s.params.nextId) none))) ∧
    (heard s q 0x11 = true → countLen 4 q.payload = true → 1 ≤ pay16 q 2 → pay16 q 2 ≤ 64 →
      (∀ a ∈ (List.range (pay16 q 2)).map (fun i => pay32 q (4 + 4 * i)),
        readFails s (getPort s q.port).cls (pay8 q 0) a = ⟨false, false, false⟩) →
      exec (.paramRead q) s = .next (answered
        (((List.range (pay16 q 2)).map (fun i => pay32 q (4 + 4 * i))).foldl readClear s) q 0x11 .ok
        (((List.range (pay16 q 2)).map (fun i => pay32 q (4 + 4 * i))).flatMap (fun a => u32 (readAt s (pay8 q 0) a)))))

/-- R404, R405, R408, R409, R413, R414, R416: ABORT of an outstanding command before its commit point aborts it, whose ABORTED
reply comes first, and answers OK; one that has reached it answers TOO_LATE, and a tag that the named port does not hold
UNKNOWN_TAG. RESET_DEVICE resets the device and sends no reply, with the OTP array and the reset record kept (R489).
PORT_CLASS_SET gives the three ports their present classes from the next cycle on, class 3 only while SERVICE is enabled, or
answers RANGE or STATE. -/
def Obligations.SessionCommandsAct : Prop :=
  ∀ (s : State) (q : Request),
    (∀ p o, heard s q 0x03 = true → q.payload.length = 4 → pay8 q 1 = 0xFF ∧ p = q.port ∨ portOf (pay8 q 1) = some p →
      (p = q.port ∨ 2 ≤ (getPort s q.port).cls) →
      (getPort s p).outstanding.find? (fun x => x.tag == BitVec.ofNat 8 (pay8 q 0)) = some o → o.seq < s.seq →
      abortable s o = true →
      exec (.abort q) s = .next (answered (abortCommand s p o) q 0x03 .ok [])) ∧
    (∀ p o, heard s q 0x03 = true → q.payload.length = 4 → pay8 q 1 = 0xFF ∧ p = q.port ∨ portOf (pay8 q 1) = some p →
      (getPort s p).outstanding.find? (fun x => x.tag == BitVec.ofNat 8 (pay8 q 0)) = some o → o.seq < s.seq →
      abortable s o = false →
      exec (.abort q) s = .next (answered s q 0x03 .tooLate [])) ∧
    (∀ p, heard s q 0x03 = true → q.payload.length = 4 → pay8 q 1 = 0xFF ∧ p = q.port ∨ portOf (pay8 q 1) = some p →
      (getPort s p).outstanding.any (fun o => o.tag == BitVec.ofNat 8 (pay8 q 0)) = false →
      BitVec.ofNat 8 (pay8 q 0) ≠ q.tag →
      exec (.abort q) s = .next (answered s q 0x03 .unknownTag [])) ∧
    (∀ p o b f n, o.job = .svcRaw b f n → abortCommand s p o = finalReply s p o.tag o.op .aborted []) ∧
    (∀ p o i, o.job = .graphEnd i →
      abortCommand s p o = finalReply (setSlot s i {}) p o.tag o.op .aborted (zeros 16)) ∧
    (∀ p o a i, o.job = .graphActivate → s.graph.act = some a → a.slot = some i →
      abortCommand s p o = finalReply (setSlot { s with graph := { s.graph with act := none } } i
        { slotAt s i with phase := .ready, n := 0#40, noGuar := false }) p o.tag o.op .aborted []) ∧
    (heard s q 0x04 = true → q.payload = [] → ∃ t, exec (.resetDevice q) s = .next t ∧
      t.pending = s.pending ∧ t.bsn = 0 ∧ t.cycle = 0 ∧ t.regs = [] ∧ t.spi = State.reset.spi ∧
      t.addrA = State.reset.addrA ∧ t.addrB = State.reset.addrB ∧ t.otp.words = s.otp.words ∧ t.record.last = 3 ∧
      t.record.bsnBefore = s.bsn ∧ t.record.wakeSrc = s.record.wakeSrc ∧ t.power.mode = .ship ∧ t.power.boot = .held ∧
      t.power.pwrEn0 = s.power.pwrEn0 ∧ t.power.pwrEn1 = false ∧ t.events = State.reset.events ∧
      t.graph = State.reset.graph ∧ t.params = State.reset.params) ∧
    (heard s q 0x06 = true → q.payload.length = 4 → pay8 q 0 ≤ 3 → pay8 q 1 ≤ 3 → pay8 q 2 ≤ 3 →
      (pay8 q 0 = 3 ∨ pay8 q 1 = 3 ∨ pay8 q 2 = 3 → serviceOn s = true) →
      (2 ≤ pay8 q 0 ∨ 2 ≤ pay8 q 1 ∨ 2 ≤ pay8 q 2) → bit s.otp.locks 0 = false →
      exec (.portClassSet q) s = .next (answered { s with
        mapDue := s.mapDue ++ [.classes [pay8 q 0, pay8 q 1, pay8 q 2]] } q 0x06 .ok [])) ∧
    (∀ a b c, mapApply { s with mapDue := [.classes [a, b, c]] } = { s with
      mapDue := [], spi := { s.spi with cls := a }, addrA := { s.addrA with cls := b },
      addrB := { s.addrB with cls := c } }) ∧
    (heard s q 0x06 = true → q.payload.length = 4 →
      (3 < pay8 q 0 ∨ 3 < pay8 q 1 ∨ 3 < pay8 q 2 ∨ pay8 q 0 ≤ 1 ∧ pay8 q 1 ≤ 1 ∧ pay8 q 2 ≤ 1) →
      exec (.portClassSet q) s = .next (answered s q 0x06 .range [])) ∧
    (heard s q 0x06 = true → q.payload.length = 4 → pay8 q 0 ≤ 2 → pay8 q 1 ≤ 2 → pay8 q 2 ≤ 2 →
      (pay8 q 0 = 2 ∨ pay8 q 1 = 2 ∨ pay8 q 2 = 2) → bit s.otp.locks 0 = true →
      exec (.portClassSet q) s = .next (answered s q 0x06 .state []))

/-- R14, R242, R257, R364, R388, R389, R481, R496, R497: PORT_RESTART of an enabled port in ACQUIRE is complete, of one that
sounds ramps it out and waits for ACQUIRE, and of a silent one enters ACQUIRE at once; ROOT_RESTART restarts the root, which is
then in RESTART, and waits; AUX_PROFILE waits for its boundary, the requested one where it is one of R14's, else the next,
and an ACCEPTED reply names that boundary (R400);
POWER_MODE_SET of the present mode answers at once, of SHIP from RETAIN or LISTEN answers as D3 begins, and of another mode
starts the change and waits; WAKE_CFG reads or replaces its settings. -/
def Obligations.DeviceCommandsAct : Prop :=
  ∀ (s : State) (q : Request),
    (heard s q 0x33 = true → q.payload.length = 4 → pay8 q 0 ≤ 6 → portEn s (pay8 q 0) = true →
      (portIs s (pay8 q 0) .acquire = true → exec (.portRestart q) s = .next (answered s q 0x33 .ok [])) ∧
      (portIs s (pay8 q 0) .acquire = false → portSounds s (pay8 q 0) = true ∨ (dport s (pay8 q 0)).next.isSome = true →
        exec (.portRestart q) s =
          .next (waitsWith (portLose s (pay8 q 0) true) q 0x33 (.portRestart (pay8 q 0)) none)) ∧
      (portIs s (pay8 q 0) .acquire = false → portSounds s (pay8 q 0) = false → (dport s (pay8 q 0)).next = none →
        exec (.portRestart q) s = .next (answered (enterLock s (pay8 q 0) .acquire) q 0x33 .ok []))) ∧
    (heard s q 0x33 = true → q.payload.length = 4 → pay8 q 0 ≤ 6 → portEn s (pay8 q 0) = false →
      exec (.portRestart q) s = .next (answered s q 0x33 .state [])) ∧
    (heard s q 0x49 = true → q.payload = [] → s.clock.state ≠ .off →
      exec (.rootRestart q) s = .next (waitsWith (restartRoot s) q 0x49 .rootRestart none)) ∧
    (s.clock.state ≠ .off → (restartRoot s).clock.state = .restart ∧ (restartRoot s).clock.refQual = false ∧
      (restartRoot s).clock.lockPoint = false) ∧
    (heard s q 0x49 = true → q.payload = [] → s.clock.state = .off →
      exec (.rootRestart q) s = .next (answered s q 0x49 .state [])) ∧
    (∀ b start, heard s q 0x4A = true → q.payload.length = 16 → pay8 q 0 ≤ 3 → pay8 q 1 ≤ 1 →
      start = (pay8 q 1 == 1) →
      (bit (pay8 q 2) 0 = true → bsnResolve (payBsn q 8) (s.bsn + 1#40) ≠ .tooFar ∧
        (bit (pay8 q 2) 1 = true → bsnResolve (payBsn q 8) (s.bsn + 1#40) ≠ .early)) →
      b = (if bit (pay8 q 2) 0 = true ∧ bsnResolve (payBsn q 8) (s.bsn + 1#40) = .asked
        then payBsn q 8 else s.bsn + 1#40) →
      (start = true → auxSegments s (pay8 q 0) ≠ [] ∧ (carrierOn s (pay8 q 0) = true →
        ∀ k ∈ auxSegments s (pay8 q 0), carrierOk s (pay8 q 0) (toSigned 32 (rd s (.segOfs (pay8 q 0) k))) = true)) →
      bit (rd s (.auxCfg (pay8 q 0))) 0 = true → bit (rd s (.auxCfg (pay8 q 0))) 2 = false →
      auxPorts s (pay8 q 0) = [] → (auxAt s (pay8 q 0)).profile ≠ start →
      exec (.auxProfile q) s = .next (waitsWith s q 0x4A (.auxProfile (pay8 q 0) start b) (some (bsn8 b)))) ∧
    (∀ m, heard s q 0x41 = true → q.payload.length = 4 → modeOf (pay8 q 0) = some m → s.power.change = none →
      (modeCode m < 3 → otpOutstanding s = false ∧ s.otp.openGen = none) →
      (m = s.power.mode →
        exec (.powerModeSet q) s = .next (answered s q 0x41 .ok (u8 (pay8 q 0) ++ zeros 7 ++ bsn8 s.bsn))) ∧
      (m ≠ s.power.mode → changeSteps s.power.mode m ≠ [.d3] →
        exec (.powerModeSet q) s = .next (waitsWith (startChange s m 1 0 (bit (pay8 q 1) 0) (some s.seq)) q 0x41 .powerMode
          (some (zeros 16)))) ∧
      (m ≠ s.power.mode → changeSteps s.power.mode m = [.d3] →
        exec (.powerModeSet q) s = .next (answered (modPower (startChange s m 1 0 (bit (pay8 q 1) 0) (some s.seq)) (fun p =>
          { p with change := p.change.map (fun c => { c with replied := some s.bsn }) })) q 0x41 .ok
          (u8 0 ++ zeros 7 ++ bsn8 s.bsn)))) ∧
    (∀ m keep n, changeSteps s.power.mode m ≠ [] → (changeSteps s.power.mode m).head? ≠ some .a1 →
      startChange s m 1 0 keep (some n) = { s with power := { s.power with change := some {
        steps := changeSteps s.power.mode m, target := m, start := s.power.mode, reason := 1, source := 0, keepSram := keep,
        notBefore := s.bsn + 1#40, begun := (changeSteps s.power.mode m).head? == some .d3, cmd := some n,
        replied := none, asked := (s.bsn, s.cycle) } } }) ∧
    (heard s q 0x42 = true → q.payload = [] →
      exec (.wakeCfg q) s = .next (answered s q 0x42 .ok (wakeBytes s.power.wake))) ∧
    (∀ w : WakeSettings, heard s q 0x42 = true → q.payload.length = 8 → Nat.land (pay8 q 0) 0x1D = pay8 q 0 →
      pay8 q 1 ≤ 0x3F → (pay8 q 2 = 3 ∨ pay8 q 2 = 4) → 2 ≤ pay8 q 3 →
      w = { ship := pay8 q 0, sleep := pay8 q 1, target := if pay8 q 2 = 4 then .active else .idle, keyDeb := pay8 q 3,
            chgPol := bit (pay8 q 4) 0 } →
      exec (.wakeCfg q) s = .next (answered { s with power := { s.power with wake := w } } q 0x42 .ok (wakeBytes w))) ∧
    (heard s q 0x42 = true → q.payload.length = 8 →
      (Nat.land (pay8 q 0) 0x1D ≠ pay8 q 0 ∨ 0x3F < pay8 q 1 ∨ pay8 q 2 ≠ 3 ∧ pay8 q 2 ≠ 4 ∨ pay8 q 3 < 2) →
      exec (.wakeCfg q) s = .next (answered s q 0x42 .range []))

/-- R341, R343, R344, R355: PSTAGE_CLEAR waits for the next boundary; PSTAGE_STOP sets EN to 0 in every named leading channel
and answers once all are OFF, at once where they are; DIAG_RUN of resting channels is accepted and waits, an ACCEPTED reply
names the channels that take part (R400), and outside ACTIVE, with the stage away or a sweep running or due it answers STATE
(while a step of a change out of ACTIVE waits, by the model's choice: log entry 83). -/
def Obligations.StageCommandsAct : Prop :=
  ∀ (s : State) (q : Request),
    (heard s q 0x61 = true → q.payload.length = 4 →
      exec (.pstageClear q) s = .next (waitsWith s q 0x61 (.pstageClear (pay32 q 0)) none)) ∧
    (∀ t, heard s q 0x63 = true → q.payload.length = 8 →
      t = (ledBy s (pay32 q 0)).foldl (stopChan (bit (pay8 q 4) 0)) s →
      ((∀ c ∈ ledBy s (pay32 q 0), (chan t c).state = .off) →
        exec (.pstageStop q) s = .next (answered t q 0x63 .ok [])) ∧
      ((∃ c ∈ ledBy s (pay32 q 0), (chan t c).state ≠ .off) →
        exec (.pstageStop q) s = .next (waitsWith t q 0x63
          (.pstageStop ((ledBy s (pay32 q 0)).foldl (fun m c => m + 2 ^ c) 0)) none))) ∧
    (∀ named runs mask, heard s q 0x68 = true → q.payload.length = 4 →
      named = (List.range 16).filter (fun h => bit (pay16 q 0) h && leads s h) → named ≠ [] → pay8 q 2 % 4 ≠ 0 →
      runs = named.filter (fun h => running (chan s h)) → (runs = [] ∨ bit (pay8 q 3) 0 = true) →
      s.power.mode = .active → leavingActive s = false → s.stage.stage = .available → s.diag.state = .idle →
      s.diag.bootDue = false → mask = (named.filter (fun h => running (chan s h) || atRest (chan s h).state)).foldl
        (fun m h => m + 2 ^ h) 0 →
      exec (.diagRun q) s = .next (waitsWith (modDiag (runs.foldl (fun t h =>
          if (chan t h).state = .stopping then t else beginStop t h (stopMs t h) 1 .off) s) (fun d => { d with
        state := .waiting,
        mask := mask, tests := pay8 q 2 % 4, aborted := false, failed := false, since := s.bsn + 1#40 })) q 0x68 .diagRun
        (some (zeros 16 ++ u16 mask ++ u16 0)))) ∧
    (∀ named, heard s q 0x68 = true → q.payload.length = 4 →
      named = (List.range 16).filter (fun h => bit (pay16 q 0) h && leads s h) → named ≠ [] → pay8 q 2 % 4 ≠ 0 →
      (s.power.mode ≠ .active ∨ leavingActive s = true ∨ s.stage.stage ≠ .available ∨ s.diag.state ≠ .idle ∨
        s.diag.bootDue = true) → exec (.diagRun q) s = .next (answered s q 0x68 .state [])) ∧
    (heard s q 0x68 = true → q.payload.length = 4 → pay16 q 0 = 0 →
      exec (.diagRun q) s = .next (answered s q 0x68 .range []))

/-- R493, R500, R501, R502, R503, R504, R505: the OTP commands that are accepted wait for their words, where a word that an
earlier command is still to program counts as programmed (the model's choice, log entry 50): OTP_READ waits for its words, OTP_GEN_BEGIN opens the lowest unused slot, OTP_GEN_DATA queues the words that are not 0, OTP_GEN_COMMIT of the right
CRC queues words 126 and 127, OTP_LOCK of any flags and legal classes the lowest unused lock word, OTP_FACTORY_WRITE its words;
data of zeros only is complete at once; a wrong CRC answers RANGE. -/
def Obligations.OtpCommandsAct : Prop :=
  ∀ (s : State) (q : Request),
    (heard s q 0x71 = true → q.payload.length = 4 → 1 ≤ pay16 q 2 → pay16 q 0 + pay16 q 2 ≤ 1024 →
      exec (.otpRead q) s = .next (waitsWith s q 0x71 (.otpRead (pay16 q 0) (pay16 q 2)) none)) ∧
    (heard s q 0x71 = true → q.payload.length = 4 → (pay16 q 2 = 0 ∨ 1024 < pay16 q 0 + pay16 q 2) →
      exec (.otpRead q) s = .next (answered s q 0x71 .range [])) ∧
    (∀ g, heard s q 0x72 = true → q.payload = [] → modeHigh s = true → s.otp.openGen = none → bit s.otp.locks 2 = false →
      (List.range 5).find? (slotUnused s.otp) = some g →
      exec (.otpGenBegin q) s = .next (waitsWith { s with otp := { s.otp with
        openGen := some g,
        jobs := s.otp.jobs ++ [⟨q.port, q.tag, .begin g, [(288 + 128 * g, 0x00014E47#32)], false⟩] } } q 0x72 .otp none)) ∧
    (∀ g, heard s q 0x73 = true → dataLen q.payload = true → 1 ≤ pay16 q 0 → 1 ≤ pay16 q 2 →
      pay16 q 0 + pay16 q 2 ≤ 126 → s.otp.openGen = some g → modeHigh s = true →
      (∀ i ∈ List.range (pay16 q 2), plannedWord s.otp (288 + 128 * g + pay16 q 0 + i) = 0) →
      ((∃ v ∈ dataWords q (pay16 q 2), v ≠ 0) →
        exec (.otpGenData q) s = .next (waitsWith { s with otp := { s.otp with
          jobs := s.otp.jobs ++ [⟨q.port, q.tag, .data,
            progWords (288 + 128 * g + pay16 q 0) (dataWords q (pay16 q 2)), false⟩] } } q 0x73 .otp none)) ∧
      ((∀ v ∈ dataWords q (pay16 q 2), v = 0) → exec (.otpGenData q) s = .next (answered s q 0x73 .ok []))) ∧
    (∀ g, heard s q 0x74 = true → q.payload.length = 4 → s.otp.openGen = some g → modeHigh s = true →
      pay32 q 0 = slotCrc (plannedWord s.otp) g →
      exec (.otpGenCommit q) s = .next (waitsWith { s with otp := { s.otp with
        jobs := s.otp.jobs ++ [⟨q.port, q.tag, .commit g,
          progWords (288 + 128 * g + 126) [pay32 q 0, 0xFFFFFFFF - pay32 q 0], false⟩] } } q 0x74 .otp none)) ∧
    (∀ g, heard s q 0x74 = true → q.payload.length = 4 → s.otp.openGen = some g →
      pay32 q 0 ≠ slotCrc (plannedWord s.otp) g → exec (.otpGenCommit q) s = .next (answered s q 0x74 .range [])) ∧
    (∀ i classes flags, heard s q 0x75 = true → q.payload.length = 4 → classes = [pay8 q 0, pay8 q 1, pay8 q 2] →
      flags = pay8 q 3 % 16 → flags ≠ 0 → (∀ c ∈ classes, c ≤ 3) → (∃ c ∈ classes, 2 ≤ c) →
      (3 ∈ classes → serviceOn s = true ∧ bit flags 1 = false) → (bit flags 0 = true → bit s.otp.locks 0 = false) →
      modeHigh s = true → freeLock s.otp = some i →
      exec (.otpLock q) s = .next (waitsWith { s with otp := { s.otp with
        jobs := s.otp.jobs ++ [⟨q.port, q.tag, .lock i classes flags,
          [(928 + i, BitVec.ofNat 32 (lockWord classes flags))], false⟩] } } q 0x75 .otp none)) ∧
    (heard s q 0x76 = true → dataLen q.payload = true → 128 ≤ pay16 q 0 → 1 ≤ pay16 q 2 → pay16 q 0 + pay16 q 2 ≤ 256 →
      bit s.otp.locks 3 = false → modeHigh s = true →
      (∀ i ∈ List.range (pay16 q 2), plannedWord s.otp (pay16 q 0 + i) = 0) →
      ((∃ v ∈ dataWords q (pay16 q 2), v ≠ 0) →
        exec (.otpFactoryWrite q) s = .next (waitsWith { s with otp := { s.otp with
          jobs := s.otp.jobs ++ [⟨q.port, q.tag, .factory,
            progWords (pay16 q 0) (dataWords q (pay16 q 2)), false⟩] } } q 0x76 .otp none)) ∧
      ((∀ v ∈ dataWords q (pay16 q 2), v = 0) → exec (.otpFactoryWrite q) s = .next (answered s q 0x76 .ok [])))

/-- R195, R198, R199, R200, R418, R419: FAULT_TABLE_CLEAR empties its entries; HEALTH_CFG without a payload reads, and with
values in range waits for the next boundary; REPAIR_FORCE of each of its five actions, FAULT_INJECT of each class 1 to 11, SVC_RAW_READ
and SVC_SPARE_TEST are accepted and wait. -/
def Obligations.HealthCommandsAct : Prop :=
  ∀ (s : State) (q : Request),
    (heard s q 0x82 = true → q.payload.length = 4 → pay8 q 0 ≤ 63 → exec (.faultTableClear q) s = .next (answered
      { s with health := { s.health with table := s.health.table.set (pay8 q 0) none } } q 0x82 .ok [])) ∧
    (heard s q 0x82 = true → q.payload.length = 4 → pay8 q 0 = 0xFF → exec (.faultTableClear q) s = .next (answered
      { s with health := { s.health with table := List.replicate 64 none } } q 0x82 .ok [])) ∧
    (heard s q 0x85 = true → q.payload = [] →
      exec (.healthCfg q) s = .next (answered s q 0x85 .ok (cfgBytes s.health.cfg))) ∧
    (heard s q 0x85 = true → q.payload.length = 12 → cfgOk (cfgOf q.payload) = true → exec (.healthCfg q) s = .next
      (waitsWith { s with health := { s.health with cfgNext := some (cfgOf q.payload) } } q 0x85 .healthCfg none)) ∧
    (heard s q 0x85 = true → q.payload.length = 12 → cfgOk (cfgOf q.payload) = false →
      exec (.healthCfg q) s = .next (answered s q 0x85 .range [])) ∧
    (∀ count, heard s q 0x86 = true → q.payload.length = 4 → 1 ≤ pay8 q 0 →
      [56, 18, 24, 16, 16][pay8 q 0 - 1]? = some count → pay8 q 1 < count → (pay8 q 0 = 4 → pay8 q 2 < 8) →
      (forceInService s (pay8 q 0) (pay8 q 1) (pay8 q 2) = true → s.health.migration = none →
        forceBlocked s (pay8 q 0) (pay8 q 1) = false → (bit (pay8 q 3) 0 = true → logIsFull s = false) →
        exec (.repairForce q) s = .next (waitsWith (modHealth s (fun h => forceStart { h with nextId := h.nextId + 1 }
            h.nextId (pay8 q 0) (pay8 q 1) (pay8 q 2) (bit (pay8 q 3) 0))) q 0x86 (.repair s.health.nextId)
          (some (if pay8 q 0 = 1 ∨ pay8 q 0 = 5 then bsn8 (s.bsn + 1#40) else zeros 8)))) ∧
      ((forceInService s (pay8 q 0) (pay8 q 1) (pay8 q 2) = false ∨ s.health.migration.isSome = true ∨
          forceBlocked s (pay8 q 0) (pay8 q 1) = true) →
        exec (.repairForce q) s = .next (answered s q 0x86 .state [])) ∧
      (forceInService s (pay8 q 0) (pay8 q 1) (pay8 q 2) = true → s.health.migration = none →
        forceBlocked s (pay8 q 0) (pay8 q 1) = false → bit (pay8 q 3) 0 = true → logIsFull s = true →
        exec (.repairForce q) s = .next (answered s q 0x86 .noSpace []))) ∧
    (∀ c k, heard s q 0x87 = true → q.payload.length = 4 → 1 ≤ pay8 q 0 → pay8 q 0 ≤ 11 → faultOf (pay8 q 0) = some c →
      unitOf (pay8 q 1) = some k → k ∈ suspectKinds c → pay8 q 2 < unitCount k →
      unitInService s ⟨k, pay8 q 2, 0⟩ = true →
      exec (.faultInject q) s = .next (waitsWith { s with health := { s.health with
        nextId := s.health.nextId + 1,
        inject := s.health.inject ++ [⟨s.health.nextId, c, ⟨k, pay8 q 2, 0⟩, s.bsn, s.cycle⟩] } } q 0x87
        (.inject s.health.nextId) none)) ∧
    (heard s q 0xF0 = true → q.payload.length = 8 → pay8 q 0 ≤ 17 → 1 ≤ pay16 q 2 → pay16 q 2 ≤ 113 →
      pay32 q 4 + pay16 q 2 ≤ 49152 →
      exec (.svcRawRead q) s = .next (waitsWith s q 0xF0 (.svcRaw (pay8 q 0) (pay32 q 4) (pay16 q 2)) none)) ∧
    (∀ u : UnitRef, heard s q 0xF1 = true → q.payload.length = 4 →
      (pay8 q 0 = 1 ∧ u = ⟨.oe, pay8 q 1, 0⟩ ∧ pay8 q 1 < 56 ∨ pay8 q 0 = 4 ∧ u = ⟨.dec, pay8 q 1, 0⟩ ∧ pay8 q 1 < 24) →
      exec (.svcSpareTest q) s = .next
        (if isSpare s u then waitsWith s q 0xF1 (.svcTest u) none else answered s q 0xF1 .state []))

/-- R77, R78, R309, R310, R518: MEM_READ of a READY slot answers its words at once and of an ARMED or ACTIVE slot waits;
MEM_WRITE changes a READY slot's image; COOLER_FETCH answers the readable samples, or with WAIT waits for its last one, and with
nothing captured answers STATE; WAKE_REARM re-arms the beams of its mask; TOUCH_RECAL marks its enabled electrodes and waits. -/
def Obligations.BulkWakeAndTouchCommandsAct : Prop :=
  ∀ (s : State) (q : Request),
    (heard s q 0xB0 = true → q.payload.length = 12 → pay8 q 0 ≤ 1 → pay8 q 1 ≤ 1 → 1 ≤ pay16 q 8 → pay16 q 8 ≤ 127 →
      slotLive s (pay8 q 0) = true →
      bulkOk (slotAt s (pay8 q 0)).image (pay8 q 1) (pay16 q 2) (pay32 q 4) (pay16 q 8) = true →
      exec (.memRead q) s = .next (modPort
        (if (slotAt s (pay8 q 0)).phase = .ready then answered s q 0xB0 .ok (wordBytes ((List.range (pay16 q 8)).map (fun k =>
            BitVec.ofNat 256 (readyWord (slotAt s (pay8 q 0)).image (pay8 q 1) (pay16 q 2) (pay32 q 4 + k)))))
         else waitsWith s q 0xB0 (.memRead (pay8 q 0) (pay8 q 1) (pay16 q 2) (pay32 q 4) (pay16 q 8)) none)
        q.port (fun p => { p with
          outstanding := p.outstanding.map (fun o => if o.tag = q.tag then { o with slot := pay8 q 0 } else o) }))) ∧
    (∀ w, heard s q 0xB1 = true → memWriteLen q.payload = true → pay8 q 0 ≤ 1 → pay8 q 1 ≤ 1 → 1 ≤ pay16 q 8 →
      pay16 q 8 ≤ 127 → (slotAt s (pay8 q 0)).phase = .ready →
      bulkOk (slotAt s (pay8 q 0)).image (pay8 q 1) (pay16 q 2) (pay32 q 4) (pay16 q 8) = true →
      (pay8 q 1 = 0 → (bufEntry (slotAt s (pay8 q 0)).image (pay16 q 2)).kind ≠ 1 ∧
        (bufEntry (slotAt s (pay8 q 0)).image (pay16 q 2)).init ≠ 0xFFFFFFFF) →
      w = memWritten (slotAt s (pay8 q 0)).image (pay8 q 1) (pay16 q 2) (pay32 q 4) (q.payload.drop 12) →
      recheck w.1 w.2 (32 * pay16 q 8) = true →
      exec (.memWrite q) s = .next (modPort (answered (setSlot s (pay8 q 0) { slotAt s (pay8 q 0) with image := w.1 })
        q 0xB1 .ok []) q.port (fun p => { p with
          outstanding := p.outstanding.map (fun o => if o.tag = q.tag then { o with slot := pay8 q 0 } else o) }))) ∧
    (∀ newest oldest first last f c lanes, heard s q 0x91 = true → q.payload.length = 12 → 1 ≤ pay16 q 8 →
      lanes = pay8 q 10 % 32 → lanes ≠ 0 → pay16 q 8 * ((List.range 5).filter (bit lanes)).length * 2 ≤ 4072 →
      s.wake.range = some (newest, oldest) → first = BitVec.ofNat 42 (leField q.payload 0 8) →
      last = first + BitVec.ofNat 42 (pay16 q 8 - 1) →
      (csnReached first oldest = true → f = first ∧ c = pay16 q 8) →
      (csnReached first oldest = false → bit (pay8 q 11) 1 = true ∧ f = oldest ∧
        c = if csnReached last oldest then (last - oldest).toNat + 1 else 0) →
      (bit (pay8 q 11) 0 = true → csnReached last newest = true → (last - newest).toNat ≤ 4096) →
      exec (.coolerFetch q) s = .next
        (if bit (pay8 q 11) 0 ∧ s.wake.capturing = true ∧ fetchReady s f c < c then
          waitsWith s q 0x91 (.coolerFetch f c lanes (!csnReached first oldest)) none
         else answered s q 0x91 .ok (fetchPayload s f (fetchReady s f c) lanes (!csnReached first oldest)))) ∧
    (heard s q 0x91 = true → q.payload.length = 12 → 1 ≤ pay16 q 8 → pay8 q 10 % 32 ≠ 0 →
      pay16 q 8 * ((List.range 5).filter (bit (pay8 q 10 % 32))).length * 2 ≤ 4072 → s.wake.range = none →
      exec (.coolerFetch q) s = .next (answered s q 0x91 .state [])) ∧
    (heard s q 0x92 = true → q.payload.length = 4 → pay8 q 0 % 16 ≠ 0 →
      exec (.wakeRearm q) s = .next (answered { s with wake := { s.wake with
        dets := (List.zip (List.range 4) s.wake.dets).map (fun x => if bit (pay8 q 0 % 16) x.1 then
          (if bit (pay8 q 1) 0 ∧ x.2.on then detStart s x.1 { x.2 with fired := false, quiet := 0, flag := false }
           else { x.2 with fired := false, quiet := 0, flag := false }) else x.2) } } q 0x92 .ok [])) ∧
    (heard s q 0xA1 = true → q.payload.length = 4 → 1 ≤ pay16 q 0 → pay16 q 0 ≤ 0xFFF → s.touch.scanning = true →
      (∀ n < 12, bit (pay16 q 0) n = true → tchEn s n = true) →
      exec (.touchRecal q) s = .next (waitsWith (((List.range 12).filter (bit (pay16 q 0))).foldl
        (fun t n => { t with touch := { t.touch with els := modAt t.touch.els n (fun e => { e with
          recal := true, late := if e.recal || e.fresh then e.late else scanRuns s }) } }) s)
        q 0xA1 (.touchRecal (pay16 q 0)) none)) ∧
    (heard s q 0xA1 = true → q.payload.length = 4 → 1 ≤ pay16 q 0 → pay16 q 0 ≤ 0xFFF →
      s.touch.scanning = false ∨ (∃ n < 12, bit (pay16 q 0) n = true ∧ tchEn s n = false) →
      exec (.touchRecal q) s = .next (answered s q 0xA1 .state []))

/-- R71, R77, R309, R341, R389, R418, R500: the row that ends a waiting read or check replies to the command accepted first
with what it asked for: OTP_READ_DONE, SVC_RAW_READ_DONE, COOLER_FETCH_COMPLETE, MEM_READ_SNAPSHOT, GRAPH_CHECK_DONE,
AUX_PROFILE_BEGIN and PSTAGE_CLEAR_APPLY. Where several wait, the clauses with one waiting command name that one alone. -/
def Obligations.WaitingCommandsComplete : Prop :=
  ∀ (s : State) (p : PortId) (o : Outstanding),
    (∀ first count rest, findJobs s isOtpRead = (p, o) :: rest → o.job = .otpRead first count →
      exec .otpReadDone s = .next (finalReply s p o.tag o.op .ok
        ((List.range count).flatMap (fun i => u32 (otpWord s.otp (first + i)))))) ∧
    (∀ b f n rest, findJobs s (fun j => (rawJob j).isSome) = (p, o) :: rest → o.job = .svcRaw b f n →
      exec .svcRawReadDone s = .next (finalReply s p o.tag o.op .ok
        ((List.range n).flatMap (fun i => rawRecord s b (f + i))))) ∧
    (∀ b w, poisoned s b w = false → flipsOf s b w = [] → rawRecord s b w =
      leBytes 32 (bankData s b w).toNat ++ leBytes 3 (checkBits (bankData s b w).toNat) ++ [0#8]) ∧
    (∀ b w, bankRole s b w = none → s.sramClean = true → bankData s b w = 0#256) ∧
    (∀ first count lanes clamped, findJobs s (fetchDone s) = [(p, o)] → o.job = .coolerFetch first count lanes clamped →
      exec .coolerFetchComplete s = .next (finalReply s p o.tag o.op .ok (fetchPayload s first count lanes clamped))) ∧
    (∀ i target buf first count, s.cycle = 0 → findJobs s (fun j => (memJob j).isSome) = [(p, o)] →
      o.job = .memRead i target buf first count → o.bsn ≠ s.bsn →
      exec .memReadSnapshot s = .next (finalReply s p o.tag o.op .ok
        (wordBytes (memWords s (i, target, buf, first, count)))) ∧
      (target = 1 → memWords s (i, target, buf, first, count) =
        (List.range count).map (fun k => BitVec.ofNat 256 (blobAreaWord (slotAt s i).image (first + k)))) ∧
      (target = 0 → (slotAt s i).phase = .active → ∀ d, s.graph.bufs[buf]? = some d →
        memWords s (i, target, buf, first, count) = (List.range count).map (fun k =>
          BitVec.ofNat 256 (activeWord (slotAt s i).image (bufEntry (slotAt s i).image buf) d (first + k))))) ∧
    (∀ i rest, findJobs s isGraphEnd = (p, o) :: rest → o.job = .graphEnd i →
      (graphCheck (slotAt s i).image (slotAt s i).imageLen s.free).1 = 0 →
      fits s i (footprintOf (slotAt s i).image) = true → ∃ y : Slot,
      exec (.graphCheckDone false) s = .next (finalReply (setSlot (nextFree s) i y) p o.tag o.op .ok
        (endReply 0 y.unlimited 0xFFFF y.slack (loadOf s y) y.tasks y.footprint)) ∧
      y.phase = .ready ∧ y.image = (slotAt s i).image ∧ y.imageLen = (slotAt s i).imageLen ∧
      y.footprint = footprintOf (slotAt s i).image ∧ y.slack = slackOf (slotAt s i).image ∧
      y.tasks = taskTotal (slotAt s i).image ∧ y.graphId = BitVec.ofNat 32 (imgN (slotAt s i).image 0x2C 4)) ∧
    (∀ i rest, findJobs s isGraphEnd = (p, o) :: rest → o.job = .graphEnd i →
      (graphCheck (slotAt s i).image (slotAt s i).imageLen s.free).1 ≠ 0 →
      exec (.graphCheckDone false) s = .next (finalReply (setSlot (nextFree s) i {}) p o.tag o.op .range
        (u8 (graphCheck (slotAt s i).image (slotAt s i).imageLen s.free).1 ++ zeros 1 ++
          u16 (graphCheck (slotAt s i).image (slotAt s i).imageLen s.free).2 ++ zeros 12))) ∧
    (∀ i rest copyFault, findJobs s isGraphEnd = (p, o) :: rest → o.job = .graphEnd i →
      (graphCheck (slotAt s i).image (slotAt s i).imageLen s.free).1 = 0 →
      fits s i (footprintOf (slotAt s i).image) = false ∨ copyFault = true →
      exec (.graphCheckDone copyFault) s = .next (finalReply (setSlot (nextFree s) i {}) p o.tag o.op
        (if fits s i (footprintOf (slotAt s i).image) then .fault else .noSpace)
        (endReply 0 (unlimitedOuts (slotAt s i).image) 0xFFFF 0 0 (taskTotal (slotAt s i).image)
          (footprintOf (slotAt s i).image)))) ∧
    (∀ (a : Fin 4) b, s.cycle = 0 → findJobs s (fun j => (profileDue s a j).isSome) = [(p, o)] →
      o.job = .auxProfile a true b → bsnReached s.bsn b = true →
      exec (.auxProfileBegin a) s = .next (finalReply (modAux s a (fun x => { x with
        profile := true, stopping := false, holds := false, segment := 0, ofsFrom := auxOffset s (auxAt s a),
        ofsTo := toSigned 32 (rd s (.segOfs a 0)), ofsTime := rd s (.segTime a 0), ofsBsn := s.bsn, ofsCyc := s.cycle }))
        p o.tag o.op .ok (bsn8 s.bsn))) ∧
    (∀ (a : Fin 4) b, s.cycle = 0 → findJobs s (fun j => (profileDue s a j).isSome) = [(p, o)] →
      o.job = .auxProfile a false b → bsnReached s.bsn b = true →
      exec (.auxProfileBegin a) s = .next (finalReply (modAux s a (fun x => { x with
        profile := false, holds := false, segment := 0, stopping := true, ofsFrom := auxOffset s x, ofsTo := 0,
        ofsTime := chgMs s a * 1000, ofsBsn := s.bsn, ofsCyc := s.cycle })) p o.tag o.op .ok (bsn8 s.bsn))) ∧
    (∀ m, s.cycle = 0 → findJobs s (fun j => (clearMask j).isSome) = [(p, o)] → o.job = .pstageClear m → o.bsn ≠ s.bsn →
      exec .pstageClearApply s = .next (finalReply (clearChans s m).1 p o.tag o.op .ok (u32 (clearChans s m).2)))

/-- R190, R493, R501 to R504: a word in progress is programmed; the last word of a job completes its command with the reply
of its chapter, an earlier one leaves the rest to do, a failed verification marks the word, counts and replies OTP_FAIL; the
oldest entry of the repair log's queue is programmed into the first free place. -/
def Obligations.OtpWordsAreProgrammed : Prop :=
  ∀ (s : State) (j : OtpJob) (rest : List OtpJob) (w : Nat × Word),
    (∀ w2 ws, s.otp.jobs = j :: rest → j.words = w :: w2 :: ws → j.stop = false →
      exec (.otpWordProgrammed true) s = .next { s with otp := { s.otp with
        words := otpPut w.1 w.2 s.otp.words, jobs := { j with words := w2 :: ws } :: rest } }) ∧
    (s.otp.jobs = j :: rest → j.words = [w] → j.stop = false → (j.kind = .data ∨ j.kind = .factory) →
      exec (.otpWordProgrammed true) s = .next (finalReply { s with otp := { s.otp with
        words := otpPut w.1 w.2 s.otp.words, jobs := rest } } j.port j.tag
        (if j.kind = .data then 0x73#8 else 0x76#8) .ok [])) ∧
    (∀ g, s.otp.jobs = j :: rest → j.words = [w] → j.stop = false → j.kind = .begin g →
      exec (.otpWordProgrammed true) s = .next (finalReply { s with otp := { s.otp with
        words := otpPut w.1 w.2 s.otp.words, jobs := rest } } j.port j.tag 0x72#8 .ok
        (u8 g ++ zeros 1 ++ u16 (288 + 128 * g)))) ∧
    (∀ g, s.otp.jobs = j :: rest → j.words = [w] → j.stop = false → j.kind = .commit g →
      exec (.otpWordProgrammed true) s = .next (finalReply { s with otp := { s.otp with
        words := otpPut w.1 w.2 s.otp.words, jobs := rest, openGen := none } } j.port j.tag 0x74#8 .ok
        (u8 g ++ zeros 3 ++ u32 (slotCrc (otpWord { s.otp with words := otpPut w.1 w.2 s.otp.words }) g)))) ∧
    (∀ i cs fl, s.otp.jobs = j :: rest → j.words = [w] → j.stop = false → j.kind = .lock i cs fl →
      exec (.otpWordProgrammed true) s = .next (finalReply { s with
        mapDue := s.mapDue ++ [.lock cs fl], otp := { s.otp with
          words := otpPut w.1 w.2 s.otp.words, jobs := rest } } j.port j.tag 0x75#8 .ok
        (u8 i ++ u8 (Nat.lor s.otp.locks fl)))) ∧
    (∀ cs fl, s.mapDue = [.lock cs fl] → (mapApply s).mapDue = [] ∧ (mapApply s).otp.locks = Nat.lor s.otp.locks fl ∧
      (bit fl 0 = true → bit s.otp.locks 0 = false → bit fl 1 = false → (mapApply s).spi.cls = cs.getD 0 0 ∧
        (mapApply s).addrA.cls = cs.getD 1 0 ∧ (mapApply s).addrB.cls = cs.getD 2 0) ∧
      (bit s.otp.locks 0 = true → bit fl 1 = false → (mapApply s).spi = s.spi ∧ (mapApply s).addrA = s.addrA ∧
        (mapApply s).addrB = s.addrB) ∧
      (bit fl 1 = true → (mapApply s).spi.cls ≤ 2 ∧ (mapApply s).addrA.cls ≤ 2 ∧ (mapApply s).addrB.cls ≤ 2)) ∧
    (∀ v, s.otp.jobs = j :: rest → j.words = w :: v → j.stop = true →
      exec (.otpWordProgrammed true) s = .next { s with otp := { s.otp with
        words := otpPut w.1 w.2 s.otp.words, jobs := rest } }) ∧
    (∀ v, s.otp.jobs = j :: rest → j.words = w :: v → j.stop = false →
      ∃ t, exec (.otpWordProgrammed false) s = .next t ∧ t.otp.weak = w.1 :: s.otp.weak ∧ t.otp.jobs = rest ∧
        t.otp.fails = bump 0xFFFF s.otp.fails ∧
        (t.otp.openGen = match j.kind with | .factory | .lock _ _ _ => s.otp.openGen | _ => none) ∧
        (getPort t j.port).replies =
          (getPort (finalReply s j.port j.tag (BitVec.ofNat 8 (otpOp j.kind)) .otpFail []) j.port).replies ∧
        t.regs = s.regs ∧ t.events = s.events ∧ t.health = s.health ∧ t.graph = s.graph) ∧
    (∀ v vs i, s.health.logQueue = v :: vs → modeHigh s = true →
      (List.range 32).find? (fun k => plannedWord s.otp (256 + k) == 0) = some i →
      exec (.repairLogWrite true) s = .next { s with
        otp := { s.otp with words := otpPut (256 + i) v s.otp.words }, health := { s.health with logQueue := vs } } ∧
      ∃ t, exec (.repairLogWrite false) s = .next t ∧ t.otp.weak = (256 + i) :: s.otp.weak ∧ t.health = s.health ∧
        t.otp.fails = s.otp.fails ∧ t.otp.jobs = s.otp.jobs ∧ t.regs = s.regs ∧ t.events = s.events)

/-- R394, R395, R422 to R428: a whole PING packet on an open, empty port is answered; a delivered final reply frees its
command's place and tag; a SPI transaction starts with its status byte, or asks for the control clock; it ends with its
bytes taken as packets; a byte beyond the receive FIFO discards what was received. -/
def Obligations.SpiRowsAct : Prop :=
  ∀ (s : State) (q : Request),
    (heard s q 0x00 = true → q.payload.length ≤ 4096 → (getPort s q.port).rx = [] →
      (getPort s q.port).discarding = false →
      exec (.commandPacket q.port (packetOf 0x00 q)) s = .next (answered (busActive s) q 0x00 .ok q.payload)) ∧
    (∀ op, portOpen s q.port = true → q.payload.length ≤ 4096 → (getPort s q.port).rx = [] →
      (getPort s q.port).discarding = false →
      exec (.commandPacket q.port (packetOf op q)) s =
        .next (takePackets q.port (q.payload.length + 9) (dispatch (BitVec.ofNat 8 op) q (busActive s)))) ∧
    (∀ r rest, portsRun s = true → (getPort s q.port).replies = r :: rest → r.reserved = false → r.status ≠ .accepted →
      exec (.replyDelivered q.port) s = .next (modPort (busActive s) q.port (fun p => { p with
        replies := rest, taken := 0, outstanding := p.outstanding.filter (fun o => o.tag != r.tag) }))) ∧
    (∀ r rest, portsRun s = true → (getPort s q.port).replies = r :: rest → (r.reserved = true ∨ r.status = .accepted) →
      exec (.replyDelivered q.port) s = .next (modPort (busActive s) q.port (fun p => { p with
        replies := rest, taken := 0 }))) ∧
    (∀ high, s.bus.spiOpen = false → s.power.accepting = true → s.bus.ctrlClk = true →
      exec (.spiTransactionStart high) s = .next { s with
        bus := { s.bus with spiOpen := true, mode3 := high, spiDead := false },
        spi := { s.spi with
          statusByte := BitVec.ofNat 8 (statusByteOf s .spi), dropNew := false, before := s.spi.replies.length } }) ∧
    (∀ high, s.bus.spiOpen = false → s.power.accepting = true → s.bus.ctrlClk = false →
      exec (.spiTransactionStart high) s = .next { s with bus := { s.bus with
        spiOpen := true, mode3 := high, spiDead := true, ctrlStart := true } }) ∧
    (∀ b bytes (extra : Fin 8) gaps t u, s.bus.spiOpen = true → s.bus.spiDead = false → portsRun s = true →
      t = feedPort { s with bus := { s.bus with
        spiOpen := false, spiDead := false, activeAt := s.bsn, activeCyc := s.cycle } } .spi (b :: bytes) →
      u = readPort t .spi ⟨bytes.length + 1, gaps⟩ →
      exec (.spiTransactionEnd (b :: bytes) extra gaps) s = .next (modPort
        (if extra.val = 0 then u else addCount (dropPartial u .spi 3) .spiCount 7 0 1) .spi
        (fun p => { p with discarding := false }))) ∧
    (∀ bytes (extra : Fin 8) gaps, s.bus.spiOpen = true → s.bus.spiDead = true → bytes ≠ [] →
      exec (.spiTransactionEnd bytes extra gaps) s = .next { s with
        bus := { s.bus with spiOpen := false, spiDead := false, activeAt := s.bsn, activeCyc := s.cycle },
        spi := { s.spi with sent := zeros bytes.length } }) ∧
    (∀ p r rest, (getPort s p).replies = r :: rest → (getPort s p).taken = 0 → 0 < (getPort s p).before →
      (getPort (readPort s p ⟨(replyBytes r).length + 1, []⟩) p).sent = replyBytes r ∧
      (getPort (readPort s p ⟨(replyBytes r).length + 1, []⟩) p).replies = rest) ∧
    (∀ p n, (getPort s p).replies = [] → (getPort (readPort s p ⟨n + 1, []⟩) p).sent = zeros n ∧
      (getPort (readPort s p ⟨n + 1, []⟩) p).drop = (getPort s p).dropNew) ∧
    (∀ r : Reply, ∃ body, replyBytes r = 0xA5#8 :: (body ++ leBytes 4 (crc32c body)) ∧
      body = r.op :: r.tag :: BitVec.ofNat 8 (statusCode r.status) :: (leBytes 2 r.payload.length ++ r.payload)) ∧
    (∀ b, portsRun s = true → s.spi.rx = [] → exec (.rxFifoOverflow b) s = .next (addCount (raise { s with
      spi := { s.spi with
        rx := [], discarding := true, dropped := bump 0xFFFFFFFF s.spi.dropped, drop := true, dropNew := true } } 0 64) .spiCount 15 8 1)) ∧
    (∀ b, portsRun s = true → exec (.rxFifoOverflow b) s = .next (addCount (dropPacket { s with
      spi := { s.spi with rx := [], discarding := true } } .spi 4 (s.spi.rx.getD 1 0).toNat (s.spi.rx.getD 2 0).toNat)
      .spiCount 15 8 1))

/-- R432 to R437, R444, R452: a START makes the bus busy; a two-wire transaction that names the device is served, or refused and
counted while the control clock is stopped; its written bytes are taken as packets, and the bytes it has read leave the device;
a stretch that lasts too long releases the bus; a STOP frees it SCL_LOW × T later; the two-wire fields come into force on a
free bus. -/
def Obligations.TwoWireRowsAct : Prop :=
  ∀ (s : State),
    (∀ a p group, s.bus.target = none → s.bus.controller = false → s.power.accepting = true → s.bus.ctrlClk = true →
      twNames s a false = some ⟨p, group, false⟩ →
      exec (.twTargetAddress a false) s = .next { busStart s with bus := { s.bus with
        target := some ⟨p, group, false⟩, busy := true, stopAt := none, activeAt := s.bsn, activeCyc := s.cycle } }) ∧
    (∀ a p, s.bus.target = none → s.bus.controller = false → s.power.accepting = true → s.bus.ctrlClk = true →
      twNames s a true = some ⟨p, false, true⟩ →
      exec (.twTargetAddress a true) s = .next (modPort { busStart s with bus := { s.bus with
          target := some ⟨p, false, true⟩, busy := true, stopAt := none, activeAt := s.bsn, activeCyc := s.cycle } } p
        (fun v => { v with
          statusByte := BitVec.ofNat 8 (statusByteOf s p), dropNew := false, before := v.replies.length }))) ∧
    (∀ rw, twNames s s.bus.addrA rw = some ⟨.addrA, false, rw⟩) ∧
    (∀ rw, s.bus.addrA ≠ s.bus.addrB →
      twNames s s.bus.addrB rw = if bit s.bus.effCfg.toNat 2 then some ⟨.addrB, false, rw⟩ else none) ∧
    (∀ a rw, s.bus.target = none → s.bus.controller = false → s.power.accepting = true → twNames s a rw = none →
      exec (.twTargetAddress a rw) s = .next (busStart s)) ∧
    (∀ a rw, s.bus.target = none → s.bus.controller = false → s.power.accepting = true → s.bus.ctrlClk = false →
      twNames s a rw ≠ none → exec (.twTargetAddress a rw) s = .next (addCount { busStart s with bus := { s.bus with
        ctrlStart := true, busy := true, stopAt := none, activeAt := s.bsn, activeCyc := s.cycle } } .twCount 31 24 1)) ∧
    (∀ p group bytes how t, s.bus.target = some ⟨p, group, false⟩ →
      t = feedPort (if how.stop then busStop { s with bus := { s.bus with target := none } }
        else busStart { s with bus := { s.bus with target := none } }) p bytes →
      exec (.twTransactionEnd bytes how) s = .next (modPort (if group then dropPartial t p 6 else t) p
        (fun v => { v with discarding := false }))) ∧
    (∀ p group bytes how, s.bus.target = some ⟨p, group, true⟩ →
      exec (.twTransactionEnd bytes how) s = .next (readPort (if how.stop then busStop { s with bus := { s.bus with target := none } }
        else busStart { s with bus := { s.bus with target := none } }) p how.read)) ∧
    (∀ bytes how, s.bus.target = none → s.bus.controller = false → s.power.accepting = true →
      exec (.twTransactionEnd bytes how) s = .next (if how.stop then busStop s else busStart s)) ∧
    (busStop s).bus = { s.bus with busy := true, stopAt := some (s.bsn, s.cycle) } ∧
    (busStart s).bus = { s.bus with busy := true, stopAt := none } ∧
    (∀ b c, s.bus.stopAt = some (b, c) → busFreeCycles s ≤ cyclesSince s b c → busBusy s = false) ∧
    (∀ b c, s.bus.busy = true → s.bus.stopAt = some (b, c) → cyclesSince s b c < busFreeCycles s → busBusy s = true) ∧
    (∀ p group rw how t, s.bus.target = some ⟨p, group, rw⟩ →
      t = { s with bus := { s.bus with target := none, busy := true, stopAt := none } } →
      exec (.stretchTimeout how) s = .next (raise (addCount (modPort
        (dropPartial (if rw then readPort t p how.read else t) p 5) p
        (fun v => { v with discarding := false })) .twCount 23 16 1) 104 ((if group then 3 else portNum p) + b2n how.sdaHold * 4))) ∧
    (busBusy s = false → s.bus.controller = false → s.bus.target = none → s.power.accepting = true →
      exec .twFieldApply s = .next { s with bus := { s.bus with
        effCfg := BitVec.ofNat 32 (rd s .twCfg), effTiming := BitVec.ofNat 32 (rd s .twTiming),
        effLimits := BitVec.ofNat 32 (rd s .twLimits), effAddr := BitVec.ofNat 32 (rd s .twAddr) } }) ∧
    ((∃ c, s.bus.target = some c) → exec .twFieldApply s = .next s) ∧ (busBusy s = true → exec .twFieldApply s = .next s)

/-- R430, R437, R444, R450, R451: the control clock starts when it was asked for and stops after 100 ms of quiet in RETAIN and
LISTEN; a stuck bus is counted and reported once, an alert in transfer waits again, and the bus is freed by a recovery or by
both lines high for 100 µs. -/
def Obligations.BusClockRowsAct : Prop :=
  ∀ (s : State),
    (modeLow s = true → s.bus.ctrlStart = true → s.bus.ctrlClk = false → s.clock.xtalFault = false →
      exec .controlClockStart s = .next { s with bus := { s.bus with ctrlClk := true, ctrlStart := false } }) ∧
    (modeLow s = true → s.bus.ctrlClk = true →
      (∀ p ∈ allPorts, (getPort s p).outstanding = [] ∧ (getPort s p).replies = []) →
      usPassed s 100000 s.bus.activeAt s.bus.activeCyc = true →
      exec .controlClockStop s = .next { s with bus := { s.bus with ctrlClk := false, ctrlStart := false } }) ∧
    (modeLow s = true → s.bus.ctrlClk = true → (∃ p ∈ allPorts, (getPort s p).outstanding ≠ []) →
      exec .controlClockStop s = .next s) ∧
    (alertNeedsBus s = true → alertEn s = true → s.bus.stuck = false → s.clock.xtalFault = false →
      s.power.accepting = true → exec (.busStuck true) s = .next (busIdle s)) ∧
    (alertNeedsBus s = true → alertEn s = true → s.bus.stuck = false → s.clock.xtalFault = false →
      s.power.accepting = true → exec (.busStuck false) s = .next (raise (addCount { s with bus := { s.bus with
        stuck := true, controller := false, busy := true, stopAt := none } } .twCount2 7 0 1) 106 0)) ∧
    (alertWriting s = false → s.bus.stuck = false → s.clock.xtalFault = false → s.power.accepting = true →
      exec .sclStuck s = .next (raise (addCount { s with bus := { s.bus with
        stuck := true, controller := false, busy := true, stopAt := none } } .twCount2 7 0 1) 106 1)) ∧
    (∀ a, s.events.alert = some a → a.phase = .writing → s.bus.stuck = false → s.clock.xtalFault = false →
      s.power.accepting = true → exec .sclStuck s = .next (raise (addCount { s with
        bus := { s.bus with stuck := true, controller := false, busy := true, stopAt := none },
        events := { s.events with alert := some { a with phase := .waiting } } } .twCount2 7 0 1) 106 1)) ∧
    (s.bus.stuck = false → s.bus.controller = false → s.bus.target = none → exec .busFree s = .next (busIdle s)) ∧
    (busIdle s).bus = { s.bus with busy := false, stopAt := none } ∧
    (∀ a n, s.events.alert = some a → a.phase = .held n → (busIdle s).events = { s.events with
      alert := some { a with phase := .backoff n, at_ := s.bsn, cyc := s.cycle, wait := 0 } }) ∧
    (∀ a n, s.events.alert = some a → a.phase = .held n → (busStop s).events = { s.events with
      alert := some { a with phase := .backoff n, at_ := s.bsn, cyc := s.cycle, wait := busFreeCycles s } }) ∧
    (s.bus.stuck = true → s.bus.controller = false → s.bus.target = none → exec .busFree s = .next { s with
      bus := { s.bus with busy := false, stopAt := none, stuck := false },
      events := { s.events with alert := s.events.alert.map (fun a => { a with tries := 0, phase := .waiting }) } })

/-- R444 to R448, R461, R463: an alert carries the oldest record that is due, is written when the bus is free, ends when
delivered, counts a failed attempt and gives up after ALERT_TRIES, backs off for 1 ms + n × 125 µs with a free n (log entry
5), from the time the bus is free, and retries; the AON queue drains once the event controller is clocked. -/
def Obligations.AlertRowsAct : Prop :=
  ∀ (s : State),
    (∀ i r, alertEn s = true → s.events.alert = none → alertHoldOver s = true →
      s.events.fifo.findIdx? alertable = some i → s.events.fifo[i]? = some r →
      ∃ bytes, exec .alertCompose s = .next { s with events := { s.events with
        fifo := s.events.fifo.set i { r with alerted := true },
        alert := some { num := r.num, bytes := bytes, tries := 0, phase := .waiting } } } ∧
        bytes.length = 30 ∧ bytes.take 6 = [0xA5#8, 0x5F#8, 0xFF#8, 0x00#8, 0x14#8, 0x00#8] ∧
        (bytes.drop 6).take 16 = recordBytes { r with alerted := true }) ∧
    (∀ a, alertEn s = true → s.events.alert = some a → a.phase = .waiting → busFree s = true → s.bus.stuck = false →
      s.power.accepting = true → s.clock.xtalFault = false →
      exec .alertWrite s = .next { s with
        bus := { s.bus with controller := true, busy := true, stopAt := none },
        events := { s.events with alert := some { a with phase := .writing } } }) ∧
    (∀ a, s.events.alert = some a → a.phase = .writing →
      exec .alertDelivered s = .next { s with
        bus := { s.bus with controller := false, busy := true, stopAt := some (s.bsn, s.cycle) },
        events := { s.events with alert := none, alertEnd := some (s.bsn, s.cycle) } }) ∧
    (∀ a, s.events.alert = some a → a.phase = .writing → a.tries + 1 < twBits s.bus.effLimits 16 13 →
      ∃ t n, exec (.alertAttemptFail .nack) s = .next t ∧ n ≤ 24 ∧
        t.events = { s.events with alert := some { a with
          tries := a.tries + 1, phase := .backoff n, at_ := s.bsn, cyc := s.cycle, wait := busFreeCycles s } } ∧
        t.bus = { s.bus with controller := false, busy := true, stopAt := some (s.bsn, s.cycle) } ∧
        t.regs = (addCount s .twCount2 23 16 1).regs) ∧
    (∀ a why, s.events.alert = some a → a.phase = .writing → why ≠ .nack → a.tries + 1 < twBits s.bus.effLimits 16 13 →
      ∃ t n, exec (.alertAttemptFail why) s = .next t ∧ n ≤ 24 ∧
        t.events = { s.events with alert := some { a with
          tries := a.tries + 1, phase := .held n, at_ := s.bsn, cyc := s.cycle } } ∧
        t.bus = { s.bus with controller := false, busy := true, stopAt := none } ∧
        t.regs = (addCount s .twCount2 23 16 1).regs) ∧
    (∀ a why, s.events.alert = some a → a.phase = .writing → twBits s.bus.effLimits 16 13 ≤ a.tries + 1 →
      exec (.alertAttemptFail why) s = .next (raise (addCount (addCount { s with
        bus := { s.bus with controller := false, busy := true, stopAt := if why = .nack then some (s.bsn, s.cycle) else none },
        events := { s.events with alert := none, alertEnd := some (s.bsn, s.cycle) } } .twCount2 23 16 1)
        .twCount2 15 8 1) 107 a.num)) ∧
    (∀ a n, s.events.alert = some a → a.phase = .backoff n →
      (1000 + 125 * n) * 294912 + a.wait * 250 ≤ cyclesSince s a.at_ a.cyc * 250 →
      exec .alertBackoffEnd s = .next { s with events := { s.events with alert := some { a with phase := .waiting } } }) ∧
    (∀ a n, s.events.alert = some a → a.phase = .backoff n →
      cyclesSince s a.at_ a.cyc * 250 < (1000 + 125 * n) * 294912 + a.wait * 250 →
      exec .alertBackoffEnd s = .next s) ∧
    (∀ a n, s.events.alert = some a → a.phase = .held n → exec .alertBackoffEnd s = .next s) ∧
    (∀ a, s.events.alert = some a → a.phase = .writing →
      ∃ t n, exec (.arbitrationLost none) s = .next t ∧ n ≤ 24 ∧
        t.events = { s.events with alert := some { a with phase := .held n, at_ := s.bsn, cyc := s.cycle } } ∧
        t.bus = { s.bus with controller := false, busy := true, stopAt := none } ∧
        t.regs = (addCount s .twCount 7 0 1).regs ∧
        (∀ w rw, exec (.arbitrationLost (some (w, rw))) s = .next (twAddress t w rw))) ∧
    (∀ a, s.events.alert = some a → a.phase = .writing →
      exec .arbLate s = .next (raise (alertBackoff (addCount { s with
        bus := { s.bus with controller := false, busy := true, stopAt := none } } .twCount 15 8 1)) 105 0)) ∧
    (evClocked s = true → exec .aonQueueDrain s = .next (drainAon s)) ∧
    (∀ r, s.events.aonQueue = [r] → s.events.fifo.length < 64 → (drainAon s).events = { s.events with
      fifo := s.events.fifo ++ [{ r with queued := true, entered := none, due := alertBit s r.num }],
      pend := s.events.pend ||| s.events.aonPend, aonPend := 0, aonQueue := [] }) ∧
    (∀ x, s.events.alert = some x → x.phase = .waiting → alertEn s = true → busFree s = true →
      twBits s.bus.effLimits 16 13 ≤ x.tries + 1 →
      exec (.alertAttemptFail .lineLow) s = .next (raise (addCount (addCount { s with
        bus := { s.bus with controller := false, busy := true, stopAt := none },
        events := { s.events with alert := none, alertEnd := some (s.bsn, s.cycle) } } .twCount2 23 16 1)
        .twCount2 15 8 1) 107 x.num))

/-- R228, R235, R239, R241, R248: a commit of EN or of the whole configuration that the port and clock rules allow acts on the
port: enabled it enters ACQUIRE, or NO_CLOCK without CK_SYS or
its source (R374), disabled OFF, and on a new configuration it ramps out over 48 frames
before ACQUIRE, following the word it had until then; clock activity moves it between NO_CLOCK and ACQUIRE; a new map word ramps its channel out. Other ports stand. -/
def Obligations.PortConfigurationRowsAct : Prop :=
  ∀ (s : State) (p : Fin 7), p.val < s.dports.length →
    (coreOn s = true → bit (rd s (portCfg p)) 0 = false → (portCfg p).rangeOk s (rd s (portCfg p) + 1) = true →
      regsCommitOk (wr s (portCfg p) (rd s (portCfg p) + 1)) = true →
      ∃ t, exec (.portEnable p) s = .next t ∧
        (refSrc s ≠ p.val + 2 → (dport s p).state = .off → t.regs = (wr s (portCfg p) (rd s (portCfg p) + 1)).regs ∧
          (dport t p).state = (if ckSys s && sourceRuns (wr s (portCfg p) (rd s (portCfg p) + 1)) p then .acquire else .noClock) ∧
          (dport t p).ramp = Ramp.zero ∧ (dport t p).hold = none ∧
          (dport t p).rate = 0 ∧ (dport t p).changed = s.bsn ∧ t.events = s.events ∧
          ∀ r, r ≠ p.val → dport t r = dport s r)) ∧
    (coreOn s = true → bit (rd s (portCfg p)) 0 = true →
      ∃ t, exec (.portDisable p) s = .next t ∧ (dport t p).state = .off ∧ (dport t p).ramp = Ramp.zero ∧
        (dport t p).rate = 0 ∧ (dport t p).preamble = false ∧ (dport t p).clkPin = .input ∧ ((dport s p).state ≠ .off → (dport t p).tx = []) ∧
        (refSrc s ≠ p.val + 2 → t.regs = (wr s (portCfg p) (rd s (portCfg p) - 1)).regs ∧
          ∀ r, r ≠ p.val → dport t r = dport s r)) ∧
    (∀ value v, coreOn s = true → v = Nat.land value.toNat (portCfg p).mask → portEn s p = true → bit v 0 = true →
      (portCfg p).rangeOk s v = true → regsCommitOk (wr s (portCfg p) v) = true →
      exec (.portConfigChange p value) s = .next (applyPortCfg s p v) ∧
      (rd s (portCfg p) ≠ v → refSrc s ≠ p.val + 2 → ckSys s = true →
        applyPortCfg s p v = portLose (modDport (wr s (portCfg p) v) p (fun d => { d with
          hold := some (d.hold.getD (rd s (portCfg p))) })) p true)) ∧
    (∀ value, coreOn s = false →
      exec (.portDisable p) s = .next s ∧ exec (.portEnable p) s = .next s ∧ exec (.portConfigChange p value) s = .next s) ∧
    (portSounds s p = true → (dport s p).next = none → portLose s p true = modDport s p (fun d => { d with
      stopAt := d.stopAt.orElse (fun _ => some (s.bsn, s.cycle)), ramp := rampDown d.ramp 48 s.bsn (frameOf s), next := some .acquire })) ∧
    ((dport s p).state = .noClock → ckSys s = true → sourceRuns s p = true →
      ∃ t, exec (.portClockFound p) s = .next t ∧ (dport t p).state = .acquire ∧ (dport t p).changed = s.bsn ∧
        (dport t p).csValid = false ∧ (dport t p).parity = 0 ∧ t.regs = s.regs ∧ t.events = s.events ∧
        ∀ r, r ≠ p.val → dport t r = dport s r) ∧
    (((dport s p).state = .acquire ∨ (dport s p).state = .nonpcm) →
      ∃ t, exec (.portClockLost p) s = .next t ∧ t = { s with dports := t.dports } ∧ (dport t p).state = .noClock ∧
        (dport t p).changed = s.bsn ∧ (dport t p).delay = 0 ∧ ∀ r, r ≠ p.val → dport t r = dport s r) ∧
    ((dport s p).state ≠ .acquire → (dport s p).state ≠ .nonpcm → exec (.portClockLost p) s = .next s) ∧
    (∀ output (ch : Fin 32) value v, coreOn s = true → v = Nat.land value.toNat (if output then Reg.outMap ch else Reg.inMap ch).mask →
      mapOk output v = true → (output = true → mapsDistinct (outMaps s ch v) = true) →
      rd s (if output then Reg.outMap ch else Reg.inMap ch) ≠ v →
      exec (.channelMapChange output ch value) s = .next { wr s (if output then Reg.outMap ch else Reg.inMap ch) v with
        asrc := modAt s.asrc (if output then 32 + ch.val else ch.val) (fun x =>
          if x.ramp.num1 = 0 then x else { x with ramp := rampDown x.ramp 48 s.bsn (frameOf s) }) }) ∧
    (∀ output (ch : Fin 32) value, rd s (if output then Reg.outMap ch else Reg.inMap ch) =
        Nat.land value.toNat (if output then Reg.outMap ch else Reg.inMap ch).mask →
      exec (.channelMapChange output ch value) s = .next s) ∧
    (∀ (ch : Fin 32) value v, v = Nat.land value.toNat (Reg.outMap ch).mask →
      (mapOk true v = false ∨ mapsDistinct (outMaps s ch v) = false) →
      exec (.channelMapChange true ch value) s = .next s)

/-- R233, R241, R242, R244, R245, R246, R251, R257: a measured rate locks a port and ramps it in over 480 frames, another shows
code 15; a lost lock ramps out over 48 frames and then enters ACQUIRE or NO_CLOCK with the port's event, a silent port at once,
and ends a waiting PORT_RESTART; errors are counted; non-PCM moves a receiver to NONPCM and back; a captured channel-status block
is kept with its BSN. -/
def Obligations.PortLockRowsAct : Prop :=
  ∀ (s : State),
    (∀ (p : Fin 7) (rate : Fin 16) ppm ns, p.val < s.dports.length → (dport s p).state = .acquire →
      sourceRuns s p = true → rateLocks s p rate ppm = true →
      ∃ u, exec (.portLock p rate ppm ns) s = .next (raise u (1 + p) (3 + rate * 16)) ∧ u = { s with dports := u.dports } ∧
        (dport u p).state = .locked ∧ (dport u p).rate = rate ∧ (dport u p).ppm = ppm ∧
        (dport u p).delay = min ns 0xFFFFFF ∧ (dport u p).ramp = rampFull true 480 s.bsn (frameOf s) ∧
        (dport u p).changed = s.bsn ∧ (dport u p).locks = bump 0xFFFF (dport s p).locks ∧ (dport u p).parity = 0 ∧
        ∀ r, r ≠ p.val → dport u r = dport s r) ∧
    (∀ (p : Fin 7) (rate : Fin 16) ppm ns, (dport s p).state = .acquire → sourceRuns s p = true →
      rateLocks s p rate ppm = false → exec (.portLock p rate ppm ns) s = .next (modDport s p (fun d => { d with
        rate := 15, measured := rate, fsBad := fsMismatch { d with rate := 15, measured := rate } }))) ∧
    (∀ (p : Fin 7) (rate : Fin 16) ppm ns, sourceRuns s p = false → exec (.portLock p rate ppm ns) s = .next s) ∧
    (∀ (p : Fin 7) why left, (dport s p).state = .locked →
      exec (.portLockLoss p why left) s = .next (portLose
        (if why = .inSlip then portAdd s p 23 16
         else if why = .outSlip ∧ (p.val < 4 ∨ p.val = 6) then portAdd s p 31 24 else s) p left)) ∧
    (∀ (p : Fin 7) left, portSounds s p = true → (dport s p).next = none →
      portLose s p left = modDport s p (fun d => { d with
        stopAt := d.stopAt.orElse (fun _ => some (s.bsn, s.cycle)), ramp := rampDown d.ramp 48 s.bsn (frameOf s), next := some (if left then .acquire else .noClock) })) ∧
    (∀ (p : Fin 7) left, portSounds s p = false → (dport s p).next = none →
      portLose s p left = enterLock s p (if left then .acquire else .noClock)) ∧
    (∀ (p : Fin 7) l, p.val < s.dports.length → (dport s p).state = .locked → l ≠ .locked →
      findJobs s (isPortRestart p) = [] →
      ∃ u, enterLock s p l = raise u (1 + p) (lockCode l + (dport s p).rate * 16) ∧ u = { s with dports := u.dports } ∧
        (dport u p).state = l ∧ (dport u p).changed = s.bsn ∧ (dport u p).next = none ∧ (dport u p).delay = 0 ∧
        ∀ r, r ≠ p.val → dport u r = dport s r) ∧
    (∀ (p : Fin 7) q o, findJobs s (isPortRestart p) = [(q, o)] → (dport s p).state = .nonpcm →
      ∃ u, enterLock s p .acquire = finalReply u q o.tag o.op .ok [] ∧ u = { s with dports := u.dports }) ∧
    (∀ (p : Fin 4) again, bit (rd s (.tpCfg p)) 0 = true → portDrives s p = false →
      ((dport s p).state = .acquire ∨ (dport s p).state = .locked) →
      exec (.framingError p again) s = .next (if again ∧ (dport s p).state = .locked then
        portLose (addCount s (.tpCount p) 7 0 1) p true else addCount s (.tpCount p) 7 0 1)) ∧
    (∀ (p : Fin 4), bit (rd s (.tpCfg p)) 0 = false → exec (.framingError p true) s = .next s) ∧
    (∀ (r : Fin 2) bi t, ((dport s (4 + r)).state = .acquire ∨ (dport s (4 + r)).state = .locked ∨
        (dport s (4 + r)).state = .nonpcm) →
      t = modDport (if bi then addCount s (.spiCnt r) 7 0 1 else addCount s (.spiCnt r) 15 8 1) (4 + r)
        (fun d => { d with parity := d.parity + 1 }) →
      exec (.spdifParityError r bi) s = .next (if 16 ≤ (dport t (4 + r)).parity ∧ (dport s (4 + r)).state = .locked then
        portLose t (4 + r) true else t)) ∧
    (∀ (r : Fin 2) pre, 4 + r.val < s.dports.length → (dport s (4 + r)).state = .locked →
      ∃ u, exec (.spdifNonpcm r pre) s = .next (raise u (5 + r) (4 + (dport s (4 + r)).rate * 16)) ∧
        u = { s with dports := u.dports } ∧ (dport u (4 + r)).state = .nonpcm ∧
        (dport u (4 + r)).ramp = rampDown (dport s (4 + r)).ramp 48 s.bsn (frameOf s) ∧
        (dport u (4 + r)).preamble = ((dport s (4 + r)).preamble || pre) ∧
        (dport u (4 + r)).stopAt = (dport s (4 + r)).stopAt.orElse (fun _ => some (s.bsn, s.cycle)) ∧
        ∀ k, k ≠ 4 + r.val → dport u k = dport s k) ∧
    (∀ (r : Fin 2), (dport s (4 + r)).state = .acquire →
      exec (.spdifNonpcm r true) s = .next (modDport s (4 + r) (fun d => { d with
        preamble := true, preSince := -(framesSoFar s d : Int), quiet := -(framesSoFar s d : Int) }))) ∧
    (∀ (r : Fin 2), ((dport s (4 + r)).nonpcmCs = true ∨
        (dport s (4 + r)).quiet + (framesSoFar s (dport s (4 + r)) : Int) + 1 < 8192) →
      exec (.spdifNonpcmExit r) s = .next s) ∧
    (∀ (r : Fin 2), 4 + r.val < s.dports.length → (dport s (4 + r)).state = .nonpcm →
      (dport s (4 + r)).nonpcmCs = false → 8192 ≤ (dport s (4 + r)).quiet + (framesSoFar s (dport s (4 + r)) : Int) + 1 →
      ∃ t, exec (.spdifNonpcmExit r) s = .next t ∧ (dport t (4 + r)).state = .acquire ∧
        (dport t (4 + r)).preamble = false ∧ (dport t (4 + r)).nonpcmCs = false ∧ t.regs = s.regs ∧ t.events = s.events ∧
        ∀ k, k ≠ 4 + r.val → dport t k = dport s k) ∧
    (∀ (r : Fin 2) a b other, 4 + r.val < s.dports.length →
      ((dport s (4 + r)).state = .acquire ∨ (dport s (4 + r)).state = .locked ∨ (dport s (4 + r)).state = .nonpcm) →
      (dport s (4 + r)).csValid = false → other = (bit (leField (cs24 a) 0 1) 1 || bit (leField (cs24 b) 0 1) 1) →
      ∃ t, exec (.spdifBlockCapture r a b) s = .next t ∧ (dport t (4 + r)).csA = cs24 a ∧ (dport t (4 + r)).csB = cs24 b ∧
        (dport t (4 + r)).csBsn = s.bsn ∧ (dport t (4 + r)).csValid = true ∧ (dport t (4 + r)).parity = 0 ∧
        (dport t (4 + r)).nonpcmCs = other ∧ t.regs = s.regs ∧
        ((dport t (4 + r)).state = if other ∧ (dport s (4 + r)).state = .locked then .nonpcm else (dport s (4 + r)).state) ∧
        ∀ k, k ≠ 4 + r.val → dport t k = dport s k)

/-- R361, R364, R366, R367, R369, R370, R371, R372, R373, R380, R385: the root's rows change its state with the state event, count
losses and restarts, and reply to ROOT_RESTART at the switch back; a new lock point stands at the reference's present phase, or
for REF_SRC 8 where SKEW fixes it, with an error of half a period at most; a lost crystal stops what it carries in LISTEN and
RETAIN, and a loss met while it fails waits. What the loop's filter asks for and the readings are log entry 84's. -/
def Obligations.RootRowsAct : Prop :=
  ∀ (s : State),
    (∀ freq value, coreOn s = true → (rootReg freq).rangeOk s (Nat.land value.toNat (rootReg freq).mask) = true →
      exec (.rootConfigWrite freq value) s =
        .next (restartRoot (wr s (rootReg freq) (Nat.land value.toNat (rootReg freq).mask)))) ∧
    (∀ freq value, coreOn s = false → exec (.rootConfigWrite freq value) s = .next s) ∧
    (s.clock.state = .off → restartRoot s = s) ∧
    (s.clock.state ≠ .off → s.clock.state ≠ .restart → s.clock.xtalFault = false →
      restartRoot s = raise { addCount s .rootCount 15 8 1 with clock := { s.clock with
        state := .restart, changed := s.bsn, phase := .onSafe, onSafe := true, restarts := bump 0xFFFF s.clock.restarts,
        refQual := false, lockPoint := false, lossHeld := false, ofs := 0, realign := none, realignOn := false } } 96
        (1 + rootCode s.clock.state * 16)) ∧
    (s.clock.state = .off → s.clock.phase = .waitSafe → s.clock.xtalFault = false →
      exec .pllSafeLock s = .next (raise { addCount s .rootCount 15 8 1 with clock := { s.clock with
        state := .restart, changed := s.bsn, phase := .onSafe, onSafe := true, safeLock := true,
        restarts := bump 0xFFFF s.clock.restarts } } 96 1)) ∧
    (s.clock.state = .restart → s.clock.phase = .onSafe → s.clock.xtalFault = false →
      exec .pllRootLock s = .next { s with clock := { s.clock with phase := .locked } }) ∧
    (∀ p o pull t u, s.clock.state = .restart → s.clock.phase = .locked → s.clock.xtalFault = false →
      pull = (s.clock.refQual && refSrc s != 0) → findJobs s isRestart = [(p, o)] →
      t = { s with clock := { s.clock with word := s.clock.safeWord, ofs := 0, onSafe := false, phase := .none } } →
      u = (if pull then newLock t else t) →
      exec .rootSwitchBack s = .next (finalReply (raise { u with clock := { u.clock with
        state := (if pull then .pullin else .freerun), changed := s.bsn } } 96
        (rootCode (if pull then .pullin else .freerun) + 16)) p o.tag o.op .ok (bsn8 s.bsn))) ∧
    (refSrc s ≠ 8 → newLock s = { s with clock := { s.clock with
      lockPoint := true, lockPhase := s.clock.refPhase, phaseErr := 0 } }) ∧
    (∀ point e, e = foldPhase (pdPeriod s) (s.clock.refPhase - point) →
      lockAt s point = { s with clock := { s.clock with
        lockPoint := true, lockPhase := s.clock.refPhase - e, phaseErr := e } }) ∧
    (∀ (p : Nat × Nat) (e : Int), 0 < p.1 → 0 < p.2 → 2 * (foldPhase p e).natAbs * p.2 ≤ p.1 + p.2) ∧
    (∀ f t, refSrc s ≠ 0 → refPortOk s (refSrc s) = true → s.clock.xtalFault = false → -100000 ≤ f → f ≤ 100000 →
      t = { s with clock := { s.clock with refQual := true, refPpm := f } } →
      ((s.clock.state = .freerun ∨ s.clock.state = .coast ∧ s.clock.coastPull = true) →
        exec (.refQualify f) s = .next (raise { t with clock := { (newLock t).clock with
          state := .pullin, changed := s.bsn } } 96 (3 + rootCode s.clock.state * 16))) ∧
      (s.clock.state = .restart → exec (.refQualify f) s = .next t) ∧
      (s.clock.state = .coast → s.clock.coastPull = false → (bit (rd s .rootCfg) 6 = false ∨ refSrc s = 8) →
        exec (.refQualify f) s = .next (raise { t with clock := { (oldLock t).clock with
          state := .reacquire, changed := s.bsn } } 96 (rootCode .reacquire + rootCode .coast * 16))) ∧
      (s.clock.state = .coast → s.clock.coastPull = false → bit (rd s .rootCfg) 6 = true → refSrc s ≠ 8 →
        s.clock.realign = none →
        exec (.refQualify f) s = .next { t with clock := { t.clock with
          realign := some (s.bsn + 1#40), realignOn := false } })) ∧
    (∀ f, (f < -100000 ∨ 100000 < f) → exec (.refQualify f) s = .next s) ∧
    ((s.clock.state = .pullin ∨ s.clock.state = .reacquire) → s.clock.xtalFault = false →
      exec .trackLock s = .next (raise { s with clock := { s.clock with
        word := clampInt (-600000000) 600000000 (s.clock.word + s.clock.ofs), ofs := 0, state := .track,
        changed := s.bsn } } 96 (rootCode .track + rootCode s.clock.state * 16))) ∧
    ((s.clock.state = .pullin ∨ s.clock.state = .track ∨ s.clock.state = .reacquire) → s.clock.xtalFault = false →
      exec .refLoss s = .next (raise (raise { addCount s .rootCount 7 0 1 with clock := { s.clock with
        state := .coast, changed := s.bsn, losses := bump 0xFFFF s.clock.losses, refQual := false, coastAt := s.bsn,
        coastCyc := s.cycle, coastPull := s.clock.state == .pullin, word := lossWord s, ofs := 0 } } 96
        (5 + rootCode s.clock.state * 16)) 97 (refSrc s))) ∧
    (s.clock.xtalFault = true → exec .refLoss s = .next { s with clock := { s.clock with lossHeld := true } }) ∧
    (s.clock.state = .coast → bits (rd s .rootCfg) 22 15 ≠ 0 → s.clock.realign = none → s.clock.xtalFault = false →
      usPassed s (bits (rd s .rootCfg) 22 15 * 1000000) s.clock.coastAt s.clock.coastCyc = true →
      exec .coastTimeout s = .next (raise { s with clock := { s.clock with
        state := .freerun, changed := s.bsn, lockPoint := false, refQual := false } } 96 82)) ∧
    (∀ r, s.clock.realign = some r → s.cycle = 0 → s.clock.realignOn = false → bsnReached s.bsn r = true →
      s.clock.state = .coast → s.clock.xtalFault = false →
      exec .realignBlock s = .next { s with clock := { s.clock with
        realign := some s.bsn, realignOn := true, stepped := false } }) ∧
    (s.clock.xtalFault = true → exec .realignBlock s = .next s) ∧
    (∀ period v u, coreOn s = true → v = withBits (rd s .syncCfg) 0x1E (period.val * 2) →
      u = (if refSrc s = 8 then refLost (wr s .syncCfg v) else wr s .syncCfg v) →
      exec (.syncPeriodWrite period) s = .next (if (List.range 4).all (auxSyncOk u) then u else s)) ∧
    (∀ u, s.clock.xtalFault = false → s.clock.xtalOn = true →
      u = { s with clock := { s.clock with
        xtalFault := true, phase := if s.clock.phase = .locked then .onSafe else s.clock.phase } } →
      exec .xtalFaultSet s = .next (raise (if modeLow s then crystalStop u else u) 98 0)) ∧
    ((crystalStop s).cycle = 0 ∧ (crystalStop s).bus.ctrlClk = false ∧ (crystalStop s).clock.shipTick = true) ∧
    (∀ u v w, s.clock.xtalFault = true → u = { s with clock := { s.clock with
        xtalFault := false, phase := if s.clock.phase = .waitXtal then .onSafe else s.clock.phase,
        onSafe := s.clock.onSafe || s.clock.phase == .waitXtal, lossHeld := false } } →
      v = (if s.clock.lossHeld then refLost u else u) →
      w = (if s.power.mode = .listen then clocksStart v true else v) →
      exec .xtalFaultClear s = .next (if w.power.change = none then actHeld w else w))

/-- R374, R376, R377, R378, R382, R389: a synthesizer locks, and the clock pins of its ports follow; MCLK follows MCLK_EN and the
lock where the checks of a commit are met; new words that a commit would take
move an enabled one over CHG_MS and restart its ports, and are only stored in a disabled one; a ramp or a stop that is over
ends; a profile goes on to its next segment, repeats or holds the last offset. -/
def Obligations.SynthesizerRowsAct : Prop :=
  ∀ (s : State) (a : Fin 4),
    (bit (rd s (.auxCfg a)) 0 = true → s.clock.state ≠ .off →
      exec (.auxLock a) s = .next (auxPins { s with clock := { s.clock with aux := modAt s.clock.aux a (fun x => { x with
        locked := true, mclkOn := bit (rd s (.auxCfg a)) 1 }) } } a)) ∧
    (auxPins s a = { s with dports := (auxPins s a).dports } ∧
      ∀ p, p < s.dports.length → dport (auxPins s a) p = if (auxPorts s a).contains p then
        { dport s p with clkPin := clockPinOf s p (dport s p).state } else dport s p) ∧
    (bit (rd s (.auxCfg a)) 0 = false → exec (.auxLock a) s = .next s) ∧
    (∀ t, coreOn s = true → t = { wr s (.auxCfg a) (withBits (rd s (.auxCfg a)) 2 2) with clock := { s.clock with
        aux := modAt s.clock.aux a (fun x => { x with mclkOn := x.locked }) } } →
      exec (.mclkEnable a) s = .next (if auxCommitOk t a then t else s)) ∧
    (∀ t, coreOn s = true → t = { wr s (.auxCfg a) (withBits (rd s (.auxCfg a)) 2 0) with clock := { s.clock with
        aux := modAt s.clock.aux a (fun x => { x with mclkOn := false }) } } →
      exec (.mclkDisable a) s = .next (if auxCommitOk t a then t else s)) ∧
    (∀ int num den, coreOn s = false → exec (.mclkEnable a) s = .next s ∧ exec (.mclkDisable a) s = .next s ∧
      exec (.auxRatioChange a int num den) s = .next s) ∧
    (∀ int num den t, coreOn s = true → bit (rd s (.auxCfg a)) 0 = false → (Reg.auxInt a).rangeOk s int.toNat = true →
      (Reg.auxDen a).rangeOk s den.toNat = true → num.toNat ≤ 0xFFFFF →
      t = wr (wr (wr s (.auxInt a) int.toNat) (.auxNum a) num.toNat) (.auxDen a) den.toNat → auxCommitOk t a = true →
      exec (.auxRatioChange a int num den) s = .next t) ∧
    (∀ int num den t u, coreOn s = true → bit (rd s (.auxCfg a)) 0 = true → (Reg.auxInt a).rangeOk s int.toNat = true →
      (Reg.auxDen a).rangeOk s den.toNat = true → num.toNat ≤ 0xFFFFF →
      t = wr (wr (wr s (.auxInt a) int.toNat) (.auxNum a) num.toNat) (.auxDen a) den.toNat →
      auxWordsOf t a ≠ auxWordsOf s a →
      u = (auxPorts t a).foldl (fun v p => if portIs v p .locked then portLose v p true else v) (modAux t a (fun x =>
        { x with ratio := some ((auxHz s a).1, (auxHz s a).2, bits (rd s (.auxCfg a)) 16 10, s.bsn) })) →
      auxCommitOk u a = true → exec (.auxRatioChange a int num den) s = .next u) ∧
    (∀ on od ms b, (auxAt s a).ratio = some (on, od, ms, b) → usPassed s (ms * 1000) b 0 = true →
      (auxAt s a).stopping = false →
      exec (.auxRampEnd a) s = .next { s with clock := { s.clock with
        aux := modAt s.clock.aux a (fun x => { x with ratio := none }) } }) ∧
    ((auxAt s a).ratio = none → (auxAt s a).stopping = true →
      usPassed s (auxAt s a).ofsTime (auxAt s a).ofsBsn (auxAt s a).ofsCyc = true →
      exec (.auxRampEnd a) s = .next { s with clock := { s.clock with
        aux := modAt s.clock.aux a (fun x => { x with stopping := false }) } }) ∧
    (∀ k, (auxAt s a).profile = true → (auxAt s a).holds = false →
      usPassed s (auxAt s a).ofsTime (auxAt s a).ofsBsn (auxAt s a).ofsCyc = true →
      ((auxAt s a).segment < 15 ∧ rd s (.segTime a ((auxAt s a).segment + 1)) ≠ 0 ∧ k = (auxAt s a).segment + 1 ∨
        (15 ≤ (auxAt s a).segment ∨ rd s (.segTime a ((auxAt s a).segment + 1)) = 0) ∧ bit (rd s (.auxCfg a)) 3 = true ∧
          rd s (.segTime a 0) ≠ 0 ∧ k = 0) →
      exec (.auxSegmentEnd a) s = .next { s with clock := { s.clock with aux := modAt s.clock.aux a (fun x => { x with
        profile := true, stopping := false, holds := false, segment := k,
        ofsFrom := (auxAt s a).ofsTo, ofsTo := toSigned 32 (rd s (.segOfs a k)),
        ofsTime := rd s (.segTime a k), ofsBsn := s.bsn, ofsCyc := s.cycle }) } }) ∧
    ((auxAt s a).profile = true → (auxAt s a).holds = false →
      usPassed s (auxAt s a).ofsTime (auxAt s a).ofsBsn (auxAt s a).ofsCyc = true →
      (15 ≤ (auxAt s a).segment ∨ rd s (.segTime a ((auxAt s a).segment + 1)) = 0) →
      bit (rd s (.auxCfg a)) 3 = false →
      exec (.auxSegmentEnd a) s = .next { s with clock := { s.clock with
        aux := modAt s.clock.aux a (fun x => { x with holds := true }) } })

/-- R261, R263, R264, R278: EN and MUTE switch an ADC source, whatever it is doing; settling ends after 192 frames from its start with a ramp
of 96 frames, a PGA moves one step toward its target every 96 frames, and MICBIAS settles both microphone inputs; nothing else
changes. -/
def Obligations.ConverterRowsAct : Prop :=
  ∀ (s : State),
    (∀ (a : Fin 6) w, w = rd s (adcCfg a) →
      (coreOn s = true → bit w 0 = false → exec (.adcEnable a) s =
        .next (modAdc (wr s (adcCfg a) (withBits w 1 1)) a (adcOn s (adcMuted s a)))) ∧
      (coreOn s = true → bit w 0 = true →
        exec (.adcDisable a) s = .next (modAdc (wr s (adcCfg a) (withBits w 1 0)) a (adcOff s))) ∧
      (coreOn s = true → exec (.adcMute a) s = .next (modAdc (wr s (adcCfg a) (withBits w 2 2)) a (adcMuteTo s true))) ∧
      (coreOn s = true →
        exec (.adcUnmute a) s = .next (modAdc (wr s (adcCfg a) (withBits w 2 0)) a (adcMuteTo s (micHeld s a)))) ∧
      (coreOn s = false → exec (.adcEnable a) s = .next s ∧ exec (.adcDisable a) s = .next s ∧
        exec (.adcMute a) s = .next s ∧ exec (.adcUnmute a) s = .next s) ∧
      (s.power.pwrEn1 = true →
        exec (.adcSettleEnd a) s = .next (modAdc s a (adcSettled s (adcMuted s a)))) ∧
      (s.power.pwrEn1 = false → exec (.adcSettleEnd a) s = .next s)) ∧
    (∀ (x : Adc) mute,
      (x.stage = .off → adcOn s mute x = { x with
        stage := .settling, since := s.bsn, frame := frameOf s, ramp := rampCut x.ramp s.bsn (frameOf s), raw := 0, hpX := 0,
        hpY := 0 }) ∧
      (x.stage = .stopping → adcOn s mute x = if mute then { x with stage := .muted } else
        { x with stage := .running, ramp := rampFrom x.ramp true 96 s.bsn (frameOf s) }) ∧
      (x.stage = .running ∨ x.stage = .muted → adcOff s x = { x with
        stage := .stopping, ramp := rampFrom x.ramp false 48 s.bsn (frameOf s) }) ∧
      (x.stage = .running → adcMuteTo s true x = { x with
        stage := .muted, ramp := rampFrom x.ramp false 48 s.bsn (frameOf s) }) ∧
      (x.stage = .muted → adcMuteTo s false x = { x with
        stage := .running, ramp := rampFrom x.ramp true 96 s.bsn (frameOf s) }) ∧
      (x.stage = .settling → bsnReached s.bsn x.since = true → 192 + x.frame ≤ bsnSince s.bsn x.since * 24 + frameOf s →
        (adcSettled s mute x).stage = (if mute then .muted else .running) ∧
        (mute = false → (adcSettled s mute x).ramp = rampFull true 96 s.bsn (frameOf s))) ∧
      (bsnReached s.bsn x.since = true → bsnSince s.bsn x.since * 24 + frameOf s < 192 + x.frame → adcSettled s mute x = x) ∧
      (x.stage = .running ∨ x.stage = .muted ∨ x.stage = .settling ∧ bsnReached s.bsn x.since = true →
        adcResettle s false x = { x with
          stage := .settling, since := s.bsn, frame := frameOf s, ramp := rampCut x.ramp s.bsn (frameOf s) }) ∧
      (x.stage = .settling → bsnReached s.bsn x.since = false →
        adcResettle s false x = { x with ramp := rampCut x.ramp s.bsn (frameOf s) })) ∧
    (∀ (m : Fin 2) (gain : Fin 43) w, coreOn s = true → w = rd s (.micCfg m) → bits w 9 4 ≠ gain →
      exec (.pgaChange m gain) s = .next (pgaTo (modAdc (wr s (.micCfg m) (withBits w 0x3F0 (gain.val * 16))) (4 + m.val)
        (adcMuteTo s (adcMuted s (4 + m.val)))) m gain)) ∧
    (∀ (m : Fin 2) gain, pgaTo s m gain = { s with analog := { s.analog with pga := modAt s.analog.pga m (fun p =>
      { p with target := gain, due := if p.gain = p.target then s.bsn else p.due }) } }) ∧
    (∀ (m : Fin 2) p, s.analog.pga[m.val]? = some p → p.gain ≠ p.target → bsnReached s.bsn p.due = true →
      s.power.pwrEn1 = true →
      exec (.pgaStep m) s = .next { s with analog := { s.analog with pga := s.analog.pga.set m { p with
        gain := if p.gain < p.target then p.gain + 1 else p.gain - 1, due := p.due + 4#40 } } }) ∧
    (∀ (m : Fin 2) p, s.analog.pga[m.val]? = some p → p.gain = p.target → exec (.pgaStep m) s = .next s) ∧
    (biasWanted s = false → coreOn s = true → s.power.pwrEn1 = true → s.analog.micbias = false →
      exec .micbiasEnable s = .next (modAdc (modAdc { wr s .micbiasCfg (withBits (rd s .micbiasCfg) 1 1) with
        analog := { s.analog with micbias := true, biasAt := s.bsn } } 4 (adcResettle s false)) 5 (adcResettle s false))) ∧
    (biasWanted s = true → s.analog.micbias = false →
      exec .micbiasEnable s = .next (modAdc (modAdc { s with
        analog := { s.analog with micbias := true, biasAt := s.bsn } } 4 (adcResettle s false)) 5 (adcResettle s false))) ∧
    (s.analog.micbias = true → s.analog.biasLimit = false →
      exec .micbiasOverload s = .next (raise { s with analog := { s.analog with biasLimit := true } } 88 0)) ∧
    (s.analog.micbias = false → exec .micbiasOverload s = .next s) ∧
    exec .micbiasOverloadEnd s = .next { s with analog := { s.analog with biasLimit := false } }

/-- R265, R267 to R272, R279, R284: the outputs' sequences begin with their N, a mute ramps, the rails follow a loud sample, an
over-current cuts the headphone off with EV087 and latches the second time; nothing else changes. -/
def Obligations.OutputRowsAct : Prop :=
  ∀ (s : State) w l o, w = rd s .hpCfg → l = rd s .loCfg → o = s.analog.hp →
    (coreOn s = true → bit w 0 = false → (bit w 8 = true → s.analog.jack.inserted = true ∧ s.analog.jack.kind ≠ .pending ∧
        s.analog.jack.kind ≠ .none) → s.power.mode = .active → s.power.fabricOn = true → leavingActive s = false → o.state = .off →
      exec .hpPowerUp s = .next (modHp (wr s .hpCfg (w + 1)) (fun z =>
        outUp s (outN w) { z with faults := 0, again := false }))) ∧
    (coreOn s = true → bit w 0 = false → o.state = .powerDown →
      exec .hpPowerUp s = .next (modHp (wr s .hpCfg (w + 1)) (fun z => { z with faults := 0, again := true }))) ∧
    (bit w 0 = true → o.upDue = true → s.cycle = 0 → hpMayUp s = true →
      exec .hpPowerUp s = .next (modHp s (fun z => { outUp s (outN w) z with upDue := false, again := false }))) ∧
    (coreOn s = true → bit w 0 = true → outLive o = true →
      exec .hpPowerDown s = .next (modHp (wr s .hpCfg (withBits w 1 0)) (fun z =>
        hpDown s (outN w) { z with faults := 0, latched := false, again := false }))) ∧
    (coreOn s = true → bit w 0 = true → o.state = .fault →
      exec .hpPowerDown s = .next (modHp (wr s .hpCfg (withBits w 1 0)) (fun z =>
        hpFaultOff s { z with faults := 0, latched := false, again := false }))) ∧
    (∀ n, o.shorted = false → hpDown s n o = { o with
      state := .powerDown, since := s.bsn, frame := frameOf s, fromStep := 0, n := n,
      ramp := rampDown o.ramp n s.bsn (frameOf s) }) ∧
    (∀ n, o.shorted = true → hpDown s n o = { o with
      state := .powerDown, since := s.bsn, frame := frameOf s, fromStep := n + 192, n := n,
      ramp := rampCut o.ramp s.bsn (frameOf s), railsHigh := false }) ∧
    (∀ mute, coreOn s = true → bit w 0 = true → bit w 1 ≠ mute → outSounds s 672 o = true → o.jackMute = false →
      exec (.hpMute false mute) s = .next (modHp (wr s .hpCfg (withBits w 2 (b2n mute * 2))) (fun z => { z with
        faults := 0, ramp := rampFrom z.ramp (!mute) (outN w) s.bsn (frameOf s),
        railsHigh := z.railsHigh || (z.state == .on && !bit w 9) }))) ∧
    (∀ mute, coreOn s = true → bit l 0 = true → bit l 1 ≠ mute → outSounds s 1920 s.analog.lo = true →
      exec (.hpMute true mute) s = .next (modLo (wr s .loCfg (withBits l 2 (b2n mute * 2))) (fun z => { z with
        ramp := rampFrom z.ramp (!mute) (outN l) s.bsn (frameOf s) }))) ∧
    (coreOn s = true → bit l 0 = false → s.power.mode = .active → s.power.fabricOn = true → leavingActive s = false →
      s.analog.lo.state = .off →
      exec .loPowerUp s = .next (modLo (wr s .loCfg (withBits l 1 1)) (fun z => outUp s (outN l) { z with again := false }))) ∧
    (coreOn s = true → bit l 0 = false → s.analog.lo.state = .powerDown →
      exec .loPowerUp s = .next (modLo (wr s .loCfg (withBits l 1 1)) (fun z => { z with again := true }))) ∧
    (∀ mute, coreOn s = false → exec .hpPowerDown s = .next s ∧ exec (.hpMute false mute) s = .next s ∧
      exec (.hpMute true mute) s = .next s ∧ exec .loPowerUp s = .next s ∧ exec .loPowerDown s = .next s) ∧
    (coreOn s = true → bit l 0 = true → s.analog.lo.state = .on →
      exec .loPowerDown s = .next (modLo (wr s .loCfg (withBits l 1 0)) (fun z => { z with
        state := .powerDown, since := s.bsn, frame := frameOf s, fromStep := 0, n := outN l,
        ramp := rampDown z.ramp (outN l) s.bsn (frameOf s) }))) ∧
    (coreOn s = true → bit l 0 = true → s.analog.lo.state = .powerUp →
      exec .loPowerDown s = .next (modLo (wr s .loCfg (withBits l 1 0)) (loDown s (outN l)))) ∧
    (∀ n, (outUp s n o).state = .powerUp ∧ (outUp s n o).since = s.bsn ∧ (outUp s n o).frame = frameOf s ∧
      (outUp s n o).n = n ∧ (outUp s n o).fromStep = 0 ∧ (outUp s n o).railsHigh = false ∧
      (outUp s n o).shorted = o.shorted ∧ (outUp s n o).soft = false) ∧
    (bit w 9 = true → hpPlays s o = true → o.shorted = false →
      exec .classGHigh s = .next (modHp s (fun z => { z with railsHigh := true, loudAt := s.bsn }))) ∧
    (bit w 9 = true → o.railsHigh = true → 200 ≤ bsnSince s.bsn o.loudAt →
      exec .classGLow s = .next (modHp s (fun z => { z with railsHigh := false }))) ∧
    (bsnSince s.bsn o.loudAt < 200 → exec .classGLow s = .next s) ∧
    (∀ left right latched, (left || right) = true → o.shorted = false → latched = decide (1 ≤ o.faults) →
      (outLive o = true ∨ o.state = .powerDown ∧ outAge s o < o.n) →
      exec (.hpOvercurrent left right) s = .next (raise (modHp s (fun z => { z with
        state := .fault, since := s.bsn, frame := frameOf s, fromStep := outN w, n := outN w,
        ramp := rampCut z.ramp s.bsn (frameOf s), limL := left, limR := right, faults := z.faults + 1,
        latched := latched })) 87 (b2n left + b2n right * 2 + b2n latched * 4))) ∧
    (∀ left right latched, (left || right) = true → o.shorted = false → latched = decide (1 ≤ o.faults) →
      o.state = .powerDown → o.n ≤ outAge s o →
      exec (.hpOvercurrent left right) s = .next (raise (modHp s (fun z => { z with
        state := .fault, since := s.bsn, frame := frameOf s, fromStep := outAge s o, limL := left, limR := right,
        faults := z.faults + 1, latched := latched })) 87 (b2n left + b2n right * 2 + b2n latched * 4))) ∧
    (o.state = .fault → o.latched = false → 2000 ≤ bsnSince s.bsn o.since → s.power.mode = .active →
      exec .hpFaultRetry s = .next (hpTryUp (modHp s (fun z => { z with state := .off }))) ∧
      (bit w 0 = true → bit w 8 = false → s.power.fabricOn = true → leavingActive s = false →
        exec .hpFaultRetry s = .next (modHp s (outUp s (outN w))))) ∧
    (o.state = .fault → o.latched = true → exec .hpFaultRetry s = .next s)

/-- R273-R281, R285: an insertion is counted and raises EV084, the classification measures twice with the contacts switched and
repeats an INVALID result three times, a removal returns the jack to rest, the output mutes with the pin, MIC1 switches at a
boundary, the repeats of a 3-pole plug come every 500 ms for 5 s, and a button is counted and reported; nothing outside the
converters, the jack's count, its microphone's word and the events changes. -/
def Obligations.JackRowsAct : Prop :=
  ∀ (s : State) j, j = s.analog.jack →
    (bit (rd s .hpjCfg) 0 = true → j.level = true → j.inserted = true → hpPlays s s.analog.hp = true →
      exec (.jackLevelChange false) s = .next { s with analog := { s.analog with
        jack := { j with level := false },
        hp := { s.analog.hp with jackMute := true, ramp := rampDown s.analog.hp.ramp 96 s.bsn (frameOf s + 1) } } }) ∧
    (bit (rd s .hpjCfg) 0 = true → j.level = false → j.inserted = true → s.analog.hp.jackMute = true →
      bit (rd s .hpCfg) 1 = false → outSounds s 672 s.analog.hp = true →
      exec (.jackLevelChange true) s = .next { s with analog := { s.analog with
        jack := { j with level := true },
        hp := { s.analog.hp with
          jackMute := false, ramp := rampUp s.analog.hp.ramp (outN (rd s .hpCfg)) s.bsn (frameOf s) } } }) ∧
    (∀ level, j.level = level → exec (.jackLevelChange level) s = .next s) ∧
    (bit (rd s .auxjCfg) 0 = true → j.auxIn = false →
      exec (.jackInsert true) s = .next (raise (modJack s (fun z => { z with auxIn := true })) 85 1)) ∧
    (bit (rd s .auxjCfg) 0 = true → j.auxIn = true →
      exec (.jackRemove true) s = .next (raise (modJack s (fun z => { z with auxIn := false })) 85 0)) ∧
    (∀ u, bit (rd s .hpjCfg) 0 = true → bit (rd s .hpjCfg) 14 = true → j.inserted = false → s.power.pwrEn1 = true →
      u = raise (addCount s .hpjCount 15 0 1) 84 3 →
      ∃ t, exec (.jackInsert false) s = .next t ∧ t = { u with analog := t.analog } ∧ t.analog.jack = { j with
        inserted := true, level := true, invalids := 0, kind := .pending, measuring := true, measA := none, retryAt := none,
        ringGnd := true, sleeveGnd := false } ∧ t.analog.hp = s.analog.hp ∧ t.analog.lo = s.analog.lo) ∧
    (bit (rd s .hpjCfg) 0 = true → bit (rd s .hpjCfg) 14 = false → j.inserted = false →
      ∃ u, exec (.jackInsert false) s = .next (raise u 84 5) ∧ u = { addCount s .hpjCount 15 0 1 with analog := u.analog } ∧
        u.analog.jack.kind = .threePole ∧ u.analog.jack.inserted = true ∧ u.analog.jack.ringGnd = true ∧
        u.analog.jack.sleeveGnd = true ∧ u.analog.jack.repeats = none ∧ u.analog.lo = s.analog.lo) ∧
    (bit (rd s .hpjCfg) 0 = true → j.inserted = true →
      ∃ u t, exec (.jackRemove false) s = .next t ∧ t = raise u 84 0 ∧ u = { s with analog := u.analog } ∧
        u.analog.jack = { j with
          inserted := false, level := false, kind := .none, button := 0, ringGnd := true, sleeveGnd := true,
          measuring := false, measA := none, retryAt := none, repeats := none, invalids := 0,
          micDue := j.micOnJack } ∧ u.analog.lo = s.analog.lo ∧ u.analog.hp.upDue = false) ∧
    (∀ mv, j.measuring = true → j.inserted = true → s.power.pwrEn1 = true → j.measA = none →
      exec (.classifyMeasure mv) s = .next (modJack s (fun z => { z with
        measA := some mv, ringGnd := false, sleeveGnd := true }))) ∧
    (∀ a mv, j.measuring = true → j.inserted = true → s.power.pwrEn1 = true → j.measA = some a →
      plugKind a mv = .invalid → j.invalids < 3 →
      exec (.classifyMeasure mv) s = .next (modJack s (fun z => { z with
        measuring := false, measA := none, invalids := j.invalids + 1, retryAt := some s.bsn, ringGnd := true,
        sleeveGnd := true }))) ∧
    (∀ a mv, j.measuring = true → j.inserted = true → s.power.pwrEn1 = true → j.measA = some a →
      (plugKind a mv = .invalid → 3 ≤ j.invalids) →
      ∃ u, exec (.classifyMeasure mv) s = .next (raise u 84 (1 + kindCode (plugKind a mv) * 2)) ∧
        u = { s with analog := u.analog } ∧ u.analog.jack.kind = plugKind a mv ∧ u.analog.jack.inserted = true ∧
        u.analog.jack.measuring = false ∧ u.analog.jack.ringGnd = (plugKind a mv != .omtp) ∧
        u.analog.jack.sleeveGnd = (plugKind a mv != .ctia) ∧ u.analog.lo = s.analog.lo) ∧
    (∀ b, j.retryAt = some b → 2000 ≤ bsnSince s.bsn b → j.inserted = true → j.kind = .pending → s.power.pwrEn1 = true →
      ∃ t, exec .classifyRetry s = .next t ∧ t = { s with analog := t.analog } ∧
        t.analog.jack = { j with measuring := true, measA := none, retryAt := none, ringGnd := true, sleeveGnd := false } ∧
        t.analog.hp = s.analog.hp) ∧
    (∀ b, j.retryAt = some b → bsnSince s.bsn b < 2000 → exec .classifyRetry s = .next s) ∧
    (∀ n k a b, j.repeats = some n → j.inserted = true → j.kind = .threePole → s.power.pwrEn1 = true →
      k = bsnSince s.bsn j.repeatAt / 2000 → n < k → k < 10 → 80 ≤ bsnSince s.bsn j.repeatAt % 2000 →
      plugClass a ≠ .microphone → plugClass b ≠ .microphone →
      exec (.threePoleRepeat a b) s = .next (modJack s (fun z => { z with repeats := some k }))) ∧
    (∀ n k a b, j.repeats = some n → j.inserted = true → j.kind = .threePole → s.power.pwrEn1 = true →
      k = bsnSince s.bsn j.repeatAt / 2000 → n < k → k ≤ 10 → 80 ≤ bsnSince s.bsn j.repeatAt % 2000 →
      plugClass a = .microphone → plugClass b = .ground →
      ∃ u, exec (.threePoleRepeat a b) s = .next (raise u 84 7) ∧ u = { s with analog := u.analog } ∧
        u.analog.jack.kind = .ctia ∧ u.analog.jack.repeats = none) ∧
    (∀ n a b, j.repeats = some n → bsnSince s.bsn j.repeatAt / 2000 ≤ n → exec (.threePoleRepeat a b) s = .next s) ∧
    (∀ on, j.micDue = true → s.cycle = 0 → on = (j.inserted && hasMic j.kind) →
      exec .headsetMicSwitch s = .next (modAdc (modJack
        (wr s (.micCfg 1) (withBits (rd s (.micCfg 1)) 0x400 (b2n on * 0x400)))
        (fun z => { z with micDue := false, micOnJack := on })) 5 (adcResettle s true))) ∧
    (∀ x : Adc, x.stage = .running ∨ x.stage = .muted ∨ x.stage = .settling → adcResettle s true x = { x with
      stage := .settling, since := s.bsn + 2#40, frame := frameOf s, ramp := rampFrom x.ramp false 48 s.bsn (frameOf s) }) ∧
    (s.cycle ≠ 0 → exec .headsetMicSwitch s = .next s) ∧
    (∀ mv b u, bit (rd s .hpjCfg) 15 = true → hasMic j.kind = true → j.inserted = true → j.button = 0 →
      s.power.pwrEn1 = true → buttonOf (rd s .hpjBtn) mv = some b →
      u = raise (modJack (addCount s .hpjCount 31 16 1) (fun z => { z with button := b + 1, contactMv := mv })) 86 (b + 8) →
      exec (.hsButtonPress mv) s = .next (if j.micOnJack then modAdc u 5 (adcMuteTo s true) else u)) ∧
    (∀ u, j.button ≠ 0 → bit (rd s .hpjCfg) 15 = true → s.power.pwrEn1 = true →
      u = raise (modJack s (fun z => { z with button := 0 })) 86 (j.button - 1) →
      exec .hsButtonRelease s = .next
        (if j.micOnJack && !bit (rd s (.micCfg 1)) 1 then modAdc u 5 (adcMuteTo s false) else u)) ∧
    ((j.button = 0 ∨ bit (rd s .hpjCfg) 15 = false ∨ s.power.pwrEn1 = false) → exec .hsButtonRelease s = .next s)

/-- R293, R294, R295, R296, R297, R298: at its boundary a PDM clock takes its rate and source and its microphones settle, the
beams move between their sets, a set-A crossfade begins, and a window updates its detector and, where it fires, raises EV089;
nothing but the wake path and the events changes. -/
def Obligations.WakeRowsAct : Prop :=
  ∀ (s : State),
    (∀ (c : Fin 2) k due rest mine listen, k = s.wake.clocks.getD c {} → due = k.change.filter (fun e => bsnReached s.bsn e.1) →
      rest = k.change.filter (fun e => !bsnReached s.bsn e.1) → listen = (s.power.mode == .listen) →
      mine = due.filter (fun e => e.2.1 == listen) → s.cycle = 0 → due ≠ [] → (listen && s.clock.xtalFault) = false →
      (mine = [] → exec (.pdmClockChange c) s = .next { s with wake := { s.wake with
        clocks := modAt s.wake.clocks c (fun z => { z with change := rest }) } }) ∧
      (∀ e, mine.getLast? = some e → c.val < s.wake.clocks.length → s.wake.srcs.length = 16 →
        ∃ t, exec (.pdmClockChange c) s = .next t ∧ t = { s with wake := t.wake, health := t.health } ∧
          t.wake.clocks = s.wake.clocks.set c { k with
            rate := e.2.2, listen := listen, change := rest,
            doneAt := some (s.bsn + BitVec.ofNat 40 ((pdmSettle s + 16) / 4 + 1)) } ∧
          (∀ m : Fin 16, micClock m = c → micEn s m = true → (s.wake.srcs.getD m {}).stage ≠ .off →
            t.wake.srcs.getD m {} = { s.wake.srcs.getD m {} with
              stage := .settling, since := s.bsn, frame := 0, ramp := Ramp.zero }) ∧
          (∀ m : Fin 16, (micClock m ≠ c ∨ micEn s m = false) → t.wake.srcs.getD m {} = s.wake.srcs.getD m {}) ∧
          (k.listen = listen → t.wake.beams = s.wake.beams) ∧
          (k.listen = false → listen = true → ∀ (b : Nat) x, s.wake.beams[b]? = some x →
            (x.segs.head?.getD (0#42, .setA)).2 ≠ .setL → t.wake.beams[b]? = some { x with
              segs := ((csnOf s.bsn, .setL) :: x.segs).take 4, xfDue := none,
              bridge := some (csnOf s.bsn, pdmSettle s, 0) }) ∧
          (k.listen = true → listen = false → ∀ (b : Nat) x, s.wake.beams[b]? = some x →
            (x.segs.head?.getD (0#42, .setA)).2 = .setL →
            t.wake.beams[b]? = some { x with xfDue := some (s.bsn + 16#40) }))) ∧
    (∀ c : Fin 2, (s.wake.clocks.getD c {}).change = [] → exec (.pdmClockChange c) s = .next s) ∧
    (∀ (b : Fin 4) x h, s.wake.beams[b.val]? = some x → x.xfDue = some h → s.cycle = 0 → bsnReached s.bsn h = true →
      exec (.setACrossfade b) s = .next { s with wake := { s.wake with beams := s.wake.beams.set b { x with
        segs := ((csnOf s.bsn, .fade) :: x.segs).take 4, xfDue := none } } }) ∧
    (∀ b : Fin 4, s.cycle ≠ 0 → exec (.setACrossfade b) s = .next s) ∧
    (∀ (b : Fin 4) d w lvl, s.wake.dets[b.val]? = some d → windowFirst s = some w → s.cycle = 0 → d.buf.length = 16 →
      csnReached w s.wake.pathFrom = true → d.on = true → (d.windows = 0 ∨ d.win ≠ w) →
      lvl = toward (rd s (.detTauS b)) d.s (windowLevel d.buf) →
      ∃ t d', exec (.roosterWindow b ()) s = .next t ∧ t = { s with wake := t.wake, events := t.events } ∧
        t.wake.dets = s.wake.dets.set b d' ∧ d'.s = lvl ∧ d'.windows = d.windows + 1 ∧ d'.win = w ∧
        d'.f = floorStep s b d lvl ∧
        (d.windows < 256 → d'.run = 0) ∧
        (256 ≤ d.windows → toSigned 32 (rd s (.detThresh b)) ≤ lvl - d.f → d'.run = d.run + 1) ∧
        (d'.hit = true → d.fired = false ∧ d'.run = rd s (.detOn b) ∧ d'.fired = true ∧ d'.flag = true ∧
          d'.onset = d'.runCsn ∧ d'.count = bump 0xFFFFFFFF d.count) ∧
        (d'.hit = false → (∀ i x, i ≠ b.val → s.wake.dets[i]? = some x → x.on = true → x.hit = false ∨ x.win ≠ w) →
          t.events = s.events)) ∧
    (∀ b : Fin 4, windowFirst s = none → exec (.roosterWindow b ()) s = .next s)

/-- R315, R321, R322, R323, R326: a channel starts at a boundary where it may, stops on EN = 0 with its own STOP_MS, retries
from FAULT_WAIT when its wait is over, forgets its retries after 40,000 blocks of PLAY, and VFS moves from the value it has
reached; nothing but the channel and the written word changes. -/
def Obligations.ChannelSequenceRowsAct : Prop :=
  ∀ (s : State) (c : Fin 32) w, w = rd s (chanReg c) →
    (s.cycle = 0 → (chan s c).state = .off → mayStart s c = true →
      exec (.channelStart c) s = .next (modChan s c (fun x => { x with
        state := .starting, seqBsn := s.bsn, seqFrame := 0, seqSkip := 0, seqMs := startMs s c, ramp := Ramp.zero,
        waiting := false }))) ∧
    (mayStart s c = false → exec (.channelStart c) s = .next s) ∧
    (coreOn s = true → s.Sound → bit w 0 = true → leads s c = true → (chan s c).state = .play →
      exec (.channelStop c) s = .next (modChan (wr s (chanReg c) (withBits w 1 0)) c (fun x => { x with
        state := .stopping, seqBsn := s.bsn, seqFrame := frameOf s, seqSkip := 0, seqMs := stopMs s c,
        ramp := rampDown x.ramp (96 * stopMs s c) s.bsn (frameOf s), stopTo := .off, dcLp := 0, dcRun := 0,
        retries := 0 }))) ∧
    (coreOn s = true → bit w 0 = true → leads s c = true → (chan s c).state = .starting →
      exec (.channelStop c) s = .next (modChan (beginStop (wr s (chanReg c) (withBits w 1 0)) c (stopMs s c) 0 .off) c
        (fun x => { x with retries := 0 }))) ∧
    (coreOn s = true → bit w 0 = true → leads s c = true → ((chan s c).state = .off ∨ (chan s c).state = .stopping) →
      exec (.channelStop c) s = .next (modChan (wr s (chanReg c) (withBits w 1 0)) c (fun x => { x with retries := 0 }))) ∧
    (coreOn s = true → bit w 0 = true → leads s c = true → ((chan s c).state = .faultWait ∨ (chan s c).state = .latched) →
      exec (.channelStop c) s = .next (modChan (wr s (chanReg c) (withBits w 1 0)) c (fun x =>
        { hiZ .off x with retries := 0 }))) ∧
    (coreOn s = true → bit w 0 = true → (leads s c = false ∨ (chan s c).state = .diag) →
      exec (.channelStop c) s = .next (wr s (chanReg c) (withBits w 1 0))) ∧
    (coreOn s = false → exec (.channelStop c) s = .next s) ∧
    (s.cycle = 0 → (chan s c).state = .faultWait → (chan s c).retries < retryMax s → retryDue s c (chan s c) = true →
      mayStart s c = true →
      exec (.channelRetry c) s = .next (modChan s c (fun x => { x with
        state := .starting, seqBsn := s.bsn, seqFrame := 0, seqSkip := 0, seqMs := startMs s c, ramp := Ramp.zero,
        waiting := false, retries := x.retries + 1 }))) ∧
    (retryMax s ≤ (chan s c).retries → exec (.channelRetry c) s = .next s) ∧
    ((chan s c).state = .play → 40000 ≤ (chan s c).playFor →
      exec (.retriesReset c) s = .next (modChan s c (fun x => { x with retries := 0 }))) ∧
    ((chan s c).playFor < 40000 → exec (.retriesReset c) s = .next s) ∧
    (∀ (h : Fin 16) value, coreOn s = true → (Reg.vfs h).rangeOk s value.toNat = true → rd s (.vfs h) ≠ value.toNat →
      exec (.vfsChange h value) s = .next (modChan (wr s (.vfs h) value.toNat) h (fun x => { x with
        vfsOld := some (vfsAt s h s.bsn (frameOf s) / 96, s.bsn) }))) ∧
    (∀ (h : Fin 16) value, (Reg.vfs h).rangeOk s value.toNat = false → exec (.vfsChange h value) s = .next s)

/-- R19, R319, R324, R325, R326, R327, R333, R335: limited cycles and an opened loop warn once a block, an over-current, a
short, a DC offset or a failed bootstrap shuts a half-bridge channel down, a failed die link every running one, and XFAULTq
those of its quad; a shutdown is Hi-Z, FAULT_WAIT or LATCHED, counted, with the channel's fault event. -/
def Obligations.ChannelFaultRowsAct : Prop :=
  ∀ (s : State),
    (∀ (c : Nat) cause x latch, c < 16 → x = chan s c →
      latch = (cause == 3 || cause == 6 || decide (retryMax s ≤ x.retries)) →
      shutdown s c cause = raise (addCount (modChan s c (fun y => { hiZ (if latch then .latched else .faultWait) y with
        cause := cause, downCause := cause, downBsn := s.bsn, downCyc := s.cycle })) (.hbCount c) 23 16 1) (52 + 2 * c)
        (cause + b2n latch * 16 + x.retries * 256)) ∧
    (∀ (c : Fin 32), c.val < 16 → leads s c = true → running (chan s c) = true →
      (∀ ua, (chanLimits s c).2 < ua → exec (.channelShutdown c (.overcurrent ua)) s = .next (shutdown s c 2)) ∧
      (∀ ua, ua ≤ (chanLimits s c).2 → exec (.channelShutdown c (.overcurrent ua)) s = .next s) ∧
      exec (.channelShutdown c .bootstrap) s = .next (shutdown s c 4) ∧
      (32 ≤ (chan s c).limRun → exec (.channelShutdown c .short) s = .next (shutdown s c 1)) ∧
      ((chan s c).limRun < 32 → exec (.channelShutdown c .short) s = .next s)) ∧
    (∀ (c : Fin 32), c.val < 16 → leads s c = true → running (chan s c) = true →
      exec (.channelShutdown c .link) s = .next (linkFail s)) ∧
    (∀ (c : Fin 32) why, (16 ≤ c.val ∨ leads s c = false ∨ (running (chan s c) = false ∧ (chan s c).state ≠ .diag)) →
      exec (.channelShutdown c why) s = .next s) ∧
    (∀ (c : Fin 32), c.val < 16 → leads s c = true → (chan s c).state = .diag →
      (∀ ua, (chanLimits s c).2 < ua → s.diag.cur ≠ some c.val → exec (.channelShutdown c (.overcurrent ua)) s = .next { s with
        diag := { s.diag with hiZ := Nat.lor s.diag.hiZ (2 ^ c.val) } }) ∧
      (∀ ua, (chanLimits s c).2 < ua → s.diag.cur = some c.val → exec (.channelShutdown c (.overcurrent ua)) s = .next { s with
        diag := { s.diag with
          hiZ := Nat.lor s.diag.hiZ (2 ^ c.val), recs := s.diag.recs.set c (codeRec s c 9) } }) ∧
      (∀ ua, ua ≤ (chanLimits s c).2 → exec (.channelShutdown c (.overcurrent ua)) s = .next s) ∧
      exec (.channelShutdown c .short) s = .next s ∧ exec (.channelShutdown c .bootstrap) s = .next s ∧
      exec (.channelShutdown c .link) s = .next (linkFail s)) ∧
    (∀ (h : Fin 16), ((chan s h).state = .play ∨ (chan s h).state = .starting ∧ seqS (isSe s h) ≤ seqAge s (chan s h)) →
      bit (rd s (.hbCfg h)) 21 = true → leads s h = true → 96 * bits (rd s .dcCfg) 18 8 ≤ (chan s h).dcRun →
      exec (.dcDetect h) s = .next (shutdown s h 3)) ∧
    (∀ (h : Fin 16), (chan s h).dcRun < 96 * bits (rd s .dcCfg) 18 8 → exec (.dcDetect h) s = .next s) ∧
    (∀ (h : Fin 16), bit (rd s (.hbCfg h)) 21 = false → exec (.dcDetect h) s = .next s) ∧
    (∀ (h : Fin 16) r c x sp now, c = leaderOf s h → x = chan s c → sp = limitSpan s h c r →
      (chanLimits s c).1 ≤ r.ua.natAbs → running x = true → limitCounted x sp = false → x.warned = false → bit x.warn 0 = false →
      now = Nat.lor x.warnNow 1 →
      exec (.limitedCycle h r) s = .next (raise (modChan (addCount s (.hbCount c) 15 0 1) c (fun x => { x with
        spans := x.spans ++ [sp], limRun := if r.again then x.limRun + 1 else 1, limNow := bump 0xFFFF x.limNow,
        warnNow := now, warned := true })) (53 + 2 * c) (now + Nat.land now (7 - x.warn % 8) * 16))) ∧
    (∀ (h : Fin 16) r c x sp, c = leaderOf s h → x = chan s c → sp = limitSpan s h c r →
      (chanLimits s c).1 ≤ r.ua.natAbs → running x = true → limitCounted x sp = false → (x.warned = true ∨ bit x.warn 0 = true) →
      exec (.limitedCycle h r) s = .next (modChan (addCount s (.hbCount c) 15 0 1) c (fun x => { x with
        spans := x.spans ++ [sp], limRun := if r.again then x.limRun + 1 else 1, limNow := bump 0xFFFF x.limNow,
        warnNow := Nat.lor x.warnNow 1 }))) ∧
    (∀ (h : Fin 16) r c x sp, c = leaderOf s h → x = chan s c → sp = limitSpan s h c r →
      (chanLimits s c).1 ≤ r.ua.natAbs → running x = true → limitCounted x sp = true →
      exec (.limitedCycle h r) s = .next (warnNow (modChan s c (fun x => { x with spans := x.spans ++ [sp] })) c 0)) ∧
    (∀ (h : Fin 16) r c sp, c = leaderOf s h → sp = limitSpan s h c r → (chan s c).state = .diag →
      1500000 ≤ r.ua.natAbs → limitCounted (chan s c) sp = false →
      (s.diag.state = .phase1 → s.diag.todo.contains c = true →
        exec (.limitedCycle h r) s = .next { addCount (modChan s c (fun x => { x with spans := x.spans ++ [sp] })) (.hbCount c) 15 0 1 with
          diag := { s.diag with
            hiZ := Nat.lor s.diag.hiZ (2 ^ c), todo := s.diag.todo.filter (fun x => x != c),
            recs := s.diag.recs.set c { code := if 0 < r.ua then 2 else 3 } } }) ∧
      (s.diag.state = .phase3 → exec (.limitedCycle h r) s =
        .next (addCount (modChan s c (fun x => { x with spans := x.spans ++ [sp] })) (.hbCount c) 15 0 1))) ∧
    (∀ (h : Fin 16) r, (r.ua.natAbs < (chanLimits s (leaderOf s h)).1 ∨ (chan s (leaderOf s h)).state = .off) →
      exec (.limitedCycle h r) s = .next s) ∧
    (∀ (h : Fin 16) l x now, s.stage.chans[h.val]? = some x → x.loop = true → loopFar s.stage.pvdd l = true → x.warned = false → bit x.warn 2 = false →
      now = Nat.lor x.warnNow 4 →
      exec (.loopOpen ⟨h, l⟩) s = .next (raise (modChan s h (fun x => { x with
        loop := false, loopLost := true, wasLoop := false, warnNow := now, warned := true })) (53 + 2 * h.val)
        (now + Nat.land now (7 - x.warn % 8) * 16))) ∧
    (∀ (h : Fin 16) l, ((chan s h).loop = false ∨ loopFar s.stage.pvdd l = false) → exec (.loopOpen ⟨h, l⟩) s = .next s) ∧
    (∀ n, fingerLimits n = if 8 ≤ n then (7500000, 11000000) else if n = 7 then (6562500, 9625000) else (5625000, 8250000)) ∧
    (coreOn s = true → exec .dieLinkFail s = .next (linkFail s)) ∧
    (coreOn s = false → exec .dieLinkFail s = .next s) ∧
    (s.stage.chans.length = 32 → ∃ t, linkFail s = t ∧ t.stage.linkBad = some (s.bsn, s.cycle) ∧ t.stage.linkDown = true ∧
      (s.diag.state = .idle → t = { s with stage := t.stage, regs := t.regs, rcNow := t.rcNow, events := t.events }) ∧
      (s.diag.state ≠ .idle → s.diag.state ≠ .waiting → t.diag.failed = true ∧ t.diag.since = s.bsn + 1#40) ∧
      (∀ c : Fin 32, (c.val < 16 ∧ running (chan s c) = true) →
        chan t c = { hiZ (if retryMax s ≤ (chan s c).retries then .latched else .faultWait) (chan s c) with
          cause := 5, downCause := 5, downBsn := s.bsn, downCyc := s.cycle }) ∧
      (∀ c : Fin 32, (c.val < 16 ∧ (chan s c).state = .off) → chan t c = hiZ .unavailable (chan s c)) ∧
      (∀ c : Fin 32, ¬ (c.val < 16 ∧ (running (chan s c) = true ∨ (chan s c).state = .off)) → chan t c = chan s c)) ∧
    (∀ q : Fin 4, (coreOn s = false ∨ s.power.pwrEn0 = false) → exec (.xfault q) s = .next s) ∧
    (∀ q : Fin 4, coreOn s = true → s.power.pwrEn0 = true → 
      ∃ t, exec (.xfault q) s = .next t ∧
      t = { s with stage := t.stage, regs := t.regs, rcNow := t.rcNow, events := t.events } ∧
      t.stage.xBad = s.stage.xBad.set q (some (s.bsn, s.cycle)) ∧
      (∀ c : Fin 32, (c.val / 4 = 4 + q.val ∧ running (chan s c) = true ∧ leads s c = true) →
        chan t c = { hiZ (if retryMax s ≤ (chan s c).retries then .latched else .faultWait) (chan s c) with
          cause := 7, downCause := 7, downBsn := s.bsn, downCyc := s.cycle }) ∧
      (∀ c : Fin 32, ¬ (c.val / 4 = 4 + q.val ∧ running (chan s c) = true ∧ leads s c = true) → chan t c = chan s c) ∧
      ((∀ c : Fin 32, c.val / 4 = 4 + q.val → running (chan s c) = false) → t.events = s.events))

/-- R328, R331: a PVDD fault makes every half-bridge channel UNAVAILABLE with EV124, PVDD back in range releases them, to LATCHED
those that were latched; 165 °C stops them over 1 ms with EV124 and EV125, and below 140 °C they are released; XPWM channels
stand. -/
def Obligations.StageRowsAct : Prop :=
  ∀ (s : State), s.stage.chans.length = 32 →
    (∀ mv pv code, coreOn s = true →
      ((mv < 4200 ∧ pv = Stage.unavailable ∧ code = 0) ∨ (27500 < mv ∧ pv = Stage.overvoltage ∧ code = 2)) →
      ∃ t, exec (.pvddFault mv) s = .next t ∧ t.stage.stage = pv ∧ t.stage.pv = pv ∧
        t.stage.pvdd = mv ∧ t.stage.thermal = s.stage.thermal ∧
        (∀ c : Fin 32, chan t c = if 16 ≤ c.val then chan s c
          else makeUnavailable 9 ((chan s c).state == .diag && bit s.diag.latched c) (chan s c)) ∧
        (s.diag.state = .idle → t = { (if s.stage.stage = pv then s else raise s 124 (code + mv % 65536 * 65536)) with
          stage := t.stage })) ∧
    (∀ (cause : Nat) held x, x.state ≠ .member → (makeUnavailable cause held x).state = .unavailable ∧
      (makeUnavailable cause held x).cause = cause) ∧
    (∀ mv, 4200 ≤ mv → mv ≤ 27500 → exec (.pvddFault mv) s = .next s) ∧
    (∀ mv, 4500 ≤ mv → mv ≤ 27000 → coreOn s = true → s.stage.pv ≠ .available → s.stage.stage ≠ .available →
      s.stage.thermal = false → s.stage.linkDown = false →
      ∃ t, exec (.pvddAvailable mv) s = .next t ∧
        t = { raise s 124 (1 + mv % 65536 * 65536) with stage := t.stage, events := t.events } ∧ t.stage.stage = .available ∧
        t.stage.pv = .available ∧ t.stage.pvdd = mv ∧
        ((∀ c : Fin 16, (chan s c).held = false) → t.events = (raise s 124 (1 + mv % 65536 * 65536)).events) ∧
        ∀ c : Fin 32, chan t c = if c.val < 16 ∧ (chan s c).state = .unavailable then
          (if (chan s c).held then { chan s c with state := .latched, held := false }
           else { chan s c with state := if (chan s c).waiting then .faultWait else .off, waiting := false })
          else chan s c) ∧
    (∀ mv, 4500 ≤ mv → mv ≤ 27000 → coreOn s = true → s.stage.pv ≠ .available → s.stage.stage ≠ .available →
      s.stage.stage ≠ .thermal → s.stage.thermal = true →
      exec (.pvddAvailable mv) s = .next (raise { s with stage := { s.stage with
        pvdd := mv, pv := .available, stage := .thermal } } 124 (3 + mv % 65536 * 65536))) ∧
    (∀ mv, (mv < 4500 ∨ 27000 < mv) → exec (.pvddAvailable mv) s = .next s) ∧
    (1650 ≤ bridgeT s → s.stage.thermal = false → bridgeOn s = true →
      ∃ t, exec .thermalShutdown s = .next t ∧ t.stage.thermal = true ∧
        t.stage.stage = (if s.stage.pv = .available then .thermal else s.stage.pv) ∧
        (s.diag.state = .idle → s.stage.pv = .available → s.stage.stage = .available →
          t = { raise (raise s 124 (3 + s.stage.pvdd % 65536 * 65536)) 125 (2 + ofSigned 16 (bridgeT s) * 65536) with
            stage := t.stage }) ∧
        (∀ c : Fin 32, c.val < 16 → ((chan s c).state = .starting ∨ (chan s c).state = .play) →
          (chan t c).state = .stopping ∧ (chan t c).seqMs = 1 ∧ (chan t c).stopTo = .unavailable ∧ (chan t c).cause = 8) ∧
        (∀ c : Fin 32, (16 ≤ c.val ∨ ((chan s c).state ≠ .starting ∧ (chan s c).state ≠ .play)) → chan t c = chan s c)) ∧
    ((bridgeT s < 1650 ∨ bridgeOn s = false) → exec .thermalShutdown s = .next s) ∧
    (bridgeT s < 1400 → s.stage.thermal = true → s.stage.pv = .available → s.stage.stage = .thermal → bridgeOn s = true →
      s.stage.linkDown = false → (∀ c : Fin 16, (chan s c).held = false) →
      ∃ t, exec .thermalRecover s = .next t ∧
        t = { raise s 124 (1 + s.stage.pvdd % 65536 * 65536) with stage := t.stage } ∧ t.stage.stage = .available ∧
        t.stage.thermal = false ∧
        ∀ c : Fin 32, chan t c = if c.val < 16 ∧ (chan s c).state = .unavailable then
          { chan s c with state := if (chan s c).waiting then .faultWait else .off, waiting := false } else chan s c) ∧
    (bridgeT s < 1400 → s.stage.thermal = true → s.stage.pv ≠ .available → s.stage.stage = s.stage.pv → bridgeOn s = true →
      exec .thermalRecover s = .next { s with stage := { s.stage with thermal := false } }) ∧
    ((1400 ≤ bridgeT s ∨ bridgeOn s = false) → exec .thermalRecover s = .next s)

/-- R344, R345, R347, R348, R349, R350, R354: a sweep starts at the first boundary at which its channels rest, slots follow
one another after 825 blocks with a record each, a channel that the rise shorted takes no slot (ChannelFaultRowsAct), and the end
raises EV095 and replies. -/
def Obligations.DiagnosticRowsAct : Prop :=
  ∀ (s : State) d, d = s.diag → s.stage.chans.length = 32 →
    (s.cycle = 0 → s.power.mode = .active → leavingActive s = false → s.stage.stage = .available → testMode s = false →
      d.state = .waiting → bsnReached s.bsn d.since = true → (∀ h : Fin 16, bit d.mask h = true → atRest (chan s h).state = true) →
      ∃ t, exec .diagSweepStart s = .next t ∧ t = { s with stage := t.stage, diag := t.diag } ∧
        t.diag.state = (if sweepSe s then .phase1 else .testing) ∧ t.diag.start = s.bsn ∧ t.diag.since = s.bsn ∧
        t.diag.mask = d.mask ∧ t.diag.tests = d.tests ∧ t.diag.recs = List.replicate 16 {} ∧ t.diag.sums = {} ∧
        ∀ h : Fin 32, chan t h = if h.val < 16 ∧ bit d.mask h = true then hiZ .diag (chan s h) else chan s h) ∧
    (s.cycle = 0 → s.power.mode = .active → leavingActive s = false → s.stage.stage = .available → testMode s = false →
      d.state = .idle → d.bootDue = true →
      ∃ t, exec .diagSweepStart s = .next t ∧ t = { s with stage := t.stage, diag := t.diag } ∧ t.diag.tests = 3 ∧
        t.diag.bootDue = false ∧ t.diag.start = s.bsn ∧ ∀ h : Fin 32, chan t h =
          if h.val < 16 ∧ leads s h = true then hiZ .diag (chan s h) else chan s h) ∧
    ((s.cycle ≠ 0 ∨ leavingActive s = true) → exec .diagSweepStart s = .next s) ∧
    (d.state = .phase1 → s.cycle = 0 → bsnReached s.bsn (d.since + 400#40) = true →
      exec (.diagBiasRiseEnd ()) s = .next (nextSlot s (d.since + 400#40))) ∧
    (∀ b h rest, d.todo = h :: rest → nextSlot s b = { s with diag := { d with
      cur := some h, todo := rest, sums := {}, since := b, state := .testing } }) ∧
    (∀ b, d.todo = [] → nextSlot s b = { s with diag := { d with
      cur := none, since := b, state := if sweepSe s then .phase3 else .testing } }) ∧
    (d.state ≠ .phase1 → exec (.diagBiasRiseEnd ()) s = .next s) ∧
    (∀ h k rest, d.cur = some h → d.state = .testing → s.cycle = 0 → bsnReached s.bsn (d.since + 825#40) = true →
      d.todo = k :: rest →
      exec (.diagSlotEnd ()) s = .next { s with diag := { d with
        recs := d.recs.set h (slotRecord s h d.sums), cur := some k, todo := rest, sums := {}, since := d.since + 825#40 } }) ∧
    (∀ h, d.cur = some h → d.state = .testing → s.cycle = 0 → bsnReached s.bsn (d.since + 825#40) = true →
      d.todo = [] →
      exec (.diagSlotEnd ()) s = .next { s with diag := { d with
        recs := d.recs.set h (slotRecord s h d.sums), cur := none, since := d.since + 825#40,
        state := if sweepSe s then .phase3 else .testing } }) ∧
    (d.cur = none → exec (.diagSlotEnd ()) s = .next s) ∧
    (s.cycle = 0 → d.state = .phase3 → bsnReached s.bsn (d.since + 400#40) = true → sweepEndDue s = true) ∧
    (s.cycle = 0 → d.state = .testing → d.cur = none → d.todo = [] → bsnReached s.bsn d.since = true →
      sweepEndDue s = true) ∧
    (∀ h, s.cycle = 0 → d.state = .testing → d.cur = some h → d.todo = [] → s.bsn = d.since + 825#40 → sweepSe s = false →
      sweepEndDue s = true) ∧
    (∀ p o, sweepEndDue s = true → slotOver s = none → (findJobs s isDiag).head? = some (p, o) →
      ∃ u, exec .diagSweepEnd s = .next (finalReply (raise u 95 (d.mask + okMask d * 65536)) p o.tag o.op
          (if d.failed then .fault else if d.aborted then .aborted else .ok)
          (bsn8 d.start ++ bsn8 s.bsn ++ u16 d.mask ++ u16 (okMask d))) ∧
        u = { s with stage := u.stage, events := u.events, diag := { d with state := .idle, cur := none, todo := [], ended := s.bsn } } ∧
        (d.latched = 0 → u.events = s.events) ∧
        ∀ h : Fin 32, chan u h = if h.val < 16 ∧ bit d.mask h = true ∧ (chan s h).state = .diag then
          { chan s h with state := if bit d.latched h then .latched else .off } else chan s h) ∧
    (sweepEndDue s = true → slotOver s = none → d.latched = 0 → findJobs s isDiag = [] →
      ∃ u, exec .diagSweepEnd s = .next (raise u 95 (d.mask + okMask d * 65536)) ∧
        u = { s with stage := u.stage, diag := { d with state := .idle, cur := none, todo := [], ended := s.bsn } }) ∧
    (∀ h, sweepEndDue s = true → slotOver s = some h →
      exec .diagSweepEnd s = .next (sweepFinish (nextSlot { s with diag := { d with
        recs := d.recs.set h (slotRecord s h d.sums) } } (d.since + 825#40)) s.bsn)) ∧
    (sweepEndDue s = false → exec .diagSweepEnd s = .next s)

/-- R507, R508, R509, R510, R511, R512: a scan counts toward calibration or a touch, a hold and an overlong touch are
reported, eight scans below −T_ON set B to RAW and calibrate, a changed word calibrates its electrode at the next scan, one after the running one, and EN = 0 is OFF, and a new slider word
clears the slider. -/
def Obligations.TouchRowsAct : Prop :=
  ∀ (s : State),
    (∀ raws, s.touch.scanning = true → bsnReached s.bsn s.touch.next = true →
      usPassed s (100 * (enabledEls s).length) s.touch.next 0 = true → s.touch.els.length = 12 →
      ∃ t, exec (.touchScan raws) s = .next t ∧
        t = { s with touch := t.touch, events := t.events, spi := t.spi, addrA := t.addrA, addrB := t.addrB } ∧
        t.touch.next = s.touch.next + BitVec.ofNat 40 (4 * scanMs s) ∧ t.touch.keys = s.touch.keys ∧
        (∀ n : Fin 12, tchEn s n = false → elAt t n = elAt s n) ∧
        (∀ (n : Fin 12) e, tchEn s n = true → e = elAt s n → e.late = true → e.recal = false → e.fresh = false →
          elAt t n = { e with late := false }) ∧
        (∀ (n : Fin 12) e raw, tchEn s n = true → e = elAt s n → raw = min 0xFFFF (raws.getD n 0) → e.recal = false →
          e.fresh = false → e.late = false → raw ≠ 0xFFFF → e.state = .calibrating → e.calN < 15 →
          elAt t n = { e with raw := raw, ffRun := 0, okRun := e.okRun + 1, calN := e.calN + 1, calSum := e.calSum + raw }) ∧
        (∀ (n : Fin 12) e raw, tchEn s n = true → e = elAt s n → raw = min 0xFFFF (raws.getD n 0) → e.recal = false →
          e.fresh = false → e.late = false → raw ≠ 0xFFFF → e.state = .calibrating → e.calN = 15 →
          elAt t n = { e with
            raw := raw, ffRun := 0, okRun := e.okRun + 1, state := .idle, calN := 0, calSum := 0,
            base := (roundHalfEven (e.calSum + raw : Nat) 16).toNat * 256 }) ∧
        (∀ (n : Fin 12) e raw, tchEn s n = true → e = elAt s n → raw = min 0xFFFF (raws.getD n 0) → e.recal = false →
          e.fresh = false → e.late = false → raw ≠ 0xFFFF → e.state = .idle → (tOn s n + e.base / 256 + 1) ≤ raw →
          onCnt s ≤ e.onRun + 1 →
          elAt t n = { e with
            raw := raw, ffRun := 0, okRun := e.okRun + 1, state := .touched, at_ := s.bsn, cyc := s.cycle, held := false,
            onRun := 0, offRun := 0, negRun := 0 }) ∧
        (∀ (n : Fin 12) e raw, tchEn s n = true → e = elAt s n → raw = min 0xFFFF (raws.getD n 0) → e.recal = false →
          e.fresh = false → e.late = false → raw ≠ 0xFFFF → e.state = .idle → (raw + tOn s n) * 256 ≤ e.base → 1 ≤ onCnt s → 1 ≤ tOn s n →
          7 ≤ e.negRun → elAt t n = { elCalibrate { e with raw := raw, ffRun := 0 } with base := raw * 256 })) ∧
    (∀ raws, s.touch.scanning = false → exec (.touchScan raws) s = .next s) ∧
    (∀ (e : Fin 13) x, e.val ≠ 12 → x = elAt s e → x.state = .touched → inSlider s e = false → x.held = false →
      usPassed s (holdUs s) x.at_ x.cyc = true →
      exec (.gestureHold e) s = .next (raise (modEl s e (fun x => { x with held := true })) 113 (e.val + 32))) ∧
    (s.touch.slider.touched = true → s.touch.slider.held = false →
      usPassed s (holdUs s) s.touch.slider.at_ s.touch.slider.cyc = true →
      exec (.gestureHold 12) s = .next (raise { s with touch := { s.touch with
        slider := { s.touch.slider with held := true } } } 113 (47 + s.touch.slider.pos * 256))) ∧
    (s.touch.slider.held = true → exec (.gestureHold 12) s = .next s) ∧
    (∀ (e : Fin 12) x, x = elAt s e → x.state = .touched → maxOn s ≠ 0 →
      usPassed s (maxOn s * 1000000) x.at_ x.cyc = true →
      ∃ u, exec (.touchMaxOn e) s = .next (raise u 114 (e.val + 16)) ∧ elAt u e = elCalibrate x ∧ u.regs = s.regs ∧
        (∀ n, n ≠ e.val → elAt u n = elAt s n) ∧ (inSlider s e = false → u.touch.slider = s.touch.slider)) ∧
    (∀ e : Fin 12, maxOn s = 0 → exec (.touchMaxOn e) s = .next s) ∧
    (∀ (e : Fin 12) value v w, v = Nat.land value.toNat (Reg.tchCfg e).mask → w = rd s (.tchCfg e) →
      (Reg.tchCfg e).rangeOk s v = true → coreOn s = true →
      (s.touch.scanning = false → exec (.touchConfigChange e value) s = .next (wr s (.tchCfg e) v)) ∧
      (s.touch.scanning = true → bit w 0 = false → bit v 0 = true →
        exec (.touchConfigChange e value) s = .next (modEl (wr s (.tchCfg e) v) e (fun x => { elCalibrate x with
          late := scanRuns s }))) ∧
      (s.touch.scanning = true → bit w 0 = true → bit v 0 = true → w ≠ v →
        exec (.touchConfigChange e value) s = .next (modEl (wr s (.tchCfg e) v) e (fun x => { x with
          fresh := true, late := if x.recal || x.fresh then x.late else scanRuns s }))) ∧
      (s.touch.scanning = true → bit w 0 = true → bit v 0 = false →
        ∃ t, exec (.touchConfigChange e value) s = .next t ∧ elAt t e = {} ∧
          t = { wr s (.tchCfg e) v with
            touch := t.touch, events := t.events, spi := t.spi, addrA := t.addrA, addrB := t.addrB } ∧
          ∀ n, n ≠ e.val → elAt t n = elAt s n)) ∧
    (∀ (e : Fin 12) value, (Reg.tchCfg e).rangeOk s (Nat.land value.toNat (Reg.tchCfg e).mask) = false →
      exec (.touchConfigChange e value) s = .next s) ∧
    (∀ value v u, coreOn s = true → v = Nat.land value.toNat Reg.sldCfg.mask → Reg.sldCfg.rangeOk s v = true → rd s .sldCfg ≠ v →
      u = (if s.touch.slider.touched then sliderRelease s else s) →
      exec (.sliderConfigChange value) s = .next (wr { u with touch := { u.touch with slider := {
        late := scanRuns s } } } .sldCfg v)) ∧
    (∀ value, Reg.sldCfg.rangeOk s (Nat.land value.toNat Reg.sldCfg.mask) = true →
      rd s .sldCfg = Nat.land value.toNat Reg.sldCfg.mask → exec (.sliderConfigChange value) s = .next s) ∧
    (∀ value, Reg.sldCfg.rangeOk s (Nat.land value.toNat Reg.sldCfg.mask) = false →
      exec (.sliderConfigChange value) s = .next s)

/-- R513, R514: a confirmed press and release of a key are counted and raise EV116, a long press EV117 once, up to the 5 ms from
S to C earlier for a key that the boot found pressed (log entry 48); in SHIP a key only wakes. -/
def Obligations.KeyRowsAct : Prop :=
  ∀ (s : State) (k : Fin 6) x, x = keyAt s k →
    (x.pressed = false → keysWatched s = true → keyEn s k = true →
      exec (.keyPress k) s = .next (raise (modKey s k (fun x => { x with
        pressed := true, long := false, bootHeld := false, presses := bump 0xFFFF x.presses, since := s.bsn,
        cyc := s.cycle })) 116 (k.val + 8))) ∧
    (x.pressed = false → keysWatched s = true → keyEn s k = false →
      exec (.keyPress k) s = .next (modKey s k (fun x => { x with
        pressed := true, long := false, bootHeld := false, presses := bump 0xFFFF x.presses, since := s.bsn,
        cyc := s.cycle }))) ∧
    (s.power.mode = .ship → s.power.boot ≠ .released → exec (.keyPress k) s = .next s ∧ exec (.keyRelease k) s = .next s ∧
      exec (.keyLong k) s = .next s) ∧
    (x.pressed = true → keysWatched s = true → keyEn s k = true →
      exec (.keyRelease k) s = .next (raise (modKey s k (fun x => { x with
        pressed := false, long := false, bootHeld := false })) 116 (k.val + b2n x.bootHeld * 16))) ∧
    (x.pressed = true → keysWatched s = true → keyEn s k = true → x.long = false → keyLongUs s k ≠ 0 →
      (x.bootHeld = true → s.record.last ≠ 5 → usPassed s (keyLongUs s k - 5000) x.since x.cyc = true) →
      (x.bootHeld = false → usPassed s (keyLongUs s k) x.since x.cyc = true) →
      exec (.keyLong k) s = .next (raise (modKey s k (fun x => { x with long := true })) 117 k.val)) ∧
    (x.long = true → exec (.keyLong k) s = .next s)

/-- R17, R158, R159, R160, R161, R162, R164, R165, R173, R174, R185, R187, R188, R200: a detector's own check, or an armed
injection, makes a fault; a replay class stops the engine and its task waits for its replay, a bad bank word acts by the kind
of word read, a decimator's sample is held, a finger that fails its check waits for the next carrier period and the third one
latches its channel; an injection is spent and replied; a unit without power detects nothing. -/
def Obligations.FaultRowsAct : Prop :=
  ∀ (s : State),
    (∀ r, unitPowered s r.suspect.kind = false → exec (.faultDetect r) s = .next s) ∧
    (∀ r, unitPowered s r.suspect.kind = true → r.cls ≠ .finger → r.cls ≠ .selfTest →
      exec (.faultDetect r) s = .next (detect s r)) ∧
    (∀ r, unitPowered s r.suspect.kind = true → r.cls = .selfTest →
      exec (.faultDetect r) s = .next
        (if isSpare s r.suspect = true ∧ (foundClass s r).isSome = true then spareFails s r.suspect else s)) ∧
    (∀ r, (r.cls ≠ .tag ∨ ∀ b, r.word ≠ .signal b) → trueSuspect s r = r) ∧
    (∀ r q, q = trueSuspect s (ownEngine r) →
      ((suspectKinds q.cls).contains q.suspect.kind = false ∨ unitOk q.suspect = false ∨ unitOk q.reporter = false →
        detect s r = s) ∧
      ((suspectKinds q.cls).contains q.suspect.kind = true → unitOk q.suspect = true → unitOk q.reporter = true →
        (∀ c, foundClass s q = some c → detect s r = faultFound s (reportOf s q c) false) ∧
        (∀ x, foundClass s q = none → injectionFor s q = some x → detect s r = faultFound (injectSpent s x) q true) ∧
        (foundClass s q = none → injectionFor s q = none → detect s r = s))) ∧
    (∀ r, (∀ l, (r.cls = .residue ∨ r.cls = .decResidue) → r.found = .macs l →
        foundClass s r = if residueFails l = true then some r.cls else none) ∧
      (∀ a b, r.cls = .unitCompare → r.found = .copies a b → foundClass s r = if a ≠ b then some r.cls else none) ∧
      (∀ a v, r.cls = .lbufUe → r.found = .localWord a v →
        foundClass s r = if localErrors v = 2 then some r.cls else none) ∧
      (∀ ws n, r.cls = .moveCheck → r.found = .transfer ws n →
        foundClass s r = if ws.any parityFails = true ∨ ws.length ≠ n then some r.cls else none) ∧
      (∀ ws n, r.cls = .portParity → r.found = .transfer ws n →
        foundClass s r = if ws.any parityFails = true then some r.cls else none) ∧
      (∀ n, r.cls = .bankWait → r.found = .waited n → foundClass s r = if 1024 < n then some r.cls else none) ∧
      (∀ bytes, r.cls = .descriptor → r.found = .descriptor bytes →
        foundClass s r = if descriptorOk bytes = false then some r.cls else none) ∧
      (∀ bank addr flips i tag, (r.cls = .bankUe ∨ r.cls = .tag) → r.found = .bankWord bank addr flips i tag → bank < 18 →
        (wordFails s bank addr (toggled (flipsOf s bank addr) flips) = true → foundClass s r = some .bankUe) ∧
        (∀ b, wordFails s bank addr (toggled (flipsOf s bank addr) flips) = false → r.word = .signal b →
          foundClass s r = if (wantedTag s (s.drover.block.getD 0#40) b i).any (fun t => t != tag) = true
            then some .tag else none))) ∧
    (∀ u me i x rep w, u.bind engineOf = some (me, i) → (engineAt s.drover me i).phase = .busy →
      (engineAt s.drover me i).run = some x →
      w = countCycles (strayWrites s (activeImage s) (s.drover.block.getD 0#40) x.task
        (ranOut s (engineAt s.drover me i) x.task) true) x (engineAt s.drover me i).since →
      stopTask s u rep = ({ w with
        drover := { modEngine w.drover me i (fun e => { e with phase := .stop, run := none, since := s.cycle }) with
          waiting := (modEngine w.drover me i (fun e => { e with
            phase := .stop, run := none, since := s.cycle })).waiting ++
              [({ x with tried := x.tried ++ [i] }, rep && decide (x.attempt < 2))] } }, some x.task)) ∧
    (∀ r inj, replays r.cls = true →
      (r.cls ≠ .portParity → r.cls ≠ .bankWait →
        faultFound s r inj = sendReport (stopTask s r.engine true).1 r inj (stopTask s r.engine true).2) ∧
      (∀ x, (r.cls = .portParity ∨ r.cls = .bankWait) → (stopTask s r.engine true).2 = some x →
        faultFound s r inj = sendReport { (stopTask s r.engine true).1 with
          drover := { (stopTask s r.engine true).1.drover with
            bankHold := (stopTask s r.engine true).1.drover.bankHold ++ [(x, r.suspect.index)] } } r inj (some x))) ∧
    (∀ r inj u i, (r.cls = .bankUe ∨ r.cls = .tag) →
      u = (if r.cls = .bankUe then modBank (readLeaves s r r.cls) r.suspect.index (fun k => { k with ue := bump 0xFFFF k.ue })
        else readLeaves s r r.cls) →
      (∀ b, r.word = .signal b →
        faultFound s r inj = sendReport (stopTask u r.engine false).1 r inj (stopTask u r.engine false).2) ∧
      (r.word = .state → runningInst u r.engine = some i →
        faultFound s r inj = sendReport (stopTask { u with graph := { u.graph with reload := i :: u.graph.reload } } r.engine
          false).1 r inj (stopTask { u with graph := { u.graph with reload := i :: u.graph.reload } } r.engine false).2) ∧
      (r.word = .line → runningInst u r.engine = some i →
        faultFound s r inj = sendReport (blankLine u i) r inj none)) ∧
    (∀ r bank addr flips i tag, r.found = .bankWord bank addr flips i tag →
      readLeaves s r .bankUe = poison s bank addr) ∧
    (∀ r inj, r.cls = .decResidue → faultFound s r inj = { s with health := { s.health with
      holds := s.health.holds ++ [(r.suspect.index, frameOf s)],
      reports := s.health.reports ++ [⟨r, inj, s.bsn, s.cycle, none⟩] } }) ∧
    (∀ (x : Injection) p o, (findJobs s (isInject x.id)).head? = some (p, o) →
      injectSpent s x = finalReply { s with health := { s.health with
        inject := s.health.inject.filter (fun y => y.id != x.id) } } p o.tag o.op .ok (bsn8 s.bsn ++ leBytes 4 s.cycle)) ∧
    (∀ (hb : Fin 16) (f : Fin 8) rep e w gate cycles,
      exec (.faultDetect ⟨.finger, ⟨.finger, hb, f⟩, rep, e, w, .shares gate cycles⟩) s =
        exec (.fingerFail hb ⟨f, gate, cycles⟩) s) ∧
    (∀ (hb : Fin 16) rep, unitPowered s .finger = false ∨ fingerChecks s hb rep.finger rep.gate rep.cycles = false →
      exec (.fingerFail hb rep) s = .next s) ∧
    (∀ (hb : Fin 16) (f : Fin 8) gate cycles, (s.health.fingers.getD hb []).contains f.val = false →
      fingerChecks s hb f gate cycles =
        (gate || (cycles.length == 64 && cycles.all (shareOff (s.health.fingers.getD hb []) f)))) ∧
    (∀ (hb : Fin 16) rep out due t u, unitPowered s .finger = true →
      fingerChecks s hb rep.finger rep.gate rep.cycles = true → out = s.health.fingers.getD hb [] →
      due = s.health.fingerDue.filter (fun d => d.hb == hb.val) →
      t = { s with health := { s.health with
        reports := s.health.reports ++ [⟨⟨.finger, ⟨.finger, hb, rep.finger⟩, ⟨.finger, 0, 0⟩, none, .none, .none⟩, false,
          s.bsn, s.cycle, none⟩] } } →
      u = { t with health := { t.health with fingerDue := s.health.fingerDue ++ [⟨hb, rep.finger, none, false⟩] } } →
      (due.any (fun d => d.finger == rep.finger.val) = true → exec (.fingerFail hb rep) s = .next t) ∧
      (due.any (fun d => d.finger == rep.finger.val) = false →
        exec (.fingerFail hb rep) s = .next (if out.length + due.length = 2 then fingerLatch u hb else u))) ∧
    (∀ (oe : Fin 56) u r e, u = (⟨.oe, oe, 0⟩ : UnitRef) → r = (⟨.watchdog, u, u, some u, .none, .none⟩ : FaultReport) →
      e = engineAt s.drover false oe →
      (e.phase = .busy → e.since + 17 + 16384 + e.waits = s.cycle →
        exec (.watchdogExpire oe) s = .next (faultFound s r false)) ∧
      (e.phase = .busy → e.since + 17 = s.cycle →
        exec (.watchdogExpire oe) s = .next (match injectionFor s r with
          | some x => faultFound (injectSpent s x) r true
          | none => s)) ∧
      (e.phase ≠ .busy ∨ (e.since + 17 ≠ s.cycle ∧ e.since + 17 + 16384 + e.waits ≠ s.cycle) →
        exec (.watchdogExpire oe) s = .next s)) ∧
    (∀ (bank : Fin 18) u r me i e, engineOf u = some (me, i) → e = engineAt s.drover me i →
      r = (⟨.bankWait, ⟨.bank, bank, 0⟩, ⟨.bank, bank, 0⟩, some u, .none, .waited (s.cycle - e.since)⟩ : FaultReport) →
      (e.phase = .busy → e.since + 1024 < s.cycle → exec (.bankWaitTimeout bank u) s = .next (faultFound s r false)) ∧
      (e.phase = .busy → s.cycle ≤ e.since + 1024 →
        exec (.bankWaitTimeout bank u) s = .next (match injectionFor s r with
          | some x => faultFound (injectSpent s x) r true
          | none => s)) ∧
      (e.phase ≠ .busy → exec (.bankWaitTimeout bank u) s = .next s)) ∧
    (∀ (bank : Fin 18) u, engineOf u = none → exec (.bankWaitTimeout bank u) s = .next s)

/-- R164, R166, R167, R168, R169, R170, R171, R175, R179, R183, R200: the reports of a cycle enter the fault table with
EV019, a real one with an incident and a strike, and their tasks join the replay queue; a scrubbed word counts its errors
and triggers its bank at its limits; a port reset and a strike end in their time. -/
def Obligations.FaultTableRowsAct : Prop :=
  ∀ (s : State),
    (s.health.reports = [] → exec .faultTableEntry s = .next s) ∧
    (∀ r rest, s.health.reports = r :: rest →
      exec .faultTableEntry s = .next (enterKeys 8
        { s with health := { s.health with
          reports := s.health.reports.filter (fun x => !(x.bsn == r.bsn && x.cycle == r.cycle)) } }
        (s.health.reports.filter (fun x => x.bsn == r.bsn && x.cycle == r.cycle)) [])) ∧
    (∀ r t, s.health.reports = [r] → t = { s with health := { s.health with reports := [] } } →
      exec .faultTableEntry s = .next (joinReplays (enterKey t r [] (keyTasks t [r] [])) (keyTasks t [r] []))) ∧
    (∀ r rs i, s.health.table.findIdx? (fun x => match x with
        | some e => e.cls == r.rep.cls && e.suspect == r.rep.suspect
        | none => false) = some i →
      enterTable s r rs = { s with health := { s.health with table := modAt s.health.table i (fun x =>
        x.map (fun e => { e with count := min 65535 (e.count + (rs.length + 1)), last := r.bsn })) } }) ∧
    (∀ r rs i f, s.health.table.findIdx? (fun x => match x with
        | some e => e.cls == r.rep.cls && e.suspect == r.rep.suspect
        | none => false) = none → s.health.table.findIdx? Option.isNone = some i → f = firstReport r rs →
      ∃ h, enterTable s r rs = raiseAt { s with health := h } 19
          (i + faultCode r.rep.cls * 256 + unitCode r.rep.suspect.kind * 4096 + r.rep.suspect.index * 65536 +
            r.rep.suspect.finger * 16777216 + b2n f.injected * 134217728) r.bsn r.cycle ∧
        h.table = s.health.table.set i (some {
          cls := r.rep.cls, suspect := r.rep.suspect, injected := f.injected, count := min 65535 (rs.length + 1),
          first := f.rep.reporter, bsn := r.bsn, cycle := r.cycle, last := r.bsn, replays := 0 })) ∧
    (∀ r rs t, s.health.table.findIdx? (fun x => match x with
        | some e => e.cls == r.rep.cls && e.suspect == r.rep.suspect
        | none => false) = none → s.health.table.findIdx? Option.isNone = none →
      t = { s with health := { s.health with overflow := bump 0xFFFF s.health.overflow, ovfRaised := true } } →
      enterTable s r rs = if s.health.ovfRaised then t else raiseAt t 20
        (faultCode r.rep.cls + unitCode r.rep.suspect.kind * 16 + r.rep.suspect.index * 256) r.bsn r.cycle) ∧
    (∀ u cls b t, t = { s with health := { s.health with
        incidents := (u, b) :: s.health.incidents.filter (fun x => x.1 != u) } } →
      (∀ l, s.health.incidents.find? (fun x => x.1 == u) = some (u, l) → bsnSince b l ≤ 64 →
        incident s u cls b = t) ∧
      ((∀ x, s.health.incidents.find? (fun x => x.1 == u) = some x → 64 < bsnSince b x.2) → u.kind = .finger →
        incident s u cls b = t) ∧
      (∀ v, (∀ x, s.health.incidents.find? (fun x => x.1 == u) = some x → 64 < bsnSince b x.2) → u.kind ≠ .finger →
        v = (if u.kind = .bank then
            modBank { t with health := { t.health with strikes := s.health.strikes ++ [(u, b)] } } u.index
              (fun k => { k with fired := false, resetDone := false })
          else { t with health := { t.health with strikes := s.health.strikes ++ [(u, b)] } }) →
        incident s u cls b = if s.health.cfg.strikeLimit ≤ strikesOf v u then limitReached v u cls else v)) ∧
    (∀ r rs ts, (r :: rs).any (fun x => !x.injected) = false →
      (enterKey s r rs ts).health.strikes = s.health.strikes ∧ (enterKey s r rs ts).health.incidents = s.health.incidents) ∧
    (∀ b, (bankAt s b).reset.isSome = true → portReset s b = s) ∧
    (∀ b, (bankAt s b).reset = none → portReset s b = modBank s b (fun k => { k with reset := some (s.bsn, s.cycle) })) ∧
    (∀ b, portAction s b false = portReset s b ∧
      ((bankAt s b).resetDone = false →
        portAction s b true = portReset (modBank s b (fun k => { k with resetDone := true })) b) ∧
      ((bankAt s b).resetDone = true → (bankAt s b).reset.isSome = true → portAction s b true = s) ∧
      ((bankAt s b).resetDone = true → (bankAt s b).reset = none → portAction s b true =
        { s with drover := { s.drover with bankHold := s.drover.bankHold.filter (fun x => x.2 != b) } })) ∧
    (∀ (b : Fin 18) n c, (bankAt s b).reset = some (n, c) →
      (128 ≤ cyclesSince s n c → exec (.portResetDone b) s = .next { modBank s b (fun k => { k with reset := none }) with
        drover := { s.drover with bankHold := s.drover.bankHold.filter (fun x => x.2 != b.val) } }) ∧
      (cyclesSince s n c < 128 → exec (.portResetDone b) s = .next s)) ∧
    (∀ (b : Fin 18), (bankAt s b).reset = none → exec (.portResetDone b) s = .next s) ∧
    (∀ (b : Fin 18) l, (ckSys s = false ∨ bankBusy s b = true ∨ scrubDue s b = none) →
      exec (.scrubRead b l) s = .next s) ∧
    (∀ b, bankBusy s b = (bankAt s b).reset.any (fun x => decide (cyclesSince s x.1 x.2 < 128))) ∧
    (∀ (b : Fin 18) l due, ckSys s = true → bankBusy s b = false → scrubDue s b = some due →
      (∀ x, bankInjection s .portParity b = some x → exec (.scrubRead b l) s = .next (sendReport (injectSpent s x)
        ⟨.portParity, ⟨.bank, b, 0⟩, ⟨.bank, b, 0⟩, none, .none, .none⟩ true none)) ∧
      (∀ w t n f, bankInjection s .portParity b = none → w = (bankAt s b).next →
        t = modBank s b (fun k => { k with scrubAt := some due }) → f = toggled (flipsOf t b w) l → n = f.length →
        (wordFails t b w f = false → bankInjection t .bankUe b = none → n = 2 →
          exec (.scrubRead b l) s = .next (ce2Outcome (scrubNext (setFlips t b w []) b n) b)) ∧
        (wordFails t b w f = false → bankInjection t .bankUe b = none → n < 2 →
          exec (.scrubRead b l) s = .next (scrubNext (setFlips t b w []) b n)) ∧
        (wordFails t b w f = true →
          exec (.scrubRead b l) s = .next (sendReport
            (modBank (scrubNext (poison t b w) b 0) b (fun k => { k with ue := bump 0xFFFF k.ue }))
            ⟨.bankUe, ⟨.bank, b, 0⟩, ⟨.bank, b, 0⟩, none, .none, .none⟩ false none)) ∧
        (∀ x, wordFails t b w f = false → bankInjection t .bankUe b = some x →
          exec (.scrubRead b l) s = .next (sendReport
            (modBank (injectSpent (scrubNext (poison t b w) b 0) x) b (fun k => { k with ue := bump 0xFFFF k.ue }))
            ⟨.bankUe, ⟨.bank, b, 0⟩, ⟨.bank, b, 0⟩, none, .none, .none⟩ true none)))) ∧
    (∀ (b : Fin 18) k, k = bankAt s b →
      (∀ n, n ≠ 1 → k.next + 1 < 49152 → scrubNext s b n = modBank s b (fun k => { k with next := k.next + 1 })) ∧
      (k.next + 1 < 49152 → k.curCe + 1 < s.health.cfg.passLimit ∨ k.passDone = true →
        scrubNext s b 1 = modBank s b (fun k => { k with
          ce1 := bump 0xFFFFFFFF k.ce1, curCe := k.curCe + 1, next := k.next + 1 })) ∧
      (∀ n, n ≠ 1 → 49152 ≤ k.next + 1 → scrubNext s b n = modBank s b (fun k => { k with
        curCe := 0, passCe := min 0xFFFF k.curCe, passDone := false, next := 0 })) ∧
      (k.next + 1 < 49152 → s.health.cfg.passLimit ≤ k.curCe + 1 → k.passDone = false →
        scrubNext s b 1 = triggerOnce { modBank s b (fun k => { k with
          ce1 := bump 0xFFFFFFFF k.ce1, curCe := k.curCe + 1, passDone := true, next := k.next + 1 }) with
            free := s.free + 1 } b .pass (1 + Config.freeNat s.free % 13))) ∧
    (∀ (b : Fin 18) live t, live = (bankAt s b).ce2At.filter (fun x =>
        decide (bsnSince s.bsn x < s.health.cfg.window * 14400000)) ++ [s.bsn] →
      t = modBank s b (fun k => { k with
        ce2 := bump 0xFFFFFFFF k.ce2, ce2At := live, ce2Done := decide (s.health.cfg.ce2Limit ≤ live.length) }) →
      (live.length < s.health.cfg.ce2Limit → ce2Outcome s b = t) ∧
      (s.health.cfg.ce2Limit ≤ live.length → (bankAt s b).ce2Done = false ∨ live.length = s.health.cfg.ce2Limit →
        ce2Outcome s b = triggerOnce { t with free := s.free + 1 } b .ce2 (1 + Config.freeNat s.free % 13))) ∧
    (∀ b trig c, incidentOpen s b = true → (bankAt s b).fired = true → triggerOnce s b trig c = s) ∧
    (∀ b trig c x, (bankAt s b).inSvc = true → spareBank s = some x → autoFlag s 1 = true →
      s.health.migQueue.any (fun m => m.src == b) = false → s.health.migration.map (fun m => m.src) ≠ some b →
      bankTrigger s b trig c = { raise s 42 (b + triggerCode trig * 256 + 0 * 65536) with
        health := { (raise s 42 (b + triggerCode trig * 256 + 0 * 65536)).health with
          migQueue := (raise s 42 (b + triggerCode trig * 256 + 0 * 65536)).health.migQueue ++ [⟨b, c, none, false⟩] } }) ∧
    (∀ b trig c t, (bankAt s b).inSvc = false → (bankAt s b).failed = false → s.health.migration = none →
      t = modBank s b (fun k => { k with failed := true }) →
      bankTrigger s b trig c = logRepair (raise t 42 (b + triggerCode trig * 256 + b2n (spareBank t).isNone * 65536)) 2 true b 0 c
        0x3F (bit s.health.cfg.flags 3)) ∧
    (∀ b trig c, (bankAt s b).inSvc = true → spareBank s = none →
      bankTrigger s b trig c = raise s 42 (b + triggerCode trig * 256 + 1 * 65536)) ∧
    exec .strikeExpire s = .next { s with health := { s.health with
      strikes := s.health.strikes.filter (fun x => decide (bsnSince s.bsn x.2 < s.health.cfg.window * 14400000)),
      banks := s.health.banks.map (fun k => { k with
        ce2At := k.ce2At.filter (fun x => decide (bsnSince s.bsn x < s.health.cfg.window * 14400000)) }) } }

/-- R181, R182, R184, R186, R188, R190, R199, R419: an engine at its limit leaves service for a spare that passed its test, a
migration copies and switches with its events, a decimator's replacement runs 4 blocks in parallel, fingers retire, and a
self-test marks its spare. -/
def Obligations.RepairRowsAct : Prop :=
  ∀ (s : State),
    (s.cycle ≠ 0 → exec .engineRetire s = .next s) ∧
    (∀ t, s.cycle = 0 → t = retireForced (retireStruck (retireStruck s false) true) →
      exec .engineRetire s = .next { t with graph := { t.graph with meter := { t.graph.meter with e := enginesE t.drover } } }) ∧
    (s.cycle = 0 → s.health.forced = [] → autoFlag s 0 = false → ∃ t, exec .engineRetire s = .next t ∧
      t.health = s.health ∧ t.events = s.events ∧
      ∀ me k, (engineAt t.drover me k).inSvc = (engineAt s.drover me k).inSvc) ∧
    (∀ (i j : Nat) cls, s.cycle = 0 → s.health.forced = [] → autoFlag s 0 = true → s.drover.oes.length = 56 → i < 56 → i ≠ j →
      (engineAt s.drover false i).leaves = some cls → (∀ k, k ≠ i → (engineAt s.drover false k).leaves = none) →
      (∀ k, (engineAt s.drover true k).leaves = none) → spareOe s = some j →
      ∃ t, exec .engineRetire s = .next t ∧
        t = { s with drover := t.drover, health := t.health, events := t.events, graph := t.graph } ∧
        engineAt t.drover false i = { engineAt s.drover false i with
          phase := if (engineAt s.drover false i).phase = .stop then .stop else .out,
          gone := (engineAt s.drover false i).phase == .stop, run := none, waits := 0, leaves := none } ∧
        (engineAt t.drover false j).phase = .wait ∧ (engineAt t.drover false j).spare = false ∧
        (∀ k, k ≠ i → k ≠ j → engineAt t.drover false k = engineAt s.drover false k) ∧
        t.graph.meter.e = enginesE t.drover) ∧
    (∀ (i cause floor : Nat) log, spareOe s = none →
      retireOe s i cause floor log = if enginesE s.drover < floor + 1 then (s, false)
        else (logRepair { s with drover := modEngine s.drover false i engineLeave } 1 false i 0 cause 0x3F log, true)) ∧
    (∀ (i cause floor : Nat) log,
      retireMe s i cause floor log = if moveEngines s.drover < floor + 1 then (s, false)
        else (logRepair { s with drover := modEngine s.drover true i engineLeave } 5 false i 0 cause 0x3F log, true)) ∧
    (∀ f t r, s.health.forced = [f] → t = { s with health := { s.health with forced := [] } } →
      ((engineAt s.drover f.me f.unit).inSvc = false → retireForced s = forcedLost t (some f.id)) ∧
      ((engineAt s.drover f.me f.unit).inSvc = true →
        r = (if f.me then retireMe t f.unit 0 8 f.log else retireOe t f.unit 0 32 f.log) →
        retireForced s = if r.2 then forcedDone r.1 (some f.id) else forcedLost r.1 (some f.id))) ∧
    (s.cycle ≠ 0 ∨ ckSys s = false ∨ (s.health.migration.isSome = true ∧ mayMigrate s ≠ []) →
      exec .migrationBegin s = .next s) ∧
    (mayMigrate s = s.health.migQueue.filter (fun d => d.forced.isSome || bit s.health.cfg.flags 1)) ∧
    (mayMigrate s = [] → s.cycle = 0 → ckSys s = true →
      exec .migrationBegin s = .next { s with health := { s.health with migQueue := [] } }) ∧
    (∀ d rest, mayMigrate s = d :: rest → s.cycle = 0 → s.health.migration = none → ckSys s = true →
      (∀ x, (bankAt s d.src).inSvc = true → spareBank s = some x →
        exec .migrationBegin s = .next (raise { s with health := { s.health with
          migQueue := rest, migration := some ⟨d.src, x, s.bsn, 0, false, d.cause, d.forced, d.log⟩ } } 40
          (d.src + x * 256))) ∧
      ((bankAt s d.src).inSvc = false ∨ spareBank s = none →
        exec .migrationBegin s = .next (forcedLost { s with health := { s.health with migQueue := rest } } d.forced))) ∧
    (∀ m, s.health.migration = some m →
      (ckSys s = true → m.copied = false → 983040 ≤ m.before * 294912 + cyclesSince s m.begun 0 →
        exec .migrationCopyEnd s = .next (raise { s with health := {
          (modBank s m.dst (fun k => { k with poison := (bankAt s m.src).poison })).health with
            migration := some { m with copied := true } } } 41 (m.src + m.dst * 256))) ∧
      (ckSys s = false ∨ m.copied = true ∨ m.before * 294912 + cyclesSince s m.begun 0 < 983040 →
        exec .migrationCopyEnd s = .next s) ∧
      (m.copied = false ∨ s.cycle ≠ 0 ∨ ckSys s = false → exec .migrationSwitch s = .next s) ∧
      (∀ t, m.copied = true → s.cycle = 0 → ckSys s = true →
        t = modBank (modBank s m.dst (fun k => { k with
            inSvc := true, role := (bankAt s m.src).role, poison := (bankAt s m.src).poison })) m.src
          (fun k => { k with inSvc := false, failed := true, role := none }) →
        exec .migrationSwitch s = .next (forcedDone (logRepair { t with health := { t.health with migration := none } } 2
          false m.src 0 m.cause m.dst (if m.forced.isSome then m.log else bit s.health.cfg.flags 3)) m.forced))) ∧
    (s.health.migration = none → exec .migrationCopyEnd s = .next s ∧ exec .migrationSwitch s = .next s) ∧
    (s.cycle ≠ 0 ∨ ckSys s = false → exec .decimatorParallelStart s = .next s) ∧
    (s.cycle ≠ 0 → exec .decimatorSwitch s = .next s) ∧
    (s.cycle = 0 → ckSys s = true → exec .decimatorParallelStart s = .next (s.health.swaps.foldl swapStart s)) ∧
    (s.cycle = 0 → exec .decimatorSwitch s = .next (s.health.swaps.foldl swapEnd s)) ∧
    (∀ x, (x.begun.isSome = true ∨ decWaits s x.old = true → swapStart s x = s) ∧
      (x.begun = none → decWaits s x.old = false → x.forced = none → autoFlag s 2 = false →
        swapStart s x = { s with health := { s.health with
          swaps := s.health.swaps.filter (fun y => y.old != x.old) } }) ∧
      (∀ n, x.begun = none → decWaits s x.old = false → (x.forced.isSome = true ∨ autoFlag s 2 = true) →
        spareDec s = some n →
        swapStart s x = { s with health := { s.health with swaps := s.health.swaps.map (fun y =>
          if y.old = x.old then { y with new := some n, begun := some s.bsn, last := 0 } else y) } }) ∧
      (x.begun = none → decWaits s x.old = false → (x.forced.isSome = true ∨ autoFlag s 2 = true) → spareDec s = none →
        swapStart s x = forcedLost { s with health := { s.health with
          swaps := s.health.swaps.filter (fun y => y.old != x.old) } } x.forced)) ∧
    (∀ x b, x.begun = some b → bsnReached s.bsn (b + 4#40) = false → swapEnd s x = s) ∧
    (∀ x n, x.new = some n → (decAt s n).failed = true → swapEnd s x = s) ∧
    (∀ x b n, x.begun = some b → x.new = some n → bsnReached s.bsn (b + 4#40) = true → n ≠ x.old →
      (decAt s n).failed = false → n < s.health.decs.length → x.old < s.health.decs.length → x.forced = none →
      ∃ t, swapEnd s x = t ∧ t = { s with health := t.health, events := t.events } ∧
        t.health.swaps = s.health.swaps.filter (fun y => y.old != x.old) ∧
        (decAt t n).inSvc = true ∧ (decAt t x.old).inSvc = false ∧ (decAt t x.old).failed = true ∧
        t.health.decMap = s.health.decMap.map (fun d => if d = x.old then n else d) ∧
        t.health.decFades = s.health.decFades ++ (List.range 22).filterMap (fun k =>
          if s.health.decMap.getD k k = x.old then some ⟨k, s.bsn, x.old, x.last⟩ else none)) ∧
    (∃ t, exec .fingerRetire s = .next t ∧ t.health.fingerDue = [] ∧
      t.health.fingers = s.health.fingerDue.foldl (fun l d => modAt l d.hb (fun x => x ++ [d.finger])) s.health.fingers) ∧
    (∀ d, s.health.fingerDue = [d] → exec .fingerRetire s = .next (forcedDone (logRepair { s with health := { s.health with
      fingerDue := [], fingers := modAt s.health.fingers d.hb (fun l => l ++ [d.finger]) } } 4 false d.hb d.finger
        (if d.forced.isSome then 0 else 12) 0x3F (if d.forced.isSome then d.log else bit s.health.cfg.flags 3)) d.forced)) ∧
    (∀ u x t v pass, s.health.tests.find? (fun y => y.unit == u) = some x → isSpare s u = true →
      16384 ≤ cyclesSince s x.from_.1 x.from_.2 → t = testOver s x →
      v = (if pass = false then spareFails t u
          else if u.kind = .oe then { t with health := { t.health with
            oePassed := u.index :: t.health.oePassed.filter (fun k => k != u.index) } }
          else modDec t u.index (fun d => { d with passed := true })) →
      (x.svc = none → exec (.selfTestEnd u pass) s = .next v) ∧
      (∀ n p o, x.svc = some n → findSeq v n = some (p, o) → exec (.selfTestEnd u pass) s = .next
        (finalReply v p o.tag o.op .ok (u8 (b2n (!pass)) ++ zeros 7 ++ bsn8 x.from_.1)))) ∧
    (∀ x, s.health.tests = [x] → testOver s x = { s with health := { s.health with tests := [] } }) ∧
    (∀ x y, s.health.tests = [x, y] → x ≠ y → x.unit = y.unit → testOver s x = { s with health := { s.health with
      tests := [{ y with from_ := (s.bsn, s.cycle) }] } }) ∧
    (∀ u, (u.kind = .oe ∨ u.kind = .dec) → (u.kind = .dec → u.index < s.health.decs.length) →
      ∃ t, spareFails s u = t ∧ t = { s with drover := t.drover, health := t.health, events := t.events } ∧
        t.health.reports = s.health.reports ++ [⟨⟨.selfTest, u, u, none, .none, .none⟩, false, s.bsn, s.cycle, none⟩] ∧
        (u.kind = .oe → t.health.oeFailed = u.index :: s.health.oeFailed ∧
          t.drover = modEngine s.drover false u.index (fun e => { e with spare := false })) ∧
        (u.kind = .dec → t.drover = s.drover ∧ (decAt t u.index).failed = true ∧ (decAt t u.index).passed = false ∧
          t.health.swaps = s.health.swaps.map (fun x =>
            if x.new = some u.index then { x with new := none, begun := none } else x))) ∧
    (∀ u pass, (s.health.tests.find? (fun y => y.unit == u) = none ∨ isSpare s u = false ∨
        (∀ x, s.health.tests.find? (fun y => y.unit == u) = some x → cyclesSince s x.from_.1 x.from_.2 < 16384)) →
      exec (.selfTestEnd u pass) s = .next s)

/-- R137, R138, R139, R140, R141, R142, R143, R144, R162, R200: a port grants the task its source gives to the next waiting
engine, the kind not granted last where both could be, the lower port first where two take from one list; a task retires
after its cost; held tasks enter their Pen, a ring refills its list, and a stopped engine waits again. -/
def Obligations.SchedulerRowsAct : Prop :=
  ∀ (s : State),
    (∀ (p : Fin 4), portTurn s p = false ∨ portGrant s.drover s.cycle p = none → exec (.taskGrant p) s = .next s) ∧
    (∀ (p : Fin 4) g, portGrant s.drover s.cycle p = some g → lowerFirst s p g.list = true →
      exec (.taskGrant p) s = .next s) ∧
    (∀ (p : Nat), (∀ i src, portOpGrant s.drover s.cycle p = some (i, src) →
        (portMeGrant s.drover s.cycle p = none ∨ (s.drover.ports.getD p ⟨0, 0, .none, none⟩).kind ≠ .op) →
        portGrant s.drover s.cycle p = some (.op i src)) ∧
      (∀ i r, portMeGrant s.drover s.cycle p = some (i, r) →
        (portOpGrant s.drover s.cycle p = none ∨ (s.drover.ports.getD p ⟨0, 0, .none, none⟩).kind = .op) →
        portGrant s.drover s.cycle p = some (.move i r))) ∧
    (∀ (p : Fin 4) i n r rest, portTurn s p = true → portGrant s.drover s.cycle p = some (.op i (.pen n)) →
      lowerFirst s p (.pen n) = false → s.drover.pens.getD n [] = r :: rest →
      exec (.taskGrant p) s = .next (raisePeak { s with free := s.free + 1, drover := { modEngine s.drover false i (fun e => { e with
          phase := .busy, run := some r, since := s.cycle, waits := Config.bankWaits s.free, now := bump 0xFFFF e.now }) with
        pens := modAt s.drover.pens n (fun l => l.drop 1),
        ports := modAt s.drover.ports p (fun q => { q with lastOe := i, kind := .op, at_ := some s.cycle }) } }
        .maxWait (s.cycle - r.ready))) ∧
    (∀ (p : Fin 4) i n r, portTurn s p = true → portGrant s.drover s.cycle p = some (.op i (.replay n)) →
      lowerFirst s p .replay = false → s.drover.replays[n]? = some r →
      exec (.taskGrant p) s = .next { s with
        free := s.free + 1,
        health := { s.health with replays := bump 0xFFFFFFFF s.health.replays },
        drover := { modEngine s.drover false i (fun e => { e with
            phase := .busy, run := some r, since := s.cycle, waits := Config.bankWaits s.free, now := bump 0xFFFF e.now }) with
          replays := s.drover.replays.eraseIdx n,
          flowRep := flowAdd (taskFlow (activeImage s) r.task) s.drover.flowRep,
          ports := modAt s.drover.ports p (fun q => { q with lastOe := i, kind := .op, at_ := some s.cycle }) } }) ∧
    (∀ (p : Fin 4) i r, portTurn s p = true → portGrant s.drover s.cycle p = some (.move i r) →
      lowerFirst s p .moves = false →
      exec (.taskGrant p) s = .next (raisePeak { s with
        free := s.free + 1,
        health := { s.health with replays := if r.attempt = 0 then s.health.replays else bump 0xFFFFFFFF s.health.replays },
        drover := { modEngine s.drover true i (fun e => { e with
            phase := .busy, run := some r, since := s.cycle, waits := Config.bankWaits s.free, now := bump 0xFFFF e.now }) with
          moves := s.drover.moves.drop 1,
          ports := modAt s.drover.ports p (fun q => { q with lastMe := i, kind := .move, at_ := some s.cycle }) } }
        .maxWait (s.cycle - r.ready))) ∧
    (∀ u me i k r, engineOf u = some (me, i) → s.drover.block = some k → (engineAt s.drover me i).phase = .busy →
      (engineAt s.drover me i).run = some r →
      s.cycle = (engineAt s.drover me i).since + 24 + taskCost s (activeImage s) r.task + (engineAt s.drover me i).waits →
      (∀ x f v, taskInjection s me i = some (x, f) → v = faultFound (injectSpent { s with free := s.free + 1 } x) f true →
        exec (.taskRetire u) s = .next (if (engineAt v.drover me i).phase = .busy then
          retireTask v k me i r (engineAt s.drover me i).since else v)) ∧
      (taskInjection s me i = none →
        exec (.taskRetire u) s = .next (retireTask s k me i r (engineAt s.drover me i).since))) ∧
    (∀ k me i r since, ∃ t, retireTask s k me i r since = t ∧
      t = { s with
        drover := t.drover, graph := t.graph, health := t.health, events := t.events, regs := t.regs, rcNow := t.rcNow } ∧
      t.drover.retired = s.drover.retired ++ [r.task] ∧
      t.drover.pens = s.drover.pens ∧ t.drover.moves = s.drover.moves ∧ t.drover.replays = s.drover.replays ∧
      (i < (if me then s.drover.mes.length else s.drover.oes.length) →
        engineAt t.drover me i = { engineAt s.drover me i with
          phase := if (engineAt s.drover me i).gone then .out else .wait, gone := false, run := none, waits := 0 })) ∧
    (∀ u me i r, engineOf u = some (me, i) → (engineAt s.drover me i).run = some r →
      s.cycle ≠ (engineAt s.drover me i).since + 24 + taskCost s (activeImage s) r.task + (engineAt s.drover me i).waits →
      exec (.taskRetire u) s = .next s) ∧
    (∀ u me i, engineOf u = some (me, i) → ((engineAt s.drover me i).phase ≠ .busy ∨ s.drover.block = none) →
      exec (.taskRetire u) s = .next s) ∧
    (∀ h rec p d x, s.drover.admitAt ≠ some s.cycle → nextHeld s = some (h, rec) →
      p = taskPen (activeImage s) h.task → d = { s.drover with held := s.drover.held.erase h, admitAt := some s.cycle } →
      x = penPut d p ⟨h.task, some rec, 0, [], s.cycle, s.cycle, descriptor s (activeImage s) h.task (some rec) 0⟩ →
      exec .heldAdmit s = .next (countPlaced { s with drover := x.1 } p x.2)) ∧
    (nextHeld s = none ∨ s.drover.admitAt = some s.cycle → exec .heldAdmit s = .next s) ∧
    (∀ (p : Fin 32) bad n, n = min 32 (s.drover.rings.getD p []).length → s.drover.rings.getD p [] ≠ [] →
      (s.drover.pens.getD p []).length ≤ 96 →
      exec (.penRefill p bad) s = .next ((List.range n).foldl (refillOne bad) { s with drover := { s.drover with
        pens := modAt s.drover.pens p (fun l => l ++ (List.zip (List.range n) ((s.drover.rings.getD p []).take 32)).map
          (fun x => refilled s (bad.contains x.1) x.2)),
        rings := modAt s.drover.rings p (fun l => l.drop 32) } })) ∧
    (∀ bad i b, b = Config.freeNat s.free % 18 → bankInjection s .descriptor b = none →
      refillOne bad s i = if bad.contains i = true then sendReport { s with free := s.free + 1 }
          ⟨.descriptor, ⟨.bank, b, 0⟩, ⟨.drover, 0, 0⟩, none, .paddock, .none⟩ false none
        else { s with free := s.free + 1 }) ∧
    (∀ (p : Fin 32) bad, s.drover.rings.getD p [] = [] ∨ 96 < (s.drover.pens.getD p []).length →
      exec (.penRefill p bad) s = .next s) ∧
    (∀ u me i, engineOf u = some (me, i) →
      ((engineAt s.drover me i).phase = .stop →
        exec (.engineStopEnd u) s = .next { s with drover := modEngine s.drover me i (fun e =>
          { e with phase := if e.gone then .out else .wait, gone := false, run := none, waits := 0 }) }) ∧
      ((engineAt s.drover me i).phase ≠ .stop → exec (.engineStopEnd u) s = .next s)) ∧
    (∀ u, engineOf u = none → exec (.engineStopEnd u) s = .next s ∧ exec (.taskRetire u) s = .next s)

/-- R471, R482, R488, R489, R498: a reset gives every field its Reset value but the OTP array, the reset record and what AON
and the sensors hold, and records its code and the BSN before it; in SHIP only power-on resets. -/
def Obligations.ResetRowsAct : Prop :=
  ∀ (s : State),
    (∀ code, deviceReset code s = { State.reset with
      pending := s.pending, otp := { words := s.otp.words, weak := s.otp.weak }, power := resetPower s code,
      record := resetRecord s code, stage := { temps := s.stage.temps },
      jtag := if within code 2 5 then s.jtag else 0xF#4, free := s.free }) ∧
    (∀ code, code ≠ 1 → (resetRecord s code).last = code ∧ (resetRecord s code).bsnBefore = s.bsn) ∧
    resetRecord s 1 = {} ∧
    exec .powerOnReset s = .next (deviceReset 1 s) ∧
    (inShip s = false → exec .pinReset s = .next (deviceReset 2 s)) ∧
    (inShip s = false → exec .thermalReset s = .next (deviceReset 5 s)) ∧
    (∀ rails m ages u, m = Nat.land rails.toNat (railMask s) → m ≠ 0 → inShip s = false →
      ages = 0 :: s.record.supplyAges.filter (fun a => decide (a < 4000)) →
      u = { deviceReset 4 s with record := { resetRecord s 4 with rails := BitVec.ofNat 8 m, supplyAges := ages } } →
      exec (.supplyReset rails) s = .next (if 3 ≤ ages.length then bootFailed u else u)) ∧
    (∀ rails, Nat.land rails.toNat (railMask s) = 0 → exec (.supplyReset rails) s = .next s) ∧
    (inShip s = true → exec .pinReset s = .next s ∧ exec .thermalReset s = .next s ∧
      ∀ rails, exec (.supplyReset rails) s = .next s)

/-- R485, R486, R491, R514: S raises the enables, C applies the OTP and raises PWR_EN1, boot complete opens the ports in IDLE
at the next boundary, and a boot that fails ends in SHIP with BOOT_FAIL. -/
def Obligations.BootRowsAct : Prop :=
  ∀ (s : State),
    (s.power.boot = .held → exec .bootStart s = .next { s with
      clock := { s.clock with xtalOn := true },
      power := { s.power with
        pwrEn0 := true, isoGate := true, boot := if s.record.last = 5 then .thermalHold else .started } }) ∧
    (s.power.boot ≠ .held → exec .bootStart s = .next s) ∧
    (s.power.boot = .thermalHold → exec .bootThermalRelease s = .next { s with
      power := { s.power with boot := .started } }) ∧
    (s.power.boot ≠ .thermalHold → exec .bootThermalRelease s = .next s) ∧
    (∀ straps pressed, s.power.boot = .started → s.clock.xtalFault = false →
      ∃ t, exec (.coreRelease straps pressed) s = .next t ∧ t.power.boot = .released ∧ t.power.pwrEn1 = true ∧
        t.otp.applied = bootSlot s.otp ∧ t.diag.bootDue = t.power.bootDiag ∧ t.bsn = s.bsn ∧
        (s.clock.state = .off → t.clock.phase = .waitSafe) ∧
        t.touch.keys = (List.range 6).map (fun k =>
          if pressed.getD k false then { pressed := true, bootHeld := true } else {})) ∧
    (∀ straps pressed, s.power.boot ≠ .started → exec (.coreRelease straps pressed) s = .next s) ∧
    (s.power.boot = .released → s.cycle = 0 → rootRuns s = true → s.clock.xtalFault = false → s.power.bootActive = false →
      (s.power.bootPor && s.power.porShip) = false →
      ∃ t, exec .bootComplete s = .next t ∧ t.power = { s.power with
        boot := .complete, accepting := true, lastChange := s.bsn, mode := .idle, sramOn := true } ∧
        t.bus.ctrlClk = true ∧ t.touch.scanning = true ∧ t.wake.pathOn = true) ∧
    (s.power.boot = .released → s.cycle = 0 → rootRuns s = true → s.clock.xtalFault = false → s.power.bootActive = true →
      (s.power.bootPor && s.power.porShip) = false →
      ∃ t c, exec .bootComplete s = .next t ∧ t.power.change = some c ∧ c.steps = [.a2] ∧ c.target = .active ∧
        t.power.accepting = true) ∧
    (s.power.boot ≠ .released → exec .bootComplete s = .next s) ∧
    ((s.power.boot = .started ∨ s.power.boot = .thermalHold ∨ (s.power.boot = .released ∧ s.clock.state = .off)) →
      ∃ t, exec .bootFail s = .next t ∧ t.record = { s.record with bootFail := true } ∧ t.clock.state = .off ∧
        t.power = { s.power with
          mode := .ship, boot := .complete, pwrEn0 := false, pwrEn1 := false, isoGate := false, sramOn := false }) ∧
    ((s.power.boot = .held ∨ s.power.boot = .complete) → exec .bootFail s = .next s)

/-- R474, R476, R477, R478, R479, R480, R481, R482: each step of a change acts when it is due, the last one reaches the target
with EV127 and the BSN of the change, and a step that is not due changes nothing. -/
def Obligations.ModeRowsAct : Prop :=
  ∀ (s : State),
    (∀ c, changeDue s .d1 = some c → exec .modeD1 s = .next (stepDone (d1Act s) c s.bsn)) ∧
    (∀ c, changeDue s .gate = some c → exec .fabricGate s = .next (stepDone { testsGated (cancelBlock s) with
      power := { (testsGated (cancelBlock s)).power with fabricOn := false, mode := .idle } } c (bsnNext s))) ∧
    (∀ c, changeDue s .d2 = some c → exec .modeD2 s = .next (stepDone (d2Act s c) c (bsnNext s))) ∧
    (∀ c, changeDue s .d3 = some c → exec .modeD3 s = .next (stepDone (shipEnter s) c s.bsn)) ∧
    (∀ c, changeDue s .swap = some c → exec .listenRetainSwitch s = .next (stepDone (swapAct s c) c (bsnNext s))) ∧
    (∀ c, changeDue s .a2 = some c → exec .fabricUngate s = .next (stepDone (testsUngated (a2Act s)) c (bsnNext s))) ∧
    (∀ c, changeDue s .a1 = some c → exec .idleReached s = .next (stepDone
      (if s.power.mode = .listen then clockDue (clockDue (endFetches (sysStart s)) 0 false s.bsn) 1 false s.bsn
        else clocksStart (sysStart s) false) c (bsnNext s))) ∧
    (∀ c x rest u, changeDue s .d1 = some c → c.steps = .d1 :: x :: rest → x ≠ .d3 → u = sweepLeave s →
      u.stage.chans.length = 32 →
      ∃ t, exec .modeD1 s = .next t ∧ t = { u with
          stage := t.stage, analog := t.analog,
          power := { u.power with change := some { c with steps := x :: rest, begun := true, notBefore := s.bsn } } } ∧
        (∀ k : Fin 32, ((chan u k).state = .starting ∨ (chan u k).state = .play) →
          (chan t k).state = .stopping ∧ (chan t k).stopTo = .off ∧ (chan t k).seqMs = stopMs u k) ∧
        (∀ k : Fin 32, (chan u k).state ≠ .starting → (chan u k).state ≠ .play → chan t k = chan u k) ∧
        (outLive s.analog.hp = true → t.analog.hp.state = .powerDown) ∧
        (outLive s.analog.lo = true → t.analog.lo.state = .powerDown)) ∧
    (∀ c, changeDue s .gate = some c → c.steps = [.gate] → s.power.heldWake = none →
      ∃ t, exec .fabricGate s = .next t ∧ t.drover.block = none ∧ t.power = { s.power with
        fabricOn := false, mode := .idle, change := none, lastChange := s.bsn }) ∧
    (∀ c rest, changeDue s .gate = some c → c.steps = .gate :: .d2 :: rest →
      ∃ t, exec .fabricGate s = .next t ∧ t.drover.block = none ∧ t.power = { s.power with
        fabricOn := false, mode := .idle, change := some { c with
          steps := .d2 :: rest, begun := true, notBefore := s.bsn + 1#40 } }) ∧
    (∀ c, changeDue s .d2 = some c → c.steps = [.d2] → s.power.heldWake = none →
      ∃ t, exec .modeD2 s = .next t ∧ t.clock.state = .off ∧ t.touch.scanning = false ∧ t.power = { s.power with
        pwrEn1 := false, mode := if c.target = .listen then .listen else .retain,
        sramOn := s.power.sramOn && c.keepSram, change := none, lastChange := s.bsn }) ∧
    (∀ c, changeDue s .d3 = some c → c.steps = [.d3] → s.power.heldWake = none →
      ∃ t, exec .modeD3 s = .next t ∧ t.power = { s.power with
          mode := .ship, pwrEn0 := false, pwrEn1 := false, isoGate := false, sramOn := false, fabricOn := false,
          accepting := false, change := none, lastChange := s.bsn } ∧
        t.bus.ctrlClk = false ∧ t.spi.outstanding = [] ∧ t.addrA.outstanding = [] ∧ t.addrB.outstanding = [] ∧
        t.clock.xtalOn = false ∧ t.wake.cooler = [] ∧ t.params = {}) ∧
    (∀ c w, changeDue s .d3 = some c → c.steps = [.d3] → s.power.heldWake = some w → s.power.boot = .complete →
      bit s.power.wake.ship (w - 1) = true →
      ∃ t, exec .modeD3 s = .next t ∧ t.record.last = 6 ∧ t.record.wakeSrc = w ∧ t.bsn = 0 ∧ t.power.boot = .held ∧
        t.power.change = none) ∧
    (∀ c, changeDue s .a1 = some c → c.steps = [.a1] → s.power.heldWake = none →
      ∃ t, exec .idleReached s = .next t ∧ t.bus.ctrlClk = true ∧ t.touch.scanning = true ∧ t.power = { s.power with
        mode := .idle, sramOn := true, change := none, lastChange := s.bsn }) ∧
    (∀ c, changeDue s .a2 = some c → c.steps = [.a2] → s.power.heldWake = none →
      ∃ t, exec .fabricUngate s = .next t ∧ t.power = { s.power with
        mode := .active, fabricOn := true, firstA2 := false, change := none, lastChange := s.bsn }) ∧
    (∀ c, changeDue s .swap = some c → c.steps = [.swap] → s.power.heldWake = none →
      ∃ t, exec .listenRetainSwitch s = .next t ∧ t.power = { s.power with
        mode := c.target, sramOn := s.power.sramOn && c.keepSram, change := none, lastChange := s.bsn }) ∧
    (changeDue s .d1 = none → exec .modeD1 s = .next s) ∧ (changeDue s .gate = none → exec .fabricGate s = .next s) ∧
    (changeDue s .d2 = none → exec .modeD2 s = .next s) ∧ (changeDue s .d3 = none → exec .modeD3 s = .next s) ∧
    (changeDue s .a1 = none → exec .idleReached s = .next s) ∧
    (changeDue s .a2 = none → exec .fabricUngate s = .next s) ∧
    (changeDue s .swap = none → exec .listenRetainSwitch s = .next s)

/-- R473, R482, R483, R484: an unmasked wake leaves SHIP by reset 6 or starts the change to TARGET, and is held during a
change; a new charger level and 120 °C raise EV127; a measurement of the SHIP clock is kept. -/
def Obligations.WakeAndSensorRowsAct : Prop :=
  ∀ (s : State),
    (∀ (c : Fin 7) u v, u = (if c.val = 5 then chargerTo s s.power.wake.chgPol else s) →
      v = (if c.val = 6 ∧ u.power.mode = .listen then { u with wake := { u.wake with srcFired := false } } else u) →
      (wakeMasked u c = false → exec (.wakeSource c) s = .next v) ∧
      (wakeMasked u c = true → inShip v = true →
        ∃ t, exec (.wakeSource c) s = .next t ∧ t = { deviceReset 6 v with record := t.record, power := t.power } ∧
          t.record = { resetRecord v 6 with wakeSrc := c } ∧ t.power = { resetPower v 6 with bootWake := c }) ∧
      (∀ k, wakeMasked u c = true → v.power.boot = .complete → v.power.change = some k → k.reason = 2 →
        k.asked = (s.bsn, s.cycle) → inShip v = false → exec (.wakeSource c) s = .next { v with power := { v.power with
          change := some { k with source := min c.val k.source } } }) ∧
      (∀ k, wakeMasked u c = true → inShip v = false → v.power.boot = .complete → v.power.change = some k →
        (k.reason ≠ 2 ∨ k.asked ≠ (s.bsn, s.cycle)) →
        exec (.wakeSource c) s = .next { v with power := { v.power with
          heldWake := some (min c.val (v.power.heldWake.getD c)) } }) ∧
      (wakeMasked u c = true → inShip v = false → v.power.boot = .held → v.record.last = 6 →
        exec (.wakeSource c) s = .next { v with
          record := { v.record with wakeSrc := min c v.record.wakeSrc },
          power := { v.power with bootWake := min c v.power.bootWake } }) ∧
      (wakeMasked u c = true → inShip v = false → v.power.boot ≠ .complete → v.power.boot ≠ .held ∨ v.record.last ≠ 6 →
        exec (.wakeSource c) s = .next v) ∧
      (wakeMasked u c = true → modeLow v = true → v.power.boot = .complete → v.power.change = none →
        v.clock.xtalFault = true →
        exec (.wakeSource c) s = .next { v with power := { v.power with
          heldWake := some (min c.val (v.power.heldWake.getD c)) } }) ∧
      (wakeMasked u c = true → modeLow v = true → v.power.boot = .complete → v.power.change = none →
        v.clock.xtalFault = false →
        exec (.wakeSource c) s = .next (startChange v v.power.wake.target 2 c false none)) ∧
      (wakeMasked u c = true → modeLow v = true → v.power.boot = .complete → v.power.change = none →
        v.clock.xtalFault = false → v.power.wake.target = .active →
        ∃ t k, exec (.wakeSource c) s = .next t ∧ t = { v with power := t.power, clock := t.clock } ∧
          t.power = { v.power with pwrEn1 := true, change := some k } ∧ k.steps = [.a1, .a2] ∧ k.target = .active ∧
          k.reason = 2 ∧ k.source = c ∧ k.begun = true) ∧
      (wakeMasked u c = true → modeLow v = true → v.power.boot = .complete → v.power.change = none →
        v.clock.xtalFault = false → v.power.wake.target = .idle →
        ∃ t k, exec (.wakeSource c) s = .next t ∧ t = { v with power := t.power, clock := t.clock } ∧
          t.power = { v.power with pwrEn1 := true, change := some k } ∧ k.steps = [.a1] ∧ k.target = .idle ∧ k.reason = 2 ∧
          k.source = c ∧ k.begun = true ∧ (v.clock.state = .off → t.clock.phase = .waitSafe)) ∧
      (wakeMasked u c = true → modeHigh v = true → v.power.boot = .complete → v.power.change = none →
        exec (.wakeSource c) s = .next v)) ∧
    (∀ level, s.power.charger = some level → exec (.chargerChange level) s = .next s) ∧
    (∀ level, s.power.charger ≠ some level → modeHigh s = false →
      exec (.chargerChange level) s = .next { s with power := { s.power with charger := some level } }) ∧
    (∀ level, s.power.charger ≠ some level → modeHigh s = true →
      exec (.chargerChange level) s = .next (raise { s with power := { s.power with charger := some level } } 127
        (modeCode s.power.mode * 17 + 0x500 + ofSigned 16 s.power.coreTemp * 65536))) ∧
    (∀ temp, s.power.hot = false → 1200 ≤ temp → inShip s = false → s.power.boot ≠ .held →
      exec (.coreTemp120 temp) s = .next (raise { s with power := { s.power with hot := true, coreTemp := temp } } 127
        (modeCode s.power.mode * 17 + 0x400 + ofSigned 16 temp * 65536))) ∧
    (∀ temp, s.power.hot = true ∨ temp < 1200 ∨ inShip s = true ∨ s.power.boot = .held →
      exec (.coreTemp120 temp) s = .next s) ∧
    (∀ n, s.clock.xtalOn = true → s.clock.xtalFault = false →
      exec (.shipClockMeasure n) s = .next { s with power := { s.power with shipClock := n } }) ∧
    (∀ n, s.clock.xtalOn = false ∨ s.clock.xtalFault = true → exec (.shipClockMeasure n) s = .next s)

/-- R156, R202, R209, R210, R211, R213, R217: a register write that a commit of it alone would pass acts as its chapter says
and any other leaves the state; a due commit stores its word, empties its Hamper and replies, a stale one replies STATE; a
crossfade and a ramp that are over end. -/
def Obligations.RegisterRowsAct : Prop :=
  ∀ (s : State),
    (∀ a v, paddrReg a.toNat = none → exec (.registerWrite a v) s = .next s) ∧
    (∀ a v r, coreOn s = true → paddrReg a.toNat = some r → r.access = .rw → paSpace a.toNat ≠ 2 → r ≠ .drvCfg →
      r.rangeOk s (maskTo r v.toNat) = true → regsCommitOk (wr s r (maskTo r v.toNat)) = true →
      stageFree s (wr s r (maskTo r v.toNat)) = true →
      exec (.registerWrite a v) s = .next (applyReg s r (maskTo r v.toNat)) ∧
      (r ∈ [Reg.hpjCfg, .hpjBtn, .auxjCfg, .sagKnee, .sagSlope, .sagMax, .sagRel, .tfStart, .tfSlope, .tfMax, .retryCfg,
          .dcCfg, .diagCfg, .tchGlobal, .tchGest, .evGlobalReg, .psCfg] →
        exec (.registerWrite a v) s = .next (wr s r (maskTo r v.toNat)))) ∧
    (∀ a v r, paddrReg a.toNat = some r → (r.access ≠ .rw ∨ paSpace a.toNat = 2 ∨ r = .drvCfg ∨
        r.rangeOk s (maskTo r v.toNat) = false ∨ regsCommitOk (wr s r (maskTo r v.toNat)) = false ∨
        stageFree s (wr s r (maskTo r v.toNat)) = false) →
      exec (.registerWrite a v) s = .next s) ∧
    (∀ a v, coreOn s = false → exec (.registerWrite a v) s = .next s ∧ exec (.paddockSizeWrite v) s = .next s) ∧
    (∀ v, coreOn s = true → Reg.drvCfg.rangeOk s (maskTo .drvCfg v.toNat) = true → slotsEmpty s = true →
      exec (.paddockSizeWrite v) s = .next (wr s .drvCfg (maskTo .drvCfg v.toNat))) ∧
    (∀ v, (slotsEmpty s = false ∨ Reg.drvCfg.rangeOk s (maskTo .drvCfg v.toNat) = false) →
      exec (.paddockSizeWrite v) s = .next s) ∧
    (s.cycle ≠ 0 → exec .commitApply s = .next s) ∧
    (s.params.commits.filter (fun c => bsnReached s.bsn c.boundary) = [] → exec .commitApply s = .next s) ∧
    (∀ a, s.cycle = 0 → s.params.commits.filter (fun c => bsnReached s.bsn c.boundary) ≠ [] →
      a = (s.params.commits.filter (fun c => bsnReached s.bsn c.boundary)).foldl commitOne ⟨s, s, []⟩ →
      exec .commitApply s = .next (applyChanges a.real a.list)) ∧
    (∀ a c es t, es = lastEntries (wordEntries c.entries) → t = rawAll a.work c.slot es →
      (c.stale = false → c.strict = false → fadesOn a.real es ≠ [] →
        commitOne a c = { a with real := { a.real with params := { a.real.params with
          commits := a.real.params.commits.map (fun x => if x.id = c.id then
            { x with deferred := true, boundary := fadesEnd (fadesOn a.real es) a.real.bsn } else x) } } }) ∧
      (∀ st, (c.stale = true ∨ c.strict = true ∨ fadesOn a.real es = []) → commitStatus a c es t = some st →
        commitOne a c = { a with real := completeJob (endCommit a.real c false) (isCommit c.id) st [] }) ∧
      ((c.stale = true ∨ c.strict = true ∨ fadesOn a.real es = []) → commitStatus a c es t = none →
        commitOne a c = ⟨completeJob (endCommit a.real c true) (isCommit c.id) .ok (if c.hamper.isSome then
            bsn8 (a.real.bsn - 1#40) else bsn8 (a.real.bsn - 1#40) ++ u16 0xFFFF), t,
          mergeEntries a.list (es.map (fun x => ⟨c.slot, x.1, x.2, c.interp⟩))⟩)) ∧
    (∀ r unit v, bits (rd s r) 7 0 = bits (maskTo r v) 7 0 → applyRoute s r unit v = wr s r (maskTo r v)) ∧
    (∀ r unit v, bits (rd s r) 7 0 ≠ bits (maskTo r v) 7 0 →
      (applyRoute s r unit v).params.fades = (wr s r (maskTo r v)).params.fades.filter (fun y => y.unit != unit) ++
        [⟨unit, bits (rd s r) 7 0, s.bsn - 1#40, 4 * bits (maskTo r v) 21 16, bit (maskTo r v) 22⟩]) ∧
    (∀ x, paSpace x.addr = 1 → (slotAt s x.slot).phase ≠ .active →
      applyWord s x = { putWord s x.slot (paUnit x.addr) (paField x.addr) x.value with
        graph := modSlot (putWord s x.slot (paUnit x.addr) (paField x.addr) x.value).graph x.slot (fun k =>
          { k with muted := k.muted.filter (fun u => !(u.1 == paUnit x.addr && u.2 == paField x.addr)) }) }) ∧
    (∀ x ms old, (slotAt s x.slot).phase = .active → x.interp = some ms →
      (opEntry (slotAt s x.slot).image (paUnit x.addr)).mark (paField x.addr) = .li →
      (slotAt s x.slot).n ≠ s.bsn - 1#40 →
      old = liWord s (slotAt s x.slot).image (s.bsn - 1#40 - 1#40) (paUnit x.addr)
        (opEntry (slotAt s x.slot).image (paUnit x.addr)) (paField x.addr) 23 → old ≠ toSigned 32 x.value →
      (applyWord s x).graph.ramps = s.graph.ramps.filter (fun r => !(r.op == paUnit x.addr && r.word == paField x.addr)) ++
        [⟨paUnit x.addr, paField x.addr, old, toSigned 32 x.value, s.bsn - 1#40, 96 * ms⟩]) ∧
    (∀ c h v p o u, s.cycle = 0 → s.params.commits = [c] → bsnReached s.bsn c.boundary = true → c.hamper = some h →
      c.stale = false → c.entries = [(BitVec.ofNat 32 Reg.sagKnee.addr, v)] →
      (findJobs s (isCommit c.id)).head? = some (p, o) → regsCommitOk (wr s .sagKnee v.toNat) = true →
      u = { s with params := { s.params with commits := [], hampers := modAt s.params.hampers h (fun _ => {}) } } →
      exec .commitApply s = .next (wr (finalReply u p o.tag o.op .ok (bsn8 (s.bsn - 1#40))) .sagKnee v.toNat)) ∧
    (∀ c p o, s.cycle = 0 → s.params.commits = [c] → bsnReached s.bsn c.boundary = true → c.hamper = none →
      c.stale = true → (findJobs s (isCommit c.id)).head? = some (p, o) →
      exec .commitApply s = .next (finalReply { s with params := { s.params with commits := [] } } p o.tag o.op .state [])) ∧
    (∀ sink (e : Fin 68) unit, unit = (if sink then 0x100 else 0) + e.val →
      exec (.routeCrossfadeEnd sink e) s = .next { s with params := { s.params with
        fades := s.params.fades.filter (fun x => x.unit != unit || fadeRuns s x) } }) ∧
    (∀ op word, exec (.interpRampEnd op word) s = .next { s with graph := { s.graph with
      ramps := s.graph.ramps.filter (fun r =>
        !(r.op == op && r.word == word && decide (r.n / 24 + 1 ≤ bsnSince s.bsn r.block))) } })

/-- R12, R15, R22, R26, R409, R416, R495: at a block boundary the privilege mapping that is due comes into force, the BSN advances
by one, the block's cycle count starts at 0 and the die temperature and VSTBY are taken, wherever the BSN counts; elsewhere it
changes nothing. -/
def Obligations.BlockBoundaryActs : Prop :=
  ∀ (s : State) (i : BlockInput) (w u : State), w = mapApply s →
    (counting s = true → u = (if modeHigh s then edgesBlock w i else w) →
      exec (.blockBoundary i) s = .next (jackBlock (wakeBlock ((if modeHigh s then fun v => sysBoundary v i else healthBoundary)
        { u with bsn := u.bsn + 1#40, cycle := 0, power := { u.power with coreTemp := i.coreTemp, vstby := i.vstby },
                 clock := { u.clock with shipTick := u.clock.shipTick && u.clock.xtalFault },
                 record := { u.record with supplyAges := u.record.supplyAges.map (fun a => a + 1) } })
        i.feeds i.badWords) i.contact)) ∧
    (counting s = true →
      ∃ t, exec (.blockBoundary i) s = .next t ∧ t.bsn = s.bsn + 1#40 ∧ t.cycle = 0 ∧
        t.power.coreTemp = i.coreTemp ∧ t.power.vstby = i.vstby ∧ t.power.mode = s.power.mode ∧
        t.jtag = s.jtag ∧ t.seq = s.seq ∧ t.record.last = s.record.last ∧ t.otp.words = s.otp.words ∧
        (modeHigh s = false → t.graph = s.graph ∧ t.stage = s.stage ∧ t.regs = s.regs ∧
          t.clock = { s.clock with shipTick := s.clock.shipTick && s.clock.xtalFault })) ∧
    (counting s = false → exec (.blockBoundary i) s = .next s)

/-- R526: an instruction of the test port is selected while PWR_EN0 is high, a code that is not listed is BYPASS, and under
EXTEST, CLAMP and HIGHZ the running half-bridges are Hi-Z and OFF. -/
def Obligations.BoundaryScanActs : Prop :=
  ∀ (s : State) (code : BitVec 4) k, k = (if code.toNat ≤ 3 then code else 0xF#4) →
    (s.power.pwrEn0 = false → exec (.testInstructionUpdate code) s = .next s) ∧
    (s.power.pwrEn0 = true → k ∉ [0#4, 2#4, 3#4] → exec (.testInstructionUpdate code) s = .next { s with jtag := k }) ∧
    (∀ u, s.power.pwrEn0 = true → k ∈ [0#4, 2#4, 3#4] → u = sweepLeave { s with jtag := k } → u.stage.chans.length = 32 →
      ∃ t, exec (.testInstructionUpdate code) s = .next t ∧ t = { u with stage := t.stage } ∧
        ∀ c : Fin 32, chan t c = if c.val < 16 ∧ running (chan u c) = true then hiZ .off (chan u c) else chan u c)
end

