-- ==== Sys2Proof/Laws/State.lean ====
section
/-!
SUPPORT. What each update of the state leaves as it was: one lemma per field that the update does not write.
-/

namespace Sys2Proof.Machine

open Sys2Proof

@[simp] theorem setPort_pending (s : State) (p : PortId) (v : Port) :
    (setPort s p v).pending = s.pending := by cases p <;> rfl
@[simp] theorem setPort_bsn (s : State) (p : PortId) (v : Port) :
    (setPort s p v).bsn = s.bsn := by cases p <;> rfl
@[simp] theorem setPort_cycle (s : State) (p : PortId) (v : Port) :
    (setPort s p v).cycle = s.cycle := by cases p <;> rfl
@[simp] theorem setPort_seq (s : State) (p : PortId) (v : Port) :
    (setPort s p v).seq = s.seq := by cases p <;> rfl
@[simp] theorem setPort_mapDue (s : State) (p : PortId) (v : Port) :
    (setPort s p v).mapDue = s.mapDue := by cases p <;> rfl
@[simp] theorem setPort_bus (s : State) (p : PortId) (v : Port) :
    (setPort s p v).bus = s.bus := by cases p <;> rfl
@[simp] theorem setPort_events (s : State) (p : PortId) (v : Port) :
    (setPort s p v).events = s.events := by cases p <;> rfl
@[simp] theorem setPort_power (s : State) (p : PortId) (v : Port) :
    (setPort s p v).power = s.power := by cases p <;> rfl
@[simp] theorem setPort_record (s : State) (p : PortId) (v : Port) :
    (setPort s p v).record = s.record := by cases p <;> rfl
@[simp] theorem setPort_otp (s : State) (p : PortId) (v : Port) :
    (setPort s p v).otp = s.otp := by cases p <;> rfl
@[simp] theorem setPort_clock (s : State) (p : PortId) (v : Port) :
    (setPort s p v).clock = s.clock := by cases p <;> rfl
@[simp] theorem setPort_dports (s : State) (p : PortId) (v : Port) :
    (setPort s p v).dports = s.dports := by cases p <;> rfl
@[simp] theorem setPort_asrc (s : State) (p : PortId) (v : Port) :
    (setPort s p v).asrc = s.asrc := by cases p <;> rfl
@[simp] theorem setPort_analog (s : State) (p : PortId) (v : Port) :
    (setPort s p v).analog = s.analog := by cases p <;> rfl
@[simp] theorem setPort_wake (s : State) (p : PortId) (v : Port) :
    (setPort s p v).wake = s.wake := by cases p <;> rfl
@[simp] theorem setPort_stage (s : State) (p : PortId) (v : Port) :
    (setPort s p v).stage = s.stage := by cases p <;> rfl
@[simp] theorem setPort_diag (s : State) (p : PortId) (v : Port) :
    (setPort s p v).diag = s.diag := by cases p <;> rfl
@[simp] theorem setPort_touch (s : State) (p : PortId) (v : Port) :
    (setPort s p v).touch = s.touch := by cases p <;> rfl
@[simp] theorem setPort_graph (s : State) (p : PortId) (v : Port) :
    (setPort s p v).graph = s.graph := by cases p <;> rfl
@[simp] theorem setPort_drover (s : State) (p : PortId) (v : Port) :
    (setPort s p v).drover = s.drover := by cases p <;> rfl
@[simp] theorem setPort_health (s : State) (p : PortId) (v : Port) :
    (setPort s p v).health = s.health := by cases p <;> rfl
@[simp] theorem setPort_params (s : State) (p : PortId) (v : Port) :
    (setPort s p v).params = s.params := by cases p <;> rfl
@[simp] theorem setPort_regs (s : State) (p : PortId) (v : Port) :
    (setPort s p v).regs = s.regs := by cases p <;> rfl
@[simp] theorem setPort_jtag (s : State) (p : PortId) (v : Port) :
    (setPort s p v).jtag = s.jtag := by cases p <;> rfl
@[simp] theorem setPort_sramClean (s : State) (p : PortId) (v : Port) :
    (setPort s p v).sramClean = s.sramClean := by cases p <;> rfl
@[simp] theorem setPort_rcNow (s : State) (p : PortId) (v : Port) :
    (setPort s p v).rcNow = s.rcNow := by cases p <;> rfl
@[simp] theorem setPort_free (s : State) (p : PortId) (v : Port) :
    (setPort s p v).free = s.free := by cases p <;> rfl

@[simp] theorem modPort_pending (s : State) (p : PortId) (f : Port → Port) :
    (modPort s p f).pending = s.pending := by cases p <;> rfl
@[simp] theorem modPort_bsn (s : State) (p : PortId) (f : Port → Port) :
    (modPort s p f).bsn = s.bsn := by cases p <;> rfl
@[simp] theorem modPort_cycle (s : State) (p : PortId) (f : Port → Port) :
    (modPort s p f).cycle = s.cycle := by cases p <;> rfl
@[simp] theorem modPort_seq (s : State) (p : PortId) (f : Port → Port) :
    (modPort s p f).seq = s.seq := by cases p <;> rfl
@[simp] theorem modPort_mapDue (s : State) (p : PortId) (f : Port → Port) :
    (modPort s p f).mapDue = s.mapDue := by cases p <;> rfl
@[simp] theorem modPort_bus (s : State) (p : PortId) (f : Port → Port) :
    (modPort s p f).bus = s.bus := by cases p <;> rfl
@[simp] theorem modPort_events (s : State) (p : PortId) (f : Port → Port) :
    (modPort s p f).events = s.events := by cases p <;> rfl
@[simp] theorem modPort_power (s : State) (p : PortId) (f : Port → Port) :
    (modPort s p f).power = s.power := by cases p <;> rfl
@[simp] theorem modPort_record (s : State) (p : PortId) (f : Port → Port) :
    (modPort s p f).record = s.record := by cases p <;> rfl
@[simp] theorem modPort_otp (s : State) (p : PortId) (f : Port → Port) :
    (modPort s p f).otp = s.otp := by cases p <;> rfl
@[simp] theorem modPort_clock (s : State) (p : PortId) (f : Port → Port) :
    (modPort s p f).clock = s.clock := by cases p <;> rfl
@[simp] theorem modPort_dports (s : State) (p : PortId) (f : Port → Port) :
    (modPort s p f).dports = s.dports := by cases p <;> rfl
@[simp] theorem modPort_asrc (s : State) (p : PortId) (f : Port → Port) :
    (modPort s p f).asrc = s.asrc := by cases p <;> rfl
@[simp] theorem modPort_analog (s : State) (p : PortId) (f : Port → Port) :
    (modPort s p f).analog = s.analog := by cases p <;> rfl
@[simp] theorem modPort_wake (s : State) (p : PortId) (f : Port → Port) :
    (modPort s p f).wake = s.wake := by cases p <;> rfl
@[simp] theorem modPort_stage (s : State) (p : PortId) (f : Port → Port) :
    (modPort s p f).stage = s.stage := by cases p <;> rfl
@[simp] theorem modPort_diag (s : State) (p : PortId) (f : Port → Port) :
    (modPort s p f).diag = s.diag := by cases p <;> rfl
@[simp] theorem modPort_touch (s : State) (p : PortId) (f : Port → Port) :
    (modPort s p f).touch = s.touch := by cases p <;> rfl
@[simp] theorem modPort_graph (s : State) (p : PortId) (f : Port → Port) :
    (modPort s p f).graph = s.graph := by cases p <;> rfl
@[simp] theorem modPort_drover (s : State) (p : PortId) (f : Port → Port) :
    (modPort s p f).drover = s.drover := by cases p <;> rfl
@[simp] theorem modPort_health (s : State) (p : PortId) (f : Port → Port) :
    (modPort s p f).health = s.health := by cases p <;> rfl
@[simp] theorem modPort_params (s : State) (p : PortId) (f : Port → Port) :
    (modPort s p f).params = s.params := by cases p <;> rfl
@[simp] theorem modPort_regs (s : State) (p : PortId) (f : Port → Port) :
    (modPort s p f).regs = s.regs := by cases p <;> rfl
@[simp] theorem modPort_jtag (s : State) (p : PortId) (f : Port → Port) :
    (modPort s p f).jtag = s.jtag := by cases p <;> rfl
@[simp] theorem modPort_sramClean (s : State) (p : PortId) (f : Port → Port) :
    (modPort s p f).sramClean = s.sramClean := by cases p <;> rfl
@[simp] theorem modPort_rcNow (s : State) (p : PortId) (f : Port → Port) :
    (modPort s p f).rcNow = s.rcNow := by cases p <;> rfl
@[simp] theorem modPort_free (s : State) (p : PortId) (f : Port → Port) :
    (modPort s p f).free = s.free := by cases p <;> rfl

@[simp] theorem finalReply_pending (s : State) (p : PortId) (tag op : Byte) (st : Status) (l : List Byte) :
    (finalReply s p tag op st l).pending = s.pending := by cases p <;> rfl
@[simp] theorem finalReply_bsn (s : State) (p : PortId) (tag op : Byte) (st : Status) (l : List Byte) :
    (finalReply s p tag op st l).bsn = s.bsn := by cases p <;> rfl
@[simp] theorem finalReply_cycle (s : State) (p : PortId) (tag op : Byte) (st : Status) (l : List Byte) :
    (finalReply s p tag op st l).cycle = s.cycle := by cases p <;> rfl
@[simp] theorem finalReply_seq (s : State) (p : PortId) (tag op : Byte) (st : Status) (l : List Byte) :
    (finalReply s p tag op st l).seq = s.seq := by cases p <;> rfl
@[simp] theorem finalReply_mapDue (s : State) (p : PortId) (tag op : Byte) (st : Status) (l : List Byte) :
    (finalReply s p tag op st l).mapDue = s.mapDue := by cases p <;> rfl
@[simp] theorem finalReply_bus (s : State) (p : PortId) (tag op : Byte) (st : Status) (l : List Byte) :
    (finalReply s p tag op st l).bus = s.bus := by cases p <;> rfl
@[simp] theorem finalReply_events (s : State) (p : PortId) (tag op : Byte) (st : Status) (l : List Byte) :
    (finalReply s p tag op st l).events = s.events := by cases p <;> rfl
@[simp] theorem finalReply_power (s : State) (p : PortId) (tag op : Byte) (st : Status) (l : List Byte) :
    (finalReply s p tag op st l).power = s.power := by cases p <;> rfl
@[simp] theorem finalReply_record (s : State) (p : PortId) (tag op : Byte) (st : Status) (l : List Byte) :
    (finalReply s p tag op st l).record = s.record := by cases p <;> rfl
@[simp] theorem finalReply_otp (s : State) (p : PortId) (tag op : Byte) (st : Status) (l : List Byte) :
    (finalReply s p tag op st l).otp = s.otp := by cases p <;> rfl
@[simp] theorem finalReply_clock (s : State) (p : PortId) (tag op : Byte) (st : Status) (l : List Byte) :
    (finalReply s p tag op st l).clock = s.clock := by cases p <;> rfl
@[simp] theorem finalReply_dports (s : State) (p : PortId) (tag op : Byte) (st : Status) (l : List Byte) :
    (finalReply s p tag op st l).dports = s.dports := by cases p <;> rfl
@[simp] theorem finalReply_asrc (s : State) (p : PortId) (tag op : Byte) (st : Status) (l : List Byte) :
    (finalReply s p tag op st l).asrc = s.asrc := by cases p <;> rfl
@[simp] theorem finalReply_analog (s : State) (p : PortId) (tag op : Byte) (st : Status) (l : List Byte) :
    (finalReply s p tag op st l).analog = s.analog := by cases p <;> rfl
@[simp] theorem finalReply_wake (s : State) (p : PortId) (tag op : Byte) (st : Status) (l : List Byte) :
    (finalReply s p tag op st l).wake = s.wake := by cases p <;> rfl
@[simp] theorem finalReply_stage (s : State) (p : PortId) (tag op : Byte) (st : Status) (l : List Byte) :
    (finalReply s p tag op st l).stage = s.stage := by cases p <;> rfl
@[simp] theorem finalReply_diag (s : State) (p : PortId) (tag op : Byte) (st : Status) (l : List Byte) :
    (finalReply s p tag op st l).diag = s.diag := by cases p <;> rfl
@[simp] theorem finalReply_touch (s : State) (p : PortId) (tag op : Byte) (st : Status) (l : List Byte) :
    (finalReply s p tag op st l).touch = s.touch := by cases p <;> rfl
@[simp] theorem finalReply_graph (s : State) (p : PortId) (tag op : Byte) (st : Status) (l : List Byte) :
    (finalReply s p tag op st l).graph = s.graph := by cases p <;> rfl
@[simp] theorem finalReply_drover (s : State) (p : PortId) (tag op : Byte) (st : Status) (l : List Byte) :
    (finalReply s p tag op st l).drover = s.drover := by cases p <;> rfl
@[simp] theorem finalReply_health (s : State) (p : PortId) (tag op : Byte) (st : Status) (l : List Byte) :
    (finalReply s p tag op st l).health = s.health := by cases p <;> rfl
@[simp] theorem finalReply_params (s : State) (p : PortId) (tag op : Byte) (st : Status) (l : List Byte) :
    (finalReply s p tag op st l).params = s.params := by cases p <;> rfl
@[simp] theorem finalReply_regs (s : State) (p : PortId) (tag op : Byte) (st : Status) (l : List Byte) :
    (finalReply s p tag op st l).regs = s.regs := by cases p <;> rfl
@[simp] theorem finalReply_jtag (s : State) (p : PortId) (tag op : Byte) (st : Status) (l : List Byte) :
    (finalReply s p tag op st l).jtag = s.jtag := by cases p <;> rfl
@[simp] theorem finalReply_sramClean (s : State) (p : PortId) (tag op : Byte) (st : Status) (l : List Byte) :
    (finalReply s p tag op st l).sramClean = s.sramClean := by cases p <;> rfl
@[simp] theorem finalReply_rcNow (s : State) (p : PortId) (tag op : Byte) (st : Status) (l : List Byte) :
    (finalReply s p tag op st l).rcNow = s.rcNow := by cases p <;> rfl
@[simp] theorem finalReply_free (s : State) (p : PortId) (tag op : Byte) (st : Status) (l : List Byte) :
    (finalReply s p tag op st l).free = s.free := by cases p <;> rfl

@[simp] theorem answerNow_pending (s : State) (p : PortId) (tag op : Byte) (st : Status) (l : List Byte) :
    (answerNow s p tag op st l).pending = s.pending := by cases p <;> rfl
@[simp] theorem answerNow_bsn (s : State) (p : PortId) (tag op : Byte) (st : Status) (l : List Byte) :
    (answerNow s p tag op st l).bsn = s.bsn := by cases p <;> rfl
@[simp] theorem answerNow_cycle (s : State) (p : PortId) (tag op : Byte) (st : Status) (l : List Byte) :
    (answerNow s p tag op st l).cycle = s.cycle := by cases p <;> rfl
@[simp] theorem answerNow_seq (s : State) (p : PortId) (tag op : Byte) (st : Status) (l : List Byte) :
    (answerNow s p tag op st l).seq = s.seq := by cases p <;> rfl
@[simp] theorem answerNow_mapDue (s : State) (p : PortId) (tag op : Byte) (st : Status) (l : List Byte) :
    (answerNow s p tag op st l).mapDue = s.mapDue := by cases p <;> rfl
@[simp] theorem answerNow_bus (s : State) (p : PortId) (tag op : Byte) (st : Status) (l : List Byte) :
    (answerNow s p tag op st l).bus = s.bus := by cases p <;> rfl
@[simp] theorem answerNow_events (s : State) (p : PortId) (tag op : Byte) (st : Status) (l : List Byte) :
    (answerNow s p tag op st l).events = s.events := by cases p <;> rfl
@[simp] theorem answerNow_power (s : State) (p : PortId) (tag op : Byte) (st : Status) (l : List Byte) :
    (answerNow s p tag op st l).power = s.power := by cases p <;> rfl
@[simp] theorem answerNow_record (s : State) (p : PortId) (tag op : Byte) (st : Status) (l : List Byte) :
    (answerNow s p tag op st l).record = s.record := by cases p <;> rfl
@[simp] theorem answerNow_otp (s : State) (p : PortId) (tag op : Byte) (st : Status) (l : List Byte) :
    (answerNow s p tag op st l).otp = s.otp := by cases p <;> rfl
@[simp] theorem answerNow_clock (s : State) (p : PortId) (tag op : Byte) (st : Status) (l : List Byte) :
    (answerNow s p tag op st l).clock = s.clock := by cases p <;> rfl
@[simp] theorem answerNow_dports (s : State) (p : PortId) (tag op : Byte) (st : Status) (l : List Byte) :
    (answerNow s p tag op st l).dports = s.dports := by cases p <;> rfl
@[simp] theorem answerNow_asrc (s : State) (p : PortId) (tag op : Byte) (st : Status) (l : List Byte) :
    (answerNow s p tag op st l).asrc = s.asrc := by cases p <;> rfl
@[simp] theorem answerNow_analog (s : State) (p : PortId) (tag op : Byte) (st : Status) (l : List Byte) :
    (answerNow s p tag op st l).analog = s.analog := by cases p <;> rfl
@[simp] theorem answerNow_wake (s : State) (p : PortId) (tag op : Byte) (st : Status) (l : List Byte) :
    (answerNow s p tag op st l).wake = s.wake := by cases p <;> rfl
@[simp] theorem answerNow_stage (s : State) (p : PortId) (tag op : Byte) (st : Status) (l : List Byte) :
    (answerNow s p tag op st l).stage = s.stage := by cases p <;> rfl
@[simp] theorem answerNow_diag (s : State) (p : PortId) (tag op : Byte) (st : Status) (l : List Byte) :
    (answerNow s p tag op st l).diag = s.diag := by cases p <;> rfl
@[simp] theorem answerNow_touch (s : State) (p : PortId) (tag op : Byte) (st : Status) (l : List Byte) :
    (answerNow s p tag op st l).touch = s.touch := by cases p <;> rfl
@[simp] theorem answerNow_graph (s : State) (p : PortId) (tag op : Byte) (st : Status) (l : List Byte) :
    (answerNow s p tag op st l).graph = s.graph := by cases p <;> rfl
@[simp] theorem answerNow_drover (s : State) (p : PortId) (tag op : Byte) (st : Status) (l : List Byte) :
    (answerNow s p tag op st l).drover = s.drover := by cases p <;> rfl
@[simp] theorem answerNow_health (s : State) (p : PortId) (tag op : Byte) (st : Status) (l : List Byte) :
    (answerNow s p tag op st l).health = s.health := by cases p <;> rfl
@[simp] theorem answerNow_params (s : State) (p : PortId) (tag op : Byte) (st : Status) (l : List Byte) :
    (answerNow s p tag op st l).params = s.params := by cases p <;> rfl
@[simp] theorem answerNow_regs (s : State) (p : PortId) (tag op : Byte) (st : Status) (l : List Byte) :
    (answerNow s p tag op st l).regs = s.regs := by cases p <;> rfl
@[simp] theorem answerNow_jtag (s : State) (p : PortId) (tag op : Byte) (st : Status) (l : List Byte) :
    (answerNow s p tag op st l).jtag = s.jtag := by cases p <;> rfl
@[simp] theorem answerNow_sramClean (s : State) (p : PortId) (tag op : Byte) (st : Status) (l : List Byte) :
    (answerNow s p tag op st l).sramClean = s.sramClean := by cases p <;> rfl
@[simp] theorem answerNow_rcNow (s : State) (p : PortId) (tag op : Byte) (st : Status) (l : List Byte) :
    (answerNow s p tag op st l).rcNow = s.rcNow := by cases p <;> rfl
@[simp] theorem answerNow_free (s : State) (p : PortId) (tag op : Byte) (st : Status) (l : List Byte) :
    (answerNow s p tag op st l).free = s.free := by cases p <;> rfl

@[simp] theorem earlyReply_pending (s : State) (p : PortId) (tag op : Byte) (l : List Byte) :
    (earlyReply s p tag op l).pending = s.pending := by cases p <;> rfl
@[simp] theorem earlyReply_bsn (s : State) (p : PortId) (tag op : Byte) (l : List Byte) :
    (earlyReply s p tag op l).bsn = s.bsn := by cases p <;> rfl
@[simp] theorem earlyReply_cycle (s : State) (p : PortId) (tag op : Byte) (l : List Byte) :
    (earlyReply s p tag op l).cycle = s.cycle := by cases p <;> rfl
@[simp] theorem earlyReply_seq (s : State) (p : PortId) (tag op : Byte) (l : List Byte) :
    (earlyReply s p tag op l).seq = s.seq := by cases p <;> rfl
@[simp] theorem earlyReply_mapDue (s : State) (p : PortId) (tag op : Byte) (l : List Byte) :
    (earlyReply s p tag op l).mapDue = s.mapDue := by cases p <;> rfl
@[simp] theorem earlyReply_bus (s : State) (p : PortId) (tag op : Byte) (l : List Byte) :
    (earlyReply s p tag op l).bus = s.bus := by cases p <;> rfl
@[simp] theorem earlyReply_events (s : State) (p : PortId) (tag op : Byte) (l : List Byte) :
    (earlyReply s p tag op l).events = s.events := by cases p <;> rfl
@[simp] theorem earlyReply_power (s : State) (p : PortId) (tag op : Byte) (l : List Byte) :
    (earlyReply s p tag op l).power = s.power := by cases p <;> rfl
@[simp] theorem earlyReply_record (s : State) (p : PortId) (tag op : Byte) (l : List Byte) :
    (earlyReply s p tag op l).record = s.record := by cases p <;> rfl
@[simp] theorem earlyReply_otp (s : State) (p : PortId) (tag op : Byte) (l : List Byte) :
    (earlyReply s p tag op l).otp = s.otp := by cases p <;> rfl
@[simp] theorem earlyReply_clock (s : State) (p : PortId) (tag op : Byte) (l : List Byte) :
    (earlyReply s p tag op l).clock = s.clock := by cases p <;> rfl
@[simp] theorem earlyReply_dports (s : State) (p : PortId) (tag op : Byte) (l : List Byte) :
    (earlyReply s p tag op l).dports = s.dports := by cases p <;> rfl
@[simp] theorem earlyReply_asrc (s : State) (p : PortId) (tag op : Byte) (l : List Byte) :
    (earlyReply s p tag op l).asrc = s.asrc := by cases p <;> rfl
@[simp] theorem earlyReply_analog (s : State) (p : PortId) (tag op : Byte) (l : List Byte) :
    (earlyReply s p tag op l).analog = s.analog := by cases p <;> rfl
@[simp] theorem earlyReply_wake (s : State) (p : PortId) (tag op : Byte) (l : List Byte) :
    (earlyReply s p tag op l).wake = s.wake := by cases p <;> rfl
@[simp] theorem earlyReply_stage (s : State) (p : PortId) (tag op : Byte) (l : List Byte) :
    (earlyReply s p tag op l).stage = s.stage := by cases p <;> rfl
@[simp] theorem earlyReply_diag (s : State) (p : PortId) (tag op : Byte) (l : List Byte) :
    (earlyReply s p tag op l).diag = s.diag := by cases p <;> rfl
@[simp] theorem earlyReply_touch (s : State) (p : PortId) (tag op : Byte) (l : List Byte) :
    (earlyReply s p tag op l).touch = s.touch := by cases p <;> rfl
@[simp] theorem earlyReply_graph (s : State) (p : PortId) (tag op : Byte) (l : List Byte) :
    (earlyReply s p tag op l).graph = s.graph := by cases p <;> rfl
@[simp] theorem earlyReply_drover (s : State) (p : PortId) (tag op : Byte) (l : List Byte) :
    (earlyReply s p tag op l).drover = s.drover := by cases p <;> rfl
@[simp] theorem earlyReply_health (s : State) (p : PortId) (tag op : Byte) (l : List Byte) :
    (earlyReply s p tag op l).health = s.health := by cases p <;> rfl
@[simp] theorem earlyReply_params (s : State) (p : PortId) (tag op : Byte) (l : List Byte) :
    (earlyReply s p tag op l).params = s.params := by cases p <;> rfl
@[simp] theorem earlyReply_regs (s : State) (p : PortId) (tag op : Byte) (l : List Byte) :
    (earlyReply s p tag op l).regs = s.regs := by cases p <;> rfl
@[simp] theorem earlyReply_jtag (s : State) (p : PortId) (tag op : Byte) (l : List Byte) :
    (earlyReply s p tag op l).jtag = s.jtag := by cases p <;> rfl
@[simp] theorem earlyReply_sramClean (s : State) (p : PortId) (tag op : Byte) (l : List Byte) :
    (earlyReply s p tag op l).sramClean = s.sramClean := by cases p <;> rfl
@[simp] theorem earlyReply_rcNow (s : State) (p : PortId) (tag op : Byte) (l : List Byte) :
    (earlyReply s p tag op l).rcNow = s.rcNow := by cases p <;> rfl
@[simp] theorem earlyReply_free (s : State) (p : PortId) (tag op : Byte) (l : List Byte) :
    (earlyReply s p tag op l).free = s.free := by cases p <;> rfl

@[simp] theorem takePlace_pending (s : State) (p : PortId) (op tag : Byte) :
    (takePlace s p op tag).pending = s.pending := by cases p <;> rfl
@[simp] theorem takePlace_bsn (s : State) (p : PortId) (op tag : Byte) :
    (takePlace s p op tag).bsn = s.bsn := by cases p <;> rfl
@[simp] theorem takePlace_cycle (s : State) (p : PortId) (op tag : Byte) :
    (takePlace s p op tag).cycle = s.cycle := by cases p <;> rfl
@[simp] theorem takePlace_mapDue (s : State) (p : PortId) (op tag : Byte) :
    (takePlace s p op tag).mapDue = s.mapDue := by cases p <;> rfl
@[simp] theorem takePlace_bus (s : State) (p : PortId) (op tag : Byte) :
    (takePlace s p op tag).bus = s.bus := by cases p <;> rfl
@[simp] theorem takePlace_events (s : State) (p : PortId) (op tag : Byte) :
    (takePlace s p op tag).events = s.events := by cases p <;> rfl
@[simp] theorem takePlace_power (s : State) (p : PortId) (op tag : Byte) :
    (takePlace s p op tag).power = s.power := by cases p <;> rfl
@[simp] theorem takePlace_record (s : State) (p : PortId) (op tag : Byte) :
    (takePlace s p op tag).record = s.record := by cases p <;> rfl
@[simp] theorem takePlace_otp (s : State) (p : PortId) (op tag : Byte) :
    (takePlace s p op tag).otp = s.otp := by cases p <;> rfl
@[simp] theorem takePlace_clock (s : State) (p : PortId) (op tag : Byte) :
    (takePlace s p op tag).clock = s.clock := by cases p <;> rfl
@[simp] theorem takePlace_dports (s : State) (p : PortId) (op tag : Byte) :
    (takePlace s p op tag).dports = s.dports := by cases p <;> rfl
@[simp] theorem takePlace_asrc (s : State) (p : PortId) (op tag : Byte) :
    (takePlace s p op tag).asrc = s.asrc := by cases p <;> rfl
@[simp] theorem takePlace_analog (s : State) (p : PortId) (op tag : Byte) :
    (takePlace s p op tag).analog = s.analog := by cases p <;> rfl
@[simp] theorem takePlace_wake (s : State) (p : PortId) (op tag : Byte) :
    (takePlace s p op tag).wake = s.wake := by cases p <;> rfl
@[simp] theorem takePlace_stage (s : State) (p : PortId) (op tag : Byte) :
    (takePlace s p op tag).stage = s.stage := by cases p <;> rfl
@[simp] theorem takePlace_diag (s : State) (p : PortId) (op tag : Byte) :
    (takePlace s p op tag).diag = s.diag := by cases p <;> rfl
@[simp] theorem takePlace_touch (s : State) (p : PortId) (op tag : Byte) :
    (takePlace s p op tag).touch = s.touch := by cases p <;> rfl
@[simp] theorem takePlace_graph (s : State) (p : PortId) (op tag : Byte) :
    (takePlace s p op tag).graph = s.graph := by cases p <;> rfl
@[simp] theorem takePlace_drover (s : State) (p : PortId) (op tag : Byte) :
    (takePlace s p op tag).drover = s.drover := by cases p <;> rfl
@[simp] theorem takePlace_health (s : State) (p : PortId) (op tag : Byte) :
    (takePlace s p op tag).health = s.health := by cases p <;> rfl
@[simp] theorem takePlace_params (s : State) (p : PortId) (op tag : Byte) :
    (takePlace s p op tag).params = s.params := by cases p <;> rfl
@[simp] theorem takePlace_regs (s : State) (p : PortId) (op tag : Byte) :
    (takePlace s p op tag).regs = s.regs := by cases p <;> rfl
@[simp] theorem takePlace_jtag (s : State) (p : PortId) (op tag : Byte) :
    (takePlace s p op tag).jtag = s.jtag := by cases p <;> rfl
@[simp] theorem takePlace_sramClean (s : State) (p : PortId) (op tag : Byte) :
    (takePlace s p op tag).sramClean = s.sramClean := by cases p <;> rfl
@[simp] theorem takePlace_rcNow (s : State) (p : PortId) (op tag : Byte) :
    (takePlace s p op tag).rcNow = s.rcNow := by cases p <;> rfl
@[simp] theorem takePlace_free (s : State) (p : PortId) (op tag : Byte) :
    (takePlace s p op tag).free = s.free := by cases p <;> rfl

@[simp] theorem setJob_pending (s : State) (p : PortId) (tag : Byte) (j : Job) :
    (setJob s p tag j).pending = s.pending := by cases p <;> rfl
@[simp] theorem setJob_bsn (s : State) (p : PortId) (tag : Byte) (j : Job) :
    (setJob s p tag j).bsn = s.bsn := by cases p <;> rfl
@[simp] theorem setJob_cycle (s : State) (p : PortId) (tag : Byte) (j : Job) :
    (setJob s p tag j).cycle = s.cycle := by cases p <;> rfl
@[simp] theorem setJob_seq (s : State) (p : PortId) (tag : Byte) (j : Job) :
    (setJob s p tag j).seq = s.seq := by cases p <;> rfl
@[simp] theorem setJob_mapDue (s : State) (p : PortId) (tag : Byte) (j : Job) :
    (setJob s p tag j).mapDue = s.mapDue := by cases p <;> rfl
@[simp] theorem setJob_bus (s : State) (p : PortId) (tag : Byte) (j : Job) :
    (setJob s p tag j).bus = s.bus := by cases p <;> rfl
@[simp] theorem setJob_events (s : State) (p : PortId) (tag : Byte) (j : Job) :
    (setJob s p tag j).events = s.events := by cases p <;> rfl
@[simp] theorem setJob_power (s : State) (p : PortId) (tag : Byte) (j : Job) :
    (setJob s p tag j).power = s.power := by cases p <;> rfl
@[simp] theorem setJob_record (s : State) (p : PortId) (tag : Byte) (j : Job) :
    (setJob s p tag j).record = s.record := by cases p <;> rfl
@[simp] theorem setJob_otp (s : State) (p : PortId) (tag : Byte) (j : Job) :
    (setJob s p tag j).otp = s.otp := by cases p <;> rfl
@[simp] theorem setJob_clock (s : State) (p : PortId) (tag : Byte) (j : Job) :
    (setJob s p tag j).clock = s.clock := by cases p <;> rfl
@[simp] theorem setJob_dports (s : State) (p : PortId) (tag : Byte) (j : Job) :
    (setJob s p tag j).dports = s.dports := by cases p <;> rfl
@[simp] theorem setJob_asrc (s : State) (p : PortId) (tag : Byte) (j : Job) :
    (setJob s p tag j).asrc = s.asrc := by cases p <;> rfl
@[simp] theorem setJob_analog (s : State) (p : PortId) (tag : Byte) (j : Job) :
    (setJob s p tag j).analog = s.analog := by cases p <;> rfl
@[simp] theorem setJob_wake (s : State) (p : PortId) (tag : Byte) (j : Job) :
    (setJob s p tag j).wake = s.wake := by cases p <;> rfl
@[simp] theorem setJob_stage (s : State) (p : PortId) (tag : Byte) (j : Job) :
    (setJob s p tag j).stage = s.stage := by cases p <;> rfl
@[simp] theorem setJob_diag (s : State) (p : PortId) (tag : Byte) (j : Job) :
    (setJob s p tag j).diag = s.diag := by cases p <;> rfl
@[simp] theorem setJob_touch (s : State) (p : PortId) (tag : Byte) (j : Job) :
    (setJob s p tag j).touch = s.touch := by cases p <;> rfl
@[simp] theorem setJob_graph (s : State) (p : PortId) (tag : Byte) (j : Job) :
    (setJob s p tag j).graph = s.graph := by cases p <;> rfl
@[simp] theorem setJob_drover (s : State) (p : PortId) (tag : Byte) (j : Job) :
    (setJob s p tag j).drover = s.drover := by cases p <;> rfl
@[simp] theorem setJob_health (s : State) (p : PortId) (tag : Byte) (j : Job) :
    (setJob s p tag j).health = s.health := by cases p <;> rfl
@[simp] theorem setJob_params (s : State) (p : PortId) (tag : Byte) (j : Job) :
    (setJob s p tag j).params = s.params := by cases p <;> rfl
@[simp] theorem setJob_regs (s : State) (p : PortId) (tag : Byte) (j : Job) :
    (setJob s p tag j).regs = s.regs := by cases p <;> rfl
@[simp] theorem setJob_jtag (s : State) (p : PortId) (tag : Byte) (j : Job) :
    (setJob s p tag j).jtag = s.jtag := by cases p <;> rfl
@[simp] theorem setJob_sramClean (s : State) (p : PortId) (tag : Byte) (j : Job) :
    (setJob s p tag j).sramClean = s.sramClean := by cases p <;> rfl
@[simp] theorem setJob_rcNow (s : State) (p : PortId) (tag : Byte) (j : Job) :
    (setJob s p tag j).rcNow = s.rcNow := by cases p <;> rfl
@[simp] theorem setJob_free (s : State) (p : PortId) (tag : Byte) (j : Job) :
    (setJob s p tag j).free = s.free := by cases p <;> rfl

@[simp] theorem nextFree_pending (s : State) :
    (nextFree s).pending = s.pending := rfl
@[simp] theorem nextFree_bsn (s : State) :
    (nextFree s).bsn = s.bsn := rfl
@[simp] theorem nextFree_cycle (s : State) :
    (nextFree s).cycle = s.cycle := rfl
@[simp] theorem nextFree_seq (s : State) :
    (nextFree s).seq = s.seq := rfl
@[simp] theorem nextFree_mapDue (s : State) :
    (nextFree s).mapDue = s.mapDue := rfl
@[simp] theorem nextFree_spi (s : State) :
    (nextFree s).spi = s.spi := rfl
@[simp] theorem nextFree_addrA (s : State) :
    (nextFree s).addrA = s.addrA := rfl
@[simp] theorem nextFree_addrB (s : State) :
    (nextFree s).addrB = s.addrB := rfl
@[simp] theorem nextFree_bus (s : State) :
    (nextFree s).bus = s.bus := rfl
@[simp] theorem nextFree_events (s : State) :
    (nextFree s).events = s.events := rfl
@[simp] theorem nextFree_power (s : State) :
    (nextFree s).power = s.power := rfl
@[simp] theorem nextFree_record (s : State) :
    (nextFree s).record = s.record := rfl
@[simp] theorem nextFree_otp (s : State) :
    (nextFree s).otp = s.otp := rfl
@[simp] theorem nextFree_clock (s : State) :
    (nextFree s).clock = s.clock := rfl
@[simp] theorem nextFree_dports (s : State) :
    (nextFree s).dports = s.dports := rfl
@[simp] theorem nextFree_asrc (s : State) :
    (nextFree s).asrc = s.asrc := rfl
@[simp] theorem nextFree_analog (s : State) :
    (nextFree s).analog = s.analog := rfl
@[simp] theorem nextFree_wake (s : State) :
    (nextFree s).wake = s.wake := rfl
@[simp] theorem nextFree_stage (s : State) :
    (nextFree s).stage = s.stage := rfl
@[simp] theorem nextFree_diag (s : State) :
    (nextFree s).diag = s.diag := rfl
@[simp] theorem nextFree_touch (s : State) :
    (nextFree s).touch = s.touch := rfl
@[simp] theorem nextFree_graph (s : State) :
    (nextFree s).graph = s.graph := rfl
@[simp] theorem nextFree_drover (s : State) :
    (nextFree s).drover = s.drover := rfl
@[simp] theorem nextFree_health (s : State) :
    (nextFree s).health = s.health := rfl
@[simp] theorem nextFree_params (s : State) :
    (nextFree s).params = s.params := rfl
@[simp] theorem nextFree_regs (s : State) :
    (nextFree s).regs = s.regs := rfl
@[simp] theorem nextFree_jtag (s : State) :
    (nextFree s).jtag = s.jtag := rfl
@[simp] theorem nextFree_sramClean (s : State) :
    (nextFree s).sramClean = s.sramClean := rfl
@[simp] theorem nextFree_rcNow (s : State) :
    (nextFree s).rcNow = s.rcNow := rfl

@[simp] theorem regSet_pending (s : State) (f : Nat → Nat) (a v : Nat) :
    (regSet s f a v).pending = s.pending := rfl
@[simp] theorem regSet_bsn (s : State) (f : Nat → Nat) (a v : Nat) :
    (regSet s f a v).bsn = s.bsn := rfl
@[simp] theorem regSet_cycle (s : State) (f : Nat → Nat) (a v : Nat) :
    (regSet s f a v).cycle = s.cycle := rfl
@[simp] theorem regSet_seq (s : State) (f : Nat → Nat) (a v : Nat) :
    (regSet s f a v).seq = s.seq := rfl
@[simp] theorem regSet_mapDue (s : State) (f : Nat → Nat) (a v : Nat) :
    (regSet s f a v).mapDue = s.mapDue := rfl
@[simp] theorem regSet_spi (s : State) (f : Nat → Nat) (a v : Nat) :
    (regSet s f a v).spi = s.spi := rfl
@[simp] theorem regSet_addrA (s : State) (f : Nat → Nat) (a v : Nat) :
    (regSet s f a v).addrA = s.addrA := rfl
@[simp] theorem regSet_addrB (s : State) (f : Nat → Nat) (a v : Nat) :
    (regSet s f a v).addrB = s.addrB := rfl
@[simp] theorem regSet_bus (s : State) (f : Nat → Nat) (a v : Nat) :
    (regSet s f a v).bus = s.bus := rfl
@[simp] theorem regSet_events (s : State) (f : Nat → Nat) (a v : Nat) :
    (regSet s f a v).events = s.events := rfl
@[simp] theorem regSet_power (s : State) (f : Nat → Nat) (a v : Nat) :
    (regSet s f a v).power = s.power := rfl
@[simp] theorem regSet_record (s : State) (f : Nat → Nat) (a v : Nat) :
    (regSet s f a v).record = s.record := rfl
@[simp] theorem regSet_otp (s : State) (f : Nat → Nat) (a v : Nat) :
    (regSet s f a v).otp = s.otp := rfl
@[simp] theorem regSet_clock (s : State) (f : Nat → Nat) (a v : Nat) :
    (regSet s f a v).clock = s.clock := rfl
@[simp] theorem regSet_dports (s : State) (f : Nat → Nat) (a v : Nat) :
    (regSet s f a v).dports = s.dports := rfl
@[simp] theorem regSet_asrc (s : State) (f : Nat → Nat) (a v : Nat) :
    (regSet s f a v).asrc = s.asrc := rfl
@[simp] theorem regSet_analog (s : State) (f : Nat → Nat) (a v : Nat) :
    (regSet s f a v).analog = s.analog := rfl
@[simp] theorem regSet_wake (s : State) (f : Nat → Nat) (a v : Nat) :
    (regSet s f a v).wake = s.wake := rfl
@[simp] theorem regSet_stage (s : State) (f : Nat → Nat) (a v : Nat) :
    (regSet s f a v).stage = s.stage := rfl
@[simp] theorem regSet_diag (s : State) (f : Nat → Nat) (a v : Nat) :
    (regSet s f a v).diag = s.diag := rfl
@[simp] theorem regSet_touch (s : State) (f : Nat → Nat) (a v : Nat) :
    (regSet s f a v).touch = s.touch := rfl
@[simp] theorem regSet_graph (s : State) (f : Nat → Nat) (a v : Nat) :
    (regSet s f a v).graph = s.graph := rfl
@[simp] theorem regSet_drover (s : State) (f : Nat → Nat) (a v : Nat) :
    (regSet s f a v).drover = s.drover := rfl
@[simp] theorem regSet_health (s : State) (f : Nat → Nat) (a v : Nat) :
    (regSet s f a v).health = s.health := rfl
@[simp] theorem regSet_params (s : State) (f : Nat → Nat) (a v : Nat) :
    (regSet s f a v).params = s.params := rfl
@[simp] theorem regSet_jtag (s : State) (f : Nat → Nat) (a v : Nat) :
    (regSet s f a v).jtag = s.jtag := rfl
@[simp] theorem regSet_sramClean (s : State) (f : Nat → Nat) (a v : Nat) :
    (regSet s f a v).sramClean = s.sramClean := rfl
@[simp] theorem regSet_rcNow (s : State) (f : Nat → Nat) (a v : Nat) :
    (regSet s f a v).rcNow = s.rcNow := rfl
@[simp] theorem regSet_free (s : State) (f : Nat → Nat) (a v : Nat) :
    (regSet s f a v).free = s.free := rfl

@[simp] theorem wr_pending (s : State) (r : Reg) (v : Nat) :
    (wr s r v).pending = s.pending := rfl
@[simp] theorem wr_bsn (s : State) (r : Reg) (v : Nat) :
    (wr s r v).bsn = s.bsn := rfl
@[simp] theorem wr_cycle (s : State) (r : Reg) (v : Nat) :
    (wr s r v).cycle = s.cycle := rfl
@[simp] theorem wr_seq (s : State) (r : Reg) (v : Nat) :
    (wr s r v).seq = s.seq := rfl
@[simp] theorem wr_mapDue (s : State) (r : Reg) (v : Nat) :
    (wr s r v).mapDue = s.mapDue := rfl
@[simp] theorem wr_spi (s : State) (r : Reg) (v : Nat) :
    (wr s r v).spi = s.spi := rfl
@[simp] theorem wr_addrA (s : State) (r : Reg) (v : Nat) :
    (wr s r v).addrA = s.addrA := rfl
@[simp] theorem wr_addrB (s : State) (r : Reg) (v : Nat) :
    (wr s r v).addrB = s.addrB := rfl
@[simp] theorem wr_bus (s : State) (r : Reg) (v : Nat) :
    (wr s r v).bus = s.bus := rfl
@[simp] theorem wr_events (s : State) (r : Reg) (v : Nat) :
    (wr s r v).events = s.events := rfl
@[simp] theorem wr_power (s : State) (r : Reg) (v : Nat) :
    (wr s r v).power = s.power := rfl
@[simp] theorem wr_record (s : State) (r : Reg) (v : Nat) :
    (wr s r v).record = s.record := rfl
@[simp] theorem wr_otp (s : State) (r : Reg) (v : Nat) :
    (wr s r v).otp = s.otp := rfl
@[simp] theorem wr_clock (s : State) (r : Reg) (v : Nat) :
    (wr s r v).clock = s.clock := rfl
@[simp] theorem wr_dports (s : State) (r : Reg) (v : Nat) :
    (wr s r v).dports = s.dports := rfl
@[simp] theorem wr_asrc (s : State) (r : Reg) (v : Nat) :
    (wr s r v).asrc = s.asrc := rfl
@[simp] theorem wr_analog (s : State) (r : Reg) (v : Nat) :
    (wr s r v).analog = s.analog := rfl
@[simp] theorem wr_wake (s : State) (r : Reg) (v : Nat) :
    (wr s r v).wake = s.wake := rfl
@[simp] theorem wr_stage (s : State) (r : Reg) (v : Nat) :
    (wr s r v).stage = s.stage := rfl
@[simp] theorem wr_diag (s : State) (r : Reg) (v : Nat) :
    (wr s r v).diag = s.diag := rfl
@[simp] theorem wr_touch (s : State) (r : Reg) (v : Nat) :
    (wr s r v).touch = s.touch := rfl
@[simp] theorem wr_graph (s : State) (r : Reg) (v : Nat) :
    (wr s r v).graph = s.graph := rfl
@[simp] theorem wr_drover (s : State) (r : Reg) (v : Nat) :
    (wr s r v).drover = s.drover := rfl
@[simp] theorem wr_health (s : State) (r : Reg) (v : Nat) :
    (wr s r v).health = s.health := rfl
@[simp] theorem wr_params (s : State) (r : Reg) (v : Nat) :
    (wr s r v).params = s.params := rfl
@[simp] theorem wr_jtag (s : State) (r : Reg) (v : Nat) :
    (wr s r v).jtag = s.jtag := rfl
@[simp] theorem wr_sramClean (s : State) (r : Reg) (v : Nat) :
    (wr s r v).sramClean = s.sramClean := rfl
@[simp] theorem wr_rcNow (s : State) (r : Reg) (v : Nat) :
    (wr s r v).rcNow = s.rcNow := rfl
@[simp] theorem wr_free (s : State) (r : Reg) (v : Nat) :
    (wr s r v).free = s.free := rfl

@[simp] theorem modHealth_pending (s : State) (f : Health → Health) :
    (modHealth s f).pending = s.pending := rfl
@[simp] theorem modHealth_bsn (s : State) (f : Health → Health) :
    (modHealth s f).bsn = s.bsn := rfl
@[simp] theorem modHealth_cycle (s : State) (f : Health → Health) :
    (modHealth s f).cycle = s.cycle := rfl
@[simp] theorem modHealth_seq (s : State) (f : Health → Health) :
    (modHealth s f).seq = s.seq := rfl
@[simp] theorem modHealth_mapDue (s : State) (f : Health → Health) :
    (modHealth s f).mapDue = s.mapDue := rfl
@[simp] theorem modHealth_spi (s : State) (f : Health → Health) :
    (modHealth s f).spi = s.spi := rfl
@[simp] theorem modHealth_addrA (s : State) (f : Health → Health) :
    (modHealth s f).addrA = s.addrA := rfl
@[simp] theorem modHealth_addrB (s : State) (f : Health → Health) :
    (modHealth s f).addrB = s.addrB := rfl
@[simp] theorem modHealth_bus (s : State) (f : Health → Health) :
    (modHealth s f).bus = s.bus := rfl
@[simp] theorem modHealth_events (s : State) (f : Health → Health) :
    (modHealth s f).events = s.events := rfl
@[simp] theorem modHealth_power (s : State) (f : Health → Health) :
    (modHealth s f).power = s.power := rfl
@[simp] theorem modHealth_record (s : State) (f : Health → Health) :
    (modHealth s f).record = s.record := rfl
@[simp] theorem modHealth_otp (s : State) (f : Health → Health) :
    (modHealth s f).otp = s.otp := rfl
@[simp] theorem modHealth_clock (s : State) (f : Health → Health) :
    (modHealth s f).clock = s.clock := rfl
@[simp] theorem modHealth_dports (s : State) (f : Health → Health) :
    (modHealth s f).dports = s.dports := rfl
@[simp] theorem modHealth_asrc (s : State) (f : Health → Health) :
    (modHealth s f).asrc = s.asrc := rfl
@[simp] theorem modHealth_analog (s : State) (f : Health → Health) :
    (modHealth s f).analog = s.analog := rfl
@[simp] theorem modHealth_wake (s : State) (f : Health → Health) :
    (modHealth s f).wake = s.wake := rfl
@[simp] theorem modHealth_stage (s : State) (f : Health → Health) :
    (modHealth s f).stage = s.stage := rfl
@[simp] theorem modHealth_diag (s : State) (f : Health → Health) :
    (modHealth s f).diag = s.diag := rfl
@[simp] theorem modHealth_touch (s : State) (f : Health → Health) :
    (modHealth s f).touch = s.touch := rfl
@[simp] theorem modHealth_graph (s : State) (f : Health → Health) :
    (modHealth s f).graph = s.graph := rfl
@[simp] theorem modHealth_drover (s : State) (f : Health → Health) :
    (modHealth s f).drover = s.drover := rfl
@[simp] theorem modHealth_params (s : State) (f : Health → Health) :
    (modHealth s f).params = s.params := rfl
@[simp] theorem modHealth_regs (s : State) (f : Health → Health) :
    (modHealth s f).regs = s.regs := rfl
@[simp] theorem modHealth_jtag (s : State) (f : Health → Health) :
    (modHealth s f).jtag = s.jtag := rfl
@[simp] theorem modHealth_sramClean (s : State) (f : Health → Health) :
    (modHealth s f).sramClean = s.sramClean := rfl
@[simp] theorem modHealth_rcNow (s : State) (f : Health → Health) :
    (modHealth s f).rcNow = s.rcNow := rfl
@[simp] theorem modHealth_free (s : State) (f : Health → Health) :
    (modHealth s f).free = s.free := rfl

@[simp] theorem modClock_pending (s : State) (f : Clock → Clock) :
    (modClock s f).pending = s.pending := rfl
@[simp] theorem modClock_bsn (s : State) (f : Clock → Clock) :
    (modClock s f).bsn = s.bsn := rfl
@[simp] theorem modClock_cycle (s : State) (f : Clock → Clock) :
    (modClock s f).cycle = s.cycle := rfl
@[simp] theorem modClock_seq (s : State) (f : Clock → Clock) :
    (modClock s f).seq = s.seq := rfl
@[simp] theorem modClock_mapDue (s : State) (f : Clock → Clock) :
    (modClock s f).mapDue = s.mapDue := rfl
@[simp] theorem modClock_spi (s : State) (f : Clock → Clock) :
    (modClock s f).spi = s.spi := rfl
@[simp] theorem modClock_addrA (s : State) (f : Clock → Clock) :
    (modClock s f).addrA = s.addrA := rfl
@[simp] theorem modClock_addrB (s : State) (f : Clock → Clock) :
    (modClock s f).addrB = s.addrB := rfl
@[simp] theorem modClock_bus (s : State) (f : Clock → Clock) :
    (modClock s f).bus = s.bus := rfl
@[simp] theorem modClock_events (s : State) (f : Clock → Clock) :
    (modClock s f).events = s.events := rfl
@[simp] theorem modClock_power (s : State) (f : Clock → Clock) :
    (modClock s f).power = s.power := rfl
@[simp] theorem modClock_record (s : State) (f : Clock → Clock) :
    (modClock s f).record = s.record := rfl
@[simp] theorem modClock_otp (s : State) (f : Clock → Clock) :
    (modClock s f).otp = s.otp := rfl
@[simp] theorem modClock_dports (s : State) (f : Clock → Clock) :
    (modClock s f).dports = s.dports := rfl
@[simp] theorem modClock_asrc (s : State) (f : Clock → Clock) :
    (modClock s f).asrc = s.asrc := rfl
@[simp] theorem modClock_analog (s : State) (f : Clock → Clock) :
    (modClock s f).analog = s.analog := rfl
@[simp] theorem modClock_wake (s : State) (f : Clock → Clock) :
    (modClock s f).wake = s.wake := rfl
@[simp] theorem modClock_stage (s : State) (f : Clock → Clock) :
    (modClock s f).stage = s.stage := rfl
@[simp] theorem modClock_diag (s : State) (f : Clock → Clock) :
    (modClock s f).diag = s.diag := rfl
@[simp] theorem modClock_touch (s : State) (f : Clock → Clock) :
    (modClock s f).touch = s.touch := rfl
@[simp] theorem modClock_graph (s : State) (f : Clock → Clock) :
    (modClock s f).graph = s.graph := rfl
@[simp] theorem modClock_drover (s : State) (f : Clock → Clock) :
    (modClock s f).drover = s.drover := rfl
@[simp] theorem modClock_health (s : State) (f : Clock → Clock) :
    (modClock s f).health = s.health := rfl
@[simp] theorem modClock_params (s : State) (f : Clock → Clock) :
    (modClock s f).params = s.params := rfl
@[simp] theorem modClock_regs (s : State) (f : Clock → Clock) :
    (modClock s f).regs = s.regs := rfl
@[simp] theorem modClock_jtag (s : State) (f : Clock → Clock) :
    (modClock s f).jtag = s.jtag := rfl
@[simp] theorem modClock_sramClean (s : State) (f : Clock → Clock) :
    (modClock s f).sramClean = s.sramClean := rfl
@[simp] theorem modClock_rcNow (s : State) (f : Clock → Clock) :
    (modClock s f).rcNow = s.rcNow := rfl
@[simp] theorem modClock_free (s : State) (f : Clock → Clock) :
    (modClock s f).free = s.free := rfl

@[simp] theorem modWake_pending (s : State) (f : Wake → Wake) :
    (modWake s f).pending = s.pending := rfl
@[simp] theorem modWake_bsn (s : State) (f : Wake → Wake) :
    (modWake s f).bsn = s.bsn := rfl
@[simp] theorem modWake_cycle (s : State) (f : Wake → Wake) :
    (modWake s f).cycle = s.cycle := rfl
@[simp] theorem modWake_seq (s : State) (f : Wake → Wake) :
    (modWake s f).seq = s.seq := rfl
@[simp] theorem modWake_mapDue (s : State) (f : Wake → Wake) :
    (modWake s f).mapDue = s.mapDue := rfl
@[simp] theorem modWake_spi (s : State) (f : Wake → Wake) :
    (modWake s f).spi = s.spi := rfl
@[simp] theorem modWake_addrA (s : State) (f : Wake → Wake) :
    (modWake s f).addrA = s.addrA := rfl
@[simp] theorem modWake_addrB (s : State) (f : Wake → Wake) :
    (modWake s f).addrB = s.addrB := rfl
@[simp] theorem modWake_bus (s : State) (f : Wake → Wake) :
    (modWake s f).bus = s.bus := rfl
@[simp] theorem modWake_events (s : State) (f : Wake → Wake) :
    (modWake s f).events = s.events := rfl
@[simp] theorem modWake_power (s : State) (f : Wake → Wake) :
    (modWake s f).power = s.power := rfl
@[simp] theorem modWake_record (s : State) (f : Wake → Wake) :
    (modWake s f).record = s.record := rfl
@[simp] theorem modWake_otp (s : State) (f : Wake → Wake) :
    (modWake s f).otp = s.otp := rfl
@[simp] theorem modWake_clock (s : State) (f : Wake → Wake) :
    (modWake s f).clock = s.clock := rfl
@[simp] theorem modWake_dports (s : State) (f : Wake → Wake) :
    (modWake s f).dports = s.dports := rfl
@[simp] theorem modWake_asrc (s : State) (f : Wake → Wake) :
    (modWake s f).asrc = s.asrc := rfl
@[simp] theorem modWake_analog (s : State) (f : Wake → Wake) :
    (modWake s f).analog = s.analog := rfl
@[simp] theorem modWake_stage (s : State) (f : Wake → Wake) :
    (modWake s f).stage = s.stage := rfl
@[simp] theorem modWake_diag (s : State) (f : Wake → Wake) :
    (modWake s f).diag = s.diag := rfl
@[simp] theorem modWake_touch (s : State) (f : Wake → Wake) :
    (modWake s f).touch = s.touch := rfl
@[simp] theorem modWake_graph (s : State) (f : Wake → Wake) :
    (modWake s f).graph = s.graph := rfl
@[simp] theorem modWake_drover (s : State) (f : Wake → Wake) :
    (modWake s f).drover = s.drover := rfl
@[simp] theorem modWake_health (s : State) (f : Wake → Wake) :
    (modWake s f).health = s.health := rfl
@[simp] theorem modWake_params (s : State) (f : Wake → Wake) :
    (modWake s f).params = s.params := rfl
@[simp] theorem modWake_regs (s : State) (f : Wake → Wake) :
    (modWake s f).regs = s.regs := rfl
@[simp] theorem modWake_jtag (s : State) (f : Wake → Wake) :
    (modWake s f).jtag = s.jtag := rfl
@[simp] theorem modWake_sramClean (s : State) (f : Wake → Wake) :
    (modWake s f).sramClean = s.sramClean := rfl
@[simp] theorem modWake_rcNow (s : State) (f : Wake → Wake) :
    (modWake s f).rcNow = s.rcNow := rfl
@[simp] theorem modWake_free (s : State) (f : Wake → Wake) :
    (modWake s f).free = s.free := rfl

@[simp] theorem modPower_pending (s : State) (f : Power → Power) :
    (modPower s f).pending = s.pending := rfl
@[simp] theorem modPower_bsn (s : State) (f : Power → Power) :
    (modPower s f).bsn = s.bsn := rfl
@[simp] theorem modPower_cycle (s : State) (f : Power → Power) :
    (modPower s f).cycle = s.cycle := rfl
@[simp] theorem modPower_seq (s : State) (f : Power → Power) :
    (modPower s f).seq = s.seq := rfl
@[simp] theorem modPower_mapDue (s : State) (f : Power → Power) :
    (modPower s f).mapDue = s.mapDue := rfl
@[simp] theorem modPower_spi (s : State) (f : Power → Power) :
    (modPower s f).spi = s.spi := rfl
@[simp] theorem modPower_addrA (s : State) (f : Power → Power) :
    (modPower s f).addrA = s.addrA := rfl
@[simp] theorem modPower_addrB (s : State) (f : Power → Power) :
    (modPower s f).addrB = s.addrB := rfl
@[simp] theorem modPower_bus (s : State) (f : Power → Power) :
    (modPower s f).bus = s.bus := rfl
@[simp] theorem modPower_events (s : State) (f : Power → Power) :
    (modPower s f).events = s.events := rfl
@[simp] theorem modPower_record (s : State) (f : Power → Power) :
    (modPower s f).record = s.record := rfl
@[simp] theorem modPower_otp (s : State) (f : Power → Power) :
    (modPower s f).otp = s.otp := rfl
@[simp] theorem modPower_clock (s : State) (f : Power → Power) :
    (modPower s f).clock = s.clock := rfl
@[simp] theorem modPower_dports (s : State) (f : Power → Power) :
    (modPower s f).dports = s.dports := rfl
@[simp] theorem modPower_asrc (s : State) (f : Power → Power) :
    (modPower s f).asrc = s.asrc := rfl
@[simp] theorem modPower_analog (s : State) (f : Power → Power) :
    (modPower s f).analog = s.analog := rfl
@[simp] theorem modPower_wake (s : State) (f : Power → Power) :
    (modPower s f).wake = s.wake := rfl
@[simp] theorem modPower_stage (s : State) (f : Power → Power) :
    (modPower s f).stage = s.stage := rfl
@[simp] theorem modPower_diag (s : State) (f : Power → Power) :
    (modPower s f).diag = s.diag := rfl
@[simp] theorem modPower_touch (s : State) (f : Power → Power) :
    (modPower s f).touch = s.touch := rfl
@[simp] theorem modPower_graph (s : State) (f : Power → Power) :
    (modPower s f).graph = s.graph := rfl
@[simp] theorem modPower_drover (s : State) (f : Power → Power) :
    (modPower s f).drover = s.drover := rfl
@[simp] theorem modPower_health (s : State) (f : Power → Power) :
    (modPower s f).health = s.health := rfl
@[simp] theorem modPower_params (s : State) (f : Power → Power) :
    (modPower s f).params = s.params := rfl
@[simp] theorem modPower_regs (s : State) (f : Power → Power) :
    (modPower s f).regs = s.regs := rfl
@[simp] theorem modPower_jtag (s : State) (f : Power → Power) :
    (modPower s f).jtag = s.jtag := rfl
@[simp] theorem modPower_sramClean (s : State) (f : Power → Power) :
    (modPower s f).sramClean = s.sramClean := rfl
@[simp] theorem modPower_rcNow (s : State) (f : Power → Power) :
    (modPower s f).rcNow = s.rcNow := rfl
@[simp] theorem modPower_free (s : State) (f : Power → Power) :
    (modPower s f).free = s.free := rfl

@[simp] theorem modDiag_pending (s : State) (f : Diag → Diag) :
    (modDiag s f).pending = s.pending := rfl
@[simp] theorem modDiag_bsn (s : State) (f : Diag → Diag) :
    (modDiag s f).bsn = s.bsn := rfl
@[simp] theorem modDiag_cycle (s : State) (f : Diag → Diag) :
    (modDiag s f).cycle = s.cycle := rfl
@[simp] theorem modDiag_seq (s : State) (f : Diag → Diag) :
    (modDiag s f).seq = s.seq := rfl
@[simp] theorem modDiag_mapDue (s : State) (f : Diag → Diag) :
    (modDiag s f).mapDue = s.mapDue := rfl
@[simp] theorem modDiag_spi (s : State) (f : Diag → Diag) :
    (modDiag s f).spi = s.spi := rfl
@[simp] theorem modDiag_addrA (s : State) (f : Diag → Diag) :
    (modDiag s f).addrA = s.addrA := rfl
@[simp] theorem modDiag_addrB (s : State) (f : Diag → Diag) :
    (modDiag s f).addrB = s.addrB := rfl
@[simp] theorem modDiag_bus (s : State) (f : Diag → Diag) :
    (modDiag s f).bus = s.bus := rfl
@[simp] theorem modDiag_events (s : State) (f : Diag → Diag) :
    (modDiag s f).events = s.events := rfl
@[simp] theorem modDiag_power (s : State) (f : Diag → Diag) :
    (modDiag s f).power = s.power := rfl
@[simp] theorem modDiag_record (s : State) (f : Diag → Diag) :
    (modDiag s f).record = s.record := rfl
@[simp] theorem modDiag_otp (s : State) (f : Diag → Diag) :
    (modDiag s f).otp = s.otp := rfl
@[simp] theorem modDiag_clock (s : State) (f : Diag → Diag) :
    (modDiag s f).clock = s.clock := rfl
@[simp] theorem modDiag_dports (s : State) (f : Diag → Diag) :
    (modDiag s f).dports = s.dports := rfl
@[simp] theorem modDiag_asrc (s : State) (f : Diag → Diag) :
    (modDiag s f).asrc = s.asrc := rfl
@[simp] theorem modDiag_analog (s : State) (f : Diag → Diag) :
    (modDiag s f).analog = s.analog := rfl
@[simp] theorem modDiag_wake (s : State) (f : Diag → Diag) :
    (modDiag s f).wake = s.wake := rfl
@[simp] theorem modDiag_stage (s : State) (f : Diag → Diag) :
    (modDiag s f).stage = s.stage := rfl
@[simp] theorem modDiag_touch (s : State) (f : Diag → Diag) :
    (modDiag s f).touch = s.touch := rfl
@[simp] theorem modDiag_graph (s : State) (f : Diag → Diag) :
    (modDiag s f).graph = s.graph := rfl
@[simp] theorem modDiag_drover (s : State) (f : Diag → Diag) :
    (modDiag s f).drover = s.drover := rfl
@[simp] theorem modDiag_health (s : State) (f : Diag → Diag) :
    (modDiag s f).health = s.health := rfl
@[simp] theorem modDiag_params (s : State) (f : Diag → Diag) :
    (modDiag s f).params = s.params := rfl
@[simp] theorem modDiag_regs (s : State) (f : Diag → Diag) :
    (modDiag s f).regs = s.regs := rfl
@[simp] theorem modDiag_jtag (s : State) (f : Diag → Diag) :
    (modDiag s f).jtag = s.jtag := rfl
@[simp] theorem modDiag_sramClean (s : State) (f : Diag → Diag) :
    (modDiag s f).sramClean = s.sramClean := rfl
@[simp] theorem modDiag_rcNow (s : State) (f : Diag → Diag) :
    (modDiag s f).rcNow = s.rcNow := rfl
@[simp] theorem modDiag_free (s : State) (f : Diag → Diag) :
    (modDiag s f).free = s.free := rfl

@[simp] theorem modHp_pending (s : State) (f : Output → Output) :
    (modHp s f).pending = s.pending := rfl
@[simp] theorem modHp_bsn (s : State) (f : Output → Output) :
    (modHp s f).bsn = s.bsn := rfl
@[simp] theorem modHp_cycle (s : State) (f : Output → Output) :
    (modHp s f).cycle = s.cycle := rfl
@[simp] theorem modHp_seq (s : State) (f : Output → Output) :
    (modHp s f).seq = s.seq := rfl
@[simp] theorem modHp_mapDue (s : State) (f : Output → Output) :
    (modHp s f).mapDue = s.mapDue := rfl
@[simp] theorem modHp_spi (s : State) (f : Output → Output) :
    (modHp s f).spi = s.spi := rfl
@[simp] theorem modHp_addrA (s : State) (f : Output → Output) :
    (modHp s f).addrA = s.addrA := rfl
@[simp] theorem modHp_addrB (s : State) (f : Output → Output) :
    (modHp s f).addrB = s.addrB := rfl
@[simp] theorem modHp_bus (s : State) (f : Output → Output) :
    (modHp s f).bus = s.bus := rfl
@[simp] theorem modHp_events (s : State) (f : Output → Output) :
    (modHp s f).events = s.events := rfl
@[simp] theorem modHp_power (s : State) (f : Output → Output) :
    (modHp s f).power = s.power := rfl
@[simp] theorem modHp_record (s : State) (f : Output → Output) :
    (modHp s f).record = s.record := rfl
@[simp] theorem modHp_otp (s : State) (f : Output → Output) :
    (modHp s f).otp = s.otp := rfl
@[simp] theorem modHp_clock (s : State) (f : Output → Output) :
    (modHp s f).clock = s.clock := rfl
@[simp] theorem modHp_dports (s : State) (f : Output → Output) :
    (modHp s f).dports = s.dports := rfl
@[simp] theorem modHp_asrc (s : State) (f : Output → Output) :
    (modHp s f).asrc = s.asrc := rfl
@[simp] theorem modHp_wake (s : State) (f : Output → Output) :
    (modHp s f).wake = s.wake := rfl
@[simp] theorem modHp_stage (s : State) (f : Output → Output) :
    (modHp s f).stage = s.stage := rfl
@[simp] theorem modHp_diag (s : State) (f : Output → Output) :
    (modHp s f).diag = s.diag := rfl
@[simp] theorem modHp_touch (s : State) (f : Output → Output) :
    (modHp s f).touch = s.touch := rfl
@[simp] theorem modHp_graph (s : State) (f : Output → Output) :
    (modHp s f).graph = s.graph := rfl
@[simp] theorem modHp_drover (s : State) (f : Output → Output) :
    (modHp s f).drover = s.drover := rfl
@[simp] theorem modHp_health (s : State) (f : Output → Output) :
    (modHp s f).health = s.health := rfl
@[simp] theorem modHp_params (s : State) (f : Output → Output) :
    (modHp s f).params = s.params := rfl
@[simp] theorem modHp_regs (s : State) (f : Output → Output) :
    (modHp s f).regs = s.regs := rfl
@[simp] theorem modHp_jtag (s : State) (f : Output → Output) :
    (modHp s f).jtag = s.jtag := rfl
@[simp] theorem modHp_sramClean (s : State) (f : Output → Output) :
    (modHp s f).sramClean = s.sramClean := rfl
@[simp] theorem modHp_rcNow (s : State) (f : Output → Output) :
    (modHp s f).rcNow = s.rcNow := rfl
@[simp] theorem modHp_free (s : State) (f : Output → Output) :
    (modHp s f).free = s.free := rfl

@[simp] theorem modLo_pending (s : State) (f : Output → Output) :
    (modLo s f).pending = s.pending := rfl
@[simp] theorem modLo_bsn (s : State) (f : Output → Output) :
    (modLo s f).bsn = s.bsn := rfl
@[simp] theorem modLo_cycle (s : State) (f : Output → Output) :
    (modLo s f).cycle = s.cycle := rfl
@[simp] theorem modLo_seq (s : State) (f : Output → Output) :
    (modLo s f).seq = s.seq := rfl
@[simp] theorem modLo_mapDue (s : State) (f : Output → Output) :
    (modLo s f).mapDue = s.mapDue := rfl
@[simp] theorem modLo_spi (s : State) (f : Output → Output) :
    (modLo s f).spi = s.spi := rfl
@[simp] theorem modLo_addrA (s : State) (f : Output → Output) :
    (modLo s f).addrA = s.addrA := rfl
@[simp] theorem modLo_addrB (s : State) (f : Output → Output) :
    (modLo s f).addrB = s.addrB := rfl
@[simp] theorem modLo_bus (s : State) (f : Output → Output) :
    (modLo s f).bus = s.bus := rfl
@[simp] theorem modLo_events (s : State) (f : Output → Output) :
    (modLo s f).events = s.events := rfl
@[simp] theorem modLo_power (s : State) (f : Output → Output) :
    (modLo s f).power = s.power := rfl
@[simp] theorem modLo_record (s : State) (f : Output → Output) :
    (modLo s f).record = s.record := rfl
@[simp] theorem modLo_otp (s : State) (f : Output → Output) :
    (modLo s f).otp = s.otp := rfl
@[simp] theorem modLo_clock (s : State) (f : Output → Output) :
    (modLo s f).clock = s.clock := rfl
@[simp] theorem modLo_dports (s : State) (f : Output → Output) :
    (modLo s f).dports = s.dports := rfl
@[simp] theorem modLo_asrc (s : State) (f : Output → Output) :
    (modLo s f).asrc = s.asrc := rfl
@[simp] theorem modLo_wake (s : State) (f : Output → Output) :
    (modLo s f).wake = s.wake := rfl
@[simp] theorem modLo_stage (s : State) (f : Output → Output) :
    (modLo s f).stage = s.stage := rfl
@[simp] theorem modLo_diag (s : State) (f : Output → Output) :
    (modLo s f).diag = s.diag := rfl
@[simp] theorem modLo_touch (s : State) (f : Output → Output) :
    (modLo s f).touch = s.touch := rfl
@[simp] theorem modLo_graph (s : State) (f : Output → Output) :
    (modLo s f).graph = s.graph := rfl
@[simp] theorem modLo_drover (s : State) (f : Output → Output) :
    (modLo s f).drover = s.drover := rfl
@[simp] theorem modLo_health (s : State) (f : Output → Output) :
    (modLo s f).health = s.health := rfl
@[simp] theorem modLo_params (s : State) (f : Output → Output) :
    (modLo s f).params = s.params := rfl
@[simp] theorem modLo_regs (s : State) (f : Output → Output) :
    (modLo s f).regs = s.regs := rfl
@[simp] theorem modLo_jtag (s : State) (f : Output → Output) :
    (modLo s f).jtag = s.jtag := rfl
@[simp] theorem modLo_sramClean (s : State) (f : Output → Output) :
    (modLo s f).sramClean = s.sramClean := rfl
@[simp] theorem modLo_rcNow (s : State) (f : Output → Output) :
    (modLo s f).rcNow = s.rcNow := rfl
@[simp] theorem modLo_free (s : State) (f : Output → Output) :
    (modLo s f).free = s.free := rfl

@[simp] theorem modJack_pending (s : State) (f : Jacks → Jacks) :
    (modJack s f).pending = s.pending := rfl
@[simp] theorem modJack_bsn (s : State) (f : Jacks → Jacks) :
    (modJack s f).bsn = s.bsn := rfl
@[simp] theorem modJack_cycle (s : State) (f : Jacks → Jacks) :
    (modJack s f).cycle = s.cycle := rfl
@[simp] theorem modJack_seq (s : State) (f : Jacks → Jacks) :
    (modJack s f).seq = s.seq := rfl
@[simp] theorem modJack_mapDue (s : State) (f : Jacks → Jacks) :
    (modJack s f).mapDue = s.mapDue := rfl
@[simp] theorem modJack_spi (s : State) (f : Jacks → Jacks) :
    (modJack s f).spi = s.spi := rfl
@[simp] theorem modJack_addrA (s : State) (f : Jacks → Jacks) :
    (modJack s f).addrA = s.addrA := rfl
@[simp] theorem modJack_addrB (s : State) (f : Jacks → Jacks) :
    (modJack s f).addrB = s.addrB := rfl
@[simp] theorem modJack_bus (s : State) (f : Jacks → Jacks) :
    (modJack s f).bus = s.bus := rfl
@[simp] theorem modJack_events (s : State) (f : Jacks → Jacks) :
    (modJack s f).events = s.events := rfl
@[simp] theorem modJack_power (s : State) (f : Jacks → Jacks) :
    (modJack s f).power = s.power := rfl
@[simp] theorem modJack_record (s : State) (f : Jacks → Jacks) :
    (modJack s f).record = s.record := rfl
@[simp] theorem modJack_otp (s : State) (f : Jacks → Jacks) :
    (modJack s f).otp = s.otp := rfl
@[simp] theorem modJack_clock (s : State) (f : Jacks → Jacks) :
    (modJack s f).clock = s.clock := rfl
@[simp] theorem modJack_dports (s : State) (f : Jacks → Jacks) :
    (modJack s f).dports = s.dports := rfl
@[simp] theorem modJack_asrc (s : State) (f : Jacks → Jacks) :
    (modJack s f).asrc = s.asrc := rfl
@[simp] theorem modJack_wake (s : State) (f : Jacks → Jacks) :
    (modJack s f).wake = s.wake := rfl
@[simp] theorem modJack_stage (s : State) (f : Jacks → Jacks) :
    (modJack s f).stage = s.stage := rfl
@[simp] theorem modJack_diag (s : State) (f : Jacks → Jacks) :
    (modJack s f).diag = s.diag := rfl
@[simp] theorem modJack_touch (s : State) (f : Jacks → Jacks) :
    (modJack s f).touch = s.touch := rfl
@[simp] theorem modJack_graph (s : State) (f : Jacks → Jacks) :
    (modJack s f).graph = s.graph := rfl
@[simp] theorem modJack_drover (s : State) (f : Jacks → Jacks) :
    (modJack s f).drover = s.drover := rfl
@[simp] theorem modJack_health (s : State) (f : Jacks → Jacks) :
    (modJack s f).health = s.health := rfl
@[simp] theorem modJack_params (s : State) (f : Jacks → Jacks) :
    (modJack s f).params = s.params := rfl
@[simp] theorem modJack_regs (s : State) (f : Jacks → Jacks) :
    (modJack s f).regs = s.regs := rfl
@[simp] theorem modJack_jtag (s : State) (f : Jacks → Jacks) :
    (modJack s f).jtag = s.jtag := rfl
@[simp] theorem modJack_sramClean (s : State) (f : Jacks → Jacks) :
    (modJack s f).sramClean = s.sramClean := rfl
@[simp] theorem modJack_rcNow (s : State) (f : Jacks → Jacks) :
    (modJack s f).rcNow = s.rcNow := rfl
@[simp] theorem modJack_free (s : State) (f : Jacks → Jacks) :
    (modJack s f).free = s.free := rfl

@[simp] theorem modDport_pending (s : State) (i : Nat) (f : DPort → DPort) :
    (modDport s i f).pending = s.pending := rfl
@[simp] theorem modDport_bsn (s : State) (i : Nat) (f : DPort → DPort) :
    (modDport s i f).bsn = s.bsn := rfl
@[simp] theorem modDport_cycle (s : State) (i : Nat) (f : DPort → DPort) :
    (modDport s i f).cycle = s.cycle := rfl
@[simp] theorem modDport_seq (s : State) (i : Nat) (f : DPort → DPort) :
    (modDport s i f).seq = s.seq := rfl
@[simp] theorem modDport_mapDue (s : State) (i : Nat) (f : DPort → DPort) :
    (modDport s i f).mapDue = s.mapDue := rfl
@[simp] theorem modDport_spi (s : State) (i : Nat) (f : DPort → DPort) :
    (modDport s i f).spi = s.spi := rfl
@[simp] theorem modDport_addrA (s : State) (i : Nat) (f : DPort → DPort) :
    (modDport s i f).addrA = s.addrA := rfl
@[simp] theorem modDport_addrB (s : State) (i : Nat) (f : DPort → DPort) :
    (modDport s i f).addrB = s.addrB := rfl
@[simp] theorem modDport_bus (s : State) (i : Nat) (f : DPort → DPort) :
    (modDport s i f).bus = s.bus := rfl
@[simp] theorem modDport_events (s : State) (i : Nat) (f : DPort → DPort) :
    (modDport s i f).events = s.events := rfl
@[simp] theorem modDport_power (s : State) (i : Nat) (f : DPort → DPort) :
    (modDport s i f).power = s.power := rfl
@[simp] theorem modDport_record (s : State) (i : Nat) (f : DPort → DPort) :
    (modDport s i f).record = s.record := rfl
@[simp] theorem modDport_otp (s : State) (i : Nat) (f : DPort → DPort) :
    (modDport s i f).otp = s.otp := rfl
@[simp] theorem modDport_clock (s : State) (i : Nat) (f : DPort → DPort) :
    (modDport s i f).clock = s.clock := rfl
@[simp] theorem modDport_asrc (s : State) (i : Nat) (f : DPort → DPort) :
    (modDport s i f).asrc = s.asrc := rfl
@[simp] theorem modDport_analog (s : State) (i : Nat) (f : DPort → DPort) :
    (modDport s i f).analog = s.analog := rfl
@[simp] theorem modDport_wake (s : State) (i : Nat) (f : DPort → DPort) :
    (modDport s i f).wake = s.wake := rfl
@[simp] theorem modDport_stage (s : State) (i : Nat) (f : DPort → DPort) :
    (modDport s i f).stage = s.stage := rfl
@[simp] theorem modDport_diag (s : State) (i : Nat) (f : DPort → DPort) :
    (modDport s i f).diag = s.diag := rfl
@[simp] theorem modDport_touch (s : State) (i : Nat) (f : DPort → DPort) :
    (modDport s i f).touch = s.touch := rfl
@[simp] theorem modDport_graph (s : State) (i : Nat) (f : DPort → DPort) :
    (modDport s i f).graph = s.graph := rfl
@[simp] theorem modDport_drover (s : State) (i : Nat) (f : DPort → DPort) :
    (modDport s i f).drover = s.drover := rfl
@[simp] theorem modDport_health (s : State) (i : Nat) (f : DPort → DPort) :
    (modDport s i f).health = s.health := rfl
@[simp] theorem modDport_params (s : State) (i : Nat) (f : DPort → DPort) :
    (modDport s i f).params = s.params := rfl
@[simp] theorem modDport_regs (s : State) (i : Nat) (f : DPort → DPort) :
    (modDport s i f).regs = s.regs := rfl
@[simp] theorem modDport_jtag (s : State) (i : Nat) (f : DPort → DPort) :
    (modDport s i f).jtag = s.jtag := rfl
@[simp] theorem modDport_sramClean (s : State) (i : Nat) (f : DPort → DPort) :
    (modDport s i f).sramClean = s.sramClean := rfl
@[simp] theorem modDport_rcNow (s : State) (i : Nat) (f : DPort → DPort) :
    (modDport s i f).rcNow = s.rcNow := rfl
@[simp] theorem modDport_free (s : State) (i : Nat) (f : DPort → DPort) :
    (modDport s i f).free = s.free := rfl

@[simp] theorem modAdc_pending (s : State) (i : Nat) (f : Adc → Adc) :
    (modAdc s i f).pending = s.pending := rfl
@[simp] theorem modAdc_bsn (s : State) (i : Nat) (f : Adc → Adc) :
    (modAdc s i f).bsn = s.bsn := rfl
@[simp] theorem modAdc_cycle (s : State) (i : Nat) (f : Adc → Adc) :
    (modAdc s i f).cycle = s.cycle := rfl
@[simp] theorem modAdc_seq (s : State) (i : Nat) (f : Adc → Adc) :
    (modAdc s i f).seq = s.seq := rfl
@[simp] theorem modAdc_mapDue (s : State) (i : Nat) (f : Adc → Adc) :
    (modAdc s i f).mapDue = s.mapDue := rfl
@[simp] theorem modAdc_spi (s : State) (i : Nat) (f : Adc → Adc) :
    (modAdc s i f).spi = s.spi := rfl
@[simp] theorem modAdc_addrA (s : State) (i : Nat) (f : Adc → Adc) :
    (modAdc s i f).addrA = s.addrA := rfl
@[simp] theorem modAdc_addrB (s : State) (i : Nat) (f : Adc → Adc) :
    (modAdc s i f).addrB = s.addrB := rfl
@[simp] theorem modAdc_bus (s : State) (i : Nat) (f : Adc → Adc) :
    (modAdc s i f).bus = s.bus := rfl
@[simp] theorem modAdc_events (s : State) (i : Nat) (f : Adc → Adc) :
    (modAdc s i f).events = s.events := rfl
@[simp] theorem modAdc_power (s : State) (i : Nat) (f : Adc → Adc) :
    (modAdc s i f).power = s.power := rfl
@[simp] theorem modAdc_record (s : State) (i : Nat) (f : Adc → Adc) :
    (modAdc s i f).record = s.record := rfl
@[simp] theorem modAdc_otp (s : State) (i : Nat) (f : Adc → Adc) :
    (modAdc s i f).otp = s.otp := rfl
@[simp] theorem modAdc_clock (s : State) (i : Nat) (f : Adc → Adc) :
    (modAdc s i f).clock = s.clock := rfl
@[simp] theorem modAdc_dports (s : State) (i : Nat) (f : Adc → Adc) :
    (modAdc s i f).dports = s.dports := rfl
@[simp] theorem modAdc_asrc (s : State) (i : Nat) (f : Adc → Adc) :
    (modAdc s i f).asrc = s.asrc := rfl
@[simp] theorem modAdc_wake (s : State) (i : Nat) (f : Adc → Adc) :
    (modAdc s i f).wake = s.wake := rfl
@[simp] theorem modAdc_stage (s : State) (i : Nat) (f : Adc → Adc) :
    (modAdc s i f).stage = s.stage := rfl
@[simp] theorem modAdc_diag (s : State) (i : Nat) (f : Adc → Adc) :
    (modAdc s i f).diag = s.diag := rfl
@[simp] theorem modAdc_touch (s : State) (i : Nat) (f : Adc → Adc) :
    (modAdc s i f).touch = s.touch := rfl
@[simp] theorem modAdc_graph (s : State) (i : Nat) (f : Adc → Adc) :
    (modAdc s i f).graph = s.graph := rfl
@[simp] theorem modAdc_drover (s : State) (i : Nat) (f : Adc → Adc) :
    (modAdc s i f).drover = s.drover := rfl
@[simp] theorem modAdc_health (s : State) (i : Nat) (f : Adc → Adc) :
    (modAdc s i f).health = s.health := rfl
@[simp] theorem modAdc_params (s : State) (i : Nat) (f : Adc → Adc) :
    (modAdc s i f).params = s.params := rfl
@[simp] theorem modAdc_regs (s : State) (i : Nat) (f : Adc → Adc) :
    (modAdc s i f).regs = s.regs := rfl
@[simp] theorem modAdc_jtag (s : State) (i : Nat) (f : Adc → Adc) :
    (modAdc s i f).jtag = s.jtag := rfl
@[simp] theorem modAdc_sramClean (s : State) (i : Nat) (f : Adc → Adc) :
    (modAdc s i f).sramClean = s.sramClean := rfl
@[simp] theorem modAdc_rcNow (s : State) (i : Nat) (f : Adc → Adc) :
    (modAdc s i f).rcNow = s.rcNow := rfl
@[simp] theorem modAdc_free (s : State) (i : Nat) (f : Adc → Adc) :
    (modAdc s i f).free = s.free := rfl

@[simp] theorem modChan_pending (s : State) (i : Nat) (f : Chan → Chan) :
    (modChan s i f).pending = s.pending := rfl
@[simp] theorem modChan_bsn (s : State) (i : Nat) (f : Chan → Chan) :
    (modChan s i f).bsn = s.bsn := rfl
@[simp] theorem modChan_cycle (s : State) (i : Nat) (f : Chan → Chan) :
    (modChan s i f).cycle = s.cycle := rfl
@[simp] theorem modChan_seq (s : State) (i : Nat) (f : Chan → Chan) :
    (modChan s i f).seq = s.seq := rfl
@[simp] theorem modChan_mapDue (s : State) (i : Nat) (f : Chan → Chan) :
    (modChan s i f).mapDue = s.mapDue := rfl
@[simp] theorem modChan_spi (s : State) (i : Nat) (f : Chan → Chan) :
    (modChan s i f).spi = s.spi := rfl
@[simp] theorem modChan_addrA (s : State) (i : Nat) (f : Chan → Chan) :
    (modChan s i f).addrA = s.addrA := rfl
@[simp] theorem modChan_addrB (s : State) (i : Nat) (f : Chan → Chan) :
    (modChan s i f).addrB = s.addrB := rfl
@[simp] theorem modChan_bus (s : State) (i : Nat) (f : Chan → Chan) :
    (modChan s i f).bus = s.bus := rfl
@[simp] theorem modChan_events (s : State) (i : Nat) (f : Chan → Chan) :
    (modChan s i f).events = s.events := rfl
@[simp] theorem modChan_power (s : State) (i : Nat) (f : Chan → Chan) :
    (modChan s i f).power = s.power := rfl
@[simp] theorem modChan_record (s : State) (i : Nat) (f : Chan → Chan) :
    (modChan s i f).record = s.record := rfl
@[simp] theorem modChan_otp (s : State) (i : Nat) (f : Chan → Chan) :
    (modChan s i f).otp = s.otp := rfl
@[simp] theorem modChan_clock (s : State) (i : Nat) (f : Chan → Chan) :
    (modChan s i f).clock = s.clock := rfl
@[simp] theorem modChan_dports (s : State) (i : Nat) (f : Chan → Chan) :
    (modChan s i f).dports = s.dports := rfl
@[simp] theorem modChan_asrc (s : State) (i : Nat) (f : Chan → Chan) :
    (modChan s i f).asrc = s.asrc := rfl
@[simp] theorem modChan_analog (s : State) (i : Nat) (f : Chan → Chan) :
    (modChan s i f).analog = s.analog := rfl
@[simp] theorem modChan_wake (s : State) (i : Nat) (f : Chan → Chan) :
    (modChan s i f).wake = s.wake := rfl
@[simp] theorem modChan_diag (s : State) (i : Nat) (f : Chan → Chan) :
    (modChan s i f).diag = s.diag := rfl
@[simp] theorem modChan_touch (s : State) (i : Nat) (f : Chan → Chan) :
    (modChan s i f).touch = s.touch := rfl
@[simp] theorem modChan_graph (s : State) (i : Nat) (f : Chan → Chan) :
    (modChan s i f).graph = s.graph := rfl
@[simp] theorem modChan_drover (s : State) (i : Nat) (f : Chan → Chan) :
    (modChan s i f).drover = s.drover := rfl
@[simp] theorem modChan_health (s : State) (i : Nat) (f : Chan → Chan) :
    (modChan s i f).health = s.health := rfl
@[simp] theorem modChan_params (s : State) (i : Nat) (f : Chan → Chan) :
    (modChan s i f).params = s.params := rfl
@[simp] theorem modChan_regs (s : State) (i : Nat) (f : Chan → Chan) :
    (modChan s i f).regs = s.regs := rfl
@[simp] theorem modChan_jtag (s : State) (i : Nat) (f : Chan → Chan) :
    (modChan s i f).jtag = s.jtag := rfl
@[simp] theorem modChan_sramClean (s : State) (i : Nat) (f : Chan → Chan) :
    (modChan s i f).sramClean = s.sramClean := rfl
@[simp] theorem modChan_rcNow (s : State) (i : Nat) (f : Chan → Chan) :
    (modChan s i f).rcNow = s.rcNow := rfl
@[simp] theorem modChan_free (s : State) (i : Nat) (f : Chan → Chan) :
    (modChan s i f).free = s.free := rfl

@[simp] theorem modEl_pending (s : State) (i : Nat) (f : Electrode → Electrode) :
    (modEl s i f).pending = s.pending := rfl
@[simp] theorem modEl_bsn (s : State) (i : Nat) (f : Electrode → Electrode) :
    (modEl s i f).bsn = s.bsn := rfl
@[simp] theorem modEl_cycle (s : State) (i : Nat) (f : Electrode → Electrode) :
    (modEl s i f).cycle = s.cycle := rfl
@[simp] theorem modEl_seq (s : State) (i : Nat) (f : Electrode → Electrode) :
    (modEl s i f).seq = s.seq := rfl
@[simp] theorem modEl_mapDue (s : State) (i : Nat) (f : Electrode → Electrode) :
    (modEl s i f).mapDue = s.mapDue := rfl
@[simp] theorem modEl_spi (s : State) (i : Nat) (f : Electrode → Electrode) :
    (modEl s i f).spi = s.spi := rfl
@[simp] theorem modEl_addrA (s : State) (i : Nat) (f : Electrode → Electrode) :
    (modEl s i f).addrA = s.addrA := rfl
@[simp] theorem modEl_addrB (s : State) (i : Nat) (f : Electrode → Electrode) :
    (modEl s i f).addrB = s.addrB := rfl
@[simp] theorem modEl_bus (s : State) (i : Nat) (f : Electrode → Electrode) :
    (modEl s i f).bus = s.bus := rfl
@[simp] theorem modEl_events (s : State) (i : Nat) (f : Electrode → Electrode) :
    (modEl s i f).events = s.events := rfl
@[simp] theorem modEl_power (s : State) (i : Nat) (f : Electrode → Electrode) :
    (modEl s i f).power = s.power := rfl
@[simp] theorem modEl_record (s : State) (i : Nat) (f : Electrode → Electrode) :
    (modEl s i f).record = s.record := rfl
@[simp] theorem modEl_otp (s : State) (i : Nat) (f : Electrode → Electrode) :
    (modEl s i f).otp = s.otp := rfl
@[simp] theorem modEl_clock (s : State) (i : Nat) (f : Electrode → Electrode) :
    (modEl s i f).clock = s.clock := rfl
@[simp] theorem modEl_dports (s : State) (i : Nat) (f : Electrode → Electrode) :
    (modEl s i f).dports = s.dports := rfl
@[simp] theorem modEl_asrc (s : State) (i : Nat) (f : Electrode → Electrode) :
    (modEl s i f).asrc = s.asrc := rfl
@[simp] theorem modEl_analog (s : State) (i : Nat) (f : Electrode → Electrode) :
    (modEl s i f).analog = s.analog := rfl
@[simp] theorem modEl_wake (s : State) (i : Nat) (f : Electrode → Electrode) :
    (modEl s i f).wake = s.wake := rfl
@[simp] theorem modEl_stage (s : State) (i : Nat) (f : Electrode → Electrode) :
    (modEl s i f).stage = s.stage := rfl
@[simp] theorem modEl_diag (s : State) (i : Nat) (f : Electrode → Electrode) :
    (modEl s i f).diag = s.diag := rfl
@[simp] theorem modEl_graph (s : State) (i : Nat) (f : Electrode → Electrode) :
    (modEl s i f).graph = s.graph := rfl
@[simp] theorem modEl_drover (s : State) (i : Nat) (f : Electrode → Electrode) :
    (modEl s i f).drover = s.drover := rfl
@[simp] theorem modEl_health (s : State) (i : Nat) (f : Electrode → Electrode) :
    (modEl s i f).health = s.health := rfl
@[simp] theorem modEl_params (s : State) (i : Nat) (f : Electrode → Electrode) :
    (modEl s i f).params = s.params := rfl
@[simp] theorem modEl_regs (s : State) (i : Nat) (f : Electrode → Electrode) :
    (modEl s i f).regs = s.regs := rfl
@[simp] theorem modEl_jtag (s : State) (i : Nat) (f : Electrode → Electrode) :
    (modEl s i f).jtag = s.jtag := rfl
@[simp] theorem modEl_sramClean (s : State) (i : Nat) (f : Electrode → Electrode) :
    (modEl s i f).sramClean = s.sramClean := rfl
@[simp] theorem modEl_rcNow (s : State) (i : Nat) (f : Electrode → Electrode) :
    (modEl s i f).rcNow = s.rcNow := rfl
@[simp] theorem modEl_free (s : State) (i : Nat) (f : Electrode → Electrode) :
    (modEl s i f).free = s.free := rfl

@[simp] theorem modKey_pending (s : State) (i : Nat) (f : Key → Key) :
    (modKey s i f).pending = s.pending := rfl
@[simp] theorem modKey_bsn (s : State) (i : Nat) (f : Key → Key) :
    (modKey s i f).bsn = s.bsn := rfl
@[simp] theorem modKey_cycle (s : State) (i : Nat) (f : Key → Key) :
    (modKey s i f).cycle = s.cycle := rfl
@[simp] theorem modKey_seq (s : State) (i : Nat) (f : Key → Key) :
    (modKey s i f).seq = s.seq := rfl
@[simp] theorem modKey_mapDue (s : State) (i : Nat) (f : Key → Key) :
    (modKey s i f).mapDue = s.mapDue := rfl
@[simp] theorem modKey_spi (s : State) (i : Nat) (f : Key → Key) :
    (modKey s i f).spi = s.spi := rfl
@[simp] theorem modKey_addrA (s : State) (i : Nat) (f : Key → Key) :
    (modKey s i f).addrA = s.addrA := rfl
@[simp] theorem modKey_addrB (s : State) (i : Nat) (f : Key → Key) :
    (modKey s i f).addrB = s.addrB := rfl
@[simp] theorem modKey_bus (s : State) (i : Nat) (f : Key → Key) :
    (modKey s i f).bus = s.bus := rfl
@[simp] theorem modKey_events (s : State) (i : Nat) (f : Key → Key) :
    (modKey s i f).events = s.events := rfl
@[simp] theorem modKey_power (s : State) (i : Nat) (f : Key → Key) :
    (modKey s i f).power = s.power := rfl
@[simp] theorem modKey_record (s : State) (i : Nat) (f : Key → Key) :
    (modKey s i f).record = s.record := rfl
@[simp] theorem modKey_otp (s : State) (i : Nat) (f : Key → Key) :
    (modKey s i f).otp = s.otp := rfl
@[simp] theorem modKey_clock (s : State) (i : Nat) (f : Key → Key) :
    (modKey s i f).clock = s.clock := rfl
@[simp] theorem modKey_dports (s : State) (i : Nat) (f : Key → Key) :
    (modKey s i f).dports = s.dports := rfl
@[simp] theorem modKey_asrc (s : State) (i : Nat) (f : Key → Key) :
    (modKey s i f).asrc = s.asrc := rfl
@[simp] theorem modKey_analog (s : State) (i : Nat) (f : Key → Key) :
    (modKey s i f).analog = s.analog := rfl
@[simp] theorem modKey_wake (s : State) (i : Nat) (f : Key → Key) :
    (modKey s i f).wake = s.wake := rfl
@[simp] theorem modKey_stage (s : State) (i : Nat) (f : Key → Key) :
    (modKey s i f).stage = s.stage := rfl
@[simp] theorem modKey_diag (s : State) (i : Nat) (f : Key → Key) :
    (modKey s i f).diag = s.diag := rfl
@[simp] theorem modKey_graph (s : State) (i : Nat) (f : Key → Key) :
    (modKey s i f).graph = s.graph := rfl
@[simp] theorem modKey_drover (s : State) (i : Nat) (f : Key → Key) :
    (modKey s i f).drover = s.drover := rfl
@[simp] theorem modKey_health (s : State) (i : Nat) (f : Key → Key) :
    (modKey s i f).health = s.health := rfl
@[simp] theorem modKey_params (s : State) (i : Nat) (f : Key → Key) :
    (modKey s i f).params = s.params := rfl
@[simp] theorem modKey_regs (s : State) (i : Nat) (f : Key → Key) :
    (modKey s i f).regs = s.regs := rfl
@[simp] theorem modKey_jtag (s : State) (i : Nat) (f : Key → Key) :
    (modKey s i f).jtag = s.jtag := rfl
@[simp] theorem modKey_sramClean (s : State) (i : Nat) (f : Key → Key) :
    (modKey s i f).sramClean = s.sramClean := rfl
@[simp] theorem modKey_rcNow (s : State) (i : Nat) (f : Key → Key) :
    (modKey s i f).rcNow = s.rcNow := rfl
@[simp] theorem modKey_free (s : State) (i : Nat) (f : Key → Key) :
    (modKey s i f).free = s.free := rfl

@[simp] theorem modHamper_pending (s : State) (i : Nat) (f : Hamper → Hamper) :
    (modHamper s i f).pending = s.pending := rfl
@[simp] theorem modHamper_bsn (s : State) (i : Nat) (f : Hamper → Hamper) :
    (modHamper s i f).bsn = s.bsn := rfl
@[simp] theorem modHamper_cycle (s : State) (i : Nat) (f : Hamper → Hamper) :
    (modHamper s i f).cycle = s.cycle := rfl
@[simp] theorem modHamper_seq (s : State) (i : Nat) (f : Hamper → Hamper) :
    (modHamper s i f).seq = s.seq := rfl
@[simp] theorem modHamper_mapDue (s : State) (i : Nat) (f : Hamper → Hamper) :
    (modHamper s i f).mapDue = s.mapDue := rfl
@[simp] theorem modHamper_spi (s : State) (i : Nat) (f : Hamper → Hamper) :
    (modHamper s i f).spi = s.spi := rfl
@[simp] theorem modHamper_addrA (s : State) (i : Nat) (f : Hamper → Hamper) :
    (modHamper s i f).addrA = s.addrA := rfl
@[simp] theorem modHamper_addrB (s : State) (i : Nat) (f : Hamper → Hamper) :
    (modHamper s i f).addrB = s.addrB := rfl
@[simp] theorem modHamper_bus (s : State) (i : Nat) (f : Hamper → Hamper) :
    (modHamper s i f).bus = s.bus := rfl
@[simp] theorem modHamper_events (s : State) (i : Nat) (f : Hamper → Hamper) :
    (modHamper s i f).events = s.events := rfl
@[simp] theorem modHamper_power (s : State) (i : Nat) (f : Hamper → Hamper) :
    (modHamper s i f).power = s.power := rfl
@[simp] theorem modHamper_record (s : State) (i : Nat) (f : Hamper → Hamper) :
    (modHamper s i f).record = s.record := rfl
@[simp] theorem modHamper_otp (s : State) (i : Nat) (f : Hamper → Hamper) :
    (modHamper s i f).otp = s.otp := rfl
@[simp] theorem modHamper_clock (s : State) (i : Nat) (f : Hamper → Hamper) :
    (modHamper s i f).clock = s.clock := rfl
@[simp] theorem modHamper_dports (s : State) (i : Nat) (f : Hamper → Hamper) :
    (modHamper s i f).dports = s.dports := rfl
@[simp] theorem modHamper_asrc (s : State) (i : Nat) (f : Hamper → Hamper) :
    (modHamper s i f).asrc = s.asrc := rfl
@[simp] theorem modHamper_analog (s : State) (i : Nat) (f : Hamper → Hamper) :
    (modHamper s i f).analog = s.analog := rfl
@[simp] theorem modHamper_wake (s : State) (i : Nat) (f : Hamper → Hamper) :
    (modHamper s i f).wake = s.wake := rfl
@[simp] theorem modHamper_stage (s : State) (i : Nat) (f : Hamper → Hamper) :
    (modHamper s i f).stage = s.stage := rfl
@[simp] theorem modHamper_diag (s : State) (i : Nat) (f : Hamper → Hamper) :
    (modHamper s i f).diag = s.diag := rfl
@[simp] theorem modHamper_touch (s : State) (i : Nat) (f : Hamper → Hamper) :
    (modHamper s i f).touch = s.touch := rfl
@[simp] theorem modHamper_graph (s : State) (i : Nat) (f : Hamper → Hamper) :
    (modHamper s i f).graph = s.graph := rfl
@[simp] theorem modHamper_drover (s : State) (i : Nat) (f : Hamper → Hamper) :
    (modHamper s i f).drover = s.drover := rfl
@[simp] theorem modHamper_health (s : State) (i : Nat) (f : Hamper → Hamper) :
    (modHamper s i f).health = s.health := rfl
@[simp] theorem modHamper_regs (s : State) (i : Nat) (f : Hamper → Hamper) :
    (modHamper s i f).regs = s.regs := rfl
@[simp] theorem modHamper_jtag (s : State) (i : Nat) (f : Hamper → Hamper) :
    (modHamper s i f).jtag = s.jtag := rfl
@[simp] theorem modHamper_sramClean (s : State) (i : Nat) (f : Hamper → Hamper) :
    (modHamper s i f).sramClean = s.sramClean := rfl
@[simp] theorem modHamper_rcNow (s : State) (i : Nat) (f : Hamper → Hamper) :
    (modHamper s i f).rcNow = s.rcNow := rfl
@[simp] theorem modHamper_free (s : State) (i : Nat) (f : Hamper → Hamper) :
    (modHamper s i f).free = s.free := rfl

@[simp] theorem modAux_pending (s : State) (i : Nat) (f : Aux → Aux) :
    (modAux s i f).pending = s.pending := rfl
@[simp] theorem modAux_bsn (s : State) (i : Nat) (f : Aux → Aux) :
    (modAux s i f).bsn = s.bsn := rfl
@[simp] theorem modAux_cycle (s : State) (i : Nat) (f : Aux → Aux) :
    (modAux s i f).cycle = s.cycle := rfl
@[simp] theorem modAux_seq (s : State) (i : Nat) (f : Aux → Aux) :
    (modAux s i f).seq = s.seq := rfl
@[simp] theorem modAux_mapDue (s : State) (i : Nat) (f : Aux → Aux) :
    (modAux s i f).mapDue = s.mapDue := rfl
@[simp] theorem modAux_spi (s : State) (i : Nat) (f : Aux → Aux) :
    (modAux s i f).spi = s.spi := rfl
@[simp] theorem modAux_addrA (s : State) (i : Nat) (f : Aux → Aux) :
    (modAux s i f).addrA = s.addrA := rfl
@[simp] theorem modAux_addrB (s : State) (i : Nat) (f : Aux → Aux) :
    (modAux s i f).addrB = s.addrB := rfl
@[simp] theorem modAux_bus (s : State) (i : Nat) (f : Aux → Aux) :
    (modAux s i f).bus = s.bus := rfl
@[simp] theorem modAux_events (s : State) (i : Nat) (f : Aux → Aux) :
    (modAux s i f).events = s.events := rfl
@[simp] theorem modAux_power (s : State) (i : Nat) (f : Aux → Aux) :
    (modAux s i f).power = s.power := rfl
@[simp] theorem modAux_record (s : State) (i : Nat) (f : Aux → Aux) :
    (modAux s i f).record = s.record := rfl
@[simp] theorem modAux_otp (s : State) (i : Nat) (f : Aux → Aux) :
    (modAux s i f).otp = s.otp := rfl
@[simp] theorem modAux_dports (s : State) (i : Nat) (f : Aux → Aux) :
    (modAux s i f).dports = s.dports := rfl
@[simp] theorem modAux_asrc (s : State) (i : Nat) (f : Aux → Aux) :
    (modAux s i f).asrc = s.asrc := rfl
@[simp] theorem modAux_analog (s : State) (i : Nat) (f : Aux → Aux) :
    (modAux s i f).analog = s.analog := rfl
@[simp] theorem modAux_wake (s : State) (i : Nat) (f : Aux → Aux) :
    (modAux s i f).wake = s.wake := rfl
@[simp] theorem modAux_stage (s : State) (i : Nat) (f : Aux → Aux) :
    (modAux s i f).stage = s.stage := rfl
@[simp] theorem modAux_diag (s : State) (i : Nat) (f : Aux → Aux) :
    (modAux s i f).diag = s.diag := rfl
@[simp] theorem modAux_touch (s : State) (i : Nat) (f : Aux → Aux) :
    (modAux s i f).touch = s.touch := rfl
@[simp] theorem modAux_graph (s : State) (i : Nat) (f : Aux → Aux) :
    (modAux s i f).graph = s.graph := rfl
@[simp] theorem modAux_drover (s : State) (i : Nat) (f : Aux → Aux) :
    (modAux s i f).drover = s.drover := rfl
@[simp] theorem modAux_health (s : State) (i : Nat) (f : Aux → Aux) :
    (modAux s i f).health = s.health := rfl
@[simp] theorem modAux_params (s : State) (i : Nat) (f : Aux → Aux) :
    (modAux s i f).params = s.params := rfl
@[simp] theorem modAux_regs (s : State) (i : Nat) (f : Aux → Aux) :
    (modAux s i f).regs = s.regs := rfl
@[simp] theorem modAux_jtag (s : State) (i : Nat) (f : Aux → Aux) :
    (modAux s i f).jtag = s.jtag := rfl
@[simp] theorem modAux_sramClean (s : State) (i : Nat) (f : Aux → Aux) :
    (modAux s i f).sramClean = s.sramClean := rfl
@[simp] theorem modAux_rcNow (s : State) (i : Nat) (f : Aux → Aux) :
    (modAux s i f).rcNow = s.rcNow := rfl
@[simp] theorem modAux_free (s : State) (i : Nat) (f : Aux → Aux) :
    (modAux s i f).free = s.free := rfl

@[simp] theorem modBank_pending (s : State) (i : Nat) (f : Bank → Bank) :
    (modBank s i f).pending = s.pending := rfl
@[simp] theorem modBank_bsn (s : State) (i : Nat) (f : Bank → Bank) :
    (modBank s i f).bsn = s.bsn := rfl
@[simp] theorem modBank_cycle (s : State) (i : Nat) (f : Bank → Bank) :
    (modBank s i f).cycle = s.cycle := rfl
@[simp] theorem modBank_seq (s : State) (i : Nat) (f : Bank → Bank) :
    (modBank s i f).seq = s.seq := rfl
@[simp] theorem modBank_mapDue (s : State) (i : Nat) (f : Bank → Bank) :
    (modBank s i f).mapDue = s.mapDue := rfl
@[simp] theorem modBank_spi (s : State) (i : Nat) (f : Bank → Bank) :
    (modBank s i f).spi = s.spi := rfl
@[simp] theorem modBank_addrA (s : State) (i : Nat) (f : Bank → Bank) :
    (modBank s i f).addrA = s.addrA := rfl
@[simp] theorem modBank_addrB (s : State) (i : Nat) (f : Bank → Bank) :
    (modBank s i f).addrB = s.addrB := rfl
@[simp] theorem modBank_bus (s : State) (i : Nat) (f : Bank → Bank) :
    (modBank s i f).bus = s.bus := rfl
@[simp] theorem modBank_events (s : State) (i : Nat) (f : Bank → Bank) :
    (modBank s i f).events = s.events := rfl
@[simp] theorem modBank_power (s : State) (i : Nat) (f : Bank → Bank) :
    (modBank s i f).power = s.power := rfl
@[simp] theorem modBank_record (s : State) (i : Nat) (f : Bank → Bank) :
    (modBank s i f).record = s.record := rfl
@[simp] theorem modBank_otp (s : State) (i : Nat) (f : Bank → Bank) :
    (modBank s i f).otp = s.otp := rfl
@[simp] theorem modBank_clock (s : State) (i : Nat) (f : Bank → Bank) :
    (modBank s i f).clock = s.clock := rfl
@[simp] theorem modBank_dports (s : State) (i : Nat) (f : Bank → Bank) :
    (modBank s i f).dports = s.dports := rfl
@[simp] theorem modBank_asrc (s : State) (i : Nat) (f : Bank → Bank) :
    (modBank s i f).asrc = s.asrc := rfl
@[simp] theorem modBank_analog (s : State) (i : Nat) (f : Bank → Bank) :
    (modBank s i f).analog = s.analog := rfl
@[simp] theorem modBank_wake (s : State) (i : Nat) (f : Bank → Bank) :
    (modBank s i f).wake = s.wake := rfl
@[simp] theorem modBank_stage (s : State) (i : Nat) (f : Bank → Bank) :
    (modBank s i f).stage = s.stage := rfl
@[simp] theorem modBank_diag (s : State) (i : Nat) (f : Bank → Bank) :
    (modBank s i f).diag = s.diag := rfl
@[simp] theorem modBank_touch (s : State) (i : Nat) (f : Bank → Bank) :
    (modBank s i f).touch = s.touch := rfl
@[simp] theorem modBank_graph (s : State) (i : Nat) (f : Bank → Bank) :
    (modBank s i f).graph = s.graph := rfl
@[simp] theorem modBank_drover (s : State) (i : Nat) (f : Bank → Bank) :
    (modBank s i f).drover = s.drover := rfl
@[simp] theorem modBank_params (s : State) (i : Nat) (f : Bank → Bank) :
    (modBank s i f).params = s.params := rfl
@[simp] theorem modBank_regs (s : State) (i : Nat) (f : Bank → Bank) :
    (modBank s i f).regs = s.regs := rfl
@[simp] theorem modBank_jtag (s : State) (i : Nat) (f : Bank → Bank) :
    (modBank s i f).jtag = s.jtag := rfl
@[simp] theorem modBank_sramClean (s : State) (i : Nat) (f : Bank → Bank) :
    (modBank s i f).sramClean = s.sramClean := rfl
@[simp] theorem modBank_rcNow (s : State) (i : Nat) (f : Bank → Bank) :
    (modBank s i f).rcNow = s.rcNow := rfl
@[simp] theorem modBank_free (s : State) (i : Nat) (f : Bank → Bank) :
    (modBank s i f).free = s.free := rfl

@[simp] theorem modDec_pending (s : State) (i : Nat) (f : Decimator → Decimator) :
    (modDec s i f).pending = s.pending := rfl
@[simp] theorem modDec_bsn (s : State) (i : Nat) (f : Decimator → Decimator) :
    (modDec s i f).bsn = s.bsn := rfl
@[simp] theorem modDec_cycle (s : State) (i : Nat) (f : Decimator → Decimator) :
    (modDec s i f).cycle = s.cycle := rfl
@[simp] theorem modDec_seq (s : State) (i : Nat) (f : Decimator → Decimator) :
    (modDec s i f).seq = s.seq := rfl
@[simp] theorem modDec_mapDue (s : State) (i : Nat) (f : Decimator → Decimator) :
    (modDec s i f).mapDue = s.mapDue := rfl
@[simp] theorem modDec_spi (s : State) (i : Nat) (f : Decimator → Decimator) :
    (modDec s i f).spi = s.spi := rfl
@[simp] theorem modDec_addrA (s : State) (i : Nat) (f : Decimator → Decimator) :
    (modDec s i f).addrA = s.addrA := rfl
@[simp] theorem modDec_addrB (s : State) (i : Nat) (f : Decimator → Decimator) :
    (modDec s i f).addrB = s.addrB := rfl
@[simp] theorem modDec_bus (s : State) (i : Nat) (f : Decimator → Decimator) :
    (modDec s i f).bus = s.bus := rfl
@[simp] theorem modDec_events (s : State) (i : Nat) (f : Decimator → Decimator) :
    (modDec s i f).events = s.events := rfl
@[simp] theorem modDec_power (s : State) (i : Nat) (f : Decimator → Decimator) :
    (modDec s i f).power = s.power := rfl
@[simp] theorem modDec_record (s : State) (i : Nat) (f : Decimator → Decimator) :
    (modDec s i f).record = s.record := rfl
@[simp] theorem modDec_otp (s : State) (i : Nat) (f : Decimator → Decimator) :
    (modDec s i f).otp = s.otp := rfl
@[simp] theorem modDec_clock (s : State) (i : Nat) (f : Decimator → Decimator) :
    (modDec s i f).clock = s.clock := rfl
@[simp] theorem modDec_dports (s : State) (i : Nat) (f : Decimator → Decimator) :
    (modDec s i f).dports = s.dports := rfl
@[simp] theorem modDec_asrc (s : State) (i : Nat) (f : Decimator → Decimator) :
    (modDec s i f).asrc = s.asrc := rfl
@[simp] theorem modDec_analog (s : State) (i : Nat) (f : Decimator → Decimator) :
    (modDec s i f).analog = s.analog := rfl
@[simp] theorem modDec_wake (s : State) (i : Nat) (f : Decimator → Decimator) :
    (modDec s i f).wake = s.wake := rfl
@[simp] theorem modDec_stage (s : State) (i : Nat) (f : Decimator → Decimator) :
    (modDec s i f).stage = s.stage := rfl
@[simp] theorem modDec_diag (s : State) (i : Nat) (f : Decimator → Decimator) :
    (modDec s i f).diag = s.diag := rfl
@[simp] theorem modDec_touch (s : State) (i : Nat) (f : Decimator → Decimator) :
    (modDec s i f).touch = s.touch := rfl
@[simp] theorem modDec_graph (s : State) (i : Nat) (f : Decimator → Decimator) :
    (modDec s i f).graph = s.graph := rfl
@[simp] theorem modDec_drover (s : State) (i : Nat) (f : Decimator → Decimator) :
    (modDec s i f).drover = s.drover := rfl
@[simp] theorem modDec_params (s : State) (i : Nat) (f : Decimator → Decimator) :
    (modDec s i f).params = s.params := rfl
@[simp] theorem modDec_regs (s : State) (i : Nat) (f : Decimator → Decimator) :
    (modDec s i f).regs = s.regs := rfl
@[simp] theorem modDec_jtag (s : State) (i : Nat) (f : Decimator → Decimator) :
    (modDec s i f).jtag = s.jtag := rfl
@[simp] theorem modDec_sramClean (s : State) (i : Nat) (f : Decimator → Decimator) :
    (modDec s i f).sramClean = s.sramClean := rfl
@[simp] theorem modDec_rcNow (s : State) (i : Nat) (f : Decimator → Decimator) :
    (modDec s i f).rcNow = s.rcNow := rfl
@[simp] theorem modDec_free (s : State) (i : Nat) (f : Decimator → Decimator) :
    (modDec s i f).free = s.free := rfl

@[simp] theorem setSlot_pending (s : State) (i : Nat) (x : Slot) :
    (setSlot s i x).pending = s.pending := rfl
@[simp] theorem setSlot_bsn (s : State) (i : Nat) (x : Slot) :
    (setSlot s i x).bsn = s.bsn := rfl
@[simp] theorem setSlot_cycle (s : State) (i : Nat) (x : Slot) :
    (setSlot s i x).cycle = s.cycle := rfl
@[simp] theorem setSlot_seq (s : State) (i : Nat) (x : Slot) :
    (setSlot s i x).seq = s.seq := rfl
@[simp] theorem setSlot_mapDue (s : State) (i : Nat) (x : Slot) :
    (setSlot s i x).mapDue = s.mapDue := rfl
@[simp] theorem setSlot_spi (s : State) (i : Nat) (x : Slot) :
    (setSlot s i x).spi = s.spi := rfl
@[simp] theorem setSlot_addrA (s : State) (i : Nat) (x : Slot) :
    (setSlot s i x).addrA = s.addrA := rfl
@[simp] theorem setSlot_addrB (s : State) (i : Nat) (x : Slot) :
    (setSlot s i x).addrB = s.addrB := rfl
@[simp] theorem setSlot_bus (s : State) (i : Nat) (x : Slot) :
    (setSlot s i x).bus = s.bus := rfl
@[simp] theorem setSlot_events (s : State) (i : Nat) (x : Slot) :
    (setSlot s i x).events = s.events := rfl
@[simp] theorem setSlot_power (s : State) (i : Nat) (x : Slot) :
    (setSlot s i x).power = s.power := rfl
@[simp] theorem setSlot_record (s : State) (i : Nat) (x : Slot) :
    (setSlot s i x).record = s.record := rfl
@[simp] theorem setSlot_otp (s : State) (i : Nat) (x : Slot) :
    (setSlot s i x).otp = s.otp := rfl
@[simp] theorem setSlot_clock (s : State) (i : Nat) (x : Slot) :
    (setSlot s i x).clock = s.clock := rfl
@[simp] theorem setSlot_dports (s : State) (i : Nat) (x : Slot) :
    (setSlot s i x).dports = s.dports := rfl
@[simp] theorem setSlot_asrc (s : State) (i : Nat) (x : Slot) :
    (setSlot s i x).asrc = s.asrc := rfl
@[simp] theorem setSlot_analog (s : State) (i : Nat) (x : Slot) :
    (setSlot s i x).analog = s.analog := rfl
@[simp] theorem setSlot_wake (s : State) (i : Nat) (x : Slot) :
    (setSlot s i x).wake = s.wake := rfl
@[simp] theorem setSlot_stage (s : State) (i : Nat) (x : Slot) :
    (setSlot s i x).stage = s.stage := rfl
@[simp] theorem setSlot_diag (s : State) (i : Nat) (x : Slot) :
    (setSlot s i x).diag = s.diag := rfl
@[simp] theorem setSlot_touch (s : State) (i : Nat) (x : Slot) :
    (setSlot s i x).touch = s.touch := rfl
@[simp] theorem setSlot_drover (s : State) (i : Nat) (x : Slot) :
    (setSlot s i x).drover = s.drover := rfl
@[simp] theorem setSlot_health (s : State) (i : Nat) (x : Slot) :
    (setSlot s i x).health = s.health := rfl
@[simp] theorem setSlot_params (s : State) (i : Nat) (x : Slot) :
    (setSlot s i x).params = s.params := rfl
@[simp] theorem setSlot_regs (s : State) (i : Nat) (x : Slot) :
    (setSlot s i x).regs = s.regs := rfl
@[simp] theorem setSlot_jtag (s : State) (i : Nat) (x : Slot) :
    (setSlot s i x).jtag = s.jtag := rfl
@[simp] theorem setSlot_sramClean (s : State) (i : Nat) (x : Slot) :
    (setSlot s i x).sramClean = s.sramClean := rfl
@[simp] theorem setSlot_rcNow (s : State) (i : Nat) (x : Slot) :
    (setSlot s i x).rcNow = s.rcNow := rfl
@[simp] theorem setSlot_free (s : State) (i : Nat) (x : Slot) :
    (setSlot s i x).free = s.free := rfl

@[simp] theorem modAlert_pending (s : State) (f : Alert → Option Alert) :
    (modAlert s f).pending = s.pending := rfl
@[simp] theorem modAlert_bsn (s : State) (f : Alert → Option Alert) :
    (modAlert s f).bsn = s.bsn := rfl
@[simp] theorem modAlert_cycle (s : State) (f : Alert → Option Alert) :
    (modAlert s f).cycle = s.cycle := rfl
@[simp] theorem modAlert_seq (s : State) (f : Alert → Option Alert) :
    (modAlert s f).seq = s.seq := rfl
@[simp] theorem modAlert_mapDue (s : State) (f : Alert → Option Alert) :
    (modAlert s f).mapDue = s.mapDue := rfl
@[simp] theorem modAlert_spi (s : State) (f : Alert → Option Alert) :
    (modAlert s f).spi = s.spi := rfl
@[simp] theorem modAlert_addrA (s : State) (f : Alert → Option Alert) :
    (modAlert s f).addrA = s.addrA := rfl
@[simp] theorem modAlert_addrB (s : State) (f : Alert → Option Alert) :
    (modAlert s f).addrB = s.addrB := rfl
@[simp] theorem modAlert_bus (s : State) (f : Alert → Option Alert) :
    (modAlert s f).bus = s.bus := rfl
@[simp] theorem modAlert_power (s : State) (f : Alert → Option Alert) :
    (modAlert s f).power = s.power := rfl
@[simp] theorem modAlert_record (s : State) (f : Alert → Option Alert) :
    (modAlert s f).record = s.record := rfl
@[simp] theorem modAlert_otp (s : State) (f : Alert → Option Alert) :
    (modAlert s f).otp = s.otp := rfl
@[simp] theorem modAlert_clock (s : State) (f : Alert → Option Alert) :
    (modAlert s f).clock = s.clock := rfl
@[simp] theorem modAlert_dports (s : State) (f : Alert → Option Alert) :
    (modAlert s f).dports = s.dports := rfl
@[simp] theorem modAlert_asrc (s : State) (f : Alert → Option Alert) :
    (modAlert s f).asrc = s.asrc := rfl
@[simp] theorem modAlert_analog (s : State) (f : Alert → Option Alert) :
    (modAlert s f).analog = s.analog := rfl
@[simp] theorem modAlert_wake (s : State) (f : Alert → Option Alert) :
    (modAlert s f).wake = s.wake := rfl
@[simp] theorem modAlert_stage (s : State) (f : Alert → Option Alert) :
    (modAlert s f).stage = s.stage := rfl
@[simp] theorem modAlert_diag (s : State) (f : Alert → Option Alert) :
    (modAlert s f).diag = s.diag := rfl
@[simp] theorem modAlert_touch (s : State) (f : Alert → Option Alert) :
    (modAlert s f).touch = s.touch := rfl
@[simp] theorem modAlert_graph (s : State) (f : Alert → Option Alert) :
    (modAlert s f).graph = s.graph := rfl
@[simp] theorem modAlert_drover (s : State) (f : Alert → Option Alert) :
    (modAlert s f).drover = s.drover := rfl
@[simp] theorem modAlert_health (s : State) (f : Alert → Option Alert) :
    (modAlert s f).health = s.health := rfl
@[simp] theorem modAlert_params (s : State) (f : Alert → Option Alert) :
    (modAlert s f).params = s.params := rfl
@[simp] theorem modAlert_regs (s : State) (f : Alert → Option Alert) :
    (modAlert s f).regs = s.regs := rfl
@[simp] theorem modAlert_jtag (s : State) (f : Alert → Option Alert) :
    (modAlert s f).jtag = s.jtag := rfl
@[simp] theorem modAlert_sramClean (s : State) (f : Alert → Option Alert) :
    (modAlert s f).sramClean = s.sramClean := rfl
@[simp] theorem modAlert_rcNow (s : State) (f : Alert → Option Alert) :
    (modAlert s f).rcNow = s.rcNow := rfl
@[simp] theorem modAlert_free (s : State) (f : Alert → Option Alert) :
    (modAlert s f).free = s.free := rfl

@[simp] theorem modHealth_health (s : State) (f : Health → Health) : (modHealth s f).health = f s.health := rfl
@[simp] theorem modClock_clock (s : State) (f : Clock → Clock) : (modClock s f).clock = f s.clock := rfl
@[simp] theorem modWake_wake (s : State) (f : Wake → Wake) : (modWake s f).wake = f s.wake := rfl
@[simp] theorem modPower_power (s : State) (f : Power → Power) : (modPower s f).power = f s.power := rfl
@[simp] theorem modDiag_diag (s : State) (f : Diag → Diag) : (modDiag s f).diag = f s.diag := rfl
@[simp] theorem nextFree_free (s : State) : (nextFree s).free = s.free + 1 := rfl
@[simp] theorem modDport_dports (s : State) (i : Nat) (f : DPort → DPort) :
    (modDport s i f).dports = s.dports.modify i f := rfl
@[simp] theorem modAdc_adc (s : State) (i : Nat) (f : Adc → Adc) :
    (modAdc s i f).analog.adc = s.analog.adc.modify i f := rfl
@[simp] theorem modChan_chans (s : State) (i : Nat) (f : Chan → Chan) :
    (modChan s i f).stage.chans = s.stage.chans.modify i f := rfl
@[simp] theorem setSlot_slots (s : State) (i : Nat) (x : Slot) :
    (setSlot s i x).graph.slots = s.graph.slots.modify i (fun _ => x) := rfl
@[simp] theorem takePlace_seq (s : State) (p : PortId) (op tag : Byte) : (takePlace s p op tag).seq = s.seq + 1 := by
  cases p <;> rfl

end Sys2Proof.Machine
end

