-- ==== Sys2Proof/Laws/Engine.lean ====
section
/-!
SUPPORT. What the command engine does with a packet, once: the reply of a complete command, the wait of one that is
not, and the refusals of R395 and R398.
-/

namespace Sys2Proof.Machine

open Sys2Proof

@[simp] theorem getPort_setPort_self (s : State) (p : PortId) (v : Port) : getPort (setPort s p v) p = v := by
  cases p <;> rfl

@[simp] theorem getPort_modPort_self (s : State) (p : PortId) (f : Port → Port) :
    getPort (modPort s p f) p = f (getPort s p) := by
  cases p <;> rfl

@[simp] theorem modPort_modPort (s : State) (p : PortId) (f g : Port → Port) :
    modPort (modPort s p f) p g = modPort s p (fun v => g (f v)) := by
  cases p <;> rfl

@[simp] theorem getPort_seq (s : State) (p : PortId) (n : Nat) : getPort { s with seq := n } p = getPort s p := by
  cases p <;> rfl

/-- Marking the places of a tag that no place holds changes nothing. -/
theorem map_tag_free (l : List Outstanding) (tag : Byte) (f : Outstanding → Outstanding)
    (h : l.any (fun o => o.tag == tag) = false) : l.map (fun o => if o.tag = tag then f o else o) = l := by
  induction l with
  | nil => rfl
  | cons o l ih => simp_all [List.any_cons]

/-- The command that joins a port with a free tag is found by that tag. -/
theorem seqOf_joined (p : Port) (o : Outstanding) (h : p.outstanding.any (fun x => x.tag == o.tag) = false) :
    seqOf { p with outstanding := p.outstanding ++ [o] } o.tag = o.seq := by
  have hn : p.outstanding.find? (fun x => x.tag == o.tag) = none := by simpa using h
  simp [seqOf, List.find?_append, hn]

/-- A final reply to the command that has just taken its place. -/
theorem answerNow_takePlace (s : State) (q : Request) (op : Nat) (st : Status) (payload : List Byte)
    (h : tagHeld s q.port q.tag = false) :
    answerNow (takePlace s q.port (BitVec.ofNat 8 op) q.tag) q.port q.tag (BitVec.ofNat 8 op) st payload =
      answered s q op st payload := by
  have e := map_tag_free (getPort s q.port).outstanding q.tag (fun o => { o with job := .none, final := true }) h
  have j := seqOf_joined (getPort s q.port) (placeOf s q op .none false) h
  unfold answerNow lastReply
  simp only [takePlace_bsn, takePlace_cycle]
  unfold takePlace answered
  rw [modPort_modPort]
  unfold modPort
  simp only [getPort_seq]
  congr 1
  simp [markFinal, placeOf, replyOf, e] at j ⊢
  exact j

/-- Steps 3 and 4 of R395 do not end an acceptance. -/
theorem runOp_taken (op : Nat) (lenOk : List Byte → Bool) (body : State → Request → Verdict) (q : Request) (s : State)
    (h : canTake s q = true) :
    runOp op lenOk body q s =
      settle (takePlace s q.port (BitVec.ofNat 8 op) q.tag) q (BitVec.ofNat 8 op)
        (judge op lenOk body q (takePlace s q.port (BitVec.ofNat 8 op) q.tag)) := by
  simp [canTake] at h
  simp [runOp, h]

@[simp] theorem takePlace_cls (s : State) (p r : PortId) (op tag : Byte) :
    (getPort (takePlace s p op tag) r).cls = (getPort s r).cls := by
  cases p <;> cases r <;> rfl

@[simp] theorem takePlace_modeLow (s : State) (p : PortId) (op tag : Byte) :
    modeLow (takePlace s p op tag) = modeLow s := by
  cases p <;> rfl

/-- A heard command of the right length is judged by its chapter alone (R395 steps 6 to 8, R475). -/
theorem runOp_heard (op : Nat) (lenOk : List Byte → Bool) (body : State → Request → Verdict) (q : Request) (s : State)
    (h : heard s q op = true) (hl : lenOk q.payload = true) :
    runOp op lenOk body q s =
      settle (takePlace s q.port (BitVec.ofNat 8 op) q.tag) q (BitVec.ofNat 8 op)
        (body (takePlace s q.port (BitVec.ofNat 8 op) q.tag) q) := by
  simp only [heard, Bool.and_eq_true] at h
  obtain ⟨⟨ht, hc⟩, hm⟩ := h
  rw [runOp_taken _ _ _ _ _ ht]
  have hm : (modeLow s && lowRefused op) = false := by
    cases hb : (modeLow s && lowRefused op) <;> simp_all
  cases ho : opClass op with
  | none => simp [ho] at hc
  | some c =>
    have hc : ¬ (getPort s q.port).cls < c := by simpa [ho] using hc
    simp only [judge, ho, hl, hm, hc, takePlace_cls, takePlace_modeLow, Option.getD_some, Bool.not_true,
      Bool.false_eq_true, if_false]

/-- The tag of a heard command is free (R395 step 3). -/
theorem heard_tag (s : State) (q : Request) (op : Nat) (h : heard s q op = true) : tagHeld s q.port q.tag = false := by
  simp [heard, canTake] at h
  exact h.1.1.1.2

/-- An opcode other than MEM_READ and MEM_WRITE notes no slot. -/
theorem noteSlot_other (u : State) (q : Request) (op : Nat)
    (h : ¬(BitVec.ofNat 8 op = 0xB0#8 ∨ BitVec.ofNat 8 op = 0xB1#8)) : noteSlot u q (BitVec.ofNat 8 op) = u := by
  simp [noteSlot, h]

/-- A heard command that its chapter refuses: the reply with that status alone. -/
theorem runOp_refuses (op : Nat) (lenOk : List Byte → Bool) (body : State → Request → Verdict) (q : Request) (s : State)
    (st : Status) (payload : List Byte) (h : heard s q op = true) (hl : lenOk q.payload = true)
    (hb : body (takePlace s q.port (BitVec.ofNat 8 op) q.tag) q = .refuse st payload) :
    runOp op lenOk body q s = answered s q op st payload := by
  rw [runOp_heard _ _ _ _ _ h hl, hb, settle]
  exact answerNow_takePlace _ _ _ _ _ (heard_tag _ _ _ h)

/-- A heard command that is complete at once: its effect `v`, and its reply. -/
theorem runOp_acts (op : Nat) (lenOk : List Byte → Bool) (body : State → Request → Verdict) (q : Request) (s v : State)
    (payload : List Byte) (h : heard s q op = true) (hl : lenOk q.payload = true)
    (hn : ¬(BitVec.ofNat 8 op = 0xB0#8 ∨ BitVec.ofNat 8 op = 0xB1#8))
    (hb : body (takePlace s q.port (BitVec.ofNat 8 op) q.tag) q = .done (takePlace v q.port (BitVec.ofNat 8 op) q.tag) payload)
    (ht : tagHeld v q.port q.tag = tagHeld s q.port q.tag) :
    runOp op lenOk body q s = answered v q op .ok payload := by
  rw [runOp_heard _ _ _ _ _ h hl, hb, settle, noteSlot_other _ _ _ hn]
  exact answerNow_takePlace _ _ _ _ _ (ht.trans (heard_tag _ _ _ h))

/-- A heard command that changes nothing: its reply alone. -/
theorem runOp_reads (op : Nat) (lenOk : List Byte → Bool) (body : State → Request → Verdict) (q : Request) (s : State)
    (payload : List Byte) (h : heard s q op = true) (hl : lenOk q.payload = true)
    (hn : ¬(BitVec.ofNat 8 op = 0xB0#8 ∨ BitVec.ofNat 8 op = 0xB1#8))
    (hb : body (takePlace s q.port (BitVec.ofNat 8 op) q.tag) q = .done (takePlace s q.port (BitVec.ofNat 8 op) q.tag) payload) :
    runOp op lenOk body q s = answered s q op .ok payload :=
  runOp_acts op lenOk body q s s payload h hl hn hb rfl

/-- Giving the command that has just taken its place a job. -/
theorem setJob_takePlace (v : State) (q : Request) (op : Nat) (j : Job) (h : tagHeld v q.port q.tag = false) :
    setJob (takePlace v q.port (BitVec.ofNat 8 op) q.tag) q.port q.tag j = waitsWith v q op j none := by
  have e := map_tag_free (getPort v q.port).outstanding q.tag (fun o => { o with job := j }) h
  unfold setJob takePlace waitsWith
  rw [modPort_modPort]
  unfold modPort placeOf
  simp only [getPort_seq]
  congr 2
  · simp [e]
  · exact (List.append_nil _).symm

/-- A heard command that waits: its effect `v`, its place with its job, and its ACCEPTED reply where it has one. -/
theorem runOp_waits (op : Nat) (lenOk : List Byte → Bool) (body : State → Request → Verdict) (q : Request) (s v : State)
    (j : Job) (early : Option (List Byte)) (h : heard s q op = true) (hl : lenOk q.payload = true)
    (hn : ¬(BitVec.ofNat 8 op = 0xB0#8 ∨ BitVec.ofNat 8 op = 0xB1#8))
    (hb : body (takePlace s q.port (BitVec.ofNat 8 op) q.tag) q = .pend (takePlace v q.port (BitVec.ofNat 8 op) q.tag) j early)
    (ht : tagHeld v q.port q.tag = tagHeld s q.port q.tag) :
    runOp op lenOk body q s = waitsWith v q op j early := by
  have ht := ht.trans (heard_tag _ _ _ h)
  rw [runOp_heard _ _ _ _ _ h hl, hb]
  simp only [settle]
  rw [setJob_takePlace _ _ _ _ ht, noteSlot_other _ _ _ hn]
  cases early with
  | none => rfl
  | some payload =>
    by_cases hf : bit q.flags.toNat 0 = true
    · simp only [hf, if_true]
      unfold earlyReply waitsWith replyOf
      rw [modPort_modPort]
      simp [hf]
    · have hf : bit q.flags.toNat 0 = false := by simpa using hf
      simp only [hf, Bool.false_eq_true, if_false]
      unfold waitsWith
      simp [hf]

end Sys2Proof.Machine
end

