-- ==== Sys2Proof/Laws/Events.lean ====
section
/-!
SUPPORT. What raising an event does, once (R454 to R461): it writes the event state and nothing else, the FIFO and the AON
queue keep their bounds, and an event that is off leaves the state as it is.
-/

namespace Sys2Proof.Machine

open Sys2Proof

/-- Entering a record writes the event state alone. -/
theorem evEnter_frame (s : State) (r : EvRecord) : evEnter s r = { s with events := (evEnter s r).events } := by
  unfold evEnter
  dsimp only
  repeat' split
  all_goals rfl

theorem evQueue_frame (s : State) (r : EvRecord) : evQueue s r = { s with events := (evQueue s r).events } := by
  unfold evQueue
  dsimp only
  repeat' split
  all_goals rfl

/-- Raising an event, at any stamp, writes the event state alone. -/
theorem raiseAt_frame (s : State) (n p : Nat) (b : Bsn) (c : Nat) :
    raiseAt s n p b c = { s with events := (raiseAt s n p b c).events } := by
  unfold raiseAt
  split
  · dsimp only
    split
    · rw [evEnter_frame]; rfl
    · exact evQueue_frame s _
  · rfl

theorem raise_frame (s : State) (n p : Nat) : raise s n p = { s with events := (raise s n p).events } :=
  raiseAt_frame s n p s.bsn s.cycle

/-- An event that does not exist, or whose EN is 0, leaves the state as it is (R454, R459). -/
theorem raise_off (s : State) (n p : Nat) (h : (evExists n && bit (evCfg s n) 0) = false) : raise s n p = s := by
  simp only [raise, raiseAt, h, Bool.false_and, Bool.false_eq_true, if_false]

/-- In SHIP no record is made (R26). -/
theorem raise_ship (s : State) (n p : Nat) (h : shipMode s = true) : raise s n p = s := by
  simp [raise, raiseAt, h]

@[simp] theorem raise_pending (s : State) (n p : Nat) : (raise s n p).pending = s.pending := by rw [raise_frame]
@[simp] theorem raise_bsn (s : State) (n p : Nat) : (raise s n p).bsn = s.bsn := by rw [raise_frame]
@[simp] theorem raise_cycle (s : State) (n p : Nat) : (raise s n p).cycle = s.cycle := by rw [raise_frame]
@[simp] theorem raise_seq (s : State) (n p : Nat) : (raise s n p).seq = s.seq := by rw [raise_frame]
@[simp] theorem raise_spi (s : State) (n p : Nat) : (raise s n p).spi = s.spi := by rw [raise_frame]
@[simp] theorem raise_addrA (s : State) (n p : Nat) : (raise s n p).addrA = s.addrA := by rw [raise_frame]
@[simp] theorem raise_addrB (s : State) (n p : Nat) : (raise s n p).addrB = s.addrB := by rw [raise_frame]
@[simp] theorem raise_bus (s : State) (n p : Nat) : (raise s n p).bus = s.bus := by rw [raise_frame]
@[simp] theorem raise_power (s : State) (n p : Nat) : (raise s n p).power = s.power := by rw [raise_frame]
@[simp] theorem raise_record (s : State) (n p : Nat) : (raise s n p).record = s.record := by rw [raise_frame]
@[simp] theorem raise_otp (s : State) (n p : Nat) : (raise s n p).otp = s.otp := by rw [raise_frame]
@[simp] theorem raise_clock (s : State) (n p : Nat) : (raise s n p).clock = s.clock := by rw [raise_frame]
@[simp] theorem raise_dports (s : State) (n p : Nat) : (raise s n p).dports = s.dports := by rw [raise_frame]
@[simp] theorem raise_asrc (s : State) (n p : Nat) : (raise s n p).asrc = s.asrc := by rw [raise_frame]
@[simp] theorem raise_analog (s : State) (n p : Nat) : (raise s n p).analog = s.analog := by rw [raise_frame]
@[simp] theorem raise_wake (s : State) (n p : Nat) : (raise s n p).wake = s.wake := by rw [raise_frame]
@[simp] theorem raise_stage (s : State) (n p : Nat) : (raise s n p).stage = s.stage := by rw [raise_frame]
@[simp] theorem raise_diag (s : State) (n p : Nat) : (raise s n p).diag = s.diag := by rw [raise_frame]
@[simp] theorem raise_touch (s : State) (n p : Nat) : (raise s n p).touch = s.touch := by rw [raise_frame]
@[simp] theorem raise_graph (s : State) (n p : Nat) : (raise s n p).graph = s.graph := by rw [raise_frame]
@[simp] theorem raise_drover (s : State) (n p : Nat) : (raise s n p).drover = s.drover := by rw [raise_frame]
@[simp] theorem raise_health (s : State) (n p : Nat) : (raise s n p).health = s.health := by rw [raise_frame]
@[simp] theorem raise_params (s : State) (n p : Nat) : (raise s n p).params = s.params := by rw [raise_frame]
@[simp] theorem raise_regs (s : State) (n p : Nat) : (raise s n p).regs = s.regs := by rw [raise_frame]
@[simp] theorem raise_jtag (s : State) (n p : Nat) : (raise s n p).jtag = s.jtag := by rw [raise_frame]
@[simp] theorem raise_sramClean (s : State) (n p : Nat) : (raise s n p).sramClean = s.sramClean := by rw [raise_frame]
@[simp] theorem raise_rcNow (s : State) (n p : Nat) : (raise s n p).rcNow = s.rcNow := by rw [raise_frame]
@[simp] theorem raise_free (s : State) (n p : Nat) : (raise s n p).free = s.free := by rw [raise_frame]

@[simp] theorem raise_getPort (s : State) (n p : Nat) (q : PortId) : getPort (raise s n p) q = getPort s q := by
  cases q <;> simp [getPort]

/-! ## Bounds (R458, R461) -/

theorem evMerge_length (now : Bsn × Nat) (n : Nat) (p : Word) (d : Bool) (l f : List EvRecord)
    (h : evMerge now n p d l = some f) : f.length = l.length := by
  unfold evMerge at h
  split at h
  · cases h
  · dsimp only at h
    split at h
    · cases h
    · split at h
      · cases h; exact List.length_set ..
      · cases h

theorem drainOne_fifo (s : State) (e : Events) (r : EvRecord) (h : e.fifo.length ≤ 64) :
    (drainOne s e r).fifo.length ≤ 64 := by
  unfold drainOne
  split
  · simp only [List.length_append, List.length_cons, List.length_nil]; omega
  · exact h

theorem drainOne_foldl_fifo (s : State) (l : List EvRecord) : ∀ e : Events, e.fifo.length ≤ 64 →
    (l.foldl (drainOne s) e).fifo.length ≤ 64 := by
  induction l with
  | nil => exact fun _ h => h
  | cons r l ih => exact fun e h => ih _ (drainOne_fifo s e r h)

theorem drainAon_fifo (s : State) (h : s.events.fifo.length ≤ 64) : (drainAon s).events.fifo.length ≤ 64 :=
  drainOne_foldl_fifo _ _ _ h

/-- Placing a record makes a list longer by one. -/
theorem evPlace_length (now : Bsn × Nat) (l : List EvRecord) (r : EvRecord) : (evPlace now l r).length = l.length + 1 := by
  simp only [evPlace, List.length_append, List.length_take, List.length_cons, List.length_drop]
  omega

/-- A record of a larger number than all of this cycle's stands last (R457). -/
theorem evPlace_last (now : Bsn × Nat) (l : List EvRecord) (r : EvRecord)
    (h : ∀ x, l.getLast? = some x → x.entered ≠ some now ∨ x.num ≤ r.num) :
    evPlace now l r = l ++ [{ r with entered := if r.num = 108 then none else some now }] := by
  have z : l.reverse.takeWhile (fun x => x.entered == some now && decide (r.num < x.num)) = [] := by
    cases e : l.reverse with
    | nil => rfl
    | cons x xs =>
      have hx : l.getLast? = some x := by rw [← List.head?_reverse, e]; rfl
      rcases h x hx with h | h
      · simp [h]
      · simp [Nat.not_lt.mpr h]
  simp [evPlace, z]

/-- Joining keeps a list within its bound. -/
theorem evJoin_length (top : Nat) (now : Bsn × Nat) (l : List EvRecord) (r : EvRecord) (h : l.length ≤ top) :
    (evJoin top now l r).1.length ≤ top := by
  unfold evJoin
  split
  · simp only [evPlace_length]; omega
  · split
    · rename_i y hy
      have hl : l ≠ [] := by rintro rfl; cases hy
      split
      · simp only [evPlace_length, List.length_dropLast]; have := List.length_pos_iff.mpr hl; omega
      · exact h
    · exact h

theorem evEnter_bounds (s : State) (r : EvRecord) (h : s.events.fifo.length ≤ 64) :
    (evEnter s r).events.fifo.length ≤ 64 ∧ (evEnter s r).events.aonQueue = s.events.aonQueue := by
  unfold evEnter
  dsimp only
  split
  · rename_i f hf
    exact ⟨by simpa [evMerge_length _ _ _ _ _ _ hf, pendingNow] using h, rfl⟩
  · split
    · exact ⟨evJoin_length _ _ _ _ h, rfl⟩
    · exact ⟨evJoin_length _ _ _ _ h, rfl⟩

theorem evQueue_bounds (s : State) (r : EvRecord) (h : s.events.aonQueue.length ≤ 8) :
    (evQueue s r).events.aonQueue.length ≤ 8 ∧ (evQueue s r).events.fifo = s.events.fifo := by
  unfold evQueue
  dsimp only
  split
  · rename_i f hf
    exact ⟨by simpa [evMerge_length _ _ _ _ _ _ hf, pendingNow] using h, rfl⟩
  · exact ⟨evJoin_length _ _ _ _ h, rfl⟩

/-- Raising an event keeps the FIFO within 64 records and the AON queue within 8. -/
theorem raise_bounds (s : State) (n p : Nat) (hf : s.events.fifo.length ≤ 64) (hq : s.events.aonQueue.length ≤ 8) :
    (raise s n p).events.fifo.length ≤ 64 ∧ (raise s n p).events.aonQueue.length ≤ 8 := by
  unfold raise raiseAt
  split
  · dsimp only
    split
    · have b := evEnter_bounds (drainAon s) ⟨n, false, false, false, 1, s.bsn, s.cycle, BitVec.ofNat 32 p, none, none, false⟩ (drainAon_fifo s hf)
      exact ⟨b.1, by rw [b.2]; exact Nat.zero_le 8⟩
    · have b := evQueue_bounds s ⟨n, false, false, false, 1, s.bsn, s.cycle, BitVec.ofNat 32 p, none, none, false⟩ hq
      exact ⟨by rw [b.2]; exact hf, b.1⟩
  · exact ⟨hf, hq⟩

end Sys2Proof.Machine
end

