-- ==== Sys2Proof/Laws/Memory.lean ====
section
/-!
SUPPORT. The sorted stores: a read after a write, the canonical form that every write keeps, the register file, and the
bits of a word that a masked write leaves.
-/

namespace Sys2Proof.Machine

open Sys2Proof

/-! ## A read after a write -/

theorem assocFind_put_self {α : Type} (k : Nat) (v : α) (m : List (Nat × α)) : assocFind k (assocPut k v m) = some v := by
  induction m with
  | nil => simp [assocPut, assocFind]
  | cons x m ih =>
    obtain ⟨j, w⟩ := x
    simp only [assocPut]
    split
    · simp [assocFind]
    · split
      · simp [assocFind]
      · rename_i h; simp [assocFind, h, ih]

theorem assocFind_put_other {α : Type} (k l : Nat) (v : α) (m : List (Nat × α)) (h : l ≠ k) :
    assocFind l (assocPut k v m) = assocFind l m := by
  induction m with
  | nil => simp [assocPut, assocFind, Ne.symm h]
  | cons x m ih =>
    obtain ⟨j, w⟩ := x
    simp only [assocPut]
    split
    · simp [assocFind, Ne.symm h]
    · split
      · rename_i _ e; subst e; simp [assocFind, Ne.symm h]
      · simp [assocFind, ih]

theorem assocFind_del_other {α : Type} (k l : Nat) (m : List (Nat × α)) (h : l ≠ k) :
    assocFind l (assocDel k m) = assocFind l m := by
  induction m with
  | nil => rfl
  | cons x m ih =>
    obtain ⟨j, w⟩ := x
    simp only [assocDel]
    split
    · rename_i e; subst e; simp [assocFind, Ne.symm h]
    · simp [assocFind, ih]

/-! ## The canonical form -/

theorem assocAbove_trans {α : Type} {j k : Nat} {m : List (Nat × α)} (h : j < k) (hm : assocAbove k m = true) :
    assocAbove j m = true := by
  induction m with
  | nil => rfl
  | cons x m ih =>
    obtain ⟨i, w⟩ := x
    simp only [assocAbove, Bool.and_eq_true, decide_eq_true_eq] at hm ⊢
    exact ⟨by omega, ih hm.2⟩

theorem assocAbove_put {α : Type} {j k : Nat} {v : α} {m : List (Nat × α)} (h : j < k) (hm : assocAbove j m = true) :
    assocAbove j (assocPut k v m) = true := by
  induction m with
  | nil => simp [assocPut, assocAbove, h]
  | cons x m ih =>
    obtain ⟨i, w⟩ := x
    simp only [assocAbove, Bool.and_eq_true, decide_eq_true_eq] at hm
    simp only [assocPut]
    split
    · simp [assocAbove, h, hm]
    · split
      · simp [assocAbove, h, hm]
      · simp [assocAbove, hm.1, ih hm.2]

theorem assocAbove_del {α : Type} {j k : Nat} {m : List (Nat × α)} (hm : assocAbove j m = true) :
    assocAbove j (assocDel k m) = true := by
  induction m with
  | nil => rfl
  | cons x m ih =>
    obtain ⟨i, w⟩ := x
    simp only [assocAbove, Bool.and_eq_true, decide_eq_true_eq] at hm
    simp only [assocDel]
    split
    · exact hm.2
    · simp [assocAbove, hm.1, ih hm.2]

theorem assocRising_put {α : Type} (k : Nat) (v : α) (m : List (Nat × α)) (hm : assocRising m = true) :
    assocRising (assocPut k v m) = true := by
  induction m with
  | nil => simp [assocPut, assocRising, assocAbove]
  | cons x m ih =>
    obtain ⟨i, w⟩ := x
    simp only [assocRising, Bool.and_eq_true] at hm
    simp only [assocPut]
    split
    · rename_i h; simp [assocRising, assocAbove, h, hm, assocAbove_trans h hm.1]
    · split
      · rename_i h; subst h; simp [assocRising, hm]
      · rename_i h1 h2
        simp [assocRising, ih hm.2, assocAbove_put (show i < k by omega) hm.1]

theorem assocRising_del {α : Type} (k : Nat) (m : List (Nat × α)) (hm : assocRising m = true) :
    assocRising (assocDel k m) = true := by
  induction m with
  | nil => rfl
  | cons x m ih =>
    obtain ⟨i, w⟩ := x
    simp only [assocRising, Bool.and_eq_true] at hm
    simp only [assocDel]
    split
    · exact hm.2
    · simp [assocRising, ih hm.2, assocAbove_del hm.1]

theorem all_put {α : Type} (p : Nat × α → Bool) (k : Nat) (v : α) (m : List (Nat × α)) (hm : m.all p = true)
    (hv : p (k, v) = true) : (assocPut k v m).all p = true := by
  induction m with
  | nil => simp [assocPut, hv]
  | cons x m ih =>
    obtain ⟨i, w⟩ := x
    simp only [List.all_cons, Bool.and_eq_true] at hm
    simp only [assocPut]
    split
    · simp only [List.all_cons, hv, hm.1, hm.2, Bool.and_self]
    · split
      · simp only [List.all_cons, hv, hm.2, Bool.and_self]
      · simp only [List.all_cons, hm.1, ih hm.2, Bool.and_self]

theorem all_del {α : Type} (p : Nat × α → Bool) (k : Nat) (m : List (Nat × α)) (hm : m.all p = true) :
    (assocDel k m).all p = true := by
  induction m with
  | nil => rfl
  | cons x m ih =>
    obtain ⟨i, w⟩ := x
    simp only [List.all_cons, Bool.and_eq_true] at hm
    simp only [assocDel]
    split
    · exact hm.2
    · simp only [List.all_cons, hm.1, ih hm.2, Bool.and_self]

theorem assocFind_above {α : Type} {k : Nat} {m : List (Nat × α)} (hm : assocAbove k m = true) : assocFind k m = none := by
  induction m with
  | nil => rfl
  | cons x m ih =>
    obtain ⟨i, w⟩ := x
    simp only [assocAbove, Bool.and_eq_true, decide_eq_true_eq] at hm
    simp [assocFind, ih hm.2, Nat.ne_of_gt hm.1]

theorem assocFind_del_self {α : Type} (k : Nat) (m : List (Nat × α)) (hm : assocRising m = true) :
    assocFind k (assocDel k m) = none := by
  induction m with
  | nil => rfl
  | cons x m ih =>
    obtain ⟨i, w⟩ := x
    simp only [assocRising, Bool.and_eq_true] at hm
    simp only [assocDel]
    split
    · rename_i h; subst h; exact assocFind_above hm.1
    · rename_i h; simp [assocFind, h, ih hm.2]

/-- Writing a byte keeps a memory's canonical form. -/
theorem memoryWrite_wf (m : Memory) (a : Nat) (v : Byte) (h : Memory.wf m = true) : Memory.wf (memoryWrite m a v) = true := by
  simp only [Memory.wf, Bool.and_eq_true] at h ⊢
  unfold memoryWrite
  split
  · exact ⟨assocRising_del _ _ h.1, all_del _ _ _ h.2⟩
  · rename_i hv
    exact ⟨assocRising_put _ _ _ h.1, all_put _ _ _ _ h.2 (by simpa using hv)⟩

/-- A byte written is the byte read. -/
theorem memoryRead_write_self (m : Memory) (a : Nat) (v : Byte) (h : Memory.wf m = true) :
    memoryRead (memoryWrite m a v) a = v := by
  simp only [Memory.wf, Bool.and_eq_true] at h
  unfold memoryWrite memoryRead
  split
  · rename_i hv; simp [assocFind_del_self _ _ h.1, hv]
  · simp [assocFind_put_self]

/-- Every other byte stands. -/
theorem memoryRead_write_other (m : Memory) (a b : Nat) (v : Byte) (h : b ≠ a) :
    memoryRead (memoryWrite m a v) b = memoryRead m b := by
  unfold memoryWrite memoryRead
  split
  · rw [assocFind_del_other _ _ _ h]
  · rw [assocFind_put_other _ _ _ _ h]

/-- Programming a word keeps the OTP's canonical form. -/
theorem otpPut_wf (m : List (Nat × Word)) (k : Nat) (v : Word) (h : otpWf m = true) : otpWf (otpPut k v m) = true := by
  simp only [otpWf, Bool.and_eq_true] at h ⊢
  unfold otpPut
  split
  · exact ⟨assocRising_del _ _ h.1, all_del _ _ _ h.2⟩
  · rename_i hv
    exact ⟨assocRising_put _ _ _ h.1, all_put _ _ _ _ h.2 (by simpa using hv)⟩

/-- Storing a run of bytes keeps an image's addresses rising. -/
theorem imageWrite_rising (bs : List Byte) : ∀ (m : Memory) (a : Nat), assocRising m = true →
    assocRising (imageWrite m a bs) = true := by
  induction bs with
  | nil => intro m a h; exact h
  | cons b bs ih => intro m a h; exact ih _ _ (assocRising_put _ _ _ h)

/-! ## The register file (R201) -/

/-- Storing a word keeps the register file's canonical form. -/
theorem wr_wf (s : State) (r : Reg) (v : Nat) (h : regsWf s.regs = true) : regsWf (wr s r v).regs = true := by
  simp only [regsWf, Bool.and_eq_true] at h
  unfold wr regSet regsWf
  simp only [Bool.and_eq_true]
  split
  · exact ⟨assocRising_del _ _ h.1, all_del _ _ _ h.2⟩
  · rename_i hv
    exact ⟨assocRising_put _ _ _ h.1, all_put _ _ _ _ h.2 (by simpa [BitVec.toNat_ofNat] using hv)⟩

/-- A word other than the reset value is read as it was stored. -/
theorem rd_wr_set (s : State) (r : Reg) (v : Nat) (hr : v ≠ regResetAt r.addr) (hv : v < 2 ^ 32) : rd (wr s r v) r = v := by
  have e : v % 2 ^ 32 = v := Nat.mod_eq_of_lt hv
  unfold rd wr regGet regSet
  simp only [e, hr, if_false, assocFind_put_self]
  simp only [Option.map_some, BitVec.toNat_ofNat, Option.getD_some, e]

/-- Any word is read as it was stored, in a canonical register file. -/
theorem rd_wr_self (s : State) (r : Reg) (v : Nat) (h : regsWf s.regs = true) (hv : v < 2 ^ 32) : rd (wr s r v) r = v := by
  by_cases hr : v = regResetAt r.addr
  · have e : v % 2 ^ 32 = v := Nat.mod_eq_of_lt hv
    simp only [regsWf, Bool.and_eq_true] at h
    unfold rd wr regGet regSet
    simp only [e]
    simp only [hr, if_true, assocFind_del_self _ _ h.1, Option.map_none, Option.getD_none]
  · exact rd_wr_set s r v hr hv

/-- The word at another PADDR stands. -/
theorem rd_wr_other (s : State) (r q : Reg) (v : Nat) (h : q.addr ≠ r.addr) : rd (wr s r v) q = rd s q := by
  unfold rd wr regGet regSet
  dsimp only
  split
  · rw [assocFind_del_other _ _ _ h]
  · rw [assocFind_put_other _ _ _ _ h]

/-- A stored word fits 32 bits where its reset value does. -/
theorem rd_lt (s : State) (r : Reg) (h : regResetAt r.addr < 2 ^ 32) : rd s r < 2 ^ 32 := by
  unfold rd regGet
  cases assocFind r.addr s.regs with
  | none => simpa using h
  | some w => simpa using w.isLt

/-! ## Bits of a masked write -/

theorem bit_testBit (v i : Nat) : bit v i = v.testBit i := by
  unfold bit
  rw [Nat.testBit_eq_decide_div_mod_eq]
  cases h : decide (v / 2 ^ i % 2 = 1) <;> simp_all

/-- A masked write takes the masked bits from the new value and keeps the others. -/
theorem bit_withBits (w mask v i : Nat) (hm : mask < 2 ^ 32) (hi : i < 32) :
    bit (withBits w mask v) i = if mask.testBit i then bit v i else bit w i := by
  simp only [bit_testBit, withBits]
  show (Nat.lor _ _).testBit i = _
  have e : (0xFFFFFFFF - mask).testBit i = !mask.testBit i := by
    have := Nat.testBit_two_pow_sub_succ (n := 32) (x := mask) hm i
    simp only [hi, decide_true, Bool.true_and] at this
    rw [← this]; congr 1; omega
  have o := Nat.testBit_or (Nat.land w (0xFFFFFFFF - mask)) (Nat.land v mask) i
  have a := Nat.testBit_and w (0xFFFFFFFF - mask) i
  have b := Nat.testBit_and v mask i
  simp only [HOr.hOr, HAnd.hAnd, OrOp.or, AndOp.and] at o a b
  rw [o, a, b, e]
  cases mask.testBit i <;> simp

theorem withBits_lt (w mask v : Nat) (hm : mask < 2 ^ 32) : withBits w mask v < 2 ^ 32 := by
  apply Nat.lt_pow_two_of_testBit
  intro i hi
  have o := Nat.testBit_or (Nat.land w (0xFFFFFFFF - mask)) (Nat.land v mask) i
  have a := Nat.testBit_and w (0xFFFFFFFF - mask) i
  have b := Nat.testBit_and v mask i
  simp only [HOr.hOr, HAnd.hAnd, OrOp.or, AndOp.and] at o a b
  unfold withBits
  rw [o, a, b]
  have p : 2 ^ 32 ≤ 2 ^ i := Nat.pow_le_pow_right (by decide) hi
  rw [Nat.testBit_lt_two_pow (show mask < 2 ^ i by omega), Nat.testBit_lt_two_pow (show 0xFFFFFFFF - mask < 2 ^ i by omega)]
  simp

/-- A field is the same number where its bits are the same. -/
theorem bits_congr (v w hi lo : Nat) (h : ∀ i, lo ≤ i → i ≤ hi → bit v i = bit w i) : bits v hi lo = bits w hi lo := by
  apply Nat.eq_of_testBit_eq
  intro i
  unfold bits
  rw [Nat.testBit_mod_two_pow, Nat.testBit_mod_two_pow, Nat.testBit_div_two_pow, Nat.testBit_div_two_pow]
  by_cases hi' : i < hi + 1 - lo
  · have := h (i + lo) (by omega) (by omega)
    simp only [bit_testBit] at this
    simp [hi', this]
  · simp [hi']

/-! ## One element of a list -/

theorem modAt_congr {α : Type} (l : List α) (i : Nat) (f g : α → α) (x : α) (h : l[i]? = some x) (e : f x = g x) :
    modAt l i f = modAt l i g := by
  unfold modAt
  apply List.ext_getElem?
  intro j
  rw [List.getElem?_modify, List.getElem?_modify]
  by_cases hj : i = j
  · subst hj; simp [h, e]
  · simp [hj]

theorem modAt_set {α : Type} (l : List α) (i : Nat) (f : α → α) (x : α) (h : l[i]? = some x) :
    modAt l i f = l.set i (f x) := by
  unfold modAt
  apply List.ext_getElem?
  intro j
  rw [List.getElem?_modify, List.getElem?_set]
  by_cases hj : i = j
  · subst hj
    obtain ⟨hl, rfl⟩ := List.getElem?_eq_some_iff.mp h
    simp [hl]
  · simp [hj]

end Sys2Proof.Machine
end

