-- ==== Sys2Proof/Laws/Residue.lean ====
section
/-!
SUPPORT. What the residue of R159 says of an accumulator: in a sound unit every check passes, and an error of one bit is
found at the next store.
-/

namespace Sys2Proof.Machine

open Sys2Proof

/-- A sound multiply-accumulate keeps the residue, fails no check, and computes R81's value. -/
theorem Tracked.mac_sound (t : Tracked) (x c : Int) (h : t.res = residue t.acc) :
    (t.mac x c 0).bad = t.bad ∧ (t.mac x c 0).res = residue (t.mac x c 0).acc ∧
      ∀ n, (t.mac x c 0).acc = (Machine.mac (t.acc, n) x c).1 := by
  have hr : (residue t.acc + residue x * residue c) % 15 = residue (t.acc + x * c) := by
    unfold residue
    have hz : ((((t.acc % 15).toNat + (x % 15).toNat * (c % 15).toNat) % 15 : Nat) : Int) = ((t.acc + x * c) % 15) := by
      push_cast
      rw [Int.toNat_of_nonneg (Int.emod_nonneg _ (by decide)), Int.toNat_of_nonneg (Int.emod_nonneg _ (by decide)),
        Int.toNat_of_nonneg (Int.emod_nonneg _ (by decide))]
      simp [Int.add_emod, Int.mul_emod]
    omega
  unfold Tracked.mac Machine.mac
  simp only [Int.add_zero]
  split
  · next h0 =>
    refine ⟨rfl, by simpa [h] using hr, fun n => ?_⟩
    unfold satTo at h0 ⊢
    split at h0
    · simp at h0
    · split at h0
      · simp at h0
      · simp [*]
  · refine ⟨?_, rfl, fun n => rfl⟩
    simp [Tracked.check, h, hr]

/-- A sound store fails no check. -/
theorem Tracked.store_sound (t : Tracked) (h : t.res = residue t.acc) : t.store.bad = t.bad := by
  simp [Tracked.store, Tracked.check, h]

/-- No power of two is a multiple of 15 (R159). -/
theorem residue_two_pow (i : Nat) : residue (2 ^ i) ∈ [1, 2, 4, 8] := by
  induction i with
  | zero => decide
  | succ n ih =>
    have e : residue (2 ^ (n + 1)) = residue (2 ^ n) * 2 % 15 := by
      unfold residue
      have h0 : (0 : Int) ≤ 2 ^ n % 15 := Int.emod_nonneg _ (by decide)
      rw [pow_succ]
      omega
    simp only [List.mem_cons, List.not_mem_nil, or_false] at ih ⊢
    rcases ih with h | h | h | h <;> simp [e, h]

end Sys2Proof.Machine
end

