-- ==== Sys2Proof/Tests/Slice0.lean ====
section
/-!
SUPPORT. Tests: an ill-formed command for each check of WellFormed.lean, worked examples of the spec, and for every
statement with hypotheses a concrete state and operands that meet them, clause by clause (a name that a statement only
defines by an equation is written out).
-/

namespace Sys2Proof.Tests

open Sys2Proof Sys2Proof.Machine

set_option Elab.async false

/-! ## Small states -/

/-- A booted device in mode `m`, its ports open. -/
def up (m : Mode) : State := { State.reset with
  power := { mode := m, boot := .complete, pwrEn0 := true, pwrEn1 := true, sramOn := true, fabricOn := m == .active,
             accepting := true },
  bus := { ctrlClk := true } }
/-- The same in ACTIVE, and in RETAIN. -/
def act : State := up .active
def low : State := up .retain
/-- SHIP, and a device in service class on SPI. -/
def ship : State := { State.reset with power := { mode := .ship, boot := .complete } }
def svc : State := modPort act .spi (fun p => { p with cls := 3 })
/-- A request on SPI with tag 7, and the place of a command with tag 8 that waits with a job. -/
def cmd (payload : List Nat) : Request := ⟨.spi, 7#8, 0#8, payload.map (BitVec.ofNat 8)⟩
def held (j : Job) : Outstanding := ⟨8#8, 0#8, 0, j, 0, 0, false, 0xFF⟩
def waiting (l : List Outstanding) (s : State) : State := modPort s .spi (fun p => { p with outstanding := l })
def replied (l : List Reply) (s : State) : State := modPort s .spi (fun p => { p with replies := l })
def received (l : List Byte) (s : State) : State := modPort s .spi (fun p => { p with rx := l })
/-- ACTIVE with given parts. -/
def withClock (x : Clock) : State := { act with clock := x }
def withPort (p : Nat) (x : DPort) (s : State) : State := { s with dports := s.dports.set p x }
def withEvents (x : Events) : State := { act with events := x }
def withAnalog (x : Analog) : State := { act with analog := x }
def withAdc (a : Nat) (g : AdcStage) (s : State) : State :=
  { s with analog := { s.analog with adc := s.analog.adc.set a { stage := g } } }
def withJack (x : Jacks) : State := withAnalog { jack := x }
def withHp (x : Output) : State := withAnalog { hp := x }
def withAux (x : Aux) : State := withClock { aux := [x, {}, {}, {}], state := .freerun }
def withStage (x : PStage) : State := { act with stage := x }
def withChan (x : Chan) : State :=
  withStage { chans := x :: List.replicate 31 {}, stage := .available, pv := .available }
def withDiag (x : Diag) : State := { withChan {} with diag := x }
def withTouch (x : Touch) : State := { act with touch := x }
def withEl (x : Electrode) : State := withTouch { scanning := true, els := x :: List.replicate 11 {} }
def withKey (x : Key) : State := withTouch { keys := x :: List.replicate 5 {} }
def withWake (x : Wake) : State := { act with wake := x }
def withHealth (x : Health) : State := { act with health := x }
def withOtp (x : Otp) : State := { act with otp := x }
def withSlot (x : Slot) : State := { act with graph := { slots := [x, {}] } }
def withHamper (x : Hamper) : State := { act with params := { hampers := x :: List.replicate 7 {} } }
def withDrover (x : Drover) : State := { act with drover := x }
def withBoot (b : BootStage) : State := { State.reset with power := { boot := b } }
/-- A change of mode at the step `l`, from the mode `m`. -/
def changing (m : Mode) (l : List ModeStep) : State :=
  { up m with power := { (up m).power with change := some ⟨l, m, m, 0, 0, true, 0, true, none, none, (0, 0)⟩ } }
/-- A record of an event, decimators whose spares have passed their test, and an engine that runs an attempt. -/
def record (n : Nat) : EvRecord := { num := n, merged := false, alerted := false, queued := false, count := 1, bsn := 0, cycle := 0, payload := 0 }
def testedDecs : List Decimator := List.replicate 22 ({} : Decimator) ++
  List.replicate 2 { inSvc := false, passed := true }
def oe0 : UnitRef := ⟨.oe, 0, 0⟩
def task0 : Ready := ⟨⟨.op, 0, 0⟩, none, 0, [], 0, 0, []⟩
def busy0 : State := withDrover { oes := { phase := .busy, run := some task0 } :: List.replicate 55 {}, block := some 0 }
/-- A channel whose loop is closed at 15 V, and a change of mode that waits for its boundary. -/
def looping : State := withStage { chans := { loop := true } :: List.replicate 31 {}, stage := .available, pv := .available, pvdd := 15000 }
def queuedChange : State := { waiting [held .powerMode] act with
  seq := 1, power := { act.power with change := some ⟨[.d1], .idle, .active, 0, 0, false, 5, false, none, none, (0, 0)⟩ } }

/-- A valid image of one IN instance, its buffer and its flow (R45-R54): 192 bytes. -/
def graphBytes : List Nat :=
  [83, 76, 71, 73, 1, 0, 64, 0, 192, 0, 0, 0, 1, 0, 1, 0, 1, 0, 1, 0, 64, 0, 0, 0, 128, 0, 0, 0, 160, 0, 0, 0, 192,
   0, 0, 0, 0, 0, 0, 0, 128, 0, 0, 0, 0, 0, 0, 0, 0, 0, 0, 0, 0, 0, 0, 0, 0, 0, 0, 0, 228, 11, 240, 97, 1, 0, 0, 0,
   0, 1, 1, 0, 32, 0, 0, 0, 255, 255, 255, 255, 0, 0, 0, 0, 0, 0, 0, 0, 0, 0, 0, 0, 0, 0, 0, 0, 0, 0, 0, 0, 0, 0, 0,
   0, 0, 0, 0, 0, 0, 0, 0, 0, 0, 0, 0, 0, 0, 0, 0, 0, 0, 0, 0, 0, 0, 0, 0, 0, 1, 0, 0, 0, 4, 0, 0, 0, 255, 255, 255,
   255, 0, 0, 0, 0, 0, 0, 0, 0, 0, 0, 0, 0, 0, 0, 0, 0, 0, 0, 0, 0, 0, 0, 1, 0, 0, 0, 0, 0, 0, 0, 0, 0, 0, 0, 0, 0,
   0, 0, 0, 0, 0, 0, 0, 0, 0, 0, 0, 0, 0, 0, 0, 0]
def cellsFrom : Nat → List Nat → Memory
  | _, [] => []
  | i, b :: bs => (i, BitVec.ofNat 8 b) :: cellsFrom (i + 1) bs
def graphImage : Memory := cellsFrom 0 graphBytes
theorem image_magic : chkMagic graphImage = true := by decide +kernel
theorem image_length : chkLength graphImage 192 = true := by decide +kernel
theorem image_crc : (imgN graphImage 0x3C 4 == imageCrc graphImage 192) = true := by decide +kernel
theorem image_counts : chkCounts graphImage = true := by decide +kernel
theorem image_sections : chkSections graphImage 192 = true := by decide +kernel
theorem image_types : firstBad (opList graphImage) (fun _ e => e.typeOk) = none := by decide +kernel
theorem image_conns : firstBad (opList graphImage) (chkConn graphImage) = none := by decide +kernel
theorem image_bufs : firstBad ((List.range (hBufs graphImage)).map (fun b => (b, bufEntry graphImage b)))
    (chkBuf graphImage) = none := by decide +kernel
theorem image_flows : firstBad ((List.range (hFlows graphImage)).map (fun f => (f, flowEntry graphImage f)))
    (chkFlow graphImage) = none := by decide +kernel
theorem image_ports : firstBad (opList graphImage) (chkPort graphImage) = none := by decide +kernel
theorem image_params : firstBad (opList graphImage) (fun _ e => e.paramsOk (blobWord graphImage e)) = none := by
  decide +kernel
theorem image_costs : firstBad (opList graphImage) (fun _ e => e.costOk (blobWord graphImage e)) = none := by
  decide +kernel
theorem image_tasks : taskTotal graphImage ≤ 12288 := by decide +kernel
theorem image_order (k : Nat) : cycleOp graphImage k = none := by
  have h : (stuckOps graphImage).filter (onCycle graphImage (stuckOps graphImage)) = [] := by decide +kernel
  unfold cycleOp
  rw [h]
theorem image_footprint : footprintOf graphImage = 128 := by decide +kernel
theorem image_stated : (imgN graphImage 0x28 4 == footprintOf graphImage) = true := by decide +kernel
theorem image_zeros : chkZero graphImage 192 = true := by decide +kernel
theorem image_valid (k : Nat) : graphCheck graphImage 192 k = (0, 0xFFFF) := by
  simp only [graphCheck, checkList, image_magic, image_length, image_crc, image_counts, image_sections, image_types,
    image_conns, image_bufs, image_flows, image_ports, image_params, image_costs, image_tasks, image_order, image_stated,
    image_zeros]
  rfl

/-- That image is loaded in slot 0 and its GRAPH_END waits. -/
def loadedImage : State :=
  waiting [held (.graphEnd 0)] (withSlot { phase := .loading, imageLen := 192, image := graphImage })
theorem image_fits : fits loadedImage 0 (footprintOf graphImage) = true := by
  rw [image_footprint]; decide +kernel

/-- CRC-32C over zeros, in two parts. -/
theorem crcZeros (n m c : Nat) : (List.replicate (n + m) 0#8).foldl crcByte c =
    (List.replicate m 0#8).foldl crcByte ((List.replicate n 0#8).foldl crcByte c) := by
  rw [List.replicate_add, List.foldl_append]

/-- Words of zero bytes in a row. -/
theorem zeroWords {f : Nat → List Byte} (l : List Nat) (h : ∀ i ∈ l, f i = List.replicate 4 0#8) :
    l.flatMap f = List.replicate (l.length * 4) 0#8 := by
  induction l with
  | nil => rfl
  | cons i l ih =>
    rw [List.flatMap_cons, h i (by simp), ih (fun j m => h j (by simp [m])), List.length_cons, Nat.succ_mul, Nat.add_comm,
      List.replicate_add]

/-- The CRC of an OTP slot that nothing has written (R492). -/
def freshOtp : State := withOtp { openGen := some 0 }
theorem fresh_words : ∀ i ∈ List.range 126,
    leBytes 4 (plannedWord freshOtp.otp (slotBase 0 + i)) = List.replicate 4 0#8 := by decide +kernel
theorem fresh_bytes : (List.range 126).flatMap (fun i => leBytes 4 (plannedWord freshOtp.otp (slotBase 0 + i))) =
    List.replicate (63 + (63 + (63 + (63 + (63 + (63 + (63 + 63))))))) 0#8 := by
  rw [zeroWords _ fresh_words, List.length_range]
theorem fresh_fold : (List.replicate (63 + (63 + (63 + (63 + (63 + (63 + (63 + 63))))))) 0#8).foldl crcByte 0xFFFFFFFF =
    1737966233 := by
  have e1 : (List.replicate 63 0#8).foldl crcByte 0xFFFFFFFF = 1872566959 := by decide +kernel
  have e2 : (List.replicate 63 0#8).foldl crcByte 1872566959 = 723379 := by decide +kernel
  have e3 : (List.replicate 63 0#8).foldl crcByte 723379 = 1089747824 := by decide +kernel
  have e4 : (List.replicate 63 0#8).foldl crcByte 1089747824 = 2551819486 := by decide +kernel
  have e5 : (List.replicate 63 0#8).foldl crcByte 2551819486 = 3042687156 := by decide +kernel
  have e6 : (List.replicate 63 0#8).foldl crcByte 3042687156 = 4252308610 := by decide +kernel
  have e7 : (List.replicate 63 0#8).foldl crcByte 4252308610 = 3287182235 := by decide +kernel
  have e8 : (List.replicate 63 0#8).foldl crcByte 3287182235 = 1737966233 := by decide +kernel
  rw [crcZeros, e1, crcZeros, e2, crcZeros, e3, crcZeros, e4, crcZeros, e5, crcZeros, e6, crcZeros, e7, e8]
theorem slotCrc_bytes (f : Nat → Nat) (g : Nat) : slotCrc f g =
    Nat.xor (((List.range 126).flatMap (fun i => leBytes 4 (f (slotBase g + i)))).foldl crcByte 0xFFFFFFFF)
      0xFFFFFFFF := by
  unfold slotCrc crc32c; rfl
theorem last_xor : Nat.xor 1737966233 0xFFFFFFFF = 0x9868BD66 := by decide +kernel
theorem slotCrc_fresh : slotCrc (plannedWord freshOtp.otp) 0 = 0x9868BD66 := by
  rw [slotCrc_bytes, fresh_bytes, fresh_fold, last_xor]

/-- An operator engine that the tracking marked to leave the pool, and a spare that has passed its test. -/
def leaving : State := { withDrover { oes := { leaves := some .residue } :: (List.replicate 47 {} ++
  List.replicate 8 { phase := .out, spare := true }) } with health := { oePassed := [48] } }
theorem leaving_oes (k : Nat) (h : k ≠ 0) : (engineAt leaving.drover false k).leaves = none := by
  have d : ∀ k : Fin 56, k.val ≠ 0 → (engineAt leaving.drover false k).leaves = none := by decide +kernel
  rcases Nat.lt_or_ge k 56 with g | g
  · exact d ⟨k, g⟩ h
  · have l : leaving.drover.oes.length ≤ k := g
    simp [engineAt, List.getElem?_eq_none l]
theorem leaving_mes (k : Nat) : (engineAt leaving.drover true k).leaves = none := by
  have d : ∀ k : Fin 16, (engineAt leaving.drover true k).leaves = none := by decide +kernel
  rcases Nat.lt_or_ge k 16 with g | g
  · exact d ⟨k, g⟩
  · have l : leaving.drover.mes.length ≤ k := g
    simp [engineAt, List.getElem?_eq_none l]

/-! ## Ill-formed commands are refused -/

/-- A block's inputs in their plain shape. -/
def inputs : BlockInput where
  sources := []
  feeds := []
  sense := []
  pvddLow := List.replicate 24 15000
  pvdd := 15000
  temps := [250, 250, 250, 250]
  badWords := []
  ppm := []
  refEdge := false
  refPpm := 0
  refPhase := 0
  syncIn := false
  syncMark := false
  coreTemp := 250
  vstby := 3600
theorem wf_inputs : (Instr.blockBoundary inputs).wf = true := by decide +kernel
theorem ill_source : (Instr.blockBoundary { inputs with sources := [(0x26, List.replicate 24 0)] }).wf = false := by
  decide +kernel
theorem ill_source_order : (Instr.blockBoundary { inputs with
    sources := [(1, List.replicate 24 0), (1, List.replicate 24 0)] }).wf = false := by decide +kernel
theorem ill_source_length : (Instr.blockBoundary { inputs with sources := [(0, [0])] }).wf = false := by decide +kernel
theorem ill_feed : (Instr.blockBoundary { inputs with feeds := [(16, [0, 0, 0, 0])] }).wf = false := by decide +kernel
theorem ill_sense : (Instr.blockBoundary { inputs with
    sense := [(0, List.replicate 24 { v := 8388608, i := 0 })] }).wf = false := by decide +kernel
theorem ill_pvdd : (Instr.blockBoundary { inputs with pvddLow := [] }).wf = false := by decide +kernel
theorem ill_temps : (Instr.blockBoundary { inputs with temps := [250] }).wf = false := by decide +kernel
theorem ill_cooler_word : (Instr.blockBoundary { inputs with badWords := [[(32768, 0)]] }).wf = false := by
  decide +kernel
theorem ill_ppm : (Instr.blockBoundary { inputs with ppm := [(7, 0)] }).wf = false := by decide +kernel
theorem ill_packet : (Instr.ping ⟨.spi, 7, 0, List.replicate 4097 0⟩).wf = false := by decide +kernel
theorem ill_unit : (Instr.taskRetire ⟨.oe, 56, 0⟩).wf = false := by decide
theorem ill_engine : (Instr.taskRetire ⟨.bank, 0, 0⟩).wf = false := by decide
theorem ill_finger : (Instr.faultDetect ⟨.finger, ⟨.finger, 0, 8⟩, ⟨.finger, 0, 0⟩, none, .none, .none⟩).wf = false := by
  decide
theorem ill_suspect : (Instr.faultDetect ⟨.residue, ⟨.bank, 0, 0⟩, ⟨.oe, 0, 0⟩, none, .none, .none⟩).wf = false := by
  decide
theorem ill_self_test : (Instr.selfTestEnd ⟨.me, 0, 0⟩ true).wf = false := by decide
theorem ill_pen : (Instr.penRefill 0 [32]).wf = false := by decide
theorem ill_ramp_word : (Instr.interpRampEnd 4096 0).wf = false := by decide
theorem ill_status_block : (Instr.spdifBlockCapture 0 [] []).wf = false := by decide
theorem ill_contact : (Instr.classifyMeasure 4096).wf = false := by decide
theorem ill_contacts : (Instr.threePoleRepeat 0 4096).wf = false := by decide
theorem ill_task_error : (Instr.blockBoundary { inputs with taskErrors := [(18, 0, [1])] }).wf = false := by decide +kernel
theorem ill_lbuf : (Instr.blockBoundary { inputs with lbufFixed := [(56, 0)] }).wf = false := by decide +kernel
theorem ill_port_frames : (Instr.blockBoundary { inputs with ports := [(7, [])] }).wf = false := by decide +kernel
theorem ill_delay : (Instr.blockBoundary { inputs with delays := [(7, 0)] }).wf = false := by decide +kernel
theorem ill_parallel : (Instr.blockBoundary { inputs with parallel := [(0x20, [])] }).wf = false := by decide +kernel
theorem ill_contact_level : (Instr.blockBoundary { inputs with contact := some 4096 }).wf = false := by decide +kernel
theorem ill_xfault : (Instr.blockBoundary { inputs with xfaultLow := [(4, 0)] }).wf = false := by decide +kernel
theorem ill_xfault_cycle : (Instr.blockBoundary { inputs with xfaultLow := [(0, 294912)] }).wf = false := by decide +kernel
theorem ill_link : (Instr.blockBoundary { inputs with linkBad := some 294912 }).wf = false := by decide +kernel
theorem ill_upset : (Instr.blockBoundary { inputs with upsets := [(0, 0, 275)] }).wf = false := by decide +kernel
theorem ill_flips : (Instr.scrubRead 0 [1, 1]).wf = false := by decide
theorem ill_cycles : (Instr.fingerFail 0 ⟨0, true, [[1]]⟩).wf = false := by decide
theorem ill_local : Evidence.wf (.localWord 4096 0) = false := by decide
theorem ill_bank_word : Evidence.wf (.bankWord 0 49152 [] 0 0) = false := by decide
theorem ill_shares : Evidence.wf (.shares false [[1]]) = false := by decide
theorem ill_loop : (Instr.loopOpen ⟨0, []⟩).wf = false := by decide
theorem ill_button : (Instr.hsButtonPress 4096).wf = false := by decide
theorem ill_rail : (Instr.pvddFault 65536).wf = false := by decide
theorem ill_scan : (Instr.touchScan [0]).wf = false := by decide
theorem ill_pressed : (Instr.coreRelease ⟨true, true⟩ []).wf = false := by decide

/-! ## Worked examples of the spec -/

/-- Ch. 13, R393: the CRC-32C of the ASCII bytes 1 to 9. -/
theorem test_crc : crc32c [0x31, 0x32, 0x33, 0x34, 0x35, 0x36, 0x37, 0x38, 0x39] = 0xE3069283 := by decide +kernel
/-- Ch. 03: a GAIN of 0.5 on 3 and on 5 LSBs stores 2 LSBs. -/
theorem test_half_even : storeW (3 * 2 ^ 30, 0) 62 = (2, 0) ∧ storeW (5 * 2 ^ 30, 0) 62 = (2, 0) := by decide +kernel
/-- Ch. 02: 11,520,000 cycles are 81.38 % of 48 engines and 83.11 % of 47. -/
theorem test_load : loadPct 11520000 48 = 8138 ∧ loadPct 11520000 47 = 8311 := by decide +kernel
/-- Ch. 03: costs and buffers of ten sections, of 8,192 taps and of a 50 ms delay line. -/
theorem test_biq : OpEntry.blockCost ⟨5, 1, 0, 1, 1, 1, 0, 0, 0, 0, 0, 0, 0⟩ (fun _ => 10) = 840 ∧
    OpEntry.stateWords ⟨5, 1, 0, 1, 1, 1, 0, 0, 0, 0, 0, 0, 0⟩ (fun _ => 10) = 9 := by decide +kernel
theorem test_fir : OpEntry.blockCost ⟨6, 0, 0, 1, 1, 16, 0, 0, 0, 0, 0, 0, 0⟩ (fun _ => 8192) = 100800 ∧
    OpEntry.lineWords ⟨6, 0, 0, 1, 1, 16, 0, 0, 0, 0, 0, 0, 0⟩ (fun _ => 8192) = 1370 := by decide +kernel
theorem test_delay : OpEntry.blockCost ⟨7, 0, 0, 1, 1, 1, 0, 0, 0, 0, 0, 0, 0⟩ (fun _ => 4800) = 76 ∧
    OpEntry.lineWords ⟨7, 0, 0, 1, 1, 1, 0, 0, 0, 0, 0, 0, 0⟩ (fun _ => 4800) = 805 := by decide +kernel
/-- Ch. 06: a commit accepted at cycle 280,000 of BSN 500,000 takes the boundary after block 500,001. -/
theorem test_commit : earliestCommit { act with bsn := 500000, cycle := 280000 } - 1#40 = 500001 := by decide +kernel
/-- Ch. 07: TP_CFG of eight 32-bit slots at 48 kHz is in range. -/
theorem test_tp_cfg : (Reg.tpCfg 2).rangeOk State.reset 0x94749 = true := by decide +kernel
/-- Ch. 13: a port on SPI lowers its own class from the next cycle. -/
theorem test_lower : (match exec (.portClassSet (cmd [0, 2, 0, 0])) act with
    | .next t => (t.spi.cls, (mapApply t).spi.cls)
    | _ => (9, 9)) = (2, 0) := by decide +kernel
/-- Ch. 15: the record of EV017 at cycle 0 of BSN 100,002. -/
theorem test_record : recordBytes { record 17 with bsn := 100002, payload := 1 } =
    [0x11, 0, 1, 0, 0xA2, 0x86, 1, 0, 0, 0, 0, 0, 1, 0, 0, 0] := by decide +kernel
/-- Ch. 15: the alert packet that carries it begins A5 5F FF 00 14 00 11 02. -/
theorem test_alert : (alertBytes act { record 17 with bsn := 100002, payload := 1 } false).take 8 =
    [0xA5, 0x5F, 0xFF, 0, 0x14, 0, 0x11, 2] := by decide +kernel
/-- No row of the opcode table gives bits. -/
theorem test_no_word : decodeTableWord 16 0x5A00 = none := by decide

/-! ## Witnesses of the statements -/

theorem witness_StepRunsTheFrontCommand :
    ∃ (s : State) (c : Instr) (rest : List Instr), s.pending = c :: rest :=
  ⟨{ act with pending := [.busFree] }, .busFree, [], by decide +kernel⟩

theorem witness_IdleStepPassesTime :
    (∃ (s : State), s.pending = [] ∧ counting (mapApply s) = false) ∧
    (∃ (s : State), s.pending = [] ∧ counting (mapApply s) = true ∧ modeHigh (mapApply s) = true ∧ 294912 ≤ (mapApply
      s).cycle + 1) ∧
    (∃ (s : State), s.pending = [] ∧ counting (mapApply s) = true ∧ modeHigh (mapApply s) = true ∧ (mapApply s).cycle
      + 1 < 294912 ∧ ((mapApply s).cycle + 1) % 12288 ≠ 0) ∧
    (∃ (s : State), s.pending = [] ∧ counting (mapApply s) = true ∧ modeHigh (mapApply s) = true ∧ (mapApply s).cycle
      + 1 < 294912 ∧ ((mapApply s).cycle + 1) % 12288 = 0) ∧
    (∃ (s : State), s.pending = [] ∧ counting (mapApply s) = true ∧ modeHigh (mapApply s) = true ∧ (mapApply s).cycle
      + 1 < 294912 ∧ ((mapApply s).cycle + 1) % 12288 ≠ 0 ∧ (mapApply s).drover.coming = [] ∧ (mapApply
      s).health.inject = []) ∧
    (∃ (s : State), s.pending = [] ∧ counting (mapApply s) = true ∧ modeHigh (mapApply s) = false ∧ (mapApply
      s).clock.shipTick = true) ∧
    (∃ (s : State), s.pending = [] ∧ counting (mapApply s) = true ∧ modeHigh (mapApply s) = false ∧ 294912 ≤ (mapApply
      s).cycle + 1536) ∧
    (∃ (s : State), s.pending = [] ∧ counting (mapApply s) = true ∧ modeHigh (mapApply s) = false ∧ (mapApply
      s).clock.shipTick = false ∧ (mapApply s).cycle + 1536 < 294912) ∧
    (∃ (s : State), s.pending = [] ∧ s.mapDue = []) ∧
    (∃ (s : State), s.pending = [] ∧ s.health.inject = []) :=
  ⟨⟨State.reset, by decide +kernel⟩,
   ⟨{ act with cycle := 294911 }, by decide +kernel⟩,
   ⟨act, by decide +kernel⟩,
   ⟨{ act with cycle := 12287 }, by decide +kernel⟩,
   ⟨act, by decide +kernel⟩,
   ⟨{ low with clock := { shipTick := true } }, by decide +kernel⟩,
   ⟨{ low with cycle := 293376 }, by decide +kernel⟩,
   ⟨low, by decide +kernel⟩,
   ⟨act, by decide +kernel⟩,
   ⟨act, by decide +kernel⟩⟩

theorem witness_BsnCountsBlocks :
    (∃ (s : State), counting s = true) ∧
    (∃ (code : Nat), 2 ≤ code ∧ code ≤ 6) ∧
    (∃ (s : State), inShip s = false) ∧
    (∃ (s : State) (rails : Byte), inShip s = false ∧ Nat.land rails.toNat (railMask s) ≠ 0) ∧
    (∃ (s : State) (q : Request), heard s q 0x04 = true ∧ q.payload = []) ∧
    (∃ (s : State) (c : Fin 7), wakeMasked (if c.val = 5 then chargerTo s s.power.wake.chgPol else s) c = true ∧
      inShip s = true) ∧
    (∃ (s : State) (c : _) (t : _), exec c s = .next t) :=
  ⟨⟨act, by decide +kernel⟩,
   ⟨2, by decide +kernel⟩,
   ⟨act, by decide +kernel⟩,
   ⟨act, 1#8, by decide +kernel⟩,
   ⟨svc, cmd [], by decide +kernel⟩,
   ⟨ship, 1, by decide +kernel⟩,
   ⟨act, .busFree, _, rfl⟩⟩

theorem witness_StepKeepsSound :
    ∃ (s : State) (t : State), s.Sound ∧ step s = .next t :=
  ⟨State.reset, State.reset, (by constructor <;> decide +kernel), rfl⟩

theorem witness_PacketsRunTheirOpcode :
    (∃ (s : State) (q : Request) (op : Nat) (rest : List Byte), op < 256 ∧ q.payload.length ≤ 4096 ∧ (getPort s
      q.port).rx = packetOf op q ++ rest) ∧
    (∃ (s : State) (q : Request) (op : Nat) (rest : List Byte) (i : _), op < 256 ∧ q.payload.length ≤ 4096 ∧ (getPort
      s q.port).rx = packetOf op q ++ rest ∧ opcodeRow op q = some i) ∧
    (∃ (s : State) (q : Request) (op : Nat) (rest : List Byte), op < 256 ∧ q.payload.length ≤ 4096 ∧ (getPort s
      q.port).rx = packetOf op q ++ rest ∧ opcodeRow op q = none) ∧
    (∃ (s : State) (q : Request) (op : Nat) (rest : List Byte), op < 256 ∧ q.payload.length ≤ 4096 ∧ (getPort s
      q.port).rx = packetOf op q ++ rest ∧ opcodeRow op q = none ∧ canTake (modPort s q.port
      (fun v => { v with rx := rest })) q = true) :=
  ⟨⟨received (packetOf 0 (cmd [])) act, cmd [], 0, [], by decide +kernel⟩,
   ⟨received (packetOf 0 (cmd [])) act, cmd [], 0, [], .ping (cmd []), by decide +kernel⟩,
   ⟨received (packetOf 0x0F (cmd [])) act, cmd [], 0x0F, [], by decide +kernel⟩,
   ⟨received (packetOf 0xFF (cmd [])) act, cmd [], 0xFF, [], by decide +kernel⟩⟩

theorem witness_AcceptanceStepsInOrder :
    (∃ (s : State) (q : Request) (op : Nat) (i : Instr), opcodeRow op q = some i ∧ portOpen s q.port = false) ∧
    (∃ (s : State) (q : Request) (op : Nat) (i : Instr), opcodeRow op q = some i ∧ portOpen s q.port = true ∧ tagHeld
      s q.port q.tag = true) ∧
    (∃ (s : State) (q : Request) (op : Nat) (i : Instr) (c : _), opcodeRow op q = some i ∧ canTake s q = true ∧
      opClass op = some c ∧ (getPort s q.port).cls < c) ∧
    (∃ (s : State) (q : Request) (op : Nat) (i : Instr) (c : _) (n : _), opcodeRow op q = some i ∧ canTake s q = true
      ∧ opClass op = some c ∧ c ≤ (getPort s q.port).cls ∧ fixedLength op = some n ∧ q.payload.length ≠ n) ∧
    (∃ (s : State) (q : Request) (op : Nat) (i : Instr) (c : _) (n : _), opcodeRow op q = some i ∧ canTake s q = true
      ∧ opClass op = some c ∧ c ≤ (getPort s q.port).cls ∧ fixedLength op = some n ∧ q.payload.length = n ∧ modeLow s
      = true ∧ lowRefused op = true) :=
  ⟨⟨State.reset, cmd [], 0, .ping (cmd []), by decide +kernel⟩,
   ⟨waiting [{ held .none with tag := 7 }] act, cmd [], 0, .ping (cmd []), by decide +kernel⟩,
   ⟨act, cmd [], 0xF0, .svcRawRead (cmd []), 3, by decide +kernel⟩,
   ⟨act, cmd [0], 0x01, .identify (cmd [0]), 0, 0, by decide +kernel⟩,
   ⟨low, cmd [0, 0, 0, 0, 0, 0, 0, 0], 0x63, .pstageStop (cmd [0, 0, 0, 0, 0, 0, 0, 0]), 1, 8, by decide +kernel⟩⟩

theorem witness_ReservedSlotAnswersBusy :
    (∃ (s : State) (q : Request) (op : Nat), op < 256 ∧ portOpen s q.port = true ∧ tagHeld s q.port q.tag = false ∧
      (getPort s q.port).outstanding.length = 32 ∧ (getPort s q.port).replies.any (fun r => r.reserved) = false) ∧
    (∃ (s : State) (q : Request) (op : Nat), op < 256 ∧ portOpen s q.port = true ∧ tagHeld s q.port q.tag = false ∧
      (getPort s q.port).outstanding.length = 32 ∧ (getPort s q.port).replies.any (fun r => r.reserved) = true) ∧
    (∃ (s : State) (p : PortId) (head : List Byte), (getPort s p).rx = 0x5A#8 :: head ∧ 5 ≤ head.length ∧ 4096 <
      (leField (0x5A#8 :: head) 4 2) ∧ (getPort s p).replies.any (fun r => r.reserved) = false) ∧
    (∃ (s : State) (p : PortId) (head : List Byte), (getPort s p).rx = 0x5A#8 :: head ∧ 5 ≤ head.length ∧ 4096 <
      (leField (0x5A#8 :: head) 4 2) ∧ (getPort s p).replies.any (fun r => r.reserved) = true) ∧
    (∃ (s : State) (p : PortId) (head : List Byte), (getPort s p).rx = 0x5A#8 :: head ∧ 5 ≤ head.length ∧ (leField
      (0x5A#8 :: head) 4 2) ≤ 4096 ∧ (leField (0x5A#8 :: head) 4 2) + 9 ≤ head.length ∧ crc32c (head.take ((leField
      (0x5A#8 :: head) 4 2) + 5)) ≠ leField head (5 + (leField (0x5A#8 :: head) 4 2)) 4 ∧ (getPort s p).replies.any
      (fun r => r.reserved) = false) ∧
    (∃ (s : State) (p : PortId) (head : List Byte), (getPort s p).rx = 0x5A#8 :: head ∧ 5 ≤ head.length ∧ (leField
      (0x5A#8 :: head) 4 2) ≤ 4096 ∧ (leField (0x5A#8 :: head) 4 2) + 9 ≤ head.length ∧ crc32c (head.take ((leField
      (0x5A#8 :: head) 4 2) + 5)) ≠ leField head (5 + (leField (0x5A#8 :: head) 4 2)) 4 ∧ (getPort s p).replies.any
      (fun r => r.reserved) = true) :=
  ⟨⟨waiting (List.replicate 32 (held .none)) act, cmd [], 0, by decide +kernel⟩,
   ⟨replied [⟨0, 7, .ok, [], true, none⟩] (waiting (List.replicate 32 (held .none)) act), cmd [], 0xFF,
     by decide +kernel⟩,
   ⟨received [0x5A, 0, 1, 0, 1, 0x10] act, .spi, [0, 1, 0, 1, 0x10], by decide +kernel⟩,
   ⟨replied [⟨0, 7, .ok, [], true, none⟩] (received [0x5A, 0, 1, 0, 1, 0x10] act), .spi, [0, 1, 0, 1, 0x10],
     by decide +kernel⟩,
   ⟨received [0x5A, 0, 1, 0, 0, 0, 0, 0, 0, 0] act, .spi, [0, 1, 0, 0, 0, 0, 0, 0, 0], by decide +kernel⟩,
   ⟨replied [⟨0, 7, .ok, [], true, none⟩] (received [0x5A, 0, 1, 0, 0, 0, 0, 0, 0, 0] act), .spi, [0, 1, 0, 0, 0, 0,
     0, 0, 0], by decide +kernel⟩⟩

theorem witness_RequestedBsnResolution :
    (∃ (s : State) (q : Request), q.payload.length = 16 ∧ heard s q 0x14 = true ∧ bit (pay8 q 1) 0 = true ∧ 2 ^ 32 ≤
      ((payBsn q 8) - ((if s.cycle + 32768 ≤ 294912 then s.bsn + 1#40 else s.bsn + 2#40) - 1#40)).toNat ∧ ((payBsn q
      8) - ((if s.cycle + 32768 ≤ 294912 then s.bsn + 1#40 else s.bsn + 2#40) - 1#40)).toNat < 2 ^ 39) ∧
    (∃ (s : State) (q : Request), q.payload.length = 16 ∧ heard s q 0x14 = true ∧ bit (pay8 q 1) 0 = true ∧ 2 ^ 39 ≤
      ((payBsn q 8) - ((if s.cycle + 32768 ≤ 294912 then s.bsn + 1#40 else s.bsn + 2#40) - 1#40)).toNat ∧ bit (pay8 q
      1) 1 = true) ∧
    (∃ (s : State) (q : Request) (c : _), q.payload.length = 16 ∧ heard s q 0x14 = true ∧ bit (pay8 q 1) 0 = true ∧
      ((((payBsn q 8) - ((if s.cycle + 32768 ≤ 294912 then s.bsn + 1#40 else s.bsn + 2#40) - 1#40)).toNat < 2 ^ 32 ∧ c
      = (payBsn q 8)) ∨ (2 ^ 39 ≤ ((payBsn q 8) - ((if s.cycle + 32768 ≤ 294912 then s.bsn + 1#40 else s.bsn + 2#40) -
      1#40)).toNat ∧ bit (pay8 q 1) 1 = false ∧ c = ((if s.cycle + 32768 ≤ 294912 then s.bsn + 1#40 else s.bsn + 2#40)
      - 1#40))) ∧ pay8 q 0 ≤ 7 ∧ bit (pay8 q 1) 2 = false ∧ (hamperAt s (pay8 q 0)).phase = .opened ∧ mayUse s q
      (hamperAt s (pay8 q 0)) = true ∧ opsHold s (hamperAt s (pay8 q 0)).slot (wordEntries (hamperAt s (pay8 q
      0)).entries) = true) ∧
    (∃ (s : State) (q : Request), q.payload.length = 16 ∧ heard s q 0x23 = true ∧ bit (pay8 q 2) 0 = true ∧ 2 ^ 32 ≤
      ((payBsn q 8) - (s.bsn + BitVec.ofNat 40 (1 + if pay8 q 1 = 1 then 4 * pay16 q 4 else 0))).toNat ∧ ((payBsn q 8)
      - (s.bsn + BitVec.ofNat 40 (1 + if pay8 q 1 = 1 then 4 * pay16 q 4 else 0))).toNat < 2 ^ 39) ∧
    (∃ (s : State) (q : Request), q.payload.length = 16 ∧ heard s q 0x23 = true ∧ bit (pay8 q 2) 0 = true ∧ 2 ^ 39 ≤
      ((payBsn q 8) - (s.bsn + BitVec.ofNat 40 (1 + if pay8 q 1 = 1 then 4 * pay16 q 4 else 0))).toNat ∧ bit (pay8 q
      2) 1 = true) ∧
    (∃ (s : State) (q : Request) (n : _), q.payload.length = 16 ∧ heard s q 0x23 = true ∧ bit (pay8 q 2) 0 = true ∧
      ((((payBsn q 8) - (s.bsn + BitVec.ofNat 40 (1 + if pay8 q 1 = 1 then 4 * pay16 q 4 else 0))).toNat < 2 ^ 32 ∧ n
      = (payBsn q 8)) ∨ (2 ^ 39 ≤ ((payBsn q 8) - (s.bsn + BitVec.ofNat 40 (1 + if pay8 q 1 = 1 then 4 * pay16 q 4
      else 0))).toNat ∧ bit (pay8 q 2) 1 = false ∧ n = (s.bsn + BitVec.ofNat 40 (1 + if pay8 q 1 = 1 then 4 * pay16 q
      4 else 0)))) ∧ pay8 q 0 ≤ 1 ∧ (pay8 q 1 = 0 ∨ (pay8 q 1 = 1 ∧ 1 ≤ pay16 q 4 ∧ pay16 q 4 ≤ 50)) ∧ (slotAt s (pay8
      q 0)).phase = .ready ∧ s.graph.act = none ∧ (bit (pay8 q 2) 2 = true ∨ guaranteed s (slotAt s (pay8 q 0)) =
      true)) ∧
    (∃ (s : State) (q : Request), q.payload.length = 16 ∧ heard s q 0x4A = true ∧ bit (pay8 q 2) 0 = true ∧ 2 ^ 32 ≤
      ((payBsn q 8) - (s.bsn + 1#40)).toNat ∧ ((payBsn q 8) - (s.bsn + 1#40)).toNat < 2 ^ 39) ∧
    (∃ (s : State) (q : Request), q.payload.length = 16 ∧ heard s q 0x4A = true ∧ bit (pay8 q 2) 0 = true ∧ 2 ^ 39 ≤
      ((payBsn q 8) - (s.bsn + 1#40)).toNat ∧ bit (pay8 q 2) 1 = true) ∧
    (∃ (s : State) (q : Request) (b : _), q.payload.length = 16 ∧ heard s q 0x4A = true ∧ bit (pay8 q 2) 0 = true ∧
      ((((payBsn q 8) - (s.bsn + 1#40)).toNat < 2 ^ 32 ∧ b = (payBsn q 8)) ∨ (2 ^ 39 ≤ ((payBsn q 8) - (s.bsn +
      1#40)).toNat ∧ bit (pay8 q 2) 1 = false ∧ b = (s.bsn + 1#40))) ∧ pay8 q 0 ≤ 3 ∧ pay8 q 1 = 0 ∧ bit (rd s
      (.auxCfg (pay8 q 0))) 0 = true ∧ bit (rd s (.auxCfg (pay8 q 0))) 2 = false ∧ auxPorts s (pay8 q 0) = [] ∧ (auxAt
      s (pay8 q 0)).profile = true) :=
  ⟨⟨act, cmd [0, 1, 0, 0, 0, 0, 0, 0, 0, 0, 0, 0, 1, 0, 0, 0], by decide +kernel⟩,
   ⟨act, cmd [0, 3, 0, 0, 0, 0, 0, 0, 255, 255, 255, 255, 255, 0, 0, 0], by decide +kernel⟩,
   ⟨withHamper { phase := .opened }, cmd [0, 1, 0, 0, 0, 0, 0, 0, 0, 0, 0, 0, 0, 0, 0, 0], 0, by decide +kernel⟩,
   ⟨act, cmd [0, 0, 1, 0, 0, 0, 0, 0, 1, 0, 0, 0, 1, 0, 0, 0], by decide +kernel⟩,
   ⟨act, cmd [0, 0, 3, 0, 0, 0, 0, 0, 0, 0, 0, 0, 0, 0, 0, 0], by decide +kernel⟩,
   ⟨withSlot { phase := .ready, imageLen := 192 }, cmd [0, 0, 5, 0, 0, 0, 0, 0, 1, 0, 0, 0, 0, 0, 0, 0], 1,
     by decide +kernel⟩,
   ⟨act, cmd [0, 0, 1, 0, 0, 0, 0, 0, 1, 0, 0, 0, 1, 0, 0, 0], by decide +kernel⟩,
   ⟨act, cmd [0, 0, 3, 0, 0, 0, 0, 0, 0, 0, 0, 0, 0, 0, 0, 0], by decide +kernel⟩,
   ⟨wr (withAux { profile := true }) (.auxCfg 0) 1, cmd [0, 0, 1, 0, 0, 0, 0, 0, 1, 0, 0, 0, 0, 0, 0, 0], 1,
     by decide +kernel⟩⟩

theorem witness_RaisedEvents :
    (∃ (s : State) (n : Nat), (evExists n = false ∨ bit (evCfg s n) 0 = false ∨ shipMode s = true)) ∧
    (∃ (s : State), s.events.aonQueue = [] ∧ s.events.aonPend = 0) ∧
    (∃ (s : State), s.events.fifo.length + s.events.aonQueue.length ≤ 64) ∧
    (∃ (s : State) (n : Nat), evExists n = true ∧ bit (evCfg s n) 0 = true ∧ shipMode s = false) ∧
    (∃ (s : State) (n : Nat) (k : _), evExists n = true ∧ bit (evCfg s n) 0 = true ∧ shipMode s = false ∧ k < 2 ∧ bit
      (evCfg s n) (1 + k) = true) ∧
    (∃ (s : State) (n : Nat) (p : Nat) (a : List EvRecord) (y : EvRecord) (b : List EvRecord), evExists n = true ∧ bit
      (evCfg s n) 0 = true ∧ shipMode s = false ∧ evClocked s = true ∧ (drainAon s).events.fifo = a ++ y :: b ∧ (∀ z ∈
      b, z.num ≠ n) ∧ y.num = n ∧ y.payload = BitVec.ofNat 32 p ∧ y.count < 65535 ∧ y.peeked ≠ some ((s.bsn,
      s.cycle))) ∧
    (∃ (s : State) (n : Nat) (p : Nat) (a : List EvRecord) (b : List EvRecord), evExists n = true ∧ bit (evCfg s n) 0
      = true ∧ shipMode s = false ∧ evClocked s = true ∧ ((∀ y ∈ (drainAon s).events.fifo, y.num ≠ n) ∨ ∃ a y b,
      (drainAon s).events.fifo = a ++ y :: b ∧ (∀ z ∈ b, z.num ≠ n) ∧ y.num = n ∧ (y.payload ≠ BitVec.ofNat 32 p ∨
      65535 ≤ y.count ∨ y.peeked = some ((s.bsn, s.cycle)))) ∧ (drainAon s).events.fifo.length < 64 ∧ (drainAon
      s).events.fifo = a ++ b ∧ (∀ y ∈ b, y.entered = some ((s.bsn, s.cycle)) ∧ n < y.num) ∧ (∀ y, a.getLast? = some y
      → y.entered ≠ some ((s.bsn, s.cycle)) ∨ y.num ≤ n)) ∧
    (∃ (s : State) (n : Nat) (p : Nat), evExists n = true ∧ bit (evCfg s n) 0 = true ∧ shipMode s = false ∧ evClocked
      s = true ∧ ((∀ y ∈ (drainAon s).events.fifo, y.num ≠ n) ∨ ∃ a y b, (drainAon s).events.fifo = a ++ y :: b ∧ (∀ z
      ∈ b, z.num ≠ n) ∧ y.num = n ∧ (y.payload ≠ BitVec.ofNat 32 p ∨ 65535 ≤ y.count ∨ y.peeked = some ((s.bsn,
      s.cycle)))) ∧ 64 ≤ (drainAon s).events.fifo.length ∧ (∀ y, (drainAon s).events.fifo.getLast? = some y →
      y.entered ≠ some ((s.bsn, s.cycle)) ∨ y.num ≤ n)) ∧
    (∃ (s : State) (n : Nat) (p : Nat) (a : List EvRecord) (b : List EvRecord) (y : EvRecord), evExists n = true ∧ bit
      (evCfg s n) 0 = true ∧ shipMode s = false ∧ evClocked s = true ∧ ((∀ y ∈ (drainAon s).events.fifo, y.num ≠ n) ∨
      ∃ a y b, (drainAon s).events.fifo = a ++ y :: b ∧ (∀ z ∈ b, z.num ≠ n) ∧ y.num = n ∧ (y.payload ≠ BitVec.ofNat
      32 p ∨ 65535 ≤ y.count ∨ y.peeked = some ((s.bsn, s.cycle)))) ∧ 64 ≤ (drainAon s).events.fifo.length ∧ (drainAon
      s).events.fifo = a ++ b ++ [y] ∧ y.entered = some ((s.bsn, s.cycle)) ∧ n < y.num ∧ n ≠ 108 ∧ (∀ z ∈ b, z.entered
      = some ((s.bsn, s.cycle)) ∧ n < z.num) ∧ (∀ z, a.getLast? = some z → z.entered ≠ some ((s.bsn, s.cycle)) ∨ z.num
      ≤ n)) ∧
    (∃ (s : State) (n : Nat) (a : List EvRecord) (b : List EvRecord), evExists n = true ∧ bit (evCfg s n) 0 = true ∧
      shipMode s = false ∧ evClocked s = false ∧ (∀ y ∈ s.events.aonQueue, y.num ≠ n) ∧ s.events.aonQueue.length < 8 ∧
      s.events.aonQueue = a ++ b ∧ (∀ y ∈ b, y.entered = some ((s.bsn, s.cycle)) ∧ n < y.num) ∧ (∀ y, a.getLast? =
      some y → y.entered ≠ some ((s.bsn, s.cycle)) ∨ y.num ≤ n)) ∧
    (∃ (s : State) (n : Nat), evExists n = true ∧ bit (evCfg s n) 0 = true ∧ shipMode s = false ∧ evClocked s = false
      ∧ (∀ y ∈ s.events.aonQueue, y.num ≠ n) ∧ 8 ≤ s.events.aonQueue.length ∧ (∀ y, s.events.aonQueue.getLast? = some
      y → y.entered ≠ some ((s.bsn, s.cycle)) ∨ y.num ≤ n)) ∧
    (∃ (s : State) (n : Nat) (p : Nat) (a : List EvRecord) (y : EvRecord) (b : List EvRecord), evExists n = true ∧ bit
      (evCfg s n) 0 = true ∧ shipMode s = false ∧ evClocked s = false ∧ s.events.aonQueue = a ++ y :: b ∧ (∀ z ∈ b,
      z.num ≠ n) ∧ y.num = n ∧ y.payload = BitVec.ofNat 32 p ∧ y.count < 65535 ∧ y.peeked ≠ some ((s.bsn, s.cycle))) :=
  ⟨⟨ship, 1, by decide +kernel⟩,
   ⟨act, by decide +kernel⟩,
   ⟨withEvents { fifo := List.replicate 63 (record 2), aonQueue := [record 1] }, by decide +kernel⟩,
   ⟨act, 1, by decide +kernel⟩,
   ⟨wr act (.evCfgReg 1) 7, 1, 1, by decide +kernel⟩,
   ⟨withEvents { fifo := [record 1] }, 1, 0, [], record 1, [], by decide +kernel⟩,
   ⟨withEvents { fifo := List.replicate 62 (record 2) ++ [{ record 2 with entered := some (0, 0) }] }, 1, 0,
     List.replicate 62 (record 2), [{ record 2 with entered := some (0, 0) }], by decide +kernel, by decide +kernel,
     by decide +kernel, by decide +kernel, Or.inl (by decide +kernel), by decide +kernel, by decide +kernel,
     by decide +kernel, (fun y h => by rw [← Option.some.inj (show some (record 2) = some y from h)]; decide +kernel)⟩,
   ⟨withEvents { fifo := record 1 :: List.replicate 63 (record 2) }, 1, 5, by decide +kernel, by decide +kernel,
     by decide +kernel, by decide +kernel, Or.inr ⟨[], record 1, List.replicate 63 (record 2), by decide +kernel⟩,
     by decide +kernel, (fun y h => by rw [← Option.some.inj (show some (record 2) = some y from h)]; decide +kernel)⟩,
   ⟨withEvents { fifo := List.replicate 62 (record 2) ++ [{ record 2 with entered := some (0, 0) },
     { record 2 with entered := some (0, 0) }] }, 1, 5, List.replicate 62 (record 2),
     [{ record 2 with entered := some (0, 0) }], { record 2 with entered := some (0, 0) }, by decide +kernel,
     by decide +kernel, by decide +kernel, by decide +kernel, Or.inl (by decide +kernel), by decide +kernel,
     by decide +kernel, by decide +kernel, by decide +kernel, by decide +kernel, by decide +kernel,
     (fun y h => by rw [← Option.some.inj (show some (record 2) = some y from h)]; decide +kernel)⟩,
   ⟨{ low with bus := {}, events := { aonQueue := List.replicate 7 (record 2) } }, 1, List.replicate 7 (record 2), [],
     by decide +kernel, by decide +kernel, by decide +kernel, by decide +kernel, by decide +kernel, by decide +kernel,
     by decide +kernel, by decide +kernel,
     (fun y h => by rw [← Option.some.inj (show some (record 2) = some y from h)]; decide +kernel)⟩,
   ⟨{ low with bus := {}, events := { aonQueue := List.replicate 8 (record 2) } }, 1, by decide +kernel,
     by decide +kernel, by decide +kernel, by decide +kernel, by decide +kernel, by decide +kernel,
     (fun y h => by rw [← Option.some.inj (show some (record 2) = some y from h)]; decide +kernel)⟩,
   ⟨{ low with bus := {}, events := { aonQueue := [record 1] } }, 1, 0, [], record 1, [], by decide +kernel⟩⟩

theorem witness_RegisterWritesReadBack :
    ∃ (s : State) (a : Word) (v : Word) (r : Reg), s.Sound ∧ coreOn s = true ∧ paddrReg a.toNat = some r ∧ r.access =
      .rw ∧ paSpace a.toNat ≠ 2 ∧ r ≠ .drvCfg ∧ r.rangeOk s (maskTo r v.toNat) = true ∧ regsCommitOk (wr s r (maskTo r
      v.toNat)) = true ∧ stageFree s (wr s r (maskTo r v.toNat)) = true :=
  ⟨act, 0x50100005#32, 0x2710#32, .sagRel, (by constructor <;> decide +kernel), by decide +kernel⟩

theorem witness_CoolerStoresItsLanes :
    (∃ (s : State), Memory.wf s.wake.cooler = true) ∧
    (∃ (s : State), Memory.wf s.wake.cooler = true ∧ s.wake.capturing = true) ∧
    (∃ (s : State) (n : Csn) (a : _), Memory.wf s.wake.cooler = true ∧ s.wake.capturing = true ∧ (a < 10 * (n.toNat %
      32768) ∨ 10 * (n.toNat % 32768) + 10 ≤ a)) ∧
    (∃ (s : State), Memory.wf s.wake.cooler = true ∧ s.wake.capturing = false) :=
  ⟨⟨act, by decide +kernel⟩,
   ⟨withWake { capturing := true }, by decide +kernel⟩,
   ⟨withWake { capturing := true }, 0, 10, by decide +kernel⟩,
   ⟨act, by decide +kernel⟩⟩

theorem witness_SessionReadsAnswer :
    (∃ (s : State) (q : Request), heard s q 0x00 = true) ∧
    (∃ (s : State) (q : Request), heard s q 0x01 = true ∧ q.payload = []) ∧
    (∃ (s : State) (q : Request), heard s q 0x02 = true ∧ q.payload = []) ∧
    (∃ (s : State) (q : Request), heard s q 0x05 = true ∧ q.payload = []) :=
  ⟨⟨act, cmd [], by decide +kernel⟩,
   ⟨act, cmd [], by decide +kernel⟩,
   ⟨act, cmd [], by decide +kernel⟩,
   ⟨act, cmd [], by decide +kernel⟩⟩

theorem witness_HealthReadsAnswer :
    (∃ (s : State) (q : Request), heard s q 0x80 = true ∧ q.payload = []) ∧
    (∃ (s : State) (q : Request), heard s q 0x81 = true ∧ q.payload.length = 4 ∧ pay8 q 0 ≤ 63 ∧ 1 ≤ pay8 q 1 ∧ pay8 q
      0 + pay8 q 1 ≤ 64) ∧
    (∃ (s : State) (q : Request), heard s q 0x81 = true ∧ q.payload.length = 4 ∧ 64 < pay8 q 0 + pay8 q 1) ∧
    (∃ (s : State) (q : Request), heard s q 0x83 = true ∧ q.payload = []) ∧
    (∃ (s : State) (q : Request), heard s q 0x84 = true ∧ q.payload = []) :=
  ⟨⟨act, cmd [], by decide +kernel⟩,
   ⟨act, cmd [63, 1, 0, 0], by decide +kernel⟩,
   ⟨act, cmd [63, 2, 0, 0], by decide +kernel⟩,
   ⟨act, cmd [], by decide +kernel⟩,
   ⟨act, cmd [], by decide +kernel⟩⟩

theorem witness_GraphAndPortReadsAnswer :
    (∃ (s : State) (q : Request), heard s q 0x16 = true ∧ q.payload = []) ∧
    (∃ (s : State) (q : Request), heard s q 0x30 = true ∧ q.payload = []) ∧
    (∃ (s : State) (q : Request), heard s q 0x31 = true ∧ q.payload.length = 4 ∧ (pay8 q 0 = 4 ∨ pay8 q 0 = 5) ∧
      ((dport s (pay8 q 0)).state = .locked ∨ (dport s (pay8 q 0)).state = .nonpcm) ∧ (dport s (pay8 q 0)).csValid =
      true) ∧
    (∃ (s : State) (q : Request), heard s q 0x31 = true ∧ q.payload.length = 4 ∧ (pay8 q 0 = 4 ∨ pay8 q 0 = 5) ∧
      (dport s (pay8 q 0)).csValid = false) ∧
    (∃ (s : State) (q : Request), heard s q 0x32 = true ∧ q.payload = []) ∧
    (∃ (s : State) (q : Request), heard s q 0x25 = true ∧ q.payload = []) ∧
    (∃ (s : State) (q : Request), heard s q 0x26 = true ∧ q.payload = []) :=
  ⟨⟨act, cmd [], by decide +kernel⟩,
   ⟨act, cmd [], by decide +kernel⟩,
   ⟨withPort 4 { state := .locked, csValid := true } act, cmd [4, 0, 0, 0], by decide +kernel⟩,
   ⟨act, cmd [5, 0, 0, 0], by decide +kernel⟩,
   ⟨act, cmd [], by decide +kernel⟩,
   ⟨act, cmd [], by decide +kernel⟩,
   ⟨act, cmd [], by decide +kernel⟩⟩

theorem witness_DeviceReadsAnswer :
    (∃ (s : State) (q : Request), heard s q 0x40 = true ∧ q.payload = []) ∧
    (∃ (s : State) (q : Request), heard s q 0x43 = true ∧ q.payload = []) ∧
    (∃ (s : State) (q : Request), heard s q 0x48 = true ∧ q.payload = []) ∧
    (∃ (s : State) (q : Request), heard s q 0x90 = true ∧ q.payload = []) ∧
    (∃ (s : State) (q : Request), heard s q 0xA0 = true ∧ q.payload = []) ∧
    (∃ (s : State) (q : Request), heard s q 0xA2 = true ∧ q.payload = []) :=
  ⟨⟨act, cmd [], by decide +kernel⟩,
   ⟨act, cmd [], by decide +kernel⟩,
   ⟨act, cmd [], by decide +kernel⟩,
   ⟨act, cmd [], by decide +kernel⟩,
   ⟨act, cmd [], by decide +kernel⟩,
   ⟨act, cmd [], by decide +kernel⟩⟩

theorem witness_StageAndOtpReadsAnswer :
    (∃ (s : State) (q : Request), heard s q 0x60 = true ∧ q.payload = []) ∧
    (∃ (s : State) (q : Request), heard s q 0x62 = true ∧ q.payload.length = 4 ∧ pay8 q 0 ≤ 15 ∧ leads s (pay8 q 0) =
      true) ∧
    (∃ (s : State) (q : Request), heard s q 0x62 = true ∧ q.payload.length = 4 ∧ (15 < pay8 q 0 ∨ leads s (pay8 q 0) =
      false)) ∧
    (∃ (s : State) (q : Request), heard s q 0x69 = true ∧ q.payload = []) ∧
    (∃ (s : State) (q : Request), heard s q 0x70 = true ∧ q.payload = []) :=
  ⟨⟨act, cmd [], by decide +kernel⟩,
   ⟨act, cmd [14, 0, 0, 0], by decide +kernel⟩,
   ⟨act, cmd [16, 0, 0, 0], by decide +kernel⟩,
   ⟨act, cmd [], by decide +kernel⟩,
   ⟨act, cmd [], by decide +kernel⟩⟩

theorem witness_EventCommandsAnswer :
    (∃ (s : State) (q : Request), heard s q 0x50 = true ∧ q.payload = []) ∧
    (∃ (s : State) (q : Request), heard s q 0x51 = true ∧ q.payload.length = 4 ∧ 1 ≤ pay8 q 0 ∧ pay8 q 0 ≤ 64) ∧
    (∃ (s : State), s.events.lostSince = 0) ∧
    (∃ (s : State) (q : Request), heard s q 0x51 = true ∧ q.payload.length = 4 ∧ (pay8 q 0 = 0 ∨ 64 < pay8 q 0)) ∧
    (∃ (s : State) (q : Request), heard s q 0x52 = true ∧ q.payload.length = 4 ∧ pay8 q 0 ≤ 63 ∧ 1 ≤ pay8 q 1 ∧ pay8 q
      0 + pay8 q 1 ≤ 64) ∧
    (∃ (s : State) (q : Request), heard s q 0x53 = true ∧ q.payload.length = 20 ∧ bit (pay8 q 16) 0 = false) ∧
    (∃ (s : State) (q : Request), heard s q 0x53 = true ∧ q.payload.length = 20 ∧ bit (pay8 q 16) 0 = true) :=
  ⟨⟨act, cmd [], by decide +kernel⟩,
   ⟨act, cmd [64, 0, 0, 0], by decide +kernel⟩,
   ⟨act, by decide +kernel⟩,
   ⟨act, cmd [65, 0, 0, 0], by decide +kernel⟩,
   ⟨act, cmd [63, 1, 0, 0], by decide +kernel⟩,
   ⟨act, cmd [0, 0, 0, 0, 0, 0, 0, 0, 0, 0, 0, 0, 0, 0, 0, 0, 0, 0, 0, 0], by decide +kernel⟩,
   ⟨act, cmd [0, 0, 0, 0, 0, 0, 0, 0, 0, 0, 0, 0, 0, 0, 0, 0, 1, 0, 0, 0], by decide +kernel⟩⟩

theorem witness_GraphLoadingCommandsAct :
    (∃ (s : State) (q : Request), heard s q 0x20 = true ∧ q.payload.length = 8 ∧ pay8 q 0 ≤ 1 ∧ 64 ≤ pay32 q 4 ∧ pay32
      q 4 ≤ 12582912 ∧ pay32 q 4 % 32 = 0 ∧ (slotAt s (pay8 q 0)).phase ≠ .active ∧ (slotAt s (pay8 q 0)).phase ≠
      .armed ∧ (slotAt s (pay8 q 0)).checking = false ∧ bulkOn s (pay8 q 0) = false ∧ fits s (pay8 q 0) (pay32 q 4) =
      true) ∧
    (∃ (s : State) (q : Request), heard s q 0x21 = true ∧ 9 ≤ q.payload.length ∧ q.payload.length ≤ 4096 ∧ pay8 q 0 ≤
      1 ∧ pay32 q 4 % 4 = 0 ∧ (slotAt s (pay8 q 0)).phase = .loading ∧ (slotAt s (pay8 q 0)).checking = false ∧ pay32
      q 4 + (q.payload.length - 8) ≤ (slotAt s (pay8 q 0)).imageLen) ∧
    (∃ (s : State) (q : Request), heard s q 0x22 = true ∧ q.payload.length = 4 ∧ pay8 q 0 ≤ 1 ∧ (slotAt s (pay8 q
      0)).phase = .loading ∧ (slotAt s (pay8 q 0)).checking = false) ∧
    (∃ (s : State) (q : Request), heard s q 0x24 = true ∧ q.payload.length = 4 ∧ pay8 q 0 ≤ 1 ∧ ((slotAt s (pay8 q
      0)).phase = .ready ∨ (slotAt s (pay8 q 0)).phase = .loading) ∧ (slotAt s (pay8 q 0)).checking = false ∧ bulkOn s
      (pay8 q 0) = false) ∧
    (∃ (s : State) (q : Request), heard s q 0x24 = true ∧ q.payload.length = 4 ∧ pay8 q 0 ≤ 1 ∧ (slotAt s (pay8 q
      0)).phase = .empty) ∧
    (∃ (s : State) (q : Request), heard s q 0x24 = true ∧ q.payload.length = 4 ∧ pay8 q 0 ≤ 1 ∧ ((slotAt s (pay8 q
      0)).phase = .active ∨ (slotAt s (pay8 q 0)).phase = .armed)) ∧
    (∃ (s : State) (q : Request), heard s q 0x27 = true ∧ q.payload.length = 4 ∧ 1 ≤ pay16 q 0 ∧ pay16 q 0 ≤ 10000) :=
  ⟨⟨act, cmd [0, 0, 0, 0, 64, 0, 0, 0], by decide +kernel⟩,
   ⟨withSlot { phase := .loading, imageLen := 64 }, cmd [0, 0, 0, 0, 60, 0, 0, 0, 1, 2, 3, 4], by decide +kernel⟩,
   ⟨withSlot { phase := .loading, imageLen := 64 }, cmd [0, 0, 0, 0], by decide +kernel⟩,
   ⟨withSlot { phase := .loading, imageLen := 64 }, cmd [0, 0, 0, 0], by decide +kernel⟩,
   ⟨act, cmd [1, 0, 0, 0], by decide +kernel⟩,
   ⟨withSlot { phase := .active }, cmd [0, 0, 0, 0], by decide +kernel⟩,
   ⟨act, cmd [0x10, 0x27, 0, 0], by decide +kernel⟩⟩

theorem witness_GraphActivationActs :
    (∃ (s : State) (q : Request), heard s q 0x23 = true ∧ q.payload.length = 16 ∧ pay8 q 1 ≤ 1 ∧ (pay8 q 1 = 1 → 1 ≤
      pay16 q 4 ∧ pay16 q 4 ≤ 50) ∧ s.graph.act = none ∧ (bit (pay8 q 2) 0 = true → bsnResolve (payBsn q 8)
      (earliestSwitch s (pay8 q 1 == 1) (pay16 q 4)) ≠ .tooFar ∧ (bit (pay8 q 2) 1 = true → bsnResolve (payBsn q 8)
      (earliestSwitch s (pay8 q 1 == 1) (pay16 q 4)) ≠ .early)) ∧ pay8 q 0 ≤ 1 ∧ (slotAt s (pay8 q 0)).phase = .ready
      ∧ (bit (pay8 q 2) 2 = true ∨ guaranteed s (slotAt s (pay8 q 0)) = true)) ∧
    (∃ (s : State) (q : Request), heard s q 0x23 = true ∧ q.payload.length = 16 ∧ pay8 q 1 ≤ 1 ∧ (pay8 q 1 = 1 → 1 ≤
      pay16 q 4 ∧ pay16 q 4 ≤ 50) ∧ s.graph.act = none ∧ (bit (pay8 q 2) 0 = true → bsnResolve (payBsn q 8)
      (earliestSwitch s (pay8 q 1 == 1) (pay16 q 4)) ≠ .tooFar ∧ (bit (pay8 q 2) 1 = true → bsnResolve (payBsn q 8)
      (earliestSwitch s (pay8 q 1 == 1) (pay16 q 4)) ≠ .early)) ∧ pay8 q 0 = 0xFF ∧ graphActive s = true) ∧
    (∃ (s : State) (i : _) (n : _) (fade : _) (f : _) (falls : _), i ≤ 1 ∧ s.graph.slots.length = 2 ∧ s.cycle = 0 ∧
      s.bsn = n + 1#40 ∧ s.graph.act = some { slot := some i, fade := fade, f := f, n := n, falls := falls }) :=
  ⟨⟨withSlot { phase := .ready, imageLen := 192 }, cmd [0, 1, 4, 0, 50, 0, 0, 0, 0, 0, 0, 0, 0, 0, 0, 0],
     by decide +kernel⟩,
   ⟨withSlot { phase := .active }, cmd [255, 0, 0, 0, 0, 0, 0, 0, 0, 0, 0, 0, 0, 0, 0, 0], by decide +kernel⟩,
   ⟨{ act with bsn := 1, graph := { slots := [{ phase := .armed }, {}], act := some ⟨some 0, false, 0, 0, false⟩ } },
     0, 0, false, 0, false, by decide +kernel⟩⟩

theorem witness_HamperCommandsAct :
    (∃ (s : State) (q : Request) (h : _), heard s q 0x12 = true ∧ q.payload.length = 4 ∧ pay8 q 0 = 0xFF ∧
      s.params.hampers.findIdx? (fun x => x.phase == .empty) = some h) ∧
    (∃ (s : State) (q : Request) (h : _), heard s q 0x12 = true ∧ q.payload.length = 4 ∧ pay8 q 0 ≤ 1 ∧ slotLive s
      (pay8 q 0) = true ∧ s.params.hampers.findIdx? (fun x => x.phase == .empty) = some h) ∧
    (∃ (s : State) (q : Request), heard s q 0x12 = true ∧ q.payload.length = 4 ∧ pay8 q 0 = 0xFF ∧ (∀ x ∈
      s.params.hampers, x.phase ≠ .empty)) ∧
    (∃ (s : State) (q : Request), heard s q 0x13 = true ∧ countLen 8 q.payload = true ∧ pay8 q 0 ≤ 7 ∧ 1 ≤ pay16 q 2 ∧
      pay16 q 2 ≤ 511 ∧ (hamperAt s (pay8 q 0)).phase = .opened ∧ mayUse s q (hamperAt s (pay8 q 0)) = true ∧ (∀ x ∈
      payEntries q (pay16 q 2), entryFails s s true (getPort s q.port).cls (hamperAt s (pay8 q 0)).slot (wordEntries
      (hamperAt s (pay8 q 0)).entries ++ payEntries q (pay16 q 2)) x = ⟨false, false, false⟩) ∧ ((entryWords
      (payEntries q (pay16 q 2))).foldl stageOne (hamperAt s (pay8 q 0)).entries).length ≤ 4096) ∧
    (∃ (s : State) (q : Request), heard s q 0x15 = true ∧ q.payload.length = 4 ∧ pay8 q 0 ≤ 7 ∧ mayUse s q (hamperAt s
      (pay8 q 0)) = true ∧ ((hamperAt s (pay8 q 0)).phase = .opened ∨ (hamperAt s (pay8 q 0)).phase = .stale)) :=
  ⟨⟨act, cmd [255, 0, 0, 0], 0, by decide +kernel⟩,
   ⟨withSlot { phase := .ready, imageLen := 192 }, cmd [0, 0, 0, 0], 0, by decide +kernel⟩,
   ⟨{ act with params := { hampers := List.replicate 8 { phase := .opened } } }, cmd [255, 0, 0, 0],
     by decide +kernel⟩,
   ⟨withHamper { phase := .opened }, cmd [0, 0, 1, 0, 5, 0, 0x10, 0x50, 0x10, 0x27, 0, 0], by decide +kernel⟩,
   ⟨withHamper { phase := .opened }, cmd [0, 0, 0, 0], by decide +kernel⟩⟩

theorem witness_ParameterCommandsAct :
    (∃ (s : State) (q : Request), heard s q 0x14 = true ∧ q.payload.length = 16 ∧ pay8 q 0 ≤ 7 ∧ (bit (pay8 q 1) 2 =
      true → 1 ≤ pay16 q 2 ∧ pay16 q 2 ≤ 50) ∧ (bit (pay8 q 1) 0 = true → bsnResolve (payBsn q 8) (earliestCommit s -
      1#40) ≠ .tooFar ∧ (bit (pay8 q 1) 1 = true → bsnResolve (payBsn q 8) (earliestCommit s - 1#40) ≠ .early)) ∧
      (hamperAt s (pay8 q 0)).phase = .opened ∧ mayUse s q (hamperAt s (pay8 q 0)) = true ∧ opsHold s (hamperAt s
      (pay8 q 0)).slot (wordEntries (hamperAt s (pay8 q 0)).entries) = true) ∧
    (∃ (s : State) (q : Request), heard s q 0x10 = true ∧ countLen 8 q.payload = true ∧ 1 ≤ pay16 q 2 ∧ pay16 q 2 ≤ 64
      ∧ (∀ x ∈ (payEntries q (pay16 q 2)), mapClash s (payEntries q (pay16 q 2)) x = false ∧ entryFails s (rawRegs s
      ((payEntries q (pay16 q 2)).filter isImmediate)) false (getPort s q.port).cls (pay8 q 0) (payEntries q (pay16 q
      2)) x = ⟨false, false, false⟩) ∧ ((payEntries q (pay16 q 2)).filter (fun x => !isImmediate x)) = []) ∧
    (∃ (s : State) (q : Request), heard s q 0x10 = true ∧ countLen 8 q.payload = true ∧ 1 ≤ pay16 q 2 ∧ pay16 q 2 ≤ 64
      ∧ (∀ x ∈ (payEntries q (pay16 q 2)), mapClash s (payEntries q (pay16 q 2)) x = false ∧ entryFails s (rawRegs s
      ((payEntries q (pay16 q 2)).filter isImmediate)) false (getPort s q.port).cls (pay8 q 0) (payEntries q (pay16 q
      2)) x = ⟨false, false, false⟩) ∧ ((payEntries q (pay16 q 2)).filter (fun x => !isImmediate x)) ≠ []) ∧
    (∃ (s : State) (q : Request), heard s q 0x11 = true ∧ countLen 4 q.payload = true ∧ 1 ≤ pay16 q 2 ∧ pay16 q 2 ≤ 64
      ∧ (∀ a ∈ (List.range (pay16 q 2)).map (fun i => pay32 q (4 + 4 * i)), readFails s (getPort s q.port).cls (pay8 q
      0) a = ⟨false, false, false⟩)) :=
  ⟨⟨withHamper { phase := .opened }, cmd [0, 0, 0, 0, 0, 0, 0, 0, 0, 0, 0, 0, 0, 0, 0, 0], by decide +kernel⟩,
   ⟨act, cmd [255, 0, 1, 0, 0, 240, 4, 0x90, 3, 0, 0, 0], by decide +kernel⟩,
   ⟨act, cmd [255, 0, 1, 0, 5, 0, 0x10, 0x50, 0x10, 0x27, 0, 0], by decide +kernel⟩,
   ⟨act, cmd [255, 0, 1, 0, 5, 0, 0x10, 0x50], by decide +kernel⟩⟩

theorem witness_SessionCommandsAct :
    (∃ (s : State) (q : Request) (p : PortId) (o : Outstanding), heard s q 0x03 = true ∧ q.payload.length = 4 ∧ (pay8
      q 1 = 0xFF ∧ p = q.port ∨ portOf (pay8 q 1) = some p) ∧ (p = q.port ∨ 2 ≤ (getPort s q.port).cls) ∧ (getPort s
      p).outstanding.find? (fun x => x.tag == BitVec.ofNat 8 (pay8 q 0)) = some o ∧ o.seq < s.seq ∧ abortable s o =
      true) ∧
    (∃ (s : State) (q : Request) (p : PortId) (o : Outstanding), heard s q 0x03 = true ∧ q.payload.length = 4 ∧ (pay8
      q 1 = 0xFF ∧ p = q.port ∨ portOf (pay8 q 1) = some p) ∧ (getPort s p).outstanding.find?
      (fun x => x.tag == BitVec.ofNat 8 (pay8 q 0)) = some o ∧ o.seq < s.seq ∧ abortable s o = false) ∧
    (∃ (s : State) (q : Request) (p : PortId), heard s q 0x03 = true ∧ q.payload.length = 4 ∧ (pay8 q 1 = 0xFF ∧ p =
      q.port ∨ portOf (pay8 q 1) = some p) ∧ (getPort s p).outstanding.any
      (fun o => o.tag == BitVec.ofNat 8 (pay8 q 0)) = false ∧ BitVec.ofNat 8 (pay8 q 0) ≠ q.tag) ∧
    (∃ (o : Outstanding) (b : _) (f : _) (n : _), o.job = .svcRaw b f n) ∧
    (∃ (o : Outstanding) (i : _), o.job = .graphEnd i) ∧
    (∃ (s : State) (o : Outstanding) (a : _) (i : _), o.job = .graphActivate ∧ s.graph.act = some a ∧ a.slot = some i) ∧
    (∃ (s : State) (q : Request), heard s q 0x04 = true ∧ q.payload = []) ∧
    (∃ (s : State) (q : Request), heard s q 0x06 = true ∧ q.payload.length = 4 ∧ pay8 q 0 ≤ 3 ∧ pay8 q 1 ≤ 3 ∧ pay8 q
      2 ≤ 3 ∧ (pay8 q 0 = 3 ∨ pay8 q 1 = 3 ∨ pay8 q 2 = 3 → serviceOn s = true) ∧ (2 ≤ pay8 q 0 ∨ 2 ≤ pay8 q 1 ∨ 2 ≤
      pay8 q 2) ∧ bit s.otp.locks 0 = false) ∧
    (∃ (s : State) (q : Request), heard s q 0x06 = true ∧ q.payload.length = 4 ∧ (3 < pay8 q 0 ∨ 3 < pay8 q 1 ∨ 3 <
      pay8 q 2 ∨ pay8 q 0 ≤ 1 ∧ pay8 q 1 ≤ 1 ∧ pay8 q 2 ≤ 1)) ∧
    (∃ (s : State) (q : Request), heard s q 0x06 = true ∧ q.payload.length = 4 ∧ pay8 q 0 ≤ 2 ∧ pay8 q 1 ≤ 2 ∧ pay8 q
      2 ≤ 2 ∧ (pay8 q 0 = 2 ∨ pay8 q 1 = 2 ∨ pay8 q 2 = 2) ∧ bit s.otp.locks 0 = true) :=
  ⟨⟨queuedChange, cmd [8, 255, 0, 0], .spi, held .powerMode, by decide +kernel⟩,
   ⟨{ waiting [held .otp] act with seq := 1 }, cmd [8, 255, 0, 0], .spi, held .otp, by decide +kernel⟩,
   ⟨act, cmd [9, 255, 0, 0], .spi, by decide +kernel⟩,
   ⟨held (.svcRaw 0 0 1), 0, 0, 1, by decide +kernel⟩,
   ⟨held (.graphEnd 0), 0, by decide +kernel⟩,
   ⟨{ act with graph := { slots := [{ phase := .armed }, {}], act := some ⟨some 0, false, 0, 0, false⟩ } }, held
     .graphActivate, ⟨some 0, false, 0, 0, false⟩, 0, by decide +kernel⟩,
   ⟨act, cmd [], by decide +kernel⟩,
   ⟨act, cmd [2, 2, 2, 0], by decide +kernel⟩,
   ⟨act, cmd [1, 1, 1, 0], by decide +kernel⟩,
   ⟨withOtp { locks := 1 }, cmd [2, 2, 2, 0], by decide +kernel⟩⟩

theorem witness_DeviceCommandsAct :
    (∃ (s : State) (q : Request), heard s q 0x33 = true ∧ q.payload.length = 4 ∧ pay8 q 0 ≤ 6 ∧ portEn s (pay8 q 0) =
      true ∧ portIs s (pay8 q 0) .acquire = true) ∧
    (∃ (s : State) (q : Request), heard s q 0x33 = true ∧ q.payload.length = 4 ∧ pay8 q 0 ≤ 6 ∧ portEn s (pay8 q 0) =
      true ∧ portIs s (pay8 q 0) .acquire = false ∧ (portSounds s (pay8 q 0) = true ∨ (dport s (pay8 q 0)).next.isSome
      = true)) ∧
    (∃ (s : State) (q : Request), heard s q 0x33 = true ∧ q.payload.length = 4 ∧ pay8 q 0 ≤ 6 ∧ portEn s (pay8 q 0) =
      true ∧ portIs s (pay8 q 0) .acquire = false ∧ portSounds s (pay8 q 0) = false ∧ (dport s (pay8 q 0)).next =
      none) ∧
    (∃ (s : State) (q : Request), heard s q 0x33 = true ∧ q.payload.length = 4 ∧ pay8 q 0 ≤ 6 ∧ portEn s (pay8 q 0) =
      false) ∧
    (∃ (s : State) (q : Request), heard s q 0x49 = true ∧ q.payload = [] ∧ s.clock.state ≠ .off) ∧
    (∃ (s : State), s.clock.state ≠ .off) ∧
    (∃ (s : State) (q : Request), heard s q 0x49 = true ∧ q.payload = [] ∧ s.clock.state = .off) ∧
    (∃ (s : State) (q : Request), heard s q 0x4A = true ∧ q.payload.length = 16 ∧ pay8 q 0 ≤ 3 ∧ pay8 q 1 ≤ 1 ∧ (bit
      (pay8 q 2) 0 = true → bsnResolve (payBsn q 8) (s.bsn + 1#40) ≠ .tooFar ∧ (bit (pay8 q 2) 1 = true → bsnResolve
      (payBsn q 8) (s.bsn + 1#40) ≠ .early)) ∧ (((pay8 q 1 == 1)) = true → auxSegments s (pay8 q 0) ≠ [] ∧ (carrierOn
      s (pay8 q 0) = true → ∀ k ∈ auxSegments s (pay8 q 0), carrierOk s (pay8 q 0) (toSigned 32 (rd s (.segOfs (pay8 q
      0) k))) = true)) ∧ bit (rd s (.auxCfg (pay8 q 0))) 0 = true ∧ bit (rd s (.auxCfg (pay8 q 0))) 2 = false ∧
      auxPorts s (pay8 q 0) = [] ∧ (auxAt s (pay8 q 0)).profile ≠ ((pay8 q 1 == 1))) ∧
    (∃ (s : State) (q : Request), heard s q 0x41 = true ∧ q.payload.length = 4 ∧ modeOf (pay8 q 0) = some s.power.mode
      ∧ s.power.change = none ∧ (modeCode s.power.mode < 3 → otpOutstanding s = false ∧ s.otp.openGen = none)) ∧
    (∃ (s : State) (q : Request) (m : _), heard s q 0x41 = true ∧ q.payload.length = 4 ∧ modeOf (pay8 q 0) = some m ∧
      s.power.change = none ∧ (modeCode m < 3 → otpOutstanding s = false ∧ s.otp.openGen = none) ∧ m ≠ s.power.mode ∧
      changeSteps s.power.mode m ≠ [.d3]) ∧
    (∃ (s : State) (q : Request) (m : _), heard s q 0x41 = true ∧ q.payload.length = 4 ∧ modeOf (pay8 q 0) = some m ∧
      s.power.change = none ∧ (modeCode m < 3 → otpOutstanding s = false ∧ s.otp.openGen = none) ∧ m ≠ s.power.mode ∧
      changeSteps s.power.mode m = [.d3]) ∧
    (∃ (s : State) (m : _), changeSteps s.power.mode m ≠ [] ∧ (changeSteps s.power.mode m).head? ≠ some .a1) ∧
    (∃ (s : State) (q : Request), heard s q 0x42 = true ∧ q.payload = []) ∧
    (∃ (s : State) (q : Request), heard s q 0x42 = true ∧ q.payload.length = 8 ∧ Nat.land (pay8 q 0) 0x1D = pay8 q 0 ∧
      pay8 q 1 ≤ 0x3F ∧ (pay8 q 2 = 3 ∨ pay8 q 2 = 4) ∧ 2 ≤ pay8 q 3) ∧
    (∃ (s : State) (q : Request), heard s q 0x42 = true ∧ q.payload.length = 8 ∧ (Nat.land (pay8 q 0) 0x1D ≠ pay8 q 0
      ∨ 0x3F < pay8 q 1 ∨ pay8 q 2 ≠ 3 ∧ pay8 q 2 ≠ 4 ∨ pay8 q 3 < 2)) :=
  ⟨⟨wr (withPort 0 { state := .acquire } act) (.tpCfg 0) 1, cmd [0, 0, 0, 0], by decide +kernel⟩,
   ⟨wr (withPort 0 { state := .locked, next := some .acquire } act) (.tpCfg 0) 1, cmd [0, 0, 0, 0], by decide +kernel⟩,
   ⟨wr (withPort 0 { state := .noClock } act) (.tpCfg 0) 1, cmd [0, 0, 0, 0], by decide +kernel⟩,
   ⟨act, cmd [6, 0, 0, 0], by decide +kernel⟩,
   ⟨withClock { state := .freerun }, cmd [], by decide +kernel⟩,
   ⟨withClock { state := .freerun }, by decide +kernel⟩,
   ⟨act, cmd [], by decide +kernel⟩,
   ⟨wr (withAux { profile := true }) (.auxCfg 0) 1, cmd [0, 0, 0, 0, 0, 0, 0, 0, 0, 0, 0, 0, 0, 0, 0, 0],
     by decide +kernel⟩,
   ⟨act, cmd [4, 0, 0, 0], by decide +kernel⟩,
   ⟨up .idle, cmd [4, 0, 0, 0], .active, by decide +kernel⟩,
   ⟨low, cmd [0, 0, 0, 0], .ship, by decide +kernel⟩,
   ⟨act, .idle, by decide +kernel⟩,
   ⟨act, cmd [], by decide +kernel⟩,
   ⟨act, cmd [0x1D, 0x3F, 3, 2, 0, 0, 0, 0], by decide +kernel⟩,
   ⟨act, cmd [2, 0, 3, 2, 0, 0, 0, 0], by decide +kernel⟩⟩

theorem witness_StageCommandsAct :
    (∃ (s : State) (q : Request), heard s q 0x61 = true ∧ q.payload.length = 4) ∧
    (∃ (s : State) (q : Request), heard s q 0x63 = true ∧ q.payload.length = 8 ∧ (∀ c ∈ ledBy s (pay32 q 0), (chan
      ((ledBy s (pay32 q 0)).foldl (stopChan (bit (pay8 q 4) 0)) s) c).state = .off)) ∧
    (∃ (s : State) (q : Request), heard s q 0x63 = true ∧ q.payload.length = 8 ∧ (∃ c ∈ ledBy s (pay32 q 0), (chan
      ((ledBy s (pay32 q 0)).foldl (stopChan (bit (pay8 q 4) 0)) s) c).state ≠ .off)) ∧
    (∃ (s : State) (q : Request), heard s q 0x68 = true ∧ q.payload.length = 4 ∧ ((List.range 16).filter
      (fun h => bit (pay16 q 0) h && leads s h)) ≠ [] ∧ pay8 q 2 % 4 ≠ 0 ∧ ((((List.range 16).filter
      (fun h => bit (pay16 q 0) h && leads s h)).filter (fun h => running (chan s h))) = [] ∨ bit (pay8 q 3) 0 = true)
      ∧ s.power.mode = .active ∧ leavingActive s = false ∧ s.stage.stage = .available ∧ s.diag.state = .idle ∧
      s.diag.bootDue = false) ∧
    (∃ (s : State) (q : Request), heard s q 0x68 = true ∧ q.payload.length = 4 ∧ ((List.range 16).filter
      (fun h => bit (pay16 q 0) h && leads s h)) ≠ [] ∧ pay8 q 2 % 4 ≠ 0 ∧ (s.power.mode ≠ .active ∨ leavingActive s =
      true ∨ s.stage.stage ≠ .available ∨ s.diag.state ≠ .idle ∨ s.diag.bootDue = true)) ∧
    (∃ (s : State) (q : Request), heard s q 0x68 = true ∧ q.payload.length = 4 ∧ pay16 q 0 = 0) :=
  ⟨⟨act, cmd [255, 255, 255, 255], by decide +kernel⟩,
   ⟨act, cmd [1, 0, 0, 0, 0, 0, 0, 0], by decide +kernel⟩,
   ⟨withChan { state := .play }, cmd [1, 0, 0, 0, 0, 0, 0, 0], by decide +kernel⟩,
   ⟨withChan {}, cmd [1, 0, 1, 0], by decide +kernel⟩,
   ⟨act, cmd [1, 0, 1, 0], by decide +kernel⟩,
   ⟨act, cmd [0, 0, 1, 0], by decide +kernel⟩⟩

theorem witness_OtpCommandsAct :
    (∃ (s : State) (q : Request), heard s q 0x71 = true ∧ q.payload.length = 4 ∧ 1 ≤ pay16 q 2 ∧ pay16 q 0 + pay16 q 2
      ≤ 1024) ∧
    (∃ (s : State) (q : Request), heard s q 0x71 = true ∧ q.payload.length = 4 ∧ (pay16 q 2 = 0 ∨ 1024 < pay16 q 0 +
      pay16 q 2)) ∧
    (∃ (s : State) (q : Request) (g : _), heard s q 0x72 = true ∧ q.payload = [] ∧ modeHigh s = true ∧ s.otp.openGen =
      none ∧ bit s.otp.locks 2 = false ∧ (List.range 5).find? (slotUnused s.otp) = some g) ∧
    (∃ (s : State) (q : Request) (g : _), heard s q 0x73 = true ∧ dataLen q.payload = true ∧ 1 ≤ pay16 q 0 ∧ 1 ≤ pay16
      q 2 ∧ pay16 q 0 + pay16 q 2 ≤ 126 ∧ s.otp.openGen = some g ∧ modeHigh s = true ∧ (∀ i ∈ List.range (pay16 q 2),
      plannedWord s.otp (288 + 128 * g + pay16 q 0 + i) = 0) ∧ (∃ v ∈ dataWords q (pay16 q 2), v ≠ 0)) ∧
    (∃ (s : State) (q : Request) (g : _), heard s q 0x73 = true ∧ dataLen q.payload = true ∧ 1 ≤ pay16 q 0 ∧ 1 ≤ pay16
      q 2 ∧ pay16 q 0 + pay16 q 2 ≤ 126 ∧ s.otp.openGen = some g ∧ modeHigh s = true ∧ (∀ i ∈ List.range (pay16 q 2),
      plannedWord s.otp (288 + 128 * g + pay16 q 0 + i) = 0) ∧ (∀ v ∈ dataWords q (pay16 q 2), v = 0)) ∧
    (∃ (s : State) (q : Request) (g : _), heard s q 0x74 = true ∧ q.payload.length = 4 ∧ s.otp.openGen = some g ∧
      modeHigh s = true ∧ pay32 q 0 = slotCrc (plannedWord s.otp) g) ∧
    (∃ (s : State) (q : Request) (g : _), heard s q 0x74 = true ∧ q.payload.length = 4 ∧ s.otp.openGen = some g ∧
      pay32 q 0 ≠ slotCrc (plannedWord s.otp) g) ∧
    (∃ (s : State) (q : Request) (i : _), heard s q 0x75 = true ∧ q.payload.length = 4 ∧ (pay8 q 3 % 16) ≠ 0 ∧ (∀ c ∈
      ([pay8 q 0, pay8 q 1, pay8 q 2]), c ≤ 3) ∧ (∃ c ∈ ([pay8 q 0, pay8 q 1, pay8 q 2]), 2 ≤ c) ∧ (3 ∈ ([pay8 q 0,
      pay8 q 1, pay8 q 2]) → serviceOn s = true ∧ bit (pay8 q 3 % 16) 1 = false) ∧ (bit (pay8 q 3 % 16) 0 = true → bit
      s.otp.locks 0 = false) ∧ modeHigh s = true ∧ freeLock s.otp = some i) ∧
    (∃ (s : State) (q : Request), heard s q 0x76 = true ∧ dataLen q.payload = true ∧ 128 ≤ pay16 q 0 ∧ 1 ≤ pay16 q 2 ∧
      pay16 q 0 + pay16 q 2 ≤ 256 ∧ bit s.otp.locks 3 = false ∧ modeHigh s = true ∧ (∀ i ∈ List.range (pay16 q 2),
      plannedWord s.otp (pay16 q 0 + i) = 0) ∧ (∃ v ∈ dataWords q (pay16 q 2), v ≠ 0)) ∧
    (∃ (s : State) (q : Request), heard s q 0x76 = true ∧ dataLen q.payload = true ∧ 128 ≤ pay16 q 0 ∧ 1 ≤ pay16 q 2 ∧
      pay16 q 0 + pay16 q 2 ≤ 256 ∧ bit s.otp.locks 3 = false ∧ modeHigh s = true ∧ (∀ i ∈ List.range (pay16 q 2),
      plannedWord s.otp (pay16 q 0 + i) = 0) ∧ (∀ v ∈ dataWords q (pay16 q 2), v = 0)) :=
  ⟨⟨act, cmd [255, 3, 1, 0], by decide +kernel⟩,
   ⟨act, cmd [255, 3, 2, 0], by decide +kernel⟩,
   ⟨act, cmd [], 0, by decide +kernel⟩,
   ⟨withOtp { openGen := some 0 }, cmd [125, 0, 1, 0, 1, 0, 0, 0], 0, by decide +kernel⟩,
   ⟨withOtp { openGen := some 0 }, cmd [125, 0, 1, 0, 0, 0, 0, 0], 0, by decide +kernel⟩,
   ⟨freshOtp, cmd [102, 189, 104, 152], 0, by decide, by decide, rfl, rfl, slotCrc_fresh ▸ rfl⟩,
   ⟨freshOtp, cmd [0, 0, 0, 0], 0, by decide, by decide, rfl, by rw [slotCrc_fresh]; decide⟩,
   ⟨act, cmd [2, 2, 2, 1], 0, by decide +kernel⟩,
   ⟨svc, cmd [128, 0, 1, 0, 1, 0, 0, 0], by decide +kernel⟩,
   ⟨svc, cmd [255, 0, 1, 0, 0, 0, 0, 0], by decide +kernel⟩⟩

theorem witness_HealthCommandsAct :
    (∃ (s : State) (q : Request), heard s q 0x82 = true ∧ q.payload.length = 4 ∧ pay8 q 0 ≤ 63) ∧
    (∃ (s : State) (q : Request), heard s q 0x82 = true ∧ q.payload.length = 4 ∧ pay8 q 0 = 0xFF) ∧
    (∃ (s : State) (q : Request), heard s q 0x85 = true ∧ q.payload = []) ∧
    (∃ (s : State) (q : Request), heard s q 0x85 = true ∧ q.payload.length = 12 ∧ cfgOk (cfgOf q.payload) = true) ∧
    (∃ (s : State) (q : Request), heard s q 0x85 = true ∧ q.payload.length = 12 ∧ cfgOk (cfgOf q.payload) = false) ∧
    (∃ (s : State) (q : Request) (count : _), heard s q 0x86 = true ∧ q.payload.length = 4 ∧ 1 ≤ pay8 q 0 ∧ [56, 18,
      24, 16, 16][pay8 q 0 - 1]? = some count ∧ pay8 q 1 < count ∧ (pay8 q 0 = 4 → pay8 q 2 < 8) ∧ forceInService s
      (pay8 q 0) (pay8 q 1) (pay8 q 2) = true ∧ s.health.migration = none ∧ forceBlocked s (pay8 q 0) (pay8 q 1) =
      false ∧ (bit (pay8 q 3) 0 = true → logIsFull s = false)) ∧
    (∃ (s : State) (q : Request) (count : _), heard s q 0x86 = true ∧ q.payload.length = 4 ∧ 1 ≤ pay8 q 0 ∧ [56, 18,
      24, 16, 16][pay8 q 0 - 1]? = some count ∧ pay8 q 1 < count ∧ (pay8 q 0 = 4 → pay8 q 2 < 8) ∧ (forceInService s
      (pay8 q 0) (pay8 q 1) (pay8 q 2) = false ∨ s.health.migration.isSome = true ∨ forceBlocked s (pay8 q 0) (pay8 q
      1) = true)) ∧
    (∃ (s : State) (q : Request) (count : _), heard s q 0x86 = true ∧ q.payload.length = 4 ∧ 1 ≤ pay8 q 0 ∧ [56, 18,
      24, 16, 16][pay8 q 0 - 1]? = some count ∧ pay8 q 1 < count ∧ (pay8 q 0 = 4 → pay8 q 2 < 8) ∧ forceInService s
      (pay8 q 0) (pay8 q 1) (pay8 q 2) = true ∧ s.health.migration = none ∧ forceBlocked s (pay8 q 0) (pay8 q 1) =
      false ∧ bit (pay8 q 3) 0 = true ∧ logIsFull s = true) ∧
    (∃ (s : State) (q : Request) (c : _) (k : _), heard s q 0x87 = true ∧ q.payload.length = 4 ∧ 1 ≤ pay8 q 0 ∧ pay8 q
      0 ≤ 11 ∧ faultOf (pay8 q 0) = some c ∧ unitOf (pay8 q 1) = some k ∧ k ∈ suspectKinds c ∧ pay8 q 2 < unitCount k
      ∧ unitInService s ⟨k, pay8 q 2, 0⟩ = true) ∧
    (∃ (s : State) (q : Request), heard s q 0xF0 = true ∧ q.payload.length = 8 ∧ pay8 q 0 ≤ 17 ∧ 1 ≤ pay16 q 2 ∧ pay16
      q 2 ≤ 113 ∧ pay32 q 4 + pay16 q 2 ≤ 49152) ∧
    (∃ (s : State) (q : Request) (u : UnitRef), heard s q 0xF1 = true ∧ q.payload.length = 4 ∧ (pay8 q 0 = 1 ∧ u =
      ⟨.oe, pay8 q 1, 0⟩ ∧ pay8 q 1 < 56 ∨ pay8 q 0 = 4 ∧ u = ⟨.dec, pay8 q 1, 0⟩ ∧ pay8 q 1 < 24)) :=
  ⟨⟨act, cmd [63, 0, 0, 0], by decide +kernel⟩,
   ⟨act, cmd [255, 0, 0, 0], by decide +kernel⟩,
   ⟨act, cmd [], by decide +kernel⟩,
   ⟨act, cmd [15, 16, 0xD0, 2, 255, 0, 0, 0xC0, 0, 0, 0, 0], by decide +kernel⟩,
   ⟨act, cmd [0, 0, 0, 0, 0, 0, 0, 0, 0, 0, 0, 0], by decide +kernel⟩,
   ⟨act, cmd [1, 47, 0, 0], 56, by decide +kernel⟩,
   ⟨withHealth { migration := some ⟨0, 16, 0, 0, false, 0, none, false⟩ }, cmd [1, 47, 0, 0], 56, by decide +kernel⟩,
   ⟨{ act with health := { logFull := true }, otp := { words := (List.range 32).map (fun i => (256 + i, 1#32)) } },
     cmd [1, 47, 0, 1], 56, by decide +kernel⟩,
   ⟨svc, cmd [1, 1, 0, 0], .residue, .oe, by decide +kernel⟩,
   ⟨svc, cmd [17, 0, 1, 0, 0xFF, 0xBF, 0, 0], by decide +kernel⟩,
   ⟨svc, cmd [1, 55, 0, 0], ⟨.oe, 55, 0⟩, by decide +kernel⟩⟩

theorem witness_BulkWakeAndTouchCommandsAct :
    (∃ (s : State) (q : Request), heard s q 0xB0 = true ∧ q.payload.length = 12 ∧ pay8 q 0 ≤ 1 ∧ pay8 q 1 ≤ 1 ∧ 1 ≤
      pay16 q 8 ∧ pay16 q 8 ≤ 127 ∧ slotLive s (pay8 q 0) = true ∧ bulkOk (slotAt s (pay8 q 0)).image (pay8 q 1)
      (pay16 q 2) (pay32 q 4) (pay16 q 8) = true) ∧
    (∃ (s : State) (q : Request), heard s q 0xB1 = true ∧ memWriteLen q.payload = true ∧ pay8 q 0 ≤ 1 ∧ pay8 q 1 ≤ 1 ∧
      1 ≤ pay16 q 8 ∧ pay16 q 8 ≤ 127 ∧ (slotAt s (pay8 q 0)).phase = .ready ∧ bulkOk (slotAt s (pay8 q 0)).image
      (pay8 q 1) (pay16 q 2) (pay32 q 4) (pay16 q 8) = true ∧ (pay8 q 1 = 0 → (bufEntry (slotAt s (pay8 q 0)).image
      (pay16 q 2)).kind ≠ 1 ∧ (bufEntry (slotAt s (pay8 q 0)).image (pay16 q 2)).init ≠ 0xFFFFFFFF) ∧ recheck
      (memWritten (slotAt s (pay8 q 0)).image (pay8 q 1) (pay16 q 2) (pay32 q 4) (q.payload.drop 12)).1 (memWritten
      (slotAt s (pay8 q 0)).image (pay8 q 1) (pay16 q 2) (pay32 q 4) (q.payload.drop 12)).2 (32 * pay16 q 8) = true) ∧
    (∃ (s : State) (q : Request) (newest : _) (oldest : _) (f : _) (c : _), heard s q 0x91 = true ∧ q.payload.length =
      12 ∧ 1 ≤ pay16 q 8 ∧ (pay8 q 10 % 32) ≠ 0 ∧ pay16 q 8 * ((List.range 5).filter (bit (pay8 q 10 % 32))).length *
      2 ≤ 4072 ∧ s.wake.range = some (newest, oldest) ∧ (csnReached (BitVec.ofNat 42 (leField q.payload 0 8)) oldest =
      true → f = (BitVec.ofNat 42 (leField q.payload 0 8)) ∧ c = pay16 q 8) ∧ (csnReached (BitVec.ofNat 42 (leField
      q.payload 0 8)) oldest = false → bit (pay8 q 11) 1 = true ∧ f = oldest ∧ c = if csnReached ((BitVec.ofNat 42
      (leField q.payload 0 8)) + BitVec.ofNat 42 (pay16 q 8 - 1)) oldest then (((BitVec.ofNat 42 (leField q.payload 0
      8)) + BitVec.ofNat 42 (pay16 q 8 - 1)) - oldest).toNat + 1 else 0) ∧ (bit (pay8 q 11) 0 = true → csnReached
      ((BitVec.ofNat 42 (leField q.payload 0 8)) + BitVec.ofNat 42 (pay16 q 8 - 1)) newest = true → (((BitVec.ofNat 42
      (leField q.payload 0 8)) + BitVec.ofNat 42 (pay16 q 8 - 1)) - newest).toNat ≤ 4096)) ∧
    (∃ (s : State) (q : Request), heard s q 0x91 = true ∧ q.payload.length = 12 ∧ 1 ≤ pay16 q 8 ∧ pay8 q 10 % 32 ≠ 0 ∧
      pay16 q 8 * ((List.range 5).filter (bit (pay8 q 10 % 32))).length * 2 ≤ 4072 ∧ s.wake.range = none) ∧
    (∃ (s : State) (q : Request), heard s q 0x92 = true ∧ q.payload.length = 4 ∧ pay8 q 0 % 16 ≠ 0) ∧
    (∃ (s : State) (q : Request), heard s q 0xA1 = true ∧ q.payload.length = 4 ∧ 1 ≤ pay16 q 0 ∧ pay16 q 0 ≤ 0xFFF ∧
      s.touch.scanning = true ∧ (∀ n < 12, bit (pay16 q 0) n = true → tchEn s n = true)) ∧
    (∃ (s : State) (q : Request), heard s q 0xA1 = true ∧ q.payload.length = 4 ∧ 1 ≤ pay16 q 0 ∧ pay16 q 0 ≤ 0xFFF ∧
      (s.touch.scanning = false ∨ (∃ n < 12, bit (pay16 q 0) n = true ∧ tchEn s n = false))) :=
  ⟨⟨withSlot { phase := .ready, image := [(0x20, 64#8), (0x24, 32#8)] }, cmd [0, 1, 0, 0, 0, 0, 0, 0, 1, 0, 0, 0],
     by decide +kernel⟩,
   ⟨withSlot { phase := .ready, image := [(0x20, 64#8), (0x24, 32#8)] }, cmd ([0, 1, 0, 0, 0, 0, 0, 0, 1, 0, 0, 0] ++
     List.replicate 32 5), by decide +kernel⟩,
   ⟨withWake { range := some (5, 0) }, cmd [0, 0, 0, 0, 0, 0, 0, 0, 1, 0, 1, 0], 5, 0, 0, 1, by decide +kernel⟩,
   ⟨act, cmd [0, 0, 0, 0, 0, 0, 0, 0, 151, 1, 31, 0], by decide +kernel⟩,
   ⟨act, cmd [15, 0, 0, 0], by decide +kernel⟩,
   ⟨wr (withTouch { scanning := true }) (.tchCfg 0) 1, cmd [1, 0, 0, 0], by decide +kernel⟩,
   ⟨act, cmd [255, 15, 0, 0], by decide +kernel⟩⟩

theorem witness_WaitingCommandsComplete :
    (∃ (s : State) (p : PortId) (o : Outstanding) (first : _) (count : _) (rest : _), findJobs s isOtpRead = (p, o) ::
      rest ∧ o.job = .otpRead first count) ∧
    (∃ (s : State) (p : PortId) (o : Outstanding) (b : _) (f : _) (n : _) (rest : _), findJobs s
      (fun j => (rawJob j).isSome) = (p, o) :: rest ∧ o.job = .svcRaw b f n) ∧
    (∃ (s : State) (b : _) (w : _), poisoned s b w = false ∧ flipsOf s b w = []) ∧
    (∃ (s : State) (b : _) (w : _), bankRole s b w = none ∧ s.sramClean = true) ∧
    (∃ (s : State) (p : PortId) (o : Outstanding) (first : _) (count : _) (lanes : _) (clamped : _), findJobs s
      (fetchDone s) = [(p, o)] ∧ o.job = .coolerFetch first count lanes clamped) ∧
    (∃ (s : State) (p : PortId) (o : Outstanding) (i : _) (target : _) (buf : _) (first : _) (count : _), s.cycle = 0
      ∧ findJobs s (fun j => (memJob j).isSome) = [(p, o)] ∧ o.job = .memRead i target buf first count ∧ o.bsn ≠
      s.bsn) ∧
    (∃ (s : State) (p : PortId) (o : Outstanding) (i : _) (buf : _) (first : _) (count : _), s.cycle = 0 ∧ findJobs s
      (fun j => (memJob j).isSome) = [(p, o)] ∧ o.job = .memRead i 1 buf first count ∧ o.bsn ≠ s.bsn) ∧
    (∃ (s : State) (p : PortId) (o : Outstanding) (i : _) (buf : _) (first : _) (count : _) (d : _), s.cycle = 0 ∧
      findJobs s (fun j => (memJob j).isSome) = [(p, o)] ∧ o.job = .memRead i 0 buf first count ∧ o.bsn ≠ s.bsn ∧
      (slotAt s i).phase = .active ∧ s.graph.bufs[buf]? = some d) ∧
    (∃ (s : State) (p : PortId) (o : Outstanding) (i : _) (rest : _), findJobs s isGraphEnd = (p, o) :: rest ∧ o.job =
      .graphEnd i ∧ (graphCheck (slotAt s i).image (slotAt s i).imageLen s.free).1 = 0 ∧ fits s i (footprintOf (slotAt
      s i).image) = true) ∧
    (∃ (s : State) (p : PortId) (o : Outstanding) (i : _) (rest : _), findJobs s isGraphEnd = (p, o) :: rest ∧ o.job =
      .graphEnd i ∧ (graphCheck (slotAt s i).image (slotAt s i).imageLen s.free).1 ≠ 0) ∧
    (∃ (s : State) (p : PortId) (o : Outstanding) (i : _) (rest : _) (copyFault : _), findJobs s isGraphEnd = (p, o)
      :: rest ∧ o.job = .graphEnd i ∧ (graphCheck (slotAt s i).image (slotAt s i).imageLen s.free).1 = 0 ∧ (fits s i
      (footprintOf (slotAt s i).image) = false ∨ copyFault = true)) ∧
    (∃ (s : State) (p : PortId) (o : Outstanding) (a : Fin 4) (b : _), s.cycle = 0 ∧ findJobs s
      (fun j => (profileDue s a j).isSome) = [(p, o)] ∧ o.job = .auxProfile a true b ∧ bsnReached s.bsn b = true) ∧
    (∃ (s : State) (p : PortId) (o : Outstanding) (a : Fin 4) (b : _), s.cycle = 0 ∧ findJobs s
      (fun j => (profileDue s a j).isSome) = [(p, o)] ∧ o.job = .auxProfile a false b ∧ bsnReached s.bsn b = true) ∧
    (∃ (s : State) (p : PortId) (o : Outstanding) (m : _), s.cycle = 0 ∧ findJobs s (fun j => (clearMask j).isSome) =
      [(p, o)] ∧ o.job = .pstageClear m ∧ o.bsn ≠ s.bsn) :=
  ⟨⟨waiting [held (.otpRead 0 1)] act, .spi, held (.otpRead 0 1), 0, 1, [], by decide +kernel⟩,
   ⟨waiting [held (.svcRaw 17 0 1)] act, .spi, held (.svcRaw 17 0 1), 17, 0, 1, [], by decide +kernel⟩,
   ⟨act, 0, 0, by decide +kernel⟩,
   ⟨{ act with sramClean := true }, 16, 0, by decide +kernel⟩,
   ⟨waiting [held (.coolerFetch 0 1 1 false)] (withWake { range := some (5, 0) }), .spi, held (.coolerFetch 0 1 1
     false), 0, 1, 1, false, by decide +kernel⟩,
   ⟨{ waiting [held (.memRead 0 0 0 0 1)] (withSlot { phase := .active }) with bsn := 1 }, .spi, held (.memRead 0 0 0
     0 1), 0, 0, 0, 0, 1, by decide +kernel⟩,
   ⟨{ waiting [held (.memRead 0 1 0 0 1)] (withSlot { phase := .active }) with bsn := 1 }, .spi, held (.memRead 0 1 0
     0 1), 0, 0, 0, 1, by decide +kernel⟩,
   ⟨{ waiting [held (.memRead 0 0 0 0 1)]
     { act with graph := { slots := [{ phase := .active }, {}], bufs := [.signal [] []] } } with bsn := 1 }, .spi,
     held (.memRead 0 0 0 0 1), 0, 0, 0, 1, .signal [] [], by decide +kernel⟩,
   ⟨loadedImage, .spi, held (.graphEnd 0), 0, [], by decide +kernel, rfl, congrArg Prod.fst (image_valid _),
     image_fits⟩,
   ⟨waiting [held (.graphEnd 0)] (withSlot { phase := .loading, imageLen := 64 }), .spi, held (.graphEnd 0), 0, [],
     by decide +kernel⟩,
   ⟨loadedImage, .spi, held (.graphEnd 0), 0, [], true, by decide +kernel, rfl, congrArg Prod.fst (image_valid _),
     Or.inr rfl⟩,
   ⟨waiting [held (.auxProfile 0 true 0)] act, .spi, held (.auxProfile 0 true 0), 0, 0, by decide +kernel⟩,
   ⟨waiting [held (.auxProfile 3 false 0)] act, .spi, held (.auxProfile 3 false 0), 3, 0, by decide +kernel⟩,
   ⟨{ waiting [held (.pstageClear 1)] act with bsn := 1 }, .spi, held (.pstageClear 1), 1, by decide +kernel⟩⟩

theorem witness_OtpWordsAreProgrammed :
    (∃ (s : State) (j : OtpJob) (rest : List OtpJob) (w : Nat × Word) (w2 : _) (ws : _), s.otp.jobs = j :: rest ∧
      j.words = w :: w2 :: ws ∧ j.stop = false) ∧
    (∃ (s : State) (j : OtpJob) (rest : List OtpJob) (w : Nat × Word), s.otp.jobs = j :: rest ∧ j.words = [w] ∧ j.stop
      = false ∧ (j.kind = .data ∨ j.kind = .factory)) ∧
    (∃ (s : State) (j : OtpJob) (rest : List OtpJob) (w : Nat × Word) (g : _), s.otp.jobs = j :: rest ∧ j.words = [w]
      ∧ j.stop = false ∧ j.kind = .begin g) ∧
    (∃ (s : State) (j : OtpJob) (rest : List OtpJob) (w : Nat × Word) (g : _), s.otp.jobs = j :: rest ∧ j.words = [w]
      ∧ j.stop = false ∧ j.kind = .commit g) ∧
    (∃ (s : State) (j : OtpJob) (rest : List OtpJob) (w : Nat × Word) (i : _) (cs : _) (fl : _), s.otp.jobs = j ::
      rest ∧ j.words = [w] ∧ j.stop = false ∧ j.kind = .lock i cs fl) ∧
    (∃ (s : State) (cs : _) (fl : _), s.mapDue = [.lock cs fl]) ∧
    (∃ (s : State) (cs : _) (fl : _), s.mapDue = [.lock cs fl] ∧ bit fl 0 = true ∧ bit s.otp.locks 0 = false ∧ bit fl
      1 = false) ∧
    (∃ (s : State) (cs : _) (fl : _), s.mapDue = [.lock cs fl] ∧ bit s.otp.locks 0 = true ∧ bit fl 1 = false) ∧
    (∃ (s : State) (cs : _) (fl : _), s.mapDue = [.lock cs fl] ∧ bit fl 1 = true) ∧
    (∃ (s : State) (j : OtpJob) (rest : List OtpJob) (w : Nat × Word) (v : _), s.otp.jobs = j :: rest ∧ j.words = w ::
      v ∧ j.stop = true) ∧
    (∃ (s : State) (j : OtpJob) (rest : List OtpJob) (w : Nat × Word) (v : _), s.otp.jobs = j :: rest ∧ j.words = w ::
      v ∧ j.stop = false) ∧
    (∃ (s : State) (v : _) (vs : _) (i : _), s.health.logQueue = v :: vs ∧ modeHigh s = true ∧ (List.range 32).find?
      (fun k => plannedWord s.otp (256 + k) == 0) = some i) :=
  ⟨⟨withOtp { jobs := [⟨.spi, 8, .data, [(900, 1), (901, 2)], false⟩] }, ⟨.spi, 8, .data, [(900, 1), (901, 2)],
     false⟩, [], (900, 1), (901, 2), [], by decide +kernel⟩,
   ⟨withOtp { jobs := [⟨.spi, 8, .data, [(900, 1)], false⟩] }, ⟨.spi, 8, .data, [(900, 1)], false⟩, [], (900, 1),
     by decide +kernel⟩,
   ⟨withOtp { jobs := [⟨.spi, 8, .begin 0, [(900, 1)], false⟩] }, ⟨.spi, 8, .begin 0, [(900, 1)], false⟩, [], (900,
     1), 0, by decide +kernel⟩,
   ⟨withOtp { jobs := [⟨.spi, 8, .commit 4, [(900, 1)], false⟩] }, ⟨.spi, 8, .commit 4, [(900, 1)], false⟩, [], (900,
     1), 4, by decide +kernel⟩,
   ⟨withOtp { jobs := [⟨.spi, 8, .lock 0 [2, 2, 2] 1, [(900, 1)], false⟩] }, ⟨.spi, 8, .lock 0 [2, 2, 2] 1, [(900,
     1)], false⟩, [], (900, 1), 0, [2, 2, 2], 1, by decide +kernel⟩,
   ⟨{ withOtp { locks := 0 } with mapDue := [.lock [2, 1, 0] 1] }, [2, 1, 0], 1, by decide +kernel⟩,
   ⟨{ withOtp { locks := 0 } with mapDue := [.lock [2, 1, 0] 1] }, [2, 1, 0], 1, by decide +kernel⟩,
   ⟨{ withOtp { locks := 1 } with mapDue := [.lock [2, 1, 0] 1] }, [2, 1, 0], 1, by decide +kernel⟩,
   ⟨{ withOtp { locks := 0 } with mapDue := [.lock [2, 1, 0] 2] }, [2, 1, 0], 2, by decide +kernel⟩,
   ⟨withOtp { jobs := [⟨.spi, 8, .data, [(900, 1)], true⟩] }, ⟨.spi, 8, .data, [(900, 1)], true⟩, [], (900, 1), [],
     by decide +kernel⟩,
   ⟨withOtp { jobs := [⟨.spi, 8, .data, [(900, 1)], false⟩] }, ⟨.spi, 8, .data, [(900, 1)], false⟩, [], (900, 1), [],
     by decide +kernel⟩,
   ⟨withHealth { logQueue := [5] }, 5, [], 0, by decide +kernel⟩⟩

theorem witness_SpiRowsAct :
    (∃ (s : State) (q : Request), heard s q 0x00 = true ∧ q.payload.length ≤ 4096 ∧ (getPort s q.port).rx = [] ∧
      (getPort s q.port).discarding = false) ∧
    (∃ (s : State) (q : Request), portOpen s q.port = true ∧ q.payload.length ≤ 4096 ∧ (getPort s q.port).rx = [] ∧
      (getPort s q.port).discarding = false) ∧
    (∃ (s : State) (q : Request) (r : Reply) (rest : List Reply), portsRun s = true ∧ (getPort s q.port).replies = r
      :: rest ∧ r.reserved = false ∧ r.status ≠ .accepted) ∧
    (∃ (s : State) (q : Request) (r : Reply) (rest : List Reply), portsRun s = true ∧ (getPort s q.port).replies = r
      :: rest ∧ (r.reserved = true ∨ r.status = .accepted)) ∧
    (∃ (s : State), s.bus.spiOpen = false ∧ s.power.accepting = true ∧ s.bus.ctrlClk = true) ∧
    (∃ (s : State), s.bus.spiOpen = false ∧ s.power.accepting = true ∧ s.bus.ctrlClk = false) ∧
    (∃ (s : State), s.bus.spiOpen = true ∧ s.bus.spiDead = false ∧ portsRun s = true) ∧
    (∃ (s : State) (bytes : List Byte), s.bus.spiOpen = true ∧ s.bus.spiDead = true ∧ bytes ≠ []) ∧
    (∃ (s : State) (p : PortId) (r : Reply) (rest : List Reply), (getPort s p).replies = r :: rest ∧ (getPort s
      p).taken = 0 ∧ 0 < (getPort s p).before) ∧
    (∃ (s : State) (p : PortId), (getPort s p).replies = []) ∧
    (∃ (s : State), portsRun s = true ∧ s.spi.rx = []) ∧
    (∃ (s : State), portsRun s = true) :=
  ⟨⟨act, cmd [], by decide +kernel⟩,
   ⟨act, cmd [], by decide +kernel⟩,
   ⟨replied [⟨0, 7, .ok, [], false, none⟩] act, cmd [], ⟨0, 7, .ok, [], false, none⟩, [], by decide +kernel⟩,
   ⟨replied [⟨0, 7, .accepted, [], false, none⟩] act, cmd [], ⟨0, 7, .accepted, [], false, none⟩, [],
     by decide +kernel⟩,
   ⟨act, by decide +kernel⟩,
   ⟨{ act with bus := {} }, by decide +kernel⟩,
   ⟨{ act with bus := { spiOpen := true, ctrlClk := true } }, by decide +kernel⟩,
   ⟨{ act with bus := { spiOpen := true, spiDead := true, ctrlClk := true } }, [1], by decide +kernel⟩,
   ⟨modPort (replied [⟨0, 7, .ok, [], false, none⟩] act) .spi (fun p => { p with before := 1 }), .spi, ⟨0, 7, .ok, [],
     false, none⟩, [], by decide +kernel⟩,
   ⟨act, .spi, by decide +kernel⟩,
   ⟨act, by decide +kernel⟩,
   ⟨act, by decide +kernel⟩⟩

theorem witness_TwoWireRowsAct :
    (∃ (s : State) (a : _) (p : PortId) (group : _), s.bus.target = none ∧ s.bus.controller = false ∧
      s.power.accepting = true ∧ s.bus.ctrlClk = true ∧ twNames s a false = some ⟨p, group, false⟩) ∧
    (∃ (s : State) (a : _) (p : PortId), s.bus.target = none ∧ s.bus.controller = false ∧ s.power.accepting = true ∧
      s.bus.ctrlClk = true ∧ twNames s a true = some ⟨p, false, true⟩) ∧
    (∃ (s : State), s.bus.addrA ≠ s.bus.addrB) ∧
    (∃ (s : State) (a : _) (rw : _), s.bus.target = none ∧ s.bus.controller = false ∧ s.power.accepting = true ∧
      twNames s a rw = none) ∧
    (∃ (s : State) (a : _) (rw : _), s.bus.target = none ∧ s.bus.controller = false ∧ s.power.accepting = true ∧
      s.bus.ctrlClk = false ∧ twNames s a rw ≠ none) ∧
    (∃ (s : State) (p : PortId) (group : _), s.bus.target = some ⟨p, group, false⟩) ∧
    (∃ (s : State) (p : PortId) (group : _), s.bus.target = some ⟨p, group, true⟩) ∧
    (∃ (s : State), s.bus.target = none ∧ s.bus.controller = false ∧ s.power.accepting = true) ∧
    (∃ (s : State) (b : _) (c : _), s.bus.stopAt = some (b, c) ∧ busFreeCycles s ≤ cyclesSince s b c) ∧
    (∃ (s : State) (b : _) (c : _), s.bus.busy = true ∧ s.bus.stopAt = some (b, c) ∧ cyclesSince s b c < busFreeCycles
      s) ∧
    (∃ (s : State) (p : PortId) (group : _) (rw : _), s.bus.target = some ⟨p, group, rw⟩) ∧
    (∃ (s : State), busBusy s = false ∧ s.bus.controller = false ∧ s.bus.target = none ∧ s.power.accepting = true) ∧
    (∃ (s : State), (∃ c, s.bus.target = some c)) ∧
    (∃ (s : State), busBusy s = true) :=
  ⟨⟨{ act with bus := { ctrlClk := true, addrA := 0x35, addrB := 0x36, effCfg := 0xF#32 } }, 0x35, .addrA, false,
     by decide +kernel⟩,
   ⟨{ act with bus := { ctrlClk := true, addrA := 0x35, addrB := 0x36, effCfg := 0xF#32 } }, 0x36, .addrB,
     by decide +kernel⟩,
   ⟨{ act with bus := { ctrlClk := true, addrA := 0x35, addrB := 0x36, effCfg := 0xF#32 } }, by decide +kernel⟩,
   ⟨{ act with bus := { ctrlClk := true, addrA := 0x35, addrB := 0x36, effCfg := 0xF#32 } }, 0x11, true,
     by decide +kernel⟩,
   ⟨{ act with bus := { ctrlClk := false, addrA := 0x35, addrB := 0x36, effCfg := 0xF#32 } }, 0x35, true,
     by decide +kernel⟩,
   ⟨{ act with bus := { target := some ⟨.addrA, false, false⟩ } }, .addrA, false, by decide +kernel⟩,
   ⟨{ act with bus := { target := some ⟨.addrA, false, true⟩ } }, .addrA, false, by decide +kernel⟩,
   ⟨act, by decide +kernel⟩,
   ⟨{ act with bus := { busy := true, stopAt := some (0, 0) }, bsn := 4 }, 0, 0, by decide +kernel⟩,
   ⟨{ act with bus := { busy := true, stopAt := some (0, 0), effTiming := 0xFFF#32 }, cycle := 1 }, 0, 0,
     by decide +kernel⟩,
   ⟨{ act with bus := { target := some ⟨.addrA, false, true⟩ } }, .addrA, false, true, by decide +kernel⟩,
   ⟨act, by decide +kernel⟩,
   ⟨{ act with bus := { target := some ⟨.addrA, false, false⟩ } }, _, rfl⟩,
   ⟨{ act with bus := { busy := true } }, by decide +kernel⟩⟩

theorem witness_BusClockRowsAct :
    (∃ (s : State), modeLow s = true ∧ s.bus.ctrlStart = true ∧ s.bus.ctrlClk = false ∧ s.clock.xtalFault = false) ∧
    (∃ (s : State), modeLow s = true ∧ s.bus.ctrlClk = true ∧ (∀ p ∈ allPorts, (getPort s p).outstanding = [] ∧
      (getPort s p).replies = []) ∧ usPassed s 100000 s.bus.activeAt s.bus.activeCyc = true) ∧
    (∃ (s : State), modeLow s = true ∧ s.bus.ctrlClk = true ∧ (∃ p ∈ allPorts, (getPort s p).outstanding ≠ [])) ∧
    (∃ (s : State), alertNeedsBus s = true ∧ alertEn s = true ∧ s.bus.stuck = false ∧ s.clock.xtalFault = false ∧
      s.power.accepting = true) ∧
    (∃ (s : State), alertWriting s = false ∧ s.bus.stuck = false ∧ s.clock.xtalFault = false ∧ s.power.accepting =
      true) ∧
    (∃ (s : State) (a : _), s.events.alert = some a ∧ a.phase = .writing ∧ s.bus.stuck = false ∧ s.clock.xtalFault =
      false ∧ s.power.accepting = true) ∧
    (∃ (s : State), s.bus.stuck = false ∧ s.bus.controller = false ∧ s.bus.target = none) ∧
    (∃ (s : State) (a : _) (n : _), s.events.alert = some a ∧ a.phase = .held n) ∧
    (∃ (s : State), s.bus.stuck = true ∧ s.bus.controller = false ∧ s.bus.target = none) :=
  ⟨⟨{ low with bus := { ctrlStart := true } }, by decide +kernel⟩,
   ⟨{ low with cycle := 117964800 }, by decide +kernel⟩,
   ⟨waiting [held (.otp)] low, by decide +kernel⟩,
   ⟨{ withEvents { alert := some ⟨1, [], 0, .waiting, 0, 0, 0⟩ } with bus :=
     { ctrlClk := true, effCfg := 0xF#32, effLimits := 0x00030000#32 } }, by decide +kernel⟩,
   ⟨act, by decide +kernel⟩,
   ⟨{ withEvents { alert := some ⟨1, [], 0, .writing, 0, 0, 0⟩ } with bus :=
     { ctrlClk := true, effCfg := 0xF#32, effLimits := 0x00030000#32 } }, ⟨1, [], 0, .writing, 0, 0, 0⟩,
     by decide +kernel⟩,
   ⟨act, by decide +kernel⟩,
   ⟨{ withEvents { alert := some ⟨1, [], 0, .held 3, 0, 0, 0⟩ } with bus :=
     { ctrlClk := true, effCfg := 0xF#32, effLimits := 0x00030000#32 } }, ⟨1, [], 0, .held 3, 0, 0, 0⟩, 3,
     by decide +kernel⟩,
   ⟨{ act with bus := { stuck := true } }, by decide +kernel⟩⟩

theorem witness_AlertRowsAct :
    (∃ (s : State) (i : _) (r : _), alertEn s = true ∧ s.events.alert = none ∧ alertHoldOver s = true ∧
      s.events.fifo.findIdx? alertable = some i ∧ s.events.fifo[i]? = some r) ∧
    (∃ (s : State) (a : _), alertEn s = true ∧ s.events.alert = some a ∧ a.phase = .waiting ∧ busFree s = true ∧
      s.bus.stuck = false ∧ s.power.accepting = true ∧ s.clock.xtalFault = false) ∧
    (∃ (s : State) (a : _), s.events.alert = some a ∧ a.phase = .writing) ∧
    (∃ (s : State) (a : _), s.events.alert = some a ∧ a.phase = .writing ∧ a.tries + 1 < twBits s.bus.effLimits 16 13) ∧
    (∃ (s : State) (a : _) (why : AlertFailure), s.events.alert = some a ∧ a.phase = .writing ∧ why ≠ .nack ∧ a.tries
      + 1 < twBits s.bus.effLimits 16 13) ∧
    (∃ (s : State) (a : _), s.events.alert = some a ∧ a.phase = .writing ∧ twBits s.bus.effLimits 16 13 ≤ a.tries + 1) ∧
    (∃ (s : State) (a : _) (n : _), s.events.alert = some a ∧ a.phase = .backoff n ∧ (1000 + 125 * n) * 294912 +
      a.wait * 250 ≤ cyclesSince s a.at_ a.cyc * 250) ∧
    (∃ (s : State) (a : _) (n : _), s.events.alert = some a ∧ a.phase = .backoff n ∧ cyclesSince s a.at_ a.cyc * 250 <
      (1000 + 125 * n) * 294912 + a.wait * 250) ∧
    (∃ (s : State) (a : _) (n : _), s.events.alert = some a ∧ a.phase = .held n) ∧
    (∃ (s : State), evClocked s = true) ∧
    (∃ (s : State) (r : _), s.events.aonQueue = [r] ∧ s.events.fifo.length < 64) ∧
    (∃ (s : State) (x : _), s.events.alert = some x ∧ x.phase = .waiting ∧ alertEn s = true ∧ busFree s = true ∧
      twBits s.bus.effLimits 16 13 ≤ x.tries + 1) :=
  ⟨⟨{ withEvents { fifo := [{ record 1 with due := true }] } with bus := { effCfg := 0xF#32 } }, 0,
     { record 1 with due := true }, by decide +kernel⟩,
   ⟨{ withEvents { alert := some ⟨1, [], 0, .waiting, 0, 0, 0⟩ } with bus :=
     { ctrlClk := true, effCfg := 0xF#32, effLimits := 0x00030000#32 } }, ⟨1, [], 0, .waiting, 0, 0, 0⟩,
     by decide +kernel⟩,
   ⟨{ withEvents { alert := some ⟨1, [], 0, .writing, 0, 0, 0⟩ } with bus :=
     { ctrlClk := true, effCfg := 0xF#32, effLimits := 0x00030000#32 } }, ⟨1, [], 0, .writing, 0, 0, 0⟩,
     by decide +kernel⟩,
   ⟨{ withEvents { alert := some ⟨1, [], 0, .writing, 0, 0, 0⟩ } with bus :=
     { ctrlClk := true, effCfg := 0xF#32, effLimits := 0x00030000#32 } }, ⟨1, [], 0, .writing, 0, 0, 0⟩,
     by decide +kernel⟩,
   ⟨{ withEvents { alert := some ⟨1, [], 0, .writing, 0, 0, 0⟩ } with bus :=
     { ctrlClk := true, effCfg := 0xF#32, effLimits := 0x00030000#32 } }, ⟨1, [], 0, .writing, 0, 0, 0⟩, .stretch,
     by decide +kernel⟩,
   ⟨{ withEvents { alert := some ⟨1, [], 15, .writing, 0, 0, 0⟩ } with bus :=
     { ctrlClk := true, effCfg := 0xF#32, effLimits := 0x00030000#32 } }, ⟨1, [], 15, .writing, 0, 0, 0⟩,
     by decide +kernel⟩,
   ⟨{ withEvents { alert := some ⟨1, [], 0, .backoff 0, 0, 0, 0⟩ } with bus :=
     { ctrlClk := true, effCfg := 0xF#32, effLimits := 0x00030000#32 }, bsn := 4 }, ⟨1, [], 0, .backoff 0, 0, 0, 0⟩,
     0, by decide +kernel⟩,
   ⟨{ withEvents { alert := some ⟨1, [], 0, .backoff 0, 0, 0, 0⟩ } with bus :=
     { ctrlClk := true, effCfg := 0xF#32, effLimits := 0x00030000#32 } }, ⟨1, [], 0, .backoff 0, 0, 0, 0⟩, 0,
     by decide +kernel⟩,
   ⟨{ withEvents { alert := some ⟨1, [], 0, .held 24, 0, 0, 0⟩ } with bus :=
     { ctrlClk := true, effCfg := 0xF#32, effLimits := 0x00030000#32 } }, ⟨1, [], 0, .held 24, 0, 0, 0⟩, 24,
     by decide +kernel⟩,
   ⟨act, by decide +kernel⟩,
   ⟨withEvents { aonQueue := [record 1] }, record 1, by decide +kernel⟩,
   ⟨{ withEvents { alert := some ⟨1, [], 15, .waiting, 0, 0, 0⟩ } with bus :=
     { ctrlClk := true, effCfg := 0xF#32, effLimits := 0x00030000#32 } }, ⟨1, [], 15, .waiting, 0, 0, 0⟩,
     by decide +kernel⟩⟩

theorem witness_PortConfigurationRowsAct :
    (∃ (s : State) (p : Fin 7), p.val < s.dports.length ∧ coreOn s = true ∧ bit (rd s (portCfg p)) 0 = false ∧
      (portCfg p).rangeOk s (rd s (portCfg p) + 1) = true ∧ regsCommitOk (wr s (portCfg p) (rd s (portCfg p) + 1)) =
      true) ∧
    (∃ (s : State) (p : Fin 7), p.val < s.dports.length ∧ coreOn s = true ∧ bit (rd s (portCfg p)) 0 = true) ∧
    (∃ (s : State) (p : Fin 7) (value : Word), p.val < s.dports.length ∧ coreOn s = true ∧ portEn s p = true ∧ bit
      (Nat.land value.toNat (portCfg p).mask) 0 = true ∧ (portCfg p).rangeOk s (Nat.land value.toNat (portCfg p).mask)
      = true ∧ regsCommitOk (wr s (portCfg p) (Nat.land value.toNat (portCfg p).mask)) = true) ∧
    (∃ (s : State) (p : Fin 7) (value : Word), p.val < s.dports.length ∧ coreOn s = true ∧ portEn s p = true ∧ bit
      (Nat.land value.toNat (portCfg p).mask) 0 = true ∧ (portCfg p).rangeOk s (Nat.land value.toNat (portCfg p).mask)
      = true ∧ regsCommitOk (wr s (portCfg p) (Nat.land value.toNat (portCfg p).mask)) = true ∧ rd s (portCfg p) ≠
      (Nat.land value.toNat (portCfg p).mask) ∧ refSrc s ≠ p.val + 2 ∧ ckSys s = true) ∧
    (∃ (s : State) (p : Fin 7), p.val < s.dports.length ∧ coreOn s = false) ∧
    (∃ (s : State) (p : Fin 7), p.val < s.dports.length ∧ portSounds s p = true ∧ (dport s p).next = none) ∧
    (∃ (s : State) (p : Fin 7), p.val < s.dports.length ∧ (dport s p).state = .noClock ∧ ckSys s = true ∧ sourceRuns s
      p = true) ∧
    (∃ (s : State) (p : Fin 7), p.val < s.dports.length ∧ ((dport s p).state = .acquire ∨ (dport s p).state =
      .nonpcm)) ∧
    (∃ (s : State) (p : Fin 7), p.val < s.dports.length ∧ (dport s p).state ≠ .acquire ∧ (dport s p).state ≠ .nonpcm) ∧
    (∃ (s : State) (p : Fin 7) (output : Bool) (ch : Fin 32) (value : Word), p.val < s.dports.length ∧ coreOn s = true
      ∧ mapOk output (Nat.land value.toNat (if output then Reg.outMap ch else Reg.inMap ch).mask) = true ∧ (output =
      true → mapsDistinct (outMaps s ch (Nat.land value.toNat (if output then Reg.outMap ch else Reg.inMap ch).mask))
      = true) ∧ rd s (if output then Reg.outMap ch else Reg.inMap ch) ≠ (Nat.land value.toNat (if output then
      Reg.outMap ch else Reg.inMap ch).mask)) ∧
    (∃ (s : State) (p : Fin 7) (output : Bool) (ch : Fin 32) (value : Word), p.val < s.dports.length ∧ rd s (if output
      then Reg.outMap ch else Reg.inMap ch) = Nat.land value.toNat (if output then Reg.outMap ch else Reg.inMap
      ch).mask) ∧
    (∃ (s : State) (p : Fin 7) (ch : Fin 32) (value : Word), p.val < s.dports.length ∧ (mapOk true (Nat.land
      value.toNat (Reg.outMap ch).mask) = false ∨ mapsDistinct (outMaps s ch (Nat.land value.toNat (Reg.outMap
      ch).mask)) = false)) :=
  ⟨⟨act, 6, by decide +kernel⟩,
   ⟨wr act (.tpCfg 0) 1, 0, by decide +kernel⟩,
   ⟨wr (withPort 0 { state := .acquire } act) (.tpCfg 0) 1, 0, 0x1541#32, by decide +kernel⟩,
   ⟨wr (withPort 0 { state := .acquire } act) (.tpCfg 0) 1, 0, 0x1541#32, by decide +kernel⟩,
   ⟨ship, 6, by decide +kernel⟩,
   ⟨withPort 6 { state := .locked, ramp := Ramp.one } act, 6, by decide +kernel⟩,
   ⟨withPort 0 { state := .noClock } act, 0, by decide +kernel⟩,
   ⟨withPort 6 { state := .nonpcm } act, 6, by decide +kernel⟩,
   ⟨act, 0, by decide +kernel⟩,
   ⟨act, 6, true, 31, 6#32, by decide +kernel⟩,
   ⟨act, 6, true, 31, 7#32, by decide +kernel⟩,
   ⟨act, 6, 31, 0xFC#32, by decide +kernel⟩⟩

theorem witness_PortLockRowsAct :
    (∃ (s : State) (p : Fin 7) (rate : Fin 16) (ppm : _), p.val < s.dports.length ∧ (dport s p).state = .acquire ∧
      sourceRuns s p = true ∧ rateLocks s p rate ppm = true) ∧
    (∃ (s : State) (p : Fin 7) (rate : Fin 16) (ppm : _), (dport s p).state = .acquire ∧ sourceRuns s p = true ∧
      rateLocks s p rate ppm = false) ∧
    (∃ (s : State) (p : Fin 7), sourceRuns s p = false) ∧
    (∃ (s : State) (p : Fin 7), (dport s p).state = .locked) ∧
    (∃ (s : State) (p : Fin 7), portSounds s p = true ∧ (dport s p).next = none) ∧
    (∃ (s : State) (p : Fin 7), portSounds s p = false ∧ (dport s p).next = none) ∧
    (∃ (s : State) (p : Fin 7) (l : LockState), p.val < s.dports.length ∧ (dport s p).state = .locked ∧ l ≠ .locked ∧
      findJobs s (isPortRestart p) = []) ∧
    (∃ (s : State) (p : Fin 7) (q : PortId) (o : Outstanding), findJobs s (isPortRestart p) = [(q, o)] ∧ (dport s
      p).state = .nonpcm) ∧
    (∃ (s : State) (p : Fin 4), bit (rd s (.tpCfg p)) 0 = true ∧ portDrives s p = false ∧ ((dport s p).state =
      .acquire ∨ (dport s p).state = .locked)) ∧
    (∃ (s : State) (p : Fin 4), bit (rd s (.tpCfg p)) 0 = false) ∧
    (∃ (s : State) (r : Fin 2), ((dport s (4 + r)).state = .acquire ∨ (dport s (4 + r)).state = .locked ∨ (dport s (4
      + r)).state = .nonpcm)) ∧
    (∃ (s : State) (r : Fin 2), 4 + r.val < s.dports.length ∧ (dport s (4 + r)).state = .locked) ∧
    (∃ (s : State) (r : Fin 2), (dport s (4 + r)).state = .acquire) ∧
    (∃ (s : State) (r : Fin 2), ((dport s (4 + r)).nonpcmCs = true ∨ (dport s (4 + r)).quiet + (framesSoFar s (dport s
      (4 + r)) : Int) + 1 < 8192)) ∧
    (∃ (s : State) (r : Fin 2), 4 + r.val < s.dports.length ∧ (dport s (4 + r)).state = .nonpcm ∧ (dport s (4 +
      r)).nonpcmCs = false ∧ 8192 ≤ (dport s (4 + r)).quiet + (framesSoFar s (dport s (4 + r)) : Int) + 1) ∧
    (∃ (s : State) (r : Fin 2), 4 + r.val < s.dports.length ∧ ((dport s (4 + r)).state = .acquire ∨ (dport s (4 +
      r)).state = .locked ∨ (dport s (4 + r)).state = .nonpcm) ∧ (dport s (4 + r)).csValid = false) :=
  ⟨⟨withPort 0 { state := .acquire } act, 0, 1, 10000, by decide +kernel⟩,
   ⟨withPort 0 { state := .acquire } act, 0, 0, 0, by decide +kernel⟩,
   ⟨wr act (.tpCfg 0) 0x100002, 0, by decide +kernel⟩,
   ⟨withPort 6 { state := .locked, csValid := false } act, 6, by decide +kernel⟩,
   ⟨withPort 6 { state := .locked, ramp := Ramp.one } act, 6, by decide +kernel⟩,
   ⟨act, 6, by decide +kernel⟩,
   ⟨withPort 3 { state := .locked, csValid := false } act, 3, .acquire, by decide +kernel⟩,
   ⟨waiting [held (.portRestart 5)] (withPort 5 { state := .nonpcm } act), 5, .spi, held (.portRestart 5),
     by decide +kernel⟩,
   ⟨wr (withPort 3 { state := .locked, csValid := false } act) (.tpCfg 3) 1, 3, by decide +kernel⟩,
   ⟨act, 3, by decide +kernel⟩,
   ⟨withPort 5 { state := .locked, csValid := false } act, 1, by decide +kernel⟩,
   ⟨withPort 5 { state := .locked, csValid := false } act, 1, by decide +kernel⟩,
   ⟨withPort 5 { state := .acquire } act, 1, by decide +kernel⟩,
   ⟨act, 1, by decide +kernel⟩,
   ⟨withPort 5 { state := .nonpcm, quiet := 8191 } act, 1, by decide +kernel⟩,
   ⟨withPort 5 { state := .locked, csValid := false } act, 1, by decide +kernel⟩⟩

theorem witness_RootRowsAct :
    (∃ (s : State) (freq : Bool) (value : Word), coreOn s = true ∧ (rootReg freq).rangeOk s (Nat.land value.toNat
      (rootReg freq).mask) = true) ∧
    (∃ (s : State), coreOn s = false) ∧
    (∃ (s : State), s.clock.state = .off) ∧
    (∃ (s : State), s.clock.state ≠ .off ∧ s.clock.state ≠ .restart ∧ s.clock.xtalFault = false) ∧
    (∃ (s : State), s.clock.state = .off ∧ s.clock.phase = .waitSafe ∧ s.clock.xtalFault = false) ∧
    (∃ (s : State), s.clock.state = .restart ∧ s.clock.phase = .onSafe ∧ s.clock.xtalFault = false) ∧
    (∃ (s : State) (p : PortId) (o : Outstanding), s.clock.state = .restart ∧ s.clock.phase = .locked ∧
      s.clock.xtalFault = false ∧ findJobs s isRestart = [(p, o)]) ∧
    (∃ (s : State), refSrc s ≠ 8) ∧
    (∃ (p : Nat × Nat), 0 < p.1 ∧ 0 < p.2) ∧
    (∃ (s : State) (f : Int), refSrc s ≠ 0 ∧ refPortOk s (refSrc s) = true ∧ s.clock.xtalFault = false ∧ -100000 ≤ f ∧
      f ≤ 100000 ∧ (s.clock.state = .freerun ∨ s.clock.state = .coast ∧ s.clock.coastPull = true)) ∧
    (∃ (s : State) (f : Int), refSrc s ≠ 0 ∧ refPortOk s (refSrc s) = true ∧ s.clock.xtalFault = false ∧ -100000 ≤ f ∧
      f ≤ 100000 ∧ s.clock.state = .restart) ∧
    (∃ (s : State) (f : Int), refSrc s ≠ 0 ∧ refPortOk s (refSrc s) = true ∧ s.clock.xtalFault = false ∧ -100000 ≤ f ∧
      f ≤ 100000 ∧ s.clock.state = .coast ∧ s.clock.coastPull = false ∧ (bit (rd s .rootCfg) 6 = false ∨ refSrc s =
      8)) ∧
    (∃ (s : State) (f : Int), refSrc s ≠ 0 ∧ refPortOk s (refSrc s) = true ∧ s.clock.xtalFault = false ∧ -100000 ≤ f ∧
      f ≤ 100000 ∧ s.clock.state = .coast ∧ s.clock.coastPull = false ∧ bit (rd s .rootCfg) 6 = true ∧ refSrc s ≠ 8 ∧
      s.clock.realign = none) ∧
    (∃ (f : Int), (f < -100000 ∨ 100000 < f)) ∧
    (∃ (s : State), (s.clock.state = .pullin ∨ s.clock.state = .reacquire) ∧ s.clock.xtalFault = false) ∧
    (∃ (s : State), (s.clock.state = .pullin ∨ s.clock.state = .track ∨ s.clock.state = .reacquire) ∧
      s.clock.xtalFault = false) ∧
    (∃ (s : State), s.clock.xtalFault = true) ∧
    (∃ (s : State), s.clock.state = .coast ∧ bits (rd s .rootCfg) 22 15 ≠ 0 ∧ s.clock.realign = none ∧
      s.clock.xtalFault = false ∧ usPassed s (bits (rd s .rootCfg) 22 15 * 1000000) s.clock.coastAt s.clock.coastCyc =
      true) ∧
    (∃ (s : State) (r : _), s.clock.realign = some r ∧ s.cycle = 0 ∧ s.clock.realignOn = false ∧ bsnReached s.bsn r =
      true ∧ s.clock.state = .coast ∧ s.clock.xtalFault = false) ∧
    (∃ (s : State), coreOn s = true) ∧
    (∃ (s : State), s.clock.xtalFault = false ∧ s.clock.xtalOn = true) :=
  ⟨⟨act, false, 0x1910#32, by decide +kernel⟩,
   ⟨ship, by decide +kernel⟩,
   ⟨act, by decide +kernel⟩,
   ⟨{ act with clock := { state := .freerun } }, by decide +kernel⟩,
   ⟨{ act with clock := { state := .off, phase := .waitSafe } }, by decide +kernel⟩,
   ⟨{ act with clock := { state := .restart, phase := .onSafe } }, by decide +kernel⟩,
   ⟨waiting [held .rootRestart] ({ act with clock := { state := .restart, phase := .locked } }), .spi, held
     .rootRestart, by decide +kernel⟩,
   ⟨act, by decide +kernel⟩,
   ⟨(1000000000, 48000), by decide +kernel⟩,
   ⟨{ wr (withPort 6 {} act) .rootCfg 8 with clock := { state := .freerun } }, 100000, by decide +kernel⟩,
   ⟨{ wr (withPort 6 {} act) .rootCfg 8 with clock := { state := .restart } }, -100000, by decide +kernel⟩,
   ⟨{ wr (withPort 6 {} act) .rootCfg 8 with clock := { state := .coast } }, 0, by decide +kernel⟩,
   ⟨{ wr (wr act (.tpCfg 0) 1) .rootCfg 0x42 with clock := { state := .coast } }, 0, by decide +kernel⟩,
   ⟨100001, by decide +kernel⟩,
   ⟨{ act with clock := { state := .pullin } }, by decide +kernel⟩,
   ⟨{ act with clock := { state := .track } }, by decide +kernel⟩,
   ⟨{ act with clock := { state := .track, xtalFault := true } }, by decide +kernel⟩,
   ⟨{ wr act .rootCfg 0x8000 with bsn := 4000, clock := { state := .coast } }, by decide +kernel⟩,
   ⟨{ act with clock := { state := .coast, realign := some 0 } }, 0, by decide +kernel⟩,
   ⟨act, by decide +kernel⟩,
   ⟨{ act with clock := { state := .restart, xtalOn := true } }, by decide +kernel⟩⟩

theorem witness_SynthesizerRowsAct :
    (∃ (s : State) (a : Fin 4), bit (rd s (.auxCfg a)) 0 = true ∧ s.clock.state ≠ .off) ∧
    (∃ (s : State) (p : Nat), p < s.dports.length) ∧
    (∃ (s : State) (a : Fin 4), bit (rd s (.auxCfg a)) 0 = false) ∧
    (∃ (s : State), coreOn s = true) ∧
    (∃ (s : State), coreOn s = false) ∧
    (∃ (s : State) (a : Fin 4) (int : Word) (num : Word) (den : Word), coreOn s = true ∧ bit (rd s (.auxCfg a)) 0 =
      false ∧ (Reg.auxInt a).rangeOk s int.toNat = true ∧ (Reg.auxDen a).rangeOk s den.toNat = true ∧ num.toNat ≤
      0xFFFFF ∧ auxCommitOk (wr (wr (wr s (.auxInt a) int.toNat) (.auxNum a) num.toNat) (.auxDen a) den.toNat) a =
      true) ∧
    (∃ (s : State) (a : Fin 4) (int : Word) (num : Word) (den : Word), coreOn s = true ∧ bit (rd s (.auxCfg a)) 0 =
      true ∧ (Reg.auxInt a).rangeOk s int.toNat = true ∧ (Reg.auxDen a).rangeOk s den.toNat = true ∧ num.toNat ≤
      0xFFFFF ∧ auxWordsOf (wr (wr (wr s (.auxInt a) int.toNat) (.auxNum a) num.toNat) (.auxDen a) den.toNat) a ≠
      auxWordsOf s a ∧ auxCommitOk ((auxPorts (wr (wr (wr s (.auxInt a) int.toNat) (.auxNum a) num.toNat) (.auxDen a)
      den.toNat) a).foldl (fun v p => if portIs v p .locked then portLose v p true else v) (modAux (wr (wr (wr s
      (.auxInt a) int.toNat) (.auxNum a) num.toNat) (.auxDen a) den.toNat) a
      (fun x => { x with ratio := some ((auxHz s a).1, (auxHz s a).2, bits (rd s (.auxCfg a)) 16 10, s.bsn) }))) a =
      true) ∧
    (∃ (s : State) (a : Fin 4) (on : _) (od : _) (ms : _) (b : _), (auxAt s a).ratio = some (on, od, ms, b) ∧ usPassed
      s (ms * 1000) b 0 = true ∧ (auxAt s a).stopping = false) ∧
    (∃ (s : State) (a : Fin 4), (auxAt s a).ratio = none ∧ (auxAt s a).stopping = true ∧ usPassed s (auxAt s
      a).ofsTime (auxAt s a).ofsBsn (auxAt s a).ofsCyc = true) ∧
    (∃ (s : State) (a : Fin 4) (k : _), (auxAt s a).profile = true ∧ (auxAt s a).holds = false ∧ usPassed s (auxAt s
      a).ofsTime (auxAt s a).ofsBsn (auxAt s a).ofsCyc = true ∧ ((auxAt s a).segment < 15 ∧ rd s (.segTime a ((auxAt s
      a).segment + 1)) ≠ 0 ∧ k = (auxAt s a).segment + 1 ∨ (15 ≤ (auxAt s a).segment ∨ rd s (.segTime a ((auxAt s
      a).segment + 1)) = 0) ∧ bit (rd s (.auxCfg a)) 3 = true ∧ rd s (.segTime a 0) ≠ 0 ∧ k = 0)) ∧
    (∃ (s : State) (a : Fin 4), (auxAt s a).profile = true ∧ (auxAt s a).holds = false ∧ usPassed s (auxAt s
      a).ofsTime (auxAt s a).ofsBsn (auxAt s a).ofsCyc = true ∧ (15 ≤ (auxAt s a).segment ∨ rd s (.segTime a ((auxAt s
      a).segment + 1)) = 0) ∧ bit (rd s (.auxCfg a)) 3 = false) :=
  ⟨⟨wr (withAux {  }) (.auxCfg 0) 1, 0, by decide +kernel⟩,
   ⟨wr act (.tpCfg 3) 0x100003, 3, by decide +kernel⟩,
   ⟨act, 3, by decide +kernel⟩,
   ⟨wr (withAux {}) (.auxCfg 0) 1, by decide +kernel⟩,
   ⟨ship, by decide +kernel⟩,
   ⟨act, 0, 0x18#32, 1#32, 2#32, by decide +kernel⟩,
   ⟨wr (withAux {  }) (.auxCfg 0) 1, 0, 0x18#32, 1#32, 2#32, by decide +kernel⟩,
   ⟨{ withAux { ratio := some (1, 1, 0, 0) } with bsn := 0 }, 0, 1, 1, 0, 0, by decide +kernel⟩,
   ⟨withAux { stopping := true }, 0, by decide +kernel⟩,
   ⟨wr (withAux { profile := true, segment := 14 }) (.segTime 0 15) 5, 0, 15, by decide +kernel⟩,
   ⟨withAux { profile := true, segment := 15 }, 0, by decide +kernel⟩⟩

theorem witness_ConverterRowsAct :
    (∃ (s : State) (a : Fin 6), coreOn s = true ∧ bit (rd s (adcCfg a)) 0 = false) ∧
    (∃ (s : State) (a : Fin 6), coreOn s = true ∧ bit (rd s (adcCfg a)) 0 = true) ∧
    (∃ (s : State), coreOn s = true) ∧
    (∃ (s : State), coreOn s = false) ∧
    (∃ (s : State), s.power.pwrEn1 = true) ∧
    (∃ (s : State), s.power.pwrEn1 = false) ∧
    (∃ (x : Adc), x.stage = .off) ∧
    (∃ (x : Adc), x.stage = .stopping) ∧
    (∃ (x : Adc), (x.stage = .running ∨ x.stage = .muted)) ∧
    (∃ (x : Adc), x.stage = .running) ∧
    (∃ (x : Adc), x.stage = .muted) ∧
    (∃ (s : State) (x : Adc), x.stage = .settling ∧ bsnReached s.bsn x.since = true ∧ 192 + x.frame ≤ bsnSince s.bsn
      x.since * 24 + frameOf s) ∧
    (∃ (s : State) (x : Adc), bsnReached s.bsn x.since = true ∧ bsnSince s.bsn x.since * 24 + frameOf s < 192 +
      x.frame) ∧
    (∃ (s : State) (x : Adc), (x.stage = .running ∨ x.stage = .muted ∨ x.stage = .settling ∧ bsnReached s.bsn x.since
      = true)) ∧
    (∃ (s : State) (x : Adc), x.stage = .settling ∧ bsnReached s.bsn x.since = false) ∧
    (∃ (s : State) (m : Fin 2) (gain : Fin 43), coreOn s = true ∧ bits (rd s (.micCfg m)) 9 4 ≠ gain) ∧
    (∃ (s : State) (m : Fin 2) (p : Pga), s.analog.pga[m.val]? = some p ∧ p.gain ≠ p.target ∧ bsnReached s.bsn p.due =
      true ∧ s.power.pwrEn1 = true) ∧
    (∃ (s : State) (m : Fin 2) (p : Pga), s.analog.pga[m.val]? = some p ∧ p.gain = p.target) ∧
    (∃ (s : State), biasWanted s = false ∧ coreOn s = true ∧ s.power.pwrEn1 = true ∧ s.analog.micbias = false) ∧
    (∃ (s : State), biasWanted s = true ∧ s.analog.micbias = false) ∧
    (∃ (s : State), s.analog.micbias = true ∧ s.analog.biasLimit = false) ∧
    (∃ (s : State), s.analog.micbias = false) :=
  ⟨⟨act, 0, by decide +kernel⟩,
   ⟨wr act (.ainCfg 3) 1, 3, by decide +kernel⟩,
   ⟨act, by decide +kernel⟩,
   ⟨ship, by decide +kernel⟩,
   ⟨act, by decide +kernel⟩,
   ⟨ship, by decide +kernel⟩,
   ⟨{}, by decide +kernel⟩,
   ⟨{ stage := .stopping }, by decide +kernel⟩,
   ⟨{ stage := .muted }, by decide +kernel⟩,
   ⟨{ stage := .running }, by decide +kernel⟩,
   ⟨{ stage := .muted }, by decide +kernel⟩,
   ⟨{ act with bsn := 8 }, { stage := .settling }, by decide +kernel⟩,
   ⟨{ act with bsn := 7 }, { stage := .settling }, by decide +kernel⟩,
   ⟨{ act with bsn := 7 }, { stage := .settling }, by decide +kernel⟩,
   ⟨{ act with bsn := 7 }, { stage := .settling, since := 8 }, by decide +kernel⟩,
   ⟨act, 1, 42, by decide +kernel⟩,
   ⟨withAnalog { pga := [{ target := 3 }, {}] }, 0, { target := 3 }, by decide +kernel⟩,
   ⟨act, 1, {}, by decide +kernel⟩,
   ⟨act, by decide +kernel⟩,
   ⟨wr act .micbiasCfg 1, by decide +kernel⟩,
   ⟨withAnalog { micbias := true }, by decide +kernel⟩,
   ⟨act, by decide +kernel⟩⟩

theorem witness_OutputRowsAct :
    (∃ (s : State), coreOn s = true ∧ bit (rd s .hpCfg) 0 = false ∧ (bit (rd s .hpCfg) 8 = true →
      s.analog.jack.inserted = true ∧ s.analog.jack.kind ≠ .pending ∧ s.analog.jack.kind ≠ .none) ∧ s.power.mode =
      .active ∧ s.power.fabricOn = true ∧ leavingActive s = false ∧ s.analog.hp.state = .off) ∧
    (∃ (s : State), coreOn s = true ∧ bit (rd s .hpCfg) 0 = false ∧ s.analog.hp.state = .powerDown) ∧
    (∃ (s : State), bit (rd s .hpCfg) 0 = true ∧ s.analog.hp.upDue = true ∧ s.cycle = 0 ∧ hpMayUp s = true) ∧
    (∃ (s : State), coreOn s = true ∧ bit (rd s .hpCfg) 0 = true ∧ outLive s.analog.hp = true) ∧
    (∃ (s : State), coreOn s = true ∧ bit (rd s .hpCfg) 0 = true ∧ s.analog.hp.state = .fault) ∧
    (∃ (s : State), s.analog.hp.shorted = false) ∧
    (∃ (s : State), s.analog.hp.shorted = true) ∧
    (∃ (s : State) (mute : _), coreOn s = true ∧ bit (rd s .hpCfg) 0 = true ∧ bit (rd s .hpCfg) 1 ≠ mute ∧ outSounds s
      672 s.analog.hp = true ∧ s.analog.hp.jackMute = false) ∧
    (∃ (s : State) (mute : _), coreOn s = true ∧ bit (rd s .loCfg) 0 = true ∧ bit (rd s .loCfg) 1 ≠ mute ∧ outSounds s
      1920 s.analog.lo = true) ∧
    (∃ (s : State), coreOn s = true ∧ bit (rd s .loCfg) 0 = false ∧ s.power.mode = .active ∧ s.power.fabricOn = true ∧
      leavingActive s = false ∧ s.analog.lo.state = .off) ∧
    (∃ (s : State), coreOn s = true ∧ bit (rd s .loCfg) 0 = false ∧ s.analog.lo.state = .powerDown) ∧
    (∃ (s : State), coreOn s = false) ∧
    (∃ (s : State), coreOn s = true ∧ bit (rd s .loCfg) 0 = true ∧ s.analog.lo.state = .on) ∧
    (∃ (s : State), coreOn s = true ∧ bit (rd s .loCfg) 0 = true ∧ s.analog.lo.state = .powerUp) ∧
    (∃ (s : State), bit (rd s .hpCfg) 9 = true ∧ hpPlays s s.analog.hp = true ∧ s.analog.hp.shorted = false) ∧
    (∃ (s : State), bit (rd s .hpCfg) 9 = true ∧ s.analog.hp.railsHigh = true ∧ 200 ≤ bsnSince s.bsn
      s.analog.hp.loudAt) ∧
    (∃ (s : State), bsnSince s.bsn s.analog.hp.loudAt < 200) ∧
    (∃ (s : State) (left : _) (right : _), (left || right) = true ∧ s.analog.hp.shorted = false ∧ (outLive s.analog.hp
      = true ∨ s.analog.hp.state = .powerDown ∧ outAge s s.analog.hp < s.analog.hp.n)) ∧
    (∃ (s : State) (left : _) (right : _), (left || right) = true ∧ s.analog.hp.shorted = false ∧ s.analog.hp.state =
      .powerDown ∧ s.analog.hp.n ≤ outAge s s.analog.hp) ∧
    (∃ (s : State), s.analog.hp.state = .fault ∧ s.analog.hp.latched = false ∧ 2000 ≤ bsnSince s.bsn s.analog.hp.since
      ∧ s.power.mode = .active) ∧
    (∃ (s : State), s.analog.hp.state = .fault ∧ s.analog.hp.latched = false ∧ 2000 ≤ bsnSince s.bsn s.analog.hp.since
      ∧ s.power.mode = .active ∧ bit (rd s .hpCfg) 0 = true ∧ bit (rd s .hpCfg) 8 = false ∧ s.power.fabricOn = true ∧
      leavingActive s = false) ∧
    (∃ (s : State), s.analog.hp.state = .fault ∧ s.analog.hp.latched = true) :=
  ⟨⟨wr act .hpCfg 0x28, by decide +kernel⟩,
   ⟨withHp { state := .powerDown }, by decide +kernel⟩,
   ⟨wr (withHp { upDue := true }) .hpCfg 1, by decide +kernel⟩,
   ⟨wr (withHp { state := .powerUp }) .hpCfg 1, by decide +kernel⟩,
   ⟨wr (withHp { state := .fault }) .hpCfg 1, by decide +kernel⟩,
   ⟨wr (withHp { shorted := false }) .hpCfg 1, by decide +kernel⟩,
   ⟨wr (withHp {  }) .hpCfg 1, by decide +kernel⟩,
   ⟨wr (withHp { state := .on }) .hpCfg 1, true, by decide +kernel⟩,
   ⟨wr (withAnalog { lo := { state := .on } }) .loCfg 1, true, by decide +kernel⟩,
   ⟨act, by decide +kernel⟩,
   ⟨withAnalog { lo := { state := .powerDown } }, by decide +kernel⟩,
   ⟨ship, by decide +kernel⟩,
   ⟨wr (withAnalog { lo := { state := .on } }) .loCfg 1, by decide +kernel⟩,
   ⟨wr (withAnalog { lo := { state := .powerUp } }) .loCfg 1, by decide +kernel⟩,
   ⟨wr (withHp { state := .on, shorted := false }) .hpCfg 512, by decide +kernel⟩,
   ⟨{ wr (withHp { railsHigh := true }) .hpCfg 512 with bsn := 200 }, by decide +kernel⟩,
   ⟨{ act with bsn := 199 }, by decide +kernel⟩,
   ⟨withHp { state := .on, shorted := false }, true, false, by decide +kernel⟩,
   ⟨withHp { state := .powerDown, shorted := false, n := 96, fromStep := 96 }, true, false, by decide +kernel⟩,
   ⟨{ withHp { state := .fault } with bsn := 2000 }, by decide +kernel⟩,
   ⟨{ wr (withHp { state := .fault }) .hpCfg 1 with bsn := 2000 }, by decide +kernel⟩,
   ⟨withHp { state := .fault, latched := true }, by decide +kernel⟩⟩

theorem witness_JackRowsAct :
    (∃ (s : State), bit (rd s .hpjCfg) 0 = true ∧ s.analog.jack.level = true ∧ s.analog.jack.inserted = true ∧ hpPlays
      s s.analog.hp = true) ∧
    (∃ (s : State), bit (rd s .hpjCfg) 0 = true ∧ s.analog.jack.level = false ∧ s.analog.jack.inserted = true ∧
      s.analog.hp.jackMute = true ∧ bit (rd s .hpCfg) 1 = false ∧ outSounds s 672 s.analog.hp = true) ∧
    (∃ (s : State) (level : _), s.analog.jack.level = level) ∧
    (∃ (s : State), bit (rd s .auxjCfg) 0 = true ∧ s.analog.jack.auxIn = false) ∧
    (∃ (s : State), bit (rd s .auxjCfg) 0 = true ∧ s.analog.jack.auxIn = true) ∧
    (∃ (s : State), bit (rd s .hpjCfg) 0 = true ∧ bit (rd s .hpjCfg) 14 = true ∧ s.analog.jack.inserted = false ∧
      s.power.pwrEn1 = true) ∧
    (∃ (s : State), bit (rd s .hpjCfg) 0 = true ∧ bit (rd s .hpjCfg) 14 = false ∧ s.analog.jack.inserted = false) ∧
    (∃ (s : State), bit (rd s .hpjCfg) 0 = true ∧ s.analog.jack.inserted = true) ∧
    (∃ (s : State), s.analog.jack.measuring = true ∧ s.analog.jack.inserted = true ∧ s.power.pwrEn1 = true ∧
      s.analog.jack.measA = none) ∧
    (∃ (s : State) (a : _) (mv : Nat), s.analog.jack.measuring = true ∧ s.analog.jack.inserted = true ∧ s.power.pwrEn1
      = true ∧ s.analog.jack.measA = some a ∧ plugKind a mv = .invalid ∧ s.analog.jack.invalids < 3) ∧
    (∃ (s : State) (a : _) (mv : Nat), s.analog.jack.measuring = true ∧ s.analog.jack.inserted = true ∧ s.power.pwrEn1
      = true ∧ s.analog.jack.measA = some a ∧ (plugKind a mv = .invalid → 3 ≤ s.analog.jack.invalids)) ∧
    (∃ (s : State) (b : _), s.analog.jack.retryAt = some b ∧ 2000 ≤ bsnSince s.bsn b ∧ s.analog.jack.inserted = true ∧
      s.analog.jack.kind = .pending ∧ s.power.pwrEn1 = true) ∧
    (∃ (s : State) (b : _), s.analog.jack.retryAt = some b ∧ bsnSince s.bsn b < 2000) ∧
    (∃ (s : State) (n : _) (a : _) (b : _), s.analog.jack.repeats = some n ∧ s.analog.jack.inserted = true ∧
      s.analog.jack.kind = .threePole ∧ s.power.pwrEn1 = true ∧ n < (bsnSince s.bsn s.analog.jack.repeatAt / 2000) ∧
      (bsnSince s.bsn s.analog.jack.repeatAt / 2000) < 10 ∧ 80 ≤ bsnSince s.bsn s.analog.jack.repeatAt % 2000 ∧
      plugClass a ≠ .microphone ∧ plugClass b ≠ .microphone) ∧
    (∃ (s : State) (n : _) (a : _) (b : _), s.analog.jack.repeats = some n ∧ s.analog.jack.inserted = true ∧
      s.analog.jack.kind = .threePole ∧ s.power.pwrEn1 = true ∧ n < (bsnSince s.bsn s.analog.jack.repeatAt / 2000) ∧
      (bsnSince s.bsn s.analog.jack.repeatAt / 2000) ≤ 10 ∧ 80 ≤ bsnSince s.bsn s.analog.jack.repeatAt % 2000 ∧
      plugClass a = .microphone ∧ plugClass b = .ground) ∧
    (∃ (s : State) (n : _), s.analog.jack.repeats = some n ∧ bsnSince s.bsn s.analog.jack.repeatAt / 2000 ≤ n) ∧
    (∃ (s : State), s.analog.jack.micDue = true ∧ s.cycle = 0) ∧
    (∃ (x : Adc), (x.stage = .running ∨ x.stage = .muted ∨ x.stage = .settling)) ∧
    (∃ (s : State), s.cycle ≠ 0) ∧
    (∃ (s : State) (mv : Nat) (b : _), bit (rd s .hpjCfg) 15 = true ∧ hasMic s.analog.jack.kind = true ∧
      s.analog.jack.inserted = true ∧ s.analog.jack.button = 0 ∧ s.power.pwrEn1 = true ∧ buttonOf (rd s .hpjBtn) mv =
      some b) ∧
    (∃ (s : State), s.analog.jack.button ≠ 0 ∧ bit (rd s .hpjCfg) 15 = true ∧ s.power.pwrEn1 = true) ∧
    (∃ (s : State), (s.analog.jack.button = 0 ∨ bit (rd s .hpjCfg) 15 = false ∨ s.power.pwrEn1 = false)) :=
  ⟨⟨wr (withAnalog { hp := { state := .on }, jack := { level := true, inserted := true } }) .hpjCfg 1,
     by decide +kernel⟩,
   ⟨wr (wr (withAnalog { hp := { state := .on, jackMute := true }, jack := { inserted := true } }) .hpjCfg 1) .hpCfg
     1, by decide +kernel⟩,
   ⟨withJack { level := true }, true, by decide +kernel⟩,
   ⟨wr act .auxjCfg 1, by decide +kernel⟩,
   ⟨wr (withJack { auxIn := true }) .auxjCfg 1, by decide +kernel⟩,
   ⟨wr act .hpjCfg 0x4001, by decide +kernel⟩,
   ⟨wr act .hpjCfg 1, by decide +kernel⟩,
   ⟨wr (withJack { inserted := true }) .hpjCfg 1, by decide +kernel⟩,
   ⟨withJack { inserted := true, measuring := true }, by decide +kernel⟩,
   ⟨withJack { inserted := true, measuring := true, measA := some 150, invalids := 2 }, 150, 150, by decide +kernel⟩,
   ⟨withJack { inserted := true, measuring := true, measA := some 149 }, 149, 149, by decide +kernel⟩,
   ⟨{ withJack { inserted := true, kind := .pending, retryAt := some 0 } with bsn := 2000 }, 0, by decide +kernel⟩,
   ⟨{ withJack { retryAt := some 0 } with bsn := 1999 }, 0, by decide +kernel⟩,
   ⟨{ withJack { inserted := true, kind := .threePole, repeats := some 0 } with bsn := 2080 }, 0, 149, 149,
     by decide +kernel⟩,
   ⟨{ withJack { inserted := true, kind := .threePole, repeats := some 9 } with bsn := 20080 }, 9, 2450, 149,
     by decide +kernel⟩,
   ⟨{ withJack { repeats := some 1 } with bsn := 3999 }, 1, by decide +kernel⟩,
   ⟨withJack { micDue := true }, by decide +kernel⟩,
   ⟨{ stage := .settling }, by decide +kernel⟩,
   ⟨{ act with cycle := 1 }, by decide +kernel⟩,
   ⟨wr (withJack { inserted := true, kind := .omtp }) .hpjCfg 0x8000, 0, 0, by decide +kernel⟩,
   ⟨wr (withJack { button := 1 }) .hpjCfg 0x8000, by decide +kernel⟩,
   ⟨act, by decide +kernel⟩⟩

theorem witness_WakeRowsAct :
    (∃ (s : State) (c : Fin 2) (listen : _), listen = (s.power.mode == .listen) ∧ s.cycle = 0 ∧ ((s.wake.clocks.getD c
      {}).change.filter (fun e => bsnReached s.bsn e.1)) ≠ [] ∧ (listen && s.clock.xtalFault) = false ∧
      (((s.wake.clocks.getD c {}).change.filter (fun e => bsnReached s.bsn e.1)).filter (fun e => e.2.1 == listen)) =
      []) ∧
    (∃ (s : State) (c : Fin 2) (listen : _) (e : _), listen = (s.power.mode == .listen) ∧ s.cycle = 0 ∧
      ((s.wake.clocks.getD c {}).change.filter (fun e => bsnReached s.bsn e.1)) ≠ [] ∧ (listen && s.clock.xtalFault) =
      false ∧ (((s.wake.clocks.getD c {}).change.filter (fun e => bsnReached s.bsn e.1)).filter
      (fun e => e.2.1 == listen)).getLast? = some e ∧ c.val < s.wake.clocks.length ∧ s.wake.srcs.length = 16) ∧
    (∃ (s : State) (c : Fin 2), (s.wake.clocks.getD c {}).change = []) ∧
    (∃ (s : State) (b : Fin 4) (x : _) (h : _), s.wake.beams[b.val]? = some x ∧ x.xfDue = some h ∧ s.cycle = 0 ∧
      bsnReached s.bsn h = true) ∧
    (∃ (s : State), s.cycle ≠ 0) ∧
    (∃ (s : State) (b : Fin 4) (d : _) (w : _), s.wake.dets[b.val]? = some d ∧ windowFirst s = some w ∧ s.cycle = 0 ∧
      d.buf.length = 16 ∧ csnReached w s.wake.pathFrom = true ∧ d.on = true ∧ (d.windows = 0 ∨ d.win ≠ w)) ∧
    (∃ (s : State), windowFirst s = none) :=
  ⟨⟨{ withWake { clocks := [{ change := [(1, true, 5)] }, {}] } with bsn := 1 }, 0, false, by decide +kernel⟩,
   ⟨{ withWake { clocks := [{ change := [(1, false, 5)] }, {}] } with bsn := 1 }, 0, false, (1, false, 5),
     by decide +kernel⟩,
   ⟨act, 1, by decide +kernel⟩,
   ⟨withWake { beams := { xfDue := some 0 } :: List.replicate 3 {} }, 0, { xfDue := some 0 }, 0, by decide +kernel⟩,
   ⟨{ act with cycle := 1 }, by decide +kernel⟩,
   ⟨{ withWake { dets := [{ on := true, buf := List.replicate 16 0 }] } with bsn := 16 }, 0,
     { on := true, buf := List.replicate 16 0 }, 0, by decide +kernel⟩,
   ⟨{ act with bsn := 1 }, by decide +kernel⟩⟩

theorem witness_ChannelSequenceRowsAct :
    (∃ (s : State) (c : Fin 32), s.cycle = 0 ∧ (chan s c).state = .off ∧ mayStart s c = true) ∧
    (∃ (s : State) (c : Fin 32), mayStart s c = false) ∧
    (∃ (s : State) (c : Fin 32), coreOn s = true ∧ s.Sound ∧ bit (rd s (chanReg c)) 0 = true ∧ leads s c = true ∧
      (chan s c).state = .play) ∧
    (∃ (s : State) (c : Fin 32), coreOn s = true ∧ bit (rd s (chanReg c)) 0 = true ∧ leads s c = true ∧ (chan s
      c).state = .starting) ∧
    (∃ (s : State) (c : Fin 32), coreOn s = true ∧ bit (rd s (chanReg c)) 0 = true ∧ leads s c = true ∧ ((chan s
      c).state = .off ∨ (chan s c).state = .stopping)) ∧
    (∃ (s : State) (c : Fin 32), coreOn s = true ∧ bit (rd s (chanReg c)) 0 = true ∧ leads s c = true ∧ ((chan s
      c).state = .faultWait ∨ (chan s c).state = .latched)) ∧
    (∃ (s : State) (c : Fin 32), coreOn s = true ∧ bit (rd s (chanReg c)) 0 = true ∧ (leads s c = false ∨ (chan s
      c).state = .diag)) ∧
    (∃ (s : State), coreOn s = false) ∧
    (∃ (s : State) (c : Fin 32), s.cycle = 0 ∧ (chan s c).state = .faultWait ∧ (chan s c).retries < retryMax s ∧
      retryDue s c (chan s c) = true ∧ mayStart s c = true) ∧
    (∃ (s : State) (c : Fin 32), retryMax s ≤ (chan s c).retries) ∧
    (∃ (s : State) (c : Fin 32), (chan s c).state = .play ∧ 40000 ≤ (chan s c).playFor) ∧
    (∃ (s : State) (c : Fin 32), (chan s c).playFor < 40000) ∧
    (∃ (s : State) (h : Fin 16) (value : Word), coreOn s = true ∧ (Reg.vfs h).rangeOk s value.toNat = true ∧ rd s
      (.vfs h) ≠ value.toNat) ∧
    (∃ (s : State) (h : Fin 16) (value : Word), (Reg.vfs h).rangeOk s value.toNat = false) :=
  ⟨⟨wr (withChan {}) (.hbCfg 0) 1, 0, by decide +kernel⟩,
   ⟨act, 31, by decide +kernel⟩,
   ⟨wr (withChan { state := .play }) (.hbCfg 0) 1, 0, by decide +kernel, (by constructor <;> decide +kernel),
     by decide +kernel⟩,
   ⟨wr (withChan { state := .starting }) (.hbCfg 0) 1, 0, by decide +kernel⟩,
   ⟨wr (withChan { state := .stopping }) (.hbCfg 0) 1, 0, by decide +kernel⟩,
   ⟨wr (withChan { state := .latched }) (.hbCfg 0) 1, 0, by decide +kernel⟩,
   ⟨wr (wr act .pairCfg 1) (.hbCfg 1) 1, 1, by decide +kernel⟩,
   ⟨ship, by decide +kernel⟩,
   ⟨{ wr (withChan { state := .faultWait }) (.hbCfg 0) 1 with bsn := 0x1000000 }, 0, by decide +kernel⟩,
   ⟨wr act .retryCfg 0, 0, by decide +kernel⟩,
   ⟨withChan { state := .play, playFor := 40000 }, 0, by decide +kernel⟩,
   ⟨withChan { state := .play, playFor := 39999 }, 0, by decide +kernel⟩,
   ⟨act, 15, 0x800000#32, by decide +kernel⟩,
   ⟨act, 15, 0xFFFFFFFF#32, by decide +kernel⟩⟩

theorem witness_ChannelFaultRowsAct :
    (∃ (c : Nat), c < 16) ∧
    (∃ (s : State) (c : Fin 32) (ua : _), c.val < 16 ∧ leads s c = true ∧ running (chan s c) = true ∧ (chanLimits s
      c).2 < ua) ∧
    (∃ (s : State) (c : Fin 32) (ua : _), c.val < 16 ∧ leads s c = true ∧ running (chan s c) = true ∧ ua ≤ (chanLimits
      s c).2) ∧
    (∃ (s : State) (c : Fin 32), c.val < 16 ∧ leads s c = true ∧ running (chan s c) = true) ∧
    (∃ (s : State) (c : Fin 32), c.val < 16 ∧ leads s c = true ∧ running (chan s c) = true ∧ 32 ≤ (chan s c).limRun) ∧
    (∃ (s : State) (c : Fin 32), c.val < 16 ∧ leads s c = true ∧ running (chan s c) = true ∧ (chan s c).limRun < 32) ∧
    (∃ (s : State) (c : Fin 32), (16 ≤ c.val ∨ leads s c = false ∨ (running (chan s c) = false ∧ (chan s c).state ≠
      .diag))) ∧
    (∃ (s : State) (c : Fin 32) (ua : _), c.val < 16 ∧ leads s c = true ∧ (chan s c).state = .diag ∧ (chanLimits s
      c).2 < ua ∧ s.diag.cur ≠ some c.val) ∧
    (∃ (s : State) (c : Fin 32) (ua : _), c.val < 16 ∧ leads s c = true ∧ (chan s c).state = .diag ∧ (chanLimits s
      c).2 < ua ∧ s.diag.cur = some c.val) ∧
    (∃ (s : State) (c : Fin 32) (ua : _), c.val < 16 ∧ leads s c = true ∧ (chan s c).state = .diag ∧ ua ≤ (chanLimits
      s c).2) ∧
    (∃ (s : State) (c : Fin 32), c.val < 16 ∧ leads s c = true ∧ (chan s c).state = .diag) ∧
    (∃ (s : State) (h : Fin 16), ((chan s h).state = .play ∨ (chan s h).state = .starting ∧ seqS (isSe s h) ≤ seqAge s
      (chan s h)) ∧ bit (rd s (.hbCfg h)) 21 = true ∧ leads s h = true ∧ 96 * bits (rd s .dcCfg) 18 8 ≤ (chan s
      h).dcRun) ∧
    (∃ (s : State) (h : Fin 16), (chan s h).dcRun < 96 * bits (rd s .dcCfg) 18 8) ∧
    (∃ (s : State) (h : Fin 16), bit (rd s (.hbCfg h)) 21 = false) ∧
    (∃ (s : State) (h : Fin 16) (r : LimitedPeriod), (chanLimits s (leaderOf s h)).1 ≤ r.ua.natAbs ∧ running (chan s
      (leaderOf s h)) = true ∧ limitCounted (chan s (leaderOf s h)) (limitSpan s h (leaderOf s h) r) = false ∧ (chan s
      (leaderOf s h)).warned = false ∧ bit (chan s (leaderOf s h)).warn 0 = false) ∧
    (∃ (s : State) (h : Fin 16) (r : LimitedPeriod), (chanLimits s (leaderOf s h)).1 ≤ r.ua.natAbs ∧ running (chan s
      (leaderOf s h)) = true ∧ limitCounted (chan s (leaderOf s h)) (limitSpan s h (leaderOf s h) r) = false ∧ ((chan
      s (leaderOf s h)).warned = true ∨ bit (chan s (leaderOf s h)).warn 0 = true)) ∧
    (∃ (s : State) (h : Fin 16) (r : LimitedPeriod), (chanLimits s (leaderOf s h)).1 ≤ r.ua.natAbs ∧ running (chan s
      (leaderOf s h)) = true ∧ limitCounted (chan s (leaderOf s h)) (limitSpan s h (leaderOf s h) r) = true) ∧
    (∃ (s : State) (h : Fin 16) (r : LimitedPeriod), (chan s (leaderOf s h)).state = .diag ∧ 1500000 ≤ r.ua.natAbs ∧
      limitCounted (chan s (leaderOf s h)) (limitSpan s h (leaderOf s h) r) = false ∧ s.diag.state = .phase1 ∧
      s.diag.todo.contains (leaderOf s h) = true) ∧
    (∃ (s : State) (h : Fin 16) (r : LimitedPeriod), (chan s (leaderOf s h)).state = .diag ∧ 1500000 ≤ r.ua.natAbs ∧
      limitCounted (chan s (leaderOf s h)) (limitSpan s h (leaderOf s h) r) = false ∧ s.diag.state = .phase3) ∧
    (∃ (s : State) (h : Fin 16) (r : LimitedPeriod), (r.ua.natAbs < (chanLimits s (leaderOf s h)).1 ∨ (chan s
      (leaderOf s h)).state = .off)) ∧
    (∃ (s : State) (h : Fin 16) (l : _) (x : Chan), s.stage.chans[h.val]? = some x ∧ x.loop = true ∧ loopFar
      s.stage.pvdd l = true ∧ x.warned = false ∧ bit x.warn 2 = false) ∧
    (∃ (s : State) (h : Fin 16) (l : _), ((chan s h).loop = false ∨ loopFar s.stage.pvdd l = false)) ∧
    (∃ (s : State), coreOn s = true) ∧
    (∃ (s : State), coreOn s = false) ∧
    (∃ (s : State), s.stage.chans.length = 32) ∧
    (∃ (s : State), (coreOn s = false ∨ s.power.pwrEn0 = false)) ∧
    (∃ (s : State), coreOn s = true ∧ s.power.pwrEn0 = true) :=
  ⟨⟨15, by decide +kernel⟩,
   ⟨withChan { state := .starting }, 0, 0x7FFFFFFF, by decide +kernel⟩,
   ⟨withChan { state := .starting }, 0, 0, by decide +kernel⟩,
   ⟨withChan { state := .play }, 0, by decide +kernel⟩,
   ⟨withChan { state := .play, limRun := 32 }, 0, by decide +kernel⟩,
   ⟨withChan { state := .play, limRun := 31 }, 0, by decide +kernel⟩,
   ⟨act, 16, by decide +kernel⟩,
   ⟨withChan { state := .diag }, 0, 0x7FFFFFFF, by decide +kernel⟩,
   ⟨{ withChan { state := .diag } with diag := { cur := some 0 } }, 0, 0x7FFFFFFF, by decide +kernel⟩,
   ⟨withChan { state := .diag }, 0, 0, by decide +kernel⟩,
   ⟨withChan { state := .diag }, 0, by decide +kernel⟩,
   ⟨wr (withChan { state := .play, dcRun := 0x7FFFFFFF }) (.hbCfg 0) 0x200000, 0, by decide +kernel⟩,
   ⟨wr act .dcCfg 0x100, 15, by decide +kernel⟩,
   ⟨wr act (.hbCfg 15) 0, 15, by decide +kernel⟩,
   ⟨withChan { state := .play }, 0, ⟨false, 0x7FFFFFFF, true⟩, by decide +kernel⟩,
   ⟨withChan { state := .play, warned := true }, 0, ⟨false, 0x7FFFFFFF, true⟩, by decide +kernel⟩,
   ⟨withChan { state := .play, spans := [limitSpan act 0 0 ⟨false, 0x7FFFFFFF, true⟩] }, 0, ⟨false, 0x7FFFFFFF, true⟩,
     by decide +kernel⟩,
   ⟨{ withChan { state := .diag } with diag := { state := .phase1, todo := [0] } }, 0, ⟨false, 1500000, true⟩,
     by decide +kernel⟩,
   ⟨{ withChan { state := .diag } with diag := { state := .phase3 } }, 0, ⟨false, 1500000, true⟩, by decide +kernel⟩,
   ⟨act, 15, ⟨false, 0, true⟩, by decide +kernel⟩,
   ⟨looping, 0, List.replicate 64 ⟨0x7FFFFFF, 0, false⟩, { loop := true }, by decide +kernel⟩,
   ⟨act, 15, [], by decide +kernel⟩,
   ⟨act, by decide +kernel⟩,
   ⟨ship, by decide +kernel⟩,
   ⟨act, by decide +kernel⟩,
   ⟨ship, by decide +kernel⟩,
   ⟨act, by decide +kernel⟩⟩

theorem witness_StageRowsAct :
    (∃ (s : State) (mv : Nat) (pv : Stage) (code : Nat), s.stage.chans.length = 32 ∧ coreOn s = true ∧ ((mv < 4200 ∧
      pv = Stage.unavailable ∧ code = 0) ∨ (27500 < mv ∧ pv = Stage.overvoltage ∧ code = 2))) ∧
    (∃ (s : State) (x : Chan), s.stage.chans.length = 32 ∧ x.state ≠ .member) ∧
    (∃ (s : State) (mv : Nat), s.stage.chans.length = 32 ∧ 4200 ≤ mv ∧ mv ≤ 27500) ∧
    (∃ (s : State) (mv : Nat), s.stage.chans.length = 32 ∧ 4500 ≤ mv ∧ mv ≤ 27000 ∧ coreOn s = true ∧ s.stage.pv ≠
      .available ∧ s.stage.stage ≠ .available ∧ s.stage.thermal = false ∧ s.stage.linkDown = false) ∧
    (∃ (s : State) (mv : Nat), s.stage.chans.length = 32 ∧ 4500 ≤ mv ∧ mv ≤ 27000 ∧ coreOn s = true ∧ s.stage.pv ≠
      .available ∧ s.stage.stage ≠ .available ∧ s.stage.stage ≠ .thermal ∧ s.stage.thermal = true) ∧
    (∃ (s : State) (mv : Nat), s.stage.chans.length = 32 ∧ (mv < 4500 ∨ 27000 < mv)) ∧
    (∃ (s : State), s.stage.chans.length = 32 ∧ 1650 ≤ bridgeT s ∧ s.stage.thermal = false ∧ bridgeOn s = true) ∧
    (∃ (s : State), s.stage.chans.length = 32 ∧ (bridgeT s < 1650 ∨ bridgeOn s = false)) ∧
    (∃ (s : State), s.stage.chans.length = 32 ∧ bridgeT s < 1400 ∧ s.stage.thermal = true ∧ s.stage.pv = .available ∧
      s.stage.stage = .thermal ∧ bridgeOn s = true ∧ s.stage.linkDown = false ∧ (∀ c : Fin 16, (chan s c).held =
      false)) ∧
    (∃ (s : State), s.stage.chans.length = 32 ∧ bridgeT s < 1400 ∧ s.stage.thermal = true ∧ s.stage.pv ≠ .available ∧
      s.stage.stage = s.stage.pv ∧ bridgeOn s = true) ∧
    (∃ (s : State), s.stage.chans.length = 32 ∧ (1400 ≤ bridgeT s ∨ bridgeOn s = false)) :=
  ⟨⟨withStage { stage := .available, pv := .available }, 4199, .unavailable, 0, by decide +kernel⟩,
   ⟨withStage {}, { state := .latched }, by decide +kernel⟩,
   ⟨act, 4200, by decide +kernel⟩,
   ⟨withStage { pv := .unavailable }, 4500, by decide +kernel⟩,
   ⟨withStage { stage := .overvoltage, pv := .overvoltage, thermal := true }, 27000, by decide +kernel⟩,
   ⟨act, 4499, by decide +kernel⟩,
   ⟨withStage { stage := .available, pv := .available, pvdd := 15000, temps := [250, 1650, 250, 250] },
     by decide +kernel⟩,
   ⟨withStage { temps := [250, 1649, 250, 250] }, by decide +kernel⟩,
   ⟨withStage { stage := .thermal, pv := .available, thermal := true, pvdd := 15000, temps := [1399, 250, 250, 250] },
     by decide +kernel⟩,
   ⟨withStage { stage := .overvoltage, pv := .overvoltage, thermal := true, pvdd := 15000, temps := [1399, 250, 250,
     250] }, by decide +kernel⟩,
   ⟨withStage { temps := [250, 1400, 250, 250] }, by decide +kernel⟩⟩

theorem witness_DiagnosticRowsAct :
    (∃ (s : State), s.stage.chans.length = 32 ∧ s.cycle = 0 ∧ s.power.mode = .active ∧ leavingActive s = false ∧
      s.stage.stage = .available ∧ testMode s = false ∧ s.diag.state = .waiting ∧ bsnReached s.bsn s.diag.since = true
      ∧ (∀ h : Fin 16, bit s.diag.mask h = true → atRest (chan s h).state = true)) ∧
    (∃ (s : State), s.stage.chans.length = 32 ∧ s.cycle = 0 ∧ s.power.mode = .active ∧ leavingActive s = false ∧
      s.stage.stage = .available ∧ testMode s = false ∧ s.diag.state = .idle ∧ s.diag.bootDue = true) ∧
    (∃ (s : State), s.stage.chans.length = 32 ∧ (s.cycle ≠ 0 ∨ leavingActive s = true)) ∧
    (∃ (s : State), s.stage.chans.length = 32 ∧ s.diag.state = .phase1 ∧ s.cycle = 0 ∧ bsnReached s.bsn (s.diag.since
      + 400#40) = true) ∧
    (∃ (s : State) (h : _) (rest : List Nat), s.stage.chans.length = 32 ∧ s.diag.todo = h :: rest) ∧
    (∃ (s : State), s.stage.chans.length = 32 ∧ s.diag.todo = []) ∧
    (∃ (s : State), s.stage.chans.length = 32 ∧ s.diag.state ≠ .phase1) ∧
    (∃ (s : State) (h : _) (k : _) (rest : List Nat), s.stage.chans.length = 32 ∧ s.diag.cur = some h ∧ s.diag.state =
      .testing ∧ s.cycle = 0 ∧ bsnReached s.bsn (s.diag.since + 825#40) = true ∧ s.diag.todo = k :: rest) ∧
    (∃ (s : State) (h : _), s.stage.chans.length = 32 ∧ s.diag.cur = some h ∧ s.diag.state = .testing ∧ s.cycle = 0 ∧
      bsnReached s.bsn (s.diag.since + 825#40) = true ∧ s.diag.todo = []) ∧
    (∃ (s : State), s.stage.chans.length = 32 ∧ s.diag.cur = none) ∧
    (∃ (s : State), s.stage.chans.length = 32 ∧ s.cycle = 0 ∧ s.diag.state = .phase3 ∧ bsnReached s.bsn (s.diag.since
      + 400#40) = true) ∧
    (∃ (s : State), s.stage.chans.length = 32 ∧ s.cycle = 0 ∧ s.diag.state = .testing ∧ s.diag.cur = none ∧
      s.diag.todo = [] ∧ bsnReached s.bsn s.diag.since = true) ∧
    (∃ (s : State) (h : _), s.stage.chans.length = 32 ∧ s.cycle = 0 ∧ s.diag.state = .testing ∧ s.diag.cur = some h ∧
      s.diag.todo = [] ∧ s.bsn = s.diag.since + 825#40 ∧ sweepSe s = false) ∧
    (∃ (s : State) (p : PortId) (o : Outstanding), s.stage.chans.length = 32 ∧ sweepEndDue s = true ∧ slotOver s =
      none ∧ (findJobs s isDiag).head? = some (p, o)) ∧
    (∃ (s : State), s.stage.chans.length = 32 ∧ sweepEndDue s = true ∧ slotOver s = none ∧ s.diag.latched = 0 ∧
      findJobs s isDiag = []) ∧
    (∃ (s : State) (h : _), s.stage.chans.length = 32 ∧ sweepEndDue s = true ∧ slotOver s = some h) ∧
    (∃ (s : State), s.stage.chans.length = 32 ∧ sweepEndDue s = false) :=
  ⟨⟨withDiag { state := .waiting, mask := 1 }, by decide +kernel⟩,
   ⟨withDiag { bootDue := true }, by decide +kernel⟩,
   ⟨{ act with cycle := 1 }, by decide +kernel⟩,
   ⟨{ withDiag { state := .phase1, todo := [3] } with bsn := 400 }, by decide +kernel⟩,
   ⟨{ withDiag { state := .phase1, todo := [3] } with bsn := 400 }, 3, [], by decide +kernel⟩,
   ⟨act, by decide +kernel⟩,
   ⟨act, by decide +kernel⟩,
   ⟨{ withDiag { state := .testing, cur := some 0, todo := [3] } with bsn := 825 }, 0, 3, [], by decide +kernel⟩,
   ⟨{ withDiag { state := .testing, cur := some 0 } with bsn := 825 }, 0, by decide +kernel⟩,
   ⟨act, by decide +kernel⟩,
   ⟨{ withDiag { state := .phase3 } with bsn := 400 }, by decide +kernel⟩,
   ⟨{ withDiag { state := .testing } with bsn := 0 }, by decide +kernel⟩,
   ⟨{ withDiag { state := .testing, cur := some 15 } with bsn := 825 }, 15, by decide +kernel⟩,
   ⟨waiting [held .diagRun] ({ withDiag { state := .phase3 } with bsn := 400 }), .spi, held .diagRun,
     by decide +kernel⟩,
   ⟨{ withDiag { state := .phase3 } with bsn := 400 }, by decide +kernel⟩,
   ⟨{ withDiag { state := .testing, cur := some 15 } with bsn := 825 }, 15, by decide +kernel⟩,
   ⟨act, by decide +kernel⟩⟩

theorem witness_TouchRowsAct :
    (∃ (s : State), s.touch.scanning = true ∧ bsnReached s.bsn s.touch.next = true ∧ usPassed s (100 * (enabledEls
      s).length) s.touch.next 0 = true ∧ s.touch.els.length = 12) ∧
    (∃ (s : State), s.touch.scanning = false) ∧
    (∃ (s : State) (e : Fin 13), e.val ≠ 12 ∧ (elAt s e).state = .touched ∧ inSlider s e = false ∧ (elAt s e).held =
      false ∧ usPassed s (holdUs s) (elAt s e).at_ (elAt s e).cyc = true) ∧
    (∃ (s : State), s.touch.slider.touched = true ∧ s.touch.slider.held = false ∧ usPassed s (holdUs s)
      s.touch.slider.at_ s.touch.slider.cyc = true) ∧
    (∃ (s : State), s.touch.slider.held = true) ∧
    (∃ (s : State) (e : Fin 12), (elAt s e).state = .touched ∧ maxOn s ≠ 0 ∧ usPassed s (maxOn s * 1000000) (elAt s
      e).at_ (elAt s e).cyc = true) ∧
    (∃ (s : State), maxOn s = 0) ∧
    (∃ (s : State) (e : Fin 12) (value : Word), (Reg.tchCfg e).rangeOk s (Nat.land value.toNat (Reg.tchCfg e).mask) =
      true ∧ coreOn s = true ∧ s.touch.scanning = false) ∧
    (∃ (s : State) (e : Fin 12) (value : Word), (Reg.tchCfg e).rangeOk s (Nat.land value.toNat (Reg.tchCfg e).mask) =
      true ∧ coreOn s = true ∧ s.touch.scanning = true ∧ bit (rd s (.tchCfg e)) 0 = false ∧ bit (Nat.land value.toNat
      (Reg.tchCfg e).mask) 0 = true) ∧
    (∃ (s : State) (e : Fin 12) (value : Word), (Reg.tchCfg e).rangeOk s (Nat.land value.toNat (Reg.tchCfg e).mask) =
      true ∧ coreOn s = true ∧ s.touch.scanning = true ∧ bit (rd s (.tchCfg e)) 0 = true ∧ bit (Nat.land value.toNat
      (Reg.tchCfg e).mask) 0 = true ∧ (rd s (.tchCfg e)) ≠ (Nat.land value.toNat (Reg.tchCfg e).mask)) ∧
    (∃ (s : State) (e : Fin 12) (value : Word), (Reg.tchCfg e).rangeOk s (Nat.land value.toNat (Reg.tchCfg e).mask) =
      true ∧ coreOn s = true ∧ s.touch.scanning = true ∧ bit (rd s (.tchCfg e)) 0 = true ∧ bit (Nat.land value.toNat
      (Reg.tchCfg e).mask) 0 = false) ∧
    (∃ (s : State) (e : Fin 12) (value : Word), (Reg.tchCfg e).rangeOk s (Nat.land value.toNat (Reg.tchCfg e).mask) =
      false) ∧
    (∃ (s : State) (value : Word), coreOn s = true ∧ Reg.sldCfg.rangeOk s (Nat.land value.toNat Reg.sldCfg.mask) =
      true ∧ rd s .sldCfg ≠ (Nat.land value.toNat Reg.sldCfg.mask)) ∧
    (∃ (s : State) (value : Word), Reg.sldCfg.rangeOk s (Nat.land value.toNat Reg.sldCfg.mask) = true ∧ rd s .sldCfg =
      Nat.land value.toNat Reg.sldCfg.mask) ∧
    (∃ (s : State) (value : Word), Reg.sldCfg.rangeOk s (Nat.land value.toNat Reg.sldCfg.mask) = false) :=
  ⟨⟨withTouch { scanning := true }, by decide +kernel⟩,
   ⟨act, by decide +kernel⟩,
   ⟨{ withEl { state := .touched } with bsn := 1048576 }, 0, by decide +kernel⟩,
   ⟨{ withTouch { slider := { touched := true } } with bsn := 0x100000 }, by decide +kernel⟩,
   ⟨withTouch { slider := { held := true } }, by decide +kernel⟩,
   ⟨{ wr (withEl { state := .touched }) .tchGlobal 0x20000 with bsn := 0x100000 }, 0, by decide +kernel⟩,
   ⟨wr act .tchGlobal 0, by decide +kernel⟩,
   ⟨act, 11, 0x3251#32, by decide +kernel⟩,
   ⟨withEl {}, 0, 0x3251#32, by decide +kernel⟩,
   ⟨wr (withEl {}) (.tchCfg 0) 0x3251, 0, 0x3253#32, by decide +kernel⟩,
   ⟨wr (withEl {}) (.tchCfg 0) 0x3251, 0, 0x3250#32, by decide +kernel⟩,
   ⟨act, 0, 0#32, by decide +kernel⟩,
   ⟨act, 0x61#32, by decide +kernel⟩,
   ⟨wr act .sldCfg 0x61, 0x61#32, by decide +kernel⟩,
   ⟨act, 0#32, by decide +kernel⟩⟩

theorem witness_KeyRowsAct :
    (∃ (s : State) (k : Fin 6), (keyAt s k).pressed = false ∧ keysWatched s = true ∧ keyEn s k = true) ∧
    (∃ (s : State) (k : Fin 6), (keyAt s k).pressed = false ∧ keysWatched s = true ∧ keyEn s k = false) ∧
    (∃ (s : State), s.power.mode = .ship ∧ s.power.boot ≠ .released) ∧
    (∃ (s : State) (k : Fin 6), (keyAt s k).pressed = true ∧ keysWatched s = true ∧ keyEn s k = true) ∧
    (∃ (s : State) (k : Fin 6), (keyAt s k).pressed = true ∧ keysWatched s = true ∧ keyEn s k = true ∧ (keyAt s
      k).long = false ∧ keyLongUs s k ≠ 0 ∧ ((keyAt s k).bootHeld = true → s.record.last ≠ 5 → usPassed s (keyLongUs s
      k - 5000) (keyAt s k).since (keyAt s k).cyc = true) ∧ ((keyAt s k).bootHeld = false → usPassed s (keyLongUs s k)
      (keyAt s k).since (keyAt s k).cyc = true)) ∧
    (∃ (s : State) (k : Fin 6), (keyAt s k).long = true) :=
  ⟨⟨wr act (.keyCfg 5) 1, 5, by decide +kernel⟩,
   ⟨wr act (.keyCfg 5) 0, 5, by decide +kernel⟩,
   ⟨ship, by decide +kernel⟩,
   ⟨wr (withKey { pressed := true }) (.keyCfg 0) 1, 0, by decide +kernel⟩,
   ⟨{ wr (withKey { pressed := true }) (.keyCfg 0) 0x201 with bsn := 0x100000 }, 0, by decide +kernel⟩,
   ⟨withKey { long := true }, 0, by decide +kernel⟩⟩

theorem witness_FaultRowsAct :
    (∃ (s : State) (r : FaultReport), unitPowered s r.suspect.kind = false) ∧
    (∃ (s : State) (r : FaultReport), unitPowered s r.suspect.kind = true ∧ r.cls ≠ .finger ∧ r.cls ≠ .selfTest) ∧
    (∃ (s : State) (r : FaultReport), unitPowered s r.suspect.kind = true ∧ r.cls = .selfTest) ∧
    (∃ (r : FaultReport), (r.cls ≠ .tag ∨ ∀ b, r.word ≠ .signal b)) ∧
    (∃ (s : State) (r : FaultReport), ((suspectKinds (trueSuspect s (ownEngine r)).cls).contains (trueSuspect s
      (ownEngine r)).suspect.kind = false ∨ unitOk (trueSuspect s (ownEngine r)).suspect = false ∨ unitOk (trueSuspect
      s (ownEngine r)).reporter = false)) ∧
    (∃ (s : State) (r : FaultReport) (c : _), (suspectKinds (trueSuspect s (ownEngine r)).cls).contains (trueSuspect s
      (ownEngine r)).suspect.kind = true ∧ unitOk (trueSuspect s (ownEngine r)).suspect = true ∧ unitOk (trueSuspect s
      (ownEngine r)).reporter = true ∧ foundClass s (trueSuspect s (ownEngine r)) = some c) ∧
    (∃ (s : State) (r : FaultReport) (x : Injection), (suspectKinds (trueSuspect s (ownEngine r)).cls).contains
      (trueSuspect s (ownEngine r)).suspect.kind = true ∧ unitOk (trueSuspect s (ownEngine r)).suspect = true ∧ unitOk
      (trueSuspect s (ownEngine r)).reporter = true ∧ foundClass s (trueSuspect s (ownEngine r)) = none ∧ injectionFor
      s (trueSuspect s (ownEngine r)) = some x) ∧
    (∃ (s : State) (r : FaultReport), (suspectKinds (trueSuspect s (ownEngine r)).cls).contains (trueSuspect s
      (ownEngine r)).suspect.kind = true ∧ unitOk (trueSuspect s (ownEngine r)).suspect = true ∧ unitOk (trueSuspect s
      (ownEngine r)).reporter = true ∧ foundClass s (trueSuspect s (ownEngine r)) = none ∧ injectionFor s (trueSuspect
      s (ownEngine r)) = none) ∧
    (∃ (r : FaultReport) (l : _), (r.cls = .residue ∨ r.cls = .decResidue) ∧ r.found = .macs l) ∧
    (∃ (r : FaultReport) (a : _) (b : _), r.cls = .unitCompare ∧ r.found = .copies a b) ∧
    (∃ (r : FaultReport) (a : _) (v : _), r.cls = .lbufUe ∧ r.found = .localWord a v) ∧
    (∃ (r : FaultReport) (ws : _) (n : _), r.cls = .moveCheck ∧ r.found = .transfer ws n) ∧
    (∃ (r : FaultReport) (ws : _) (n : _), r.cls = .portParity ∧ r.found = .transfer ws n) ∧
    (∃ (r : FaultReport) (n : _), r.cls = .bankWait ∧ r.found = .waited n) ∧
    (∃ (r : FaultReport) (bytes : _), r.cls = .descriptor ∧ r.found = .descriptor bytes) ∧
    (∃ (s : State) (r : FaultReport) (bank : _) (addr : _) (flips : List Nat) (i : _) (tag : _), (r.cls = .bankUe ∨
      r.cls = .tag) ∧ r.found = .bankWord bank addr flips i tag ∧ bank < 18 ∧ wordFails s bank addr (toggled (flipsOf
      s bank addr) flips) = true) ∧
    (∃ (s : State) (r : FaultReport) (bank : _) (addr : _) (flips : List Nat) (i : _) (tag : _) (b : _), (r.cls =
      .bankUe ∨ r.cls = .tag) ∧ r.found = .bankWord bank addr flips i tag ∧ bank < 18 ∧ wordFails s bank addr (toggled
      (flipsOf s bank addr) flips) = false ∧ r.word = .signal b) ∧
    (∃ (s : State) (u : Option UnitRef) (me : _) (i : _) (x : Ready), u.bind engineOf = some (me, i) ∧ (engineAt
      s.drover me i).phase = .busy ∧ (engineAt s.drover me i).run = some x) ∧
    (∃ (r : FaultReport), replays r.cls = true ∧ r.cls ≠ .portParity ∧ r.cls ≠ .bankWait) ∧
    (∃ (s : State) (r : FaultReport) (x : Machine.Task), replays r.cls = true ∧ (r.cls = .portParity ∨ r.cls =
      .bankWait) ∧ (stopTask s r.engine true).2 = some x) ∧
    (∃ (r : FaultReport) (b : _), (r.cls = .bankUe ∨ r.cls = .tag) ∧ r.word = .signal b) ∧
    (∃ (s : State) (r : FaultReport) (i : _), (r.cls = .bankUe ∨ r.cls = .tag) ∧ r.word = .state ∧ runningInst ((if
      r.cls = .bankUe then modBank (readLeaves s r r.cls) r.suspect.index (fun k => { k with ue := bump 0xFFFF k.ue })
      else readLeaves s r r.cls)) r.engine = some i) ∧
    (∃ (s : State) (r : FaultReport) (i : _), (r.cls = .bankUe ∨ r.cls = .tag) ∧ r.word = .line ∧ runningInst ((if
      r.cls = .bankUe then modBank (readLeaves s r r.cls) r.suspect.index (fun k => { k with ue := bump 0xFFFF k.ue })
      else readLeaves s r r.cls)) r.engine = some i) ∧
    (∃ (r : FaultReport) (bank : _) (addr : _) (flips : List Nat) (i : _) (tag : _), r.found = .bankWord bank addr
      flips i tag) ∧
    (∃ (r : FaultReport), r.cls = .decResidue) ∧
    (∃ (s : State) (x : Injection) (p : PortId) (o : Outstanding), (findJobs s (isInject x.id)).head? = some (p, o)) ∧
    (∃ (s : State) (hb : Fin 16) (rep : FingerReport), (unitPowered s .finger = false ∨ fingerChecks s hb rep.finger
      rep.gate rep.cycles = false)) ∧
    (∃ (s : State) (hb : Fin 16) (f : Fin 8), (s.health.fingers.getD hb []).contains f.val = false) ∧
    (∃ (s : State) (hb : Fin 16) (rep : FingerReport), unitPowered s .finger = true ∧ fingerChecks s hb rep.finger
      rep.gate rep.cycles = true ∧ (s.health.fingerDue.filter (fun d => d.hb == hb.val)).any
      (fun d => d.finger == rep.finger.val) = true) ∧
    (∃ (s : State) (hb : Fin 16) (rep : FingerReport), unitPowered s .finger = true ∧ fingerChecks s hb rep.finger
      rep.gate rep.cycles = true ∧ (s.health.fingerDue.filter (fun d => d.hb == hb.val)).any
      (fun d => d.finger == rep.finger.val) = false) ∧
    (∃ (s : State) (oe : Fin 56), (engineAt s.drover false oe).phase = .busy ∧ (engineAt s.drover false oe).since + 17
      + 16384 + (engineAt s.drover false oe).waits = s.cycle) ∧
    (∃ (s : State) (oe : Fin 56), (engineAt s.drover false oe).phase = .busy ∧ (engineAt s.drover false oe).since + 17
      = s.cycle) ∧
    (∃ (s : State) (oe : Fin 56), ((engineAt s.drover false oe).phase ≠ .busy ∨ ((engineAt s.drover false oe).since +
      17 ≠ s.cycle ∧ (engineAt s.drover false oe).since + 17 + 16384 + (engineAt s.drover false oe).waits ≠ s.cycle))) ∧
    (∃ (s : State) (u : UnitRef) (me : _) (i : _), engineOf u = some (me, i) ∧ (engineAt s.drover me i).phase = .busy
      ∧ (engineAt s.drover me i).since + 1024 < s.cycle) ∧
    (∃ (s : State) (u : UnitRef) (me : _) (i : _), engineOf u = some (me, i) ∧ (engineAt s.drover me i).phase = .busy
      ∧ s.cycle ≤ (engineAt s.drover me i).since + 1024) ∧
    (∃ (s : State) (u : UnitRef) (me : _) (i : _), engineOf u = some (me, i) ∧ (engineAt s.drover me i).phase ≠ .busy) ∧
    (∃ (u : UnitRef), engineOf u = none) :=
  ⟨⟨ship, ⟨.residue, oe0, oe0, some oe0, .none, .none⟩, by decide +kernel⟩,
   ⟨act, ⟨.residue, oe0, oe0, some oe0, .none, .none⟩, by decide +kernel⟩,
   ⟨act, ⟨.selfTest, oe0, oe0, none, .none, .none⟩, by decide +kernel⟩,
   ⟨⟨.residue, oe0, oe0, some oe0, .none, .none⟩, Or.inl (by decide)⟩,
   ⟨act, ⟨.residue, ⟨.bank, 0, 0⟩, oe0, some oe0, .none, .none⟩, by decide +kernel⟩,
   ⟨act, ⟨.unitCompare, oe0, oe0, some oe0, .none, .copies 0 1⟩, .unitCompare, by decide +kernel⟩,
   ⟨{ busy0 with health := { inject := [⟨0, .residue, oe0, 0, 0⟩] } }, ⟨.residue, oe0, oe0, some oe0, .none, .none⟩,
     ⟨0, .residue, oe0, 0, 0⟩, by decide +kernel⟩,
   ⟨act, ⟨.unitCompare, oe0, oe0, some oe0, .none, .copies 1 1⟩, by decide +kernel⟩,
   ⟨⟨.residue, oe0, oe0, some oe0, .none, .macs [(1, 2, 1)]⟩, [(1, 2, 1)], by decide +kernel⟩,
   ⟨⟨.unitCompare, oe0, oe0, some oe0, .none, .copies 0 1⟩, 0, 1, by decide +kernel⟩,
   ⟨⟨.lbufUe, oe0, oe0, some oe0, .none, .localWord 4095 7⟩, 4095, 7, by decide +kernel⟩,
   ⟨⟨.moveCheck, ⟨.me, 1, 0⟩, oe0, some oe0, .none, .transfer [(1, false)] 1⟩, [(1, false)], 1, by decide +kernel⟩,
   ⟨⟨.portParity, ⟨.bank, 0, 0⟩, oe0, some oe0, .none, .transfer [(1, false)] 1⟩, [(1, false)], 1, by decide +kernel⟩,
   ⟨⟨.bankWait, ⟨.bank, 0, 0⟩, oe0, some oe0, .none, .waited 1025⟩, 1025, by decide +kernel⟩,
   ⟨⟨.descriptor, ⟨.bank, 0, 0⟩, oe0, none, .paddock, .descriptor []⟩, [], by decide +kernel⟩,
   ⟨act, ⟨.bankUe, ⟨.bank, 0, 0⟩, oe0, some oe0, .none, .bankWord 0 7 [0, 1, 2] 0 0⟩, 0, 7, [0, 1, 2], 0, 0,
     by decide +kernel⟩,
   ⟨act, ⟨.tag, ⟨.bank, 0, 0⟩, oe0, some oe0, .signal 0, .bankWord 0 7 [] 0 0⟩, 0, 7, [], 0, 0, 0, by decide +kernel⟩,
   ⟨busy0, some oe0, false, 0, task0, by decide +kernel⟩,
   ⟨⟨.residue, oe0, oe0, some oe0, .none, .none⟩, by decide +kernel⟩,
   ⟨busy0, ⟨.portParity, ⟨.bank, 0, 0⟩, oe0, some oe0, .none, .none⟩, task0.task, by decide +kernel⟩,
   ⟨⟨.bankUe, ⟨.bank, 0, 0⟩, oe0, some oe0, .signal 0, .none⟩, 0, by decide +kernel⟩,
   ⟨busy0, ⟨.bankUe, ⟨.bank, 0, 0⟩, oe0, some oe0, .state, .none⟩, 0, by decide +kernel⟩,
   ⟨busy0, ⟨.tag, ⟨.bank, 0, 0⟩, oe0, some oe0, .line, .none⟩, 0, by decide +kernel⟩,
   ⟨⟨.bankUe, ⟨.bank, 0, 0⟩, oe0, some oe0, .none, .bankWord 0 7 [0, 1, 2] 0 0⟩, 0, 7, [0, 1, 2], 0, 0,
     by decide +kernel⟩,
   ⟨⟨.decResidue, ⟨.dec, 23, 0⟩, oe0, some oe0, .none, .none⟩, by decide +kernel⟩,
   ⟨waiting [held (.inject 0)] (withHealth { inject := [⟨0, .decResidue, ⟨.dec, 23, 0⟩, 0, 0⟩] }), ⟨0, .decResidue,
     ⟨.dec, 23, 0⟩, 0, 0⟩, .spi, held (.inject 0), by decide +kernel⟩,
   ⟨ship, 0, ⟨7, true, []⟩, by decide +kernel⟩,
   ⟨{ act with clock := { state := .freerun }, stage := { pvdd := 15000, chans := List.replicate 32 {} } }, 15, 7,
     by decide +kernel⟩,
   ⟨{ withHealth { fingerDue := [⟨0, 7, none, false⟩] } with clock := { state := .freerun }, stage :=
     { pvdd := 15000, chans := List.replicate 32 {} } }, 0, ⟨7, true, []⟩, by decide +kernel⟩,
   ⟨{ withHealth { fingerDue := [] } with clock := { state := .freerun }, stage :=
     { pvdd := 15000, chans := List.replicate 32 {} } }, 15, ⟨7, false, List.replicate 64 [100, 100, 100, 100, 100,
     100, 100, 1000]⟩, by decide +kernel⟩,
   ⟨{ busy0 with cycle := 16401 }, 0, by decide +kernel⟩,
   ⟨{ busy0 with cycle := 17 }, 0, by decide +kernel⟩,
   ⟨{ busy0 with cycle := 16400 }, 0, by decide +kernel⟩,
   ⟨{ busy0 with cycle := 1025 }, oe0, false, 0, by decide +kernel⟩,
   ⟨{ busy0 with cycle := 1024 }, oe0, false, 0, by decide +kernel⟩,
   ⟨act, oe0, false, 0, by decide +kernel⟩,
   ⟨⟨.dec, 0, 0⟩, by decide +kernel⟩⟩

theorem witness_FaultTableRowsAct :
    (∃ (s : State), s.health.reports = []) ∧
    (∃ (s : State) (r : Report) (rest : _), s.health.reports = r :: rest) ∧
    (∃ (s : State) (r : Report), s.health.reports = [r]) ∧
    (∃ (s : State) (r : Report) (i : _), s.health.table.findIdx?
      (fun x => match x with | some e => e.cls == r.rep.cls && e.suspect == r.rep.suspect | none => false) = some i) ∧
    (∃ (s : State) (r : Report) (i : _), s.health.table.findIdx?
      (fun x => match x with | some e => e.cls == r.rep.cls && e.suspect == r.rep.suspect | none => false) = none ∧
      s.health.table.findIdx? Option.isNone = some i) ∧
    (∃ (s : State) (r : Report), s.health.table.findIdx?
      (fun x => match x with | some e => e.cls == r.rep.cls && e.suspect == r.rep.suspect | none => false) = none ∧
      s.health.table.findIdx? Option.isNone = none) ∧
    (∃ (s : State) (u : UnitRef) (b : Bsn) (l : Bsn), s.health.incidents.find? (fun x => x.1 == u) = some (u, l) ∧
      bsnSince b l ≤ 64) ∧
    (∃ (s : State) (u : UnitRef) (b : Bsn), (∀ x, s.health.incidents.find? (fun x => x.1 == u) = some x → 64 <
      bsnSince b x.2) ∧ u.kind = .finger) ∧
    (∃ (s : State) (u : UnitRef) (b : Bsn), (∀ x, s.health.incidents.find? (fun x => x.1 == u) = some x → 64 <
      bsnSince b x.2) ∧ u.kind ≠ .finger) ∧
    (∃ (r : Report) (rs : List Report), (r :: rs).any (fun x => !x.injected) = false) ∧
    (∃ (s : State) (b : Nat), (bankAt s b).reset.isSome = true) ∧
    (∃ (s : State) (b : Nat), (bankAt s b).reset = none) ∧
    (∃ (s : State) (b : Nat), (bankAt s b).resetDone = false) ∧
    (∃ (s : State) (b : Nat), (bankAt s b).resetDone = true ∧ (bankAt s b).reset.isSome = true) ∧
    (∃ (s : State) (b : Nat), (bankAt s b).resetDone = true ∧ (bankAt s b).reset = none) ∧
    (∃ (s : State) (b : Fin 18) (n : _) (c : _), (bankAt s b).reset = some (n, c) ∧ 128 ≤ cyclesSince s n c) ∧
    (∃ (s : State) (b : Fin 18) (n : _) (c : _), (bankAt s b).reset = some (n, c) ∧ cyclesSince s n c < 128) ∧
    (∃ (s : State) (b : Fin 18), (bankAt s b).reset = none) ∧
    (∃ (s : State) (b : Fin 18), (ckSys s = false ∨ bankBusy s b = true ∨ scrubDue s b = none)) ∧
    (∃ (s : State) (b : Fin 18) (due : _) (x : Injection), ckSys s = true ∧ bankBusy s b = false ∧ scrubDue s b = some
      due ∧ bankInjection s .portParity b = some x) ∧
    (∃ (s : State) (b : Fin 18) (l : List Nat) (due : _), ckSys s = true ∧ bankBusy s b = false ∧ scrubDue s b = some
      due ∧ bankInjection s .portParity b = none ∧ wordFails (modBank s b (fun k => { k with scrubAt := some due })) b
      ((bankAt s b).next) (toggled (flipsOf (modBank s b (fun k => { k with scrubAt := some due })) b ((bankAt s
      b).next)) l) = false ∧ bankInjection (modBank s b (fun k => { k with scrubAt := some due })) .bankUe b = none ∧
      ((toggled (flipsOf (modBank s b (fun k => { k with scrubAt := some due })) b ((bankAt s b).next)) l).length) =
      2) ∧
    (∃ (s : State) (b : Fin 18) (l : List Nat) (due : _), ckSys s = true ∧ bankBusy s b = false ∧ scrubDue s b = some
      due ∧ bankInjection s .portParity b = none ∧ wordFails (modBank s b (fun k => { k with scrubAt := some due })) b
      ((bankAt s b).next) (toggled (flipsOf (modBank s b (fun k => { k with scrubAt := some due })) b ((bankAt s
      b).next)) l) = false ∧ bankInjection (modBank s b (fun k => { k with scrubAt := some due })) .bankUe b = none ∧
      ((toggled (flipsOf (modBank s b (fun k => { k with scrubAt := some due })) b ((bankAt s b).next)) l).length) <
      2) ∧
    (∃ (s : State) (b : Fin 18) (l : List Nat) (due : _), ckSys s = true ∧ bankBusy s b = false ∧ scrubDue s b = some
      due ∧ bankInjection s .portParity b = none ∧ wordFails (modBank s b (fun k => { k with scrubAt := some due })) b
      ((bankAt s b).next) (toggled (flipsOf (modBank s b (fun k => { k with scrubAt := some due })) b ((bankAt s
      b).next)) l) = true) ∧
    (∃ (s : State) (b : Fin 18) (l : List Nat) (due : _) (x : Injection), ckSys s = true ∧ bankBusy s b = false ∧
      scrubDue s b = some due ∧ bankInjection s .portParity b = none ∧ wordFails (modBank s b
      (fun k => { k with scrubAt := some due })) b ((bankAt s b).next) (toggled (flipsOf (modBank s b
      (fun k => { k with scrubAt := some due })) b ((bankAt s b).next)) l) = false ∧ bankInjection (modBank s b
      (fun k => { k with scrubAt := some due })) .bankUe b = some x) ∧
    (∃ (s : State) (b : Fin 18) (n : _), n ≠ 1 ∧ (bankAt s b).next + 1 < 49152) ∧
    (∃ (s : State) (b : Fin 18), (bankAt s b).next + 1 < 49152 ∧ ((bankAt s b).curCe + 1 < s.health.cfg.passLimit ∨
      (bankAt s b).passDone = true)) ∧
    (∃ (s : State) (b : Fin 18) (n : _), n ≠ 1 ∧ 49152 ≤ (bankAt s b).next + 1) ∧
    (∃ (s : State) (b : Fin 18), (bankAt s b).next + 1 < 49152 ∧ s.health.cfg.passLimit ≤ (bankAt s b).curCe + 1 ∧
      (bankAt s b).passDone = false) ∧
    (∃ (s : State) (b : Fin 18), ((bankAt s b).ce2At.filter
      (fun x => decide (bsnSince s.bsn x < s.health.cfg.window * 14400000)) ++ [s.bsn]).length <
      s.health.cfg.ce2Limit) ∧
    (∃ (s : State) (b : Fin 18), s.health.cfg.ce2Limit ≤ ((bankAt s b).ce2At.filter
      (fun x => decide (bsnSince s.bsn x < s.health.cfg.window * 14400000)) ++ [s.bsn]).length ∧ ((bankAt s b).ce2Done
      = false ∨ ((bankAt s b).ce2At.filter (fun x => decide (bsnSince s.bsn x < s.health.cfg.window * 14400000)) ++
      [s.bsn]).length = s.health.cfg.ce2Limit)) ∧
    (∃ (s : State) (b : Nat), incidentOpen s b = true ∧ (bankAt s b).fired = true) ∧
    (∃ (s : State) (b : Nat) (x : _), (bankAt s b).inSvc = true ∧ spareBank s = some x ∧ autoFlag s 1 = true ∧
      s.health.migQueue.any (fun m => m.src == b) = false ∧ s.health.migration.map (fun m => m.src) ≠ some b) ∧
    (∃ (s : State) (b : Nat), (bankAt s b).inSvc = false ∧ (bankAt s b).failed = false ∧ s.health.migration = none) ∧
    (∃ (s : State) (b : Nat), (bankAt s b).inSvc = true ∧ spareBank s = none) :=
  ⟨⟨act, by decide +kernel⟩,
   ⟨withHealth { reports := [⟨⟨.residue, oe0, oe0, none, .none, .none⟩, false, 0, 0, none⟩] }, ⟨⟨.residue, oe0, oe0,
     none, .none, .none⟩, false, 0, 0, none⟩, [], by decide +kernel⟩,
   ⟨withHealth { reports := [⟨⟨.residue, oe0, oe0, none, .none, .none⟩, false, 0, 0, none⟩] }, ⟨⟨.residue, oe0, oe0,
     none, .none, .none⟩, false, 0, 0, none⟩, by decide +kernel⟩,
   ⟨withHealth { table := [some ⟨.residue, oe0, true, 65535, oe0, 0, 0, 0, 0⟩] }, ⟨⟨.residue, oe0, oe0, none, .none,
     .none⟩, false, 0, 0, none⟩, 0, by decide +kernel⟩,
   ⟨act, ⟨⟨.residue, oe0, oe0, none, .none, .none⟩, false, 0, 0, none⟩, 0, by decide +kernel⟩,
   ⟨withHealth { table := [] }, ⟨⟨.residue, oe0, oe0, none, .none, .none⟩, false, 0, 0, none⟩, by decide +kernel⟩,
   ⟨withHealth { incidents := [(oe0, 0)] }, oe0, 64, 0, by decide +kernel⟩,
   ⟨withHealth { incidents := [(⟨.finger, 0, 0⟩, 0)] }, ⟨.finger, 0, 0⟩, 65,
     (fun x h => by rw [← Option.some.inj (show some (⟨.finger, 0, 0⟩, 0) = some x from h)]; decide +kernel),
     by decide⟩,
   ⟨withHealth { incidents := [(oe0, 0)] }, oe0, 65,
     (fun x h => by rw [← Option.some.inj (show some (oe0, 0) = some x from h)]; decide +kernel), by decide⟩,
   ⟨⟨⟨.residue, oe0, oe0, none, .none, .none⟩, true, 0, 0, none⟩, [], by decide +kernel⟩,
   ⟨{ withHealth { banks := [{ reset := some (0, 0) }] } with cycle := 127 }, 0, by decide +kernel⟩,
   ⟨act, 17, by decide +kernel⟩,
   ⟨act, 17, by decide +kernel⟩,
   ⟨{ withHealth { banks := [{ resetDone := true, reset := some (0, 0) }] } with cycle := 127 }, 0, by decide +kernel⟩,
   ⟨{ withHealth { banks := [{ resetDone := true }] } with cycle := 127 }, 0, by decide +kernel⟩,
   ⟨{ withHealth { banks := [{ reset := some (0, 0) }] } with cycle := 128 }, 0, 0, 0, by decide +kernel⟩,
   ⟨{ withHealth { banks := [{ reset := some (0, 0) }] } with cycle := 127 }, 0, 0, 0, by decide +kernel⟩,
   ⟨act, 17, by decide +kernel⟩,
   ⟨low, 17, by decide +kernel⟩,
   ⟨withHealth { inject := [⟨0, .portParity, ⟨.bank, 17, 0⟩, 0, 0⟩] }, 17, (0, 0), ⟨0, .portParity, ⟨.bank, 17, 0⟩, 0,
     0⟩, by decide +kernel⟩,
   ⟨act, 17, [0, 1], (0, 0), by decide +kernel⟩,
   ⟨act, 17, [0], (0, 0), by decide +kernel⟩,
   ⟨act, 17, [0, 1, 2], (0, 0), by decide +kernel⟩,
   ⟨withHealth { inject := [⟨0, .bankUe, ⟨.bank, 17, 0⟩, 0, 0⟩] }, 17, [], (0, 0), ⟨0, .bankUe, ⟨.bank, 17, 0⟩, 0, 0⟩,
     by decide +kernel⟩,
   ⟨act, 17, 3, by decide +kernel⟩,
   ⟨withHealth { banks := [{ curCe := 0 }] }, 0, by decide +kernel⟩,
   ⟨withHealth { banks := [{ next := 49151 }] }, 0, 0, by decide +kernel⟩,
   ⟨withHealth { banks := [{ curCe := 49151 }] }, 0, by decide +kernel⟩,
   ⟨act, 17, by decide +kernel⟩,
   ⟨withHealth { cfg := { ce2Limit := 1 } }, 17, by decide +kernel⟩,
   ⟨withHealth { incidents := [(⟨.bank, 0, 0⟩, 0)], banks := [{ fired := true }] }, 0, by decide +kernel⟩,
   ⟨withHealth { cfg := { flags := 2 } }, 0, 16, by decide +kernel⟩,
   ⟨act, 16, by decide +kernel⟩,
   ⟨withHealth { banks := [{}] }, 0, by decide +kernel⟩⟩

theorem witness_RepairRowsAct :
    (∃ (s : State), s.cycle ≠ 0) ∧
    (∃ (s : State), s.cycle = 0) ∧
    (∃ (s : State), s.cycle = 0 ∧ s.health.forced = [] ∧ autoFlag s 0 = false) ∧
    (∃ (s : State) (i : Nat) (j : Nat) (cls : _), s.cycle = 0 ∧ s.health.forced = [] ∧ autoFlag s 0 = true ∧
      s.drover.oes.length = 56 ∧ i < 56 ∧ i ≠ j ∧ (engineAt s.drover false i).leaves = some cls ∧ (∀ k, k ≠ i →
      (engineAt s.drover false k).leaves = none) ∧ (∀ k, (engineAt s.drover true k).leaves = none) ∧ spareOe s = some
      j) ∧
    (∃ (s : State), spareOe s = none) ∧
    (∃ (s : State) (f : Forced), s.health.forced = [f] ∧ (engineAt s.drover f.me f.unit).inSvc = false) ∧
    (∃ (s : State) (f : Forced), s.health.forced = [f] ∧ (engineAt s.drover f.me f.unit).inSvc = true) ∧
    (∃ (s : State), (s.cycle ≠ 0 ∨ ckSys s = false ∨ (s.health.migration.isSome = true ∧ mayMigrate s ≠ []))) ∧
    (∃ (s : State), mayMigrate s = [] ∧ s.cycle = 0 ∧ ckSys s = true) ∧
    (∃ (s : State) (d : _) (rest : _) (x : _), mayMigrate s = d :: rest ∧ s.cycle = 0 ∧ s.health.migration = none ∧
      ckSys s = true ∧ (bankAt s d.src).inSvc = true ∧ spareBank s = some x) ∧
    (∃ (s : State) (d : _) (rest : _), mayMigrate s = d :: rest ∧ s.cycle = 0 ∧ s.health.migration = none ∧ ckSys s =
      true ∧ ((bankAt s d.src).inSvc = false ∨ spareBank s = none)) ∧
    (∃ (s : State) (m : _), s.health.migration = some m ∧ ckSys s = true ∧ m.copied = false ∧ 983040 ≤ m.before *
      294912 + cyclesSince s m.begun 0) ∧
    (∃ (s : State) (m : _), s.health.migration = some m ∧ (ckSys s = false ∨ m.copied = true ∨ m.before * 294912 +
      cyclesSince s m.begun 0 < 983040)) ∧
    (∃ (s : State) (m : _), s.health.migration = some m ∧ (m.copied = false ∨ s.cycle ≠ 0 ∨ ckSys s = false)) ∧
    (∃ (s : State) (m : _), s.health.migration = some m ∧ m.copied = true ∧ s.cycle = 0 ∧ ckSys s = true) ∧
    (∃ (s : State), s.health.migration = none) ∧
    (∃ (s : State), (s.cycle ≠ 0 ∨ ckSys s = false)) ∧
    (∃ (s : State), s.cycle = 0 ∧ ckSys s = true) ∧
    (∃ (s : State) (x : DecSwap), (x.begun.isSome = true ∨ decWaits s x.old = true)) ∧
    (∃ (s : State) (x : DecSwap), x.begun = none ∧ decWaits s x.old = false ∧ x.forced = none ∧ autoFlag s 2 = false) ∧
    (∃ (s : State) (x : DecSwap) (n : _), x.begun = none ∧ decWaits s x.old = false ∧ (x.forced.isSome = true ∨
      autoFlag s 2 = true) ∧ spareDec s = some n) ∧
    (∃ (s : State) (x : DecSwap), x.begun = none ∧ decWaits s x.old = false ∧ (x.forced.isSome = true ∨ autoFlag s 2 =
      true) ∧ spareDec s = none) ∧
    (∃ (s : State) (x : DecSwap) (b : Bsn), x.begun = some b ∧ bsnReached s.bsn (b + 4#40) = false) ∧
    (∃ (s : State) (x : DecSwap) (n : _), x.new = some n ∧ (decAt s n).failed = true) ∧
    (∃ (s : State) (x : DecSwap) (b : Bsn) (n : _), x.begun = some b ∧ x.new = some n ∧ bsnReached s.bsn (b + 4#40) =
      true ∧ n ≠ x.old ∧ (decAt s n).failed = false ∧ n < s.health.decs.length ∧ x.old < s.health.decs.length ∧
      x.forced = none) ∧
    (∃ (s : State) (d : _), s.health.fingerDue = [d]) ∧
    (∃ (s : State) (u : UnitRef) (x : SelfTest), s.health.tests.find? (fun y => y.unit == u) = some x ∧ isSpare s u =
      true ∧ 16384 ≤ cyclesSince s x.from_.1 x.from_.2 ∧ x.svc = none) ∧
    (∃ (s : State) (u : UnitRef) (x : SelfTest) (pass : Bool) (n : _) (p : PortId) (o : Outstanding),
      s.health.tests.find? (fun y => y.unit == u) = some x ∧ isSpare s u = true ∧ 16384 ≤ cyclesSince s x.from_.1
      x.from_.2 ∧ x.svc = some n ∧ findSeq ((if pass = false then spareFails (testOver s x) u else if u.kind = .oe
      then
      { (testOver s x) with health := { (testOver s x).health with oePassed := u.index :: (testOver s x).health.oePassed.filter (fun k => k != u.index) } }
      else modDec (testOver s x) u.index (fun d => { d with passed := true }))) n = some (p, o)) ∧
    (∃ (s : State) (x : SelfTest), s.health.tests = [x]) ∧
    (∃ (s : State) (x : SelfTest) (y : SelfTest), s.health.tests = [x, y] ∧ x ≠ y ∧ x.unit = y.unit) ∧
    (∃ (s : State) (u : UnitRef), (u.kind = .oe ∨ u.kind = .dec) ∧ (u.kind = .dec → u.index < s.health.decs.length)) ∧
    (∃ (s : State) (u : UnitRef), (s.health.tests.find? (fun y => y.unit == u) = none ∨ isSpare s u = false ∨ (∀ x,
      s.health.tests.find? (fun y => y.unit == u) = some x → cyclesSince s x.from_.1 x.from_.2 < 16384))) :=
  ⟨⟨{ act with cycle := 1 }, by decide +kernel⟩,
   ⟨act, by decide +kernel⟩,
   ⟨withHealth { cfg := { flags := 6 } }, by decide +kernel⟩,
   ⟨leaving, 0, 48, .residue, by decide, by decide, by decide, by decide, by decide, by decide, by decide,
     leaving_oes, leaving_mes, by decide +kernel⟩,
   ⟨act, by decide +kernel⟩,
   ⟨withHealth { forced := [⟨0, false, 48, false⟩] }, ⟨0, false, 48, false⟩, by decide +kernel⟩,
   ⟨withHealth { forced := [⟨0, true, 15, false⟩] }, ⟨0, true, 15, false⟩, by decide +kernel⟩,
   ⟨{ act with cycle := 1 }, by decide +kernel⟩,
   ⟨withHealth { cfg := { flags := 5 }, migQueue := [⟨0, 0, none, false⟩] }, by decide +kernel⟩,
   ⟨withHealth { migQueue := [⟨0, 0, none, false⟩] }, ⟨0, 0, none, false⟩, [], 16, by decide +kernel⟩,
   ⟨withHealth { migQueue := [⟨17, 0, none, false⟩] }, ⟨17, 0, none, false⟩, [], by decide +kernel⟩,
   ⟨{ withHealth { migration := some ⟨0, 16, 0, 3, false, 0, none, false⟩ } with cycle := 98304 }, ⟨0, 16, 0, 3,
     false, 0, none, false⟩, by decide +kernel⟩,
   ⟨{ withHealth { migration := some ⟨0, 16, 0, 3, false, 0, none, false⟩ } with cycle := 98303 }, ⟨0, 16, 0, 3,
     false, 0, none, false⟩, by decide +kernel⟩,
   ⟨{ withHealth { migration := some ⟨0, 16, 0, 0, false, 0, none, false⟩ } with cycle := 0 }, ⟨0, 16, 0, 0, false, 0,
     none, false⟩, by decide +kernel⟩,
   ⟨{ withHealth { migration := some ⟨0, 16, 0, 0, true, 0, none, false⟩ } with cycle := 0 }, ⟨0, 16, 0, 0, true, 0,
     none, false⟩, by decide +kernel⟩,
   ⟨act, by decide +kernel⟩,
   ⟨{ act with cycle := 1 }, by decide +kernel⟩,
   ⟨act, by decide +kernel⟩,
   ⟨act, ⟨0, some 22, some 0, 0, none, false, 0⟩, by decide +kernel⟩,
   ⟨withHealth { cfg := { flags := 3 } }, ⟨0, none, none, 0, none, false, 0⟩, by decide +kernel⟩,
   ⟨withHealth { decs := testedDecs }, ⟨0, none, none, 0, none, false, 0⟩, 22, by decide +kernel⟩,
   ⟨act, ⟨0, none, none, 0, none, false, 0⟩, by decide +kernel⟩,
   ⟨{ act with bsn := 3 }, ⟨0, some 22, some 0, 0, none, false, 0⟩, 0, by decide +kernel⟩,
   ⟨withHealth { decs := List.replicate 24 { failed := true } }, ⟨0, some 22, some 0, 0, none, false, 0⟩, 22,
     by decide +kernel⟩,
   ⟨{ act with bsn := 4 }, ⟨0, some 22, some 0, 0, none, false, 0⟩, 0, 22, by decide +kernel⟩,
   ⟨withHealth { fingerDue := [⟨0, 0, none, false⟩] }, ⟨0, 0, none, false⟩, by decide +kernel⟩,
   ⟨{ withHealth { tests := [⟨⟨.dec, 23, 0⟩, 0, (0, 0), none⟩] } with cycle := 16384 }, ⟨.dec, 23, 0⟩, ⟨⟨.dec, 23, 0⟩,
     0, (0, 0), none⟩, by decide +kernel⟩,
   ⟨{ waiting [{ held (.svcTest ⟨.dec, 23, 0⟩) with seq := 5 }] (withHealth
     { tests := [⟨⟨.dec, 23, 0⟩, 0, (0, 0), some 5⟩] }) with cycle := 16384 }, ⟨.dec, 23, 0⟩, ⟨⟨.dec, 23, 0⟩, 0, (0,
     0), some 5⟩, true, 5, .spi, { held (.svcTest ⟨.dec, 23, 0⟩) with seq := 5 }, by decide +kernel⟩,
   ⟨withHealth { tests := [⟨⟨.dec, 23, 0⟩, 0, (0, 0), none⟩] }, ⟨⟨.dec, 23, 0⟩, 0, (0, 0), none⟩, by decide +kernel⟩,
   ⟨withHealth { tests := [⟨⟨.dec, 23, 0⟩, 0, (0, 0), none⟩, ⟨⟨.dec, 23, 0⟩, 0, (0, 0), some 1⟩] }, ⟨⟨.dec, 23, 0⟩, 0,
     (0, 0), none⟩, ⟨⟨.dec, 23, 0⟩, 0, (0, 0), some 1⟩, by decide +kernel⟩,
   ⟨act, oe0, by decide⟩,
   ⟨act, oe0, Or.inl (by decide +kernel)⟩⟩

theorem witness_SchedulerRowsAct :
    (∃ (s : State) (p : Fin 4), (portTurn s p = false ∨ portGrant s.drover s.cycle p = none)) ∧
    (∃ (s : State) (p : Fin 4) (g : Grant), portGrant s.drover s.cycle p = some g ∧ lowerFirst s p g.list = true) ∧
    (∃ (s : State) (p : Nat) (i : _) (src : GrantFrom), portOpGrant s.drover s.cycle p = some (i, src) ∧ (portMeGrant
      s.drover s.cycle p = none ∨ (s.drover.ports.getD p ⟨0, 0, .none, none⟩).kind ≠ .op)) ∧
    (∃ (s : State) (p : Nat) (i : _) (r : _), portMeGrant s.drover s.cycle p = some (i, r) ∧ (portOpGrant s.drover
      s.cycle p = none ∨ (s.drover.ports.getD p ⟨0, 0, .none, none⟩).kind = .op)) ∧
    (∃ (s : State) (p : Fin 4) (i : _) (n : _) (r : _) (rest : _), portTurn s p = true ∧ portGrant s.drover s.cycle p
      = some (.op i (.pen n)) ∧ lowerFirst s p (.pen n) = false ∧ s.drover.pens.getD n [] = r :: rest) ∧
    (∃ (s : State) (p : Fin 4) (i : _) (n : _) (r : _), portTurn s p = true ∧ portGrant s.drover s.cycle p = some (.op
      i (.replay n)) ∧ lowerFirst s p .replay = false ∧ s.drover.replays[n]? = some r) ∧
    (∃ (s : State) (p : Fin 4) (i : _) (r : _), portTurn s p = true ∧ portGrant s.drover s.cycle p = some (.move i r)
      ∧ lowerFirst s p .moves = false) ∧
    (∃ (s : State) (u : UnitRef) (me : Bool) (i : _) (k : _) (r : _) (x : Injection) (f : FaultReport), engineOf u =
      some (me, i) ∧ s.drover.block = some k ∧ (engineAt s.drover me i).phase = .busy ∧ (engineAt s.drover me i).run =
      some r ∧ s.cycle = (engineAt s.drover me i).since + 24 + taskCost s (activeImage s) r.task + (engineAt s.drover
      me i).waits ∧ taskInjection s me i = some (x, f)) ∧
    (∃ (s : State) (u : UnitRef) (me : Bool) (i : _) (k : _) (r : _), engineOf u = some (me, i) ∧ s.drover.block =
      some k ∧ (engineAt s.drover me i).phase = .busy ∧ (engineAt s.drover me i).run = some r ∧ s.cycle = (engineAt
      s.drover me i).since + 24 + taskCost s (activeImage s) r.task + (engineAt s.drover me i).waits ∧ taskInjection s
      me i = none) ∧
    (∃ (s : State) (u : UnitRef) (me : Bool) (i : _) (r : _), engineOf u = some (me, i) ∧ (engineAt s.drover me i).run
      = some r ∧ s.cycle ≠ (engineAt s.drover me i).since + 24 + taskCost s (activeImage s) r.task + (engineAt
      s.drover me i).waits) ∧
    (∃ (s : State) (u : UnitRef) (me : Bool) (i : _), engineOf u = some (me, i) ∧ ((engineAt s.drover me i).phase ≠
      .busy ∨ s.drover.block = none)) ∧
    (∃ (s : State) (h : _) (rec : _), s.drover.admitAt ≠ some s.cycle ∧ nextHeld s = some (h, rec)) ∧
    (∃ (s : State), (nextHeld s = none ∨ s.drover.admitAt = some s.cycle)) ∧
    (∃ (s : State) (p : Fin 32), s.drover.rings.getD p [] ≠ [] ∧ (s.drover.pens.getD p []).length ≤ 96) ∧
    (∃ (s : State), bankInjection s .descriptor (Config.freeNat s.free % 18) = none) ∧
    (∃ (s : State) (p : Fin 32), (s.drover.rings.getD p [] = [] ∨ 96 < (s.drover.pens.getD p []).length)) ∧
    (∃ (s : State) (u : UnitRef) (me : Bool) (i : _), engineOf u = some (me, i) ∧ (engineAt s.drover me i).phase =
      .stop) ∧
    (∃ (s : State) (u : UnitRef) (me : Bool) (i : _), engineOf u = some (me, i) ∧ (engineAt s.drover me i).phase ≠
      .stop) ∧
    (∃ (u : UnitRef), engineOf u = none) :=
  ⟨⟨act, 3, by decide +kernel⟩,
   ⟨{ withDrover { block := some 0, pens := [task0] :: List.replicate 31 [] } with cycle := 1000 }, 1, .op 14 (.pen
     0), by decide +kernel⟩,
   ⟨{ withDrover { block := some 0, pens := [task0] :: List.replicate 31 [] } with cycle := 1000 }, 0, 0, .pen 0,
     by decide +kernel⟩,
   ⟨{ withDrover { block := some 0, moves := [task0] } with cycle := 1000 }, 0, 0, task0, by decide +kernel⟩,
   ⟨{ withDrover { block := some 0, pens := [task0] :: List.replicate 31 [] } with cycle := 1000 }, 0, 0, 0, task0,
     [], by decide +kernel⟩,
   ⟨{ withDrover { block := some 0, replays := [task0] } with cycle := 1000 }, 0, 0, 0, task0, by decide +kernel⟩,
   ⟨{ withDrover { block := some 0, moves := [task0] } with cycle := 1000 }, 0, 0, task0, by decide +kernel⟩,
   ⟨{ busy0 with cycle := 24, health := { inject := [⟨0, .residue, oe0, 0, 0⟩] } }, oe0, false, 0, 0, task0, ⟨0,
     .residue, oe0, 0, 0⟩, ⟨.residue, oe0, oe0, some oe0, .none, .none⟩, by decide +kernel⟩,
   ⟨{ busy0 with cycle := 24 }, oe0, false, 0, 0, task0, by decide +kernel⟩,
   ⟨busy0, oe0, false, 0, task0, by decide +kernel⟩,
   ⟨act, oe0, false, 0, by decide +kernel⟩,
   ⟨withDrover { held := [⟨⟨.op, 0, 0⟩, true⟩] }, ⟨⟨.op, 0, 0⟩, true⟩, 0, by decide +kernel⟩,
   ⟨act, by decide +kernel⟩,
   ⟨withDrover { rings := [task0] :: List.replicate 31 [] }, 0, by decide +kernel⟩,
   ⟨act, by decide +kernel⟩,
   ⟨act, 31, by decide +kernel⟩,
   ⟨withDrover { oes := [{ phase := .stop }] }, oe0, false, 0, by decide +kernel⟩,
   ⟨act, oe0, false, 0, by decide +kernel⟩,
   ⟨⟨.bank, 0, 0⟩, by decide +kernel⟩⟩

theorem witness_ResetRowsAct :
    (∃ (code : Nat), code ≠ 1) ∧
    (∃ (s : State), inShip s = false) ∧
    (∃ (s : State) (rails : Byte), (Nat.land rails.toNat (railMask s)) ≠ 0 ∧ inShip s = false) ∧
    (∃ (s : State) (rails : Byte), Nat.land rails.toNat (railMask s) = 0) ∧
    (∃ (s : State), inShip s = true) :=
  ⟨⟨2, by decide +kernel⟩,
   ⟨act, by decide +kernel⟩,
   ⟨act, 0x10#8, by decide +kernel⟩,
   ⟨act, 0xC0#8, by decide +kernel⟩,
   ⟨ship, by decide +kernel⟩⟩

theorem witness_BootRowsAct :
    (∃ (s : State), s.power.boot = .held) ∧
    (∃ (s : State), s.power.boot ≠ .held) ∧
    (∃ (s : State), s.power.boot = .thermalHold) ∧
    (∃ (s : State), s.power.boot ≠ .thermalHold) ∧
    (∃ (s : State), s.power.boot = .started ∧ s.clock.xtalFault = false) ∧
    (∃ (s : State), s.power.boot ≠ .started) ∧
    (∃ (s : State), s.power.boot = .released ∧ s.cycle = 0 ∧ rootRuns s = true ∧ s.clock.xtalFault = false ∧
      s.power.bootActive = false ∧ (s.power.bootPor && s.power.porShip) = false) ∧
    (∃ (s : State), s.power.boot = .released ∧ s.cycle = 0 ∧ rootRuns s = true ∧ s.clock.xtalFault = false ∧
      s.power.bootActive = true ∧ (s.power.bootPor && s.power.porShip) = false) ∧
    (∃ (s : State), s.power.boot ≠ .released) ∧
    (∃ (s : State), (s.power.boot = .started ∨ s.power.boot = .thermalHold ∨ (s.power.boot = .released ∧ s.clock.state
      = .off))) ∧
    (∃ (s : State), (s.power.boot = .held ∨ s.power.boot = .complete)) :=
  ⟨⟨State.reset, by decide +kernel⟩,
   ⟨act, by decide +kernel⟩,
   ⟨withBoot .thermalHold, by decide +kernel⟩,
   ⟨act, by decide +kernel⟩,
   ⟨withBoot .started, by decide +kernel⟩,
   ⟨act, by decide +kernel⟩,
   ⟨{ withBoot .released with clock := { state := .freerun } }, by decide +kernel⟩,
   ⟨{ withBoot .released with clock := { state := .freerun }, power := { boot := .released, bootActive := true } },
     by decide +kernel⟩,
   ⟨act, by decide +kernel⟩,
   ⟨withBoot .thermalHold, by decide +kernel⟩,
   ⟨act, by decide +kernel⟩⟩

theorem witness_ModeRowsAct :
    (∃ (s : State) (c : _), changeDue s .d1 = some c) ∧
    (∃ (s : State) (c : _), changeDue s .gate = some c) ∧
    (∃ (s : State) (c : _), changeDue s .d2 = some c) ∧
    (∃ (s : State) (c : _), changeDue s .d3 = some c) ∧
    (∃ (s : State) (c : _), changeDue s .swap = some c) ∧
    (∃ (s : State) (c : _), changeDue s .a2 = some c) ∧
    (∃ (s : State) (c : _), changeDue s .a1 = some c) ∧
    (∃ (s : State) (c : _) (x : _) (rest : _), changeDue s .d1 = some c ∧ c.steps = .d1 :: x :: rest ∧ x ≠ .d3 ∧
      (sweepLeave s).stage.chans.length = 32) ∧
    (∃ (s : State) (c : _), changeDue s .gate = some c ∧ c.steps = [.gate] ∧ s.power.heldWake = none) ∧
    (∃ (s : State) (c : _) (rest : _), changeDue s .gate = some c ∧ c.steps = .gate :: .d2 :: rest) ∧
    (∃ (s : State) (c : _), changeDue s .d2 = some c ∧ c.steps = [.d2] ∧ s.power.heldWake = none) ∧
    (∃ (s : State) (c : _), changeDue s .d3 = some c ∧ c.steps = [.d3] ∧ s.power.heldWake = none) ∧
    (∃ (s : State) (c : _) (w : _), changeDue s .d3 = some c ∧ c.steps = [.d3] ∧ s.power.heldWake = some w ∧
      s.power.boot = .complete ∧ bit s.power.wake.ship (w - 1) = true) ∧
    (∃ (s : State) (c : _), changeDue s .a1 = some c ∧ c.steps = [.a1] ∧ s.power.heldWake = none) ∧
    (∃ (s : State) (c : _), changeDue s .a2 = some c ∧ c.steps = [.a2] ∧ s.power.heldWake = none) ∧
    (∃ (s : State) (c : _), changeDue s .swap = some c ∧ c.steps = [.swap] ∧ s.power.heldWake = none) ∧
    (∃ (s : State), changeDue s .d1 = none) ∧
    (∃ (s : State), changeDue s .gate = none) ∧
    (∃ (s : State), changeDue s .d2 = none) ∧
    (∃ (s : State), changeDue s .d3 = none) ∧
    (∃ (s : State), changeDue s .a1 = none) ∧
    (∃ (s : State), changeDue s .a2 = none) ∧
    (∃ (s : State), changeDue s .swap = none) :=
  ⟨⟨changing .active [.d1], ⟨[.d1], .active, .active, 0, 0, true, 0, true, none, none, (0, 0)⟩, by decide +kernel⟩,
   ⟨changing .active [.gate], ⟨[.gate], .active, .active, 0, 0, true, 0, true, none, none, (0, 0)⟩, by decide +kernel⟩,
   ⟨changing .idle [.d2], ⟨[.d2], .idle, .idle, 0, 0, true, 0, true, none, none, (0, 0)⟩, by decide +kernel⟩,
   ⟨changing .retain [.d3], ⟨[.d3], .retain, .retain, 0, 0, true, 0, true, none, none, (0, 0)⟩, by decide +kernel⟩,
   ⟨changing .active [.swap], ⟨[.swap], .active, .active, 0, 0, true, 0, true, none, none, (0, 0)⟩, by decide +kernel⟩,
   ⟨changing .active [.a2], ⟨[.a2], .active, .active, 0, 0, true, 0, true, none, none, (0, 0)⟩, by decide +kernel⟩,
   ⟨{ changing .idle [.a1] with clock := { state := .freerun } }, ⟨[.a1], .idle, .idle, 0, 0, true, 0, true, none,
     none, (0, 0)⟩, by decide +kernel⟩,
   ⟨changing .active [.d1, .gate], ⟨[.d1, .gate], .active, .active, 0, 0, true, 0, true, none, none, (0, 0)⟩, .gate,
     [], by decide +kernel⟩,
   ⟨changing .active [.gate], ⟨[.gate], .active, .active, 0, 0, true, 0, true, none, none, (0, 0)⟩, by decide +kernel⟩,
   ⟨changing .active [.gate, .d2], ⟨[.gate, .d2], .active, .active, 0, 0, true, 0, true, none, none, (0, 0)⟩, [],
     by decide +kernel⟩,
   ⟨changing .idle [.d2], ⟨[.d2], .idle, .idle, 0, 0, true, 0, true, none, none, (0, 0)⟩, by decide +kernel⟩,
   ⟨changing .retain [.d3], ⟨[.d3], .retain, .retain, 0, 0, true, 0, true, none, none, (0, 0)⟩, by decide +kernel⟩,
   ⟨{ changing .retain [.d3] with power := { (changing .retain [.d3]).power with heldWake := some 1 } }, ⟨[.d3],
     .retain, .retain, 0, 0, true, 0, true, none, none, (0, 0)⟩, 1, by decide +kernel⟩,
   ⟨{ changing .idle [.a1] with clock := { state := .freerun } }, ⟨[.a1], .idle, .idle, 0, 0, true, 0, true, none,
     none, (0, 0)⟩, by decide +kernel⟩,
   ⟨changing .active [.a2], ⟨[.a2], .active, .active, 0, 0, true, 0, true, none, none, (0, 0)⟩, by decide +kernel⟩,
   ⟨changing .listen [.swap], ⟨[.swap], .listen, .listen, 0, 0, true, 0, true, none, none, (0, 0)⟩, by decide +kernel⟩,
   ⟨act, by decide +kernel⟩,
   ⟨act, by decide +kernel⟩,
   ⟨act, by decide +kernel⟩,
   ⟨act, by decide +kernel⟩,
   ⟨act, by decide +kernel⟩,
   ⟨act, by decide +kernel⟩,
   ⟨act, by decide +kernel⟩⟩

theorem witness_WakeAndSensorRowsAct :
    (∃ (s : State) (c : Fin 7) (u : State) (v : State), u = (if c.val = 5 then chargerTo s s.power.wake.chgPol else s)
      ∧ v = (if c.val = 6 ∧ u.power.mode = .listen then { u with wake := { u.wake with srcFired := false } } else u) ∧
      wakeMasked u c = false) ∧
    (∃ (s : State) (c : Fin 7) (u : State) (v : State), u = (if c.val = 5 then chargerTo s s.power.wake.chgPol else s)
      ∧ v = (if c.val = 6 ∧ u.power.mode = .listen then { u with wake := { u.wake with srcFired := false } } else u) ∧
      wakeMasked u c = true ∧ inShip v = true) ∧
    (∃ (s : State) (c : Fin 7) (u : State) (v : State) (k : Change), u = (if c.val = 5 then chargerTo s
      s.power.wake.chgPol else s) ∧ v = (if c.val = 6 ∧ u.power.mode = .listen then
      { u with wake := { u.wake with srcFired := false } } else u) ∧ wakeMasked u c = true ∧ v.power.boot = .complete
      ∧ v.power.change = some k ∧ k.reason = 2 ∧ k.asked = (s.bsn, s.cycle) ∧ inShip v = false) ∧
    (∃ (s : State) (c : Fin 7) (u : State) (v : State) (k : Change), u = (if c.val = 5 then chargerTo s
      s.power.wake.chgPol else s) ∧ v = (if c.val = 6 ∧ u.power.mode = .listen then
      { u with wake := { u.wake with srcFired := false } } else u) ∧ wakeMasked u c = true ∧ inShip v = false ∧
      v.power.boot = .complete ∧ v.power.change = some k ∧ (k.reason ≠ 2 ∨ k.asked ≠ (s.bsn, s.cycle))) ∧
    (∃ (s : State) (c : Fin 7) (u : State) (v : State), u = (if c.val = 5 then chargerTo s s.power.wake.chgPol else s)
      ∧ v = (if c.val = 6 ∧ u.power.mode = .listen then { u with wake := { u.wake with srcFired := false } } else u) ∧
      wakeMasked u c = true ∧ inShip v = false ∧ v.power.boot = .held ∧ v.record.last = 6) ∧
    (∃ (s : State) (c : Fin 7) (u : State) (v : State), u = (if c.val = 5 then chargerTo s s.power.wake.chgPol else s)
      ∧ v = (if c.val = 6 ∧ u.power.mode = .listen then { u with wake := { u.wake with srcFired := false } } else u) ∧
      wakeMasked u c = true ∧ inShip v = false ∧ v.power.boot ≠ .complete ∧ (v.power.boot ≠ .held ∨ v.record.last ≠
      6)) ∧
    (∃ (s : State) (c : Fin 7) (u : State) (v : State), u = (if c.val = 5 then chargerTo s s.power.wake.chgPol else s)
      ∧ v = (if c.val = 6 ∧ u.power.mode = .listen then { u with wake := { u.wake with srcFired := false } } else u) ∧
      wakeMasked u c = true ∧ modeLow v = true ∧ v.power.boot = .complete ∧ v.power.change = none ∧ v.clock.xtalFault
      = true) ∧
    (∃ (s : State) (c : Fin 7) (u : State) (v : State), u = (if c.val = 5 then chargerTo s s.power.wake.chgPol else s)
      ∧ v = (if c.val = 6 ∧ u.power.mode = .listen then { u with wake := { u.wake with srcFired := false } } else u) ∧
      wakeMasked u c = true ∧ modeLow v = true ∧ v.power.boot = .complete ∧ v.power.change = none ∧ v.clock.xtalFault
      = false) ∧
    (∃ (s : State) (c : Fin 7) (u : State) (v : State), u = (if c.val = 5 then chargerTo s s.power.wake.chgPol else s)
      ∧ v = (if c.val = 6 ∧ u.power.mode = .listen then { u with wake := { u.wake with srcFired := false } } else u) ∧
      wakeMasked u c = true ∧ modeLow v = true ∧ v.power.boot = .complete ∧ v.power.change = none ∧ v.clock.xtalFault
      = false ∧ v.power.wake.target = .active) ∧
    (∃ (s : State) (c : Fin 7) (u : State) (v : State), u = (if c.val = 5 then chargerTo s s.power.wake.chgPol else s)
      ∧ v = (if c.val = 6 ∧ u.power.mode = .listen then { u with wake := { u.wake with srcFired := false } } else u) ∧
      wakeMasked u c = true ∧ modeLow v = true ∧ v.power.boot = .complete ∧ v.power.change = none ∧ v.clock.xtalFault
      = false ∧ v.power.wake.target = .idle) ∧
    (∃ (s : State) (c : Fin 7) (u : State) (v : State), u = (if c.val = 5 then chargerTo s s.power.wake.chgPol else s)
      ∧ v = (if c.val = 6 ∧ u.power.mode = .listen then { u with wake := { u.wake with srcFired := false } } else u) ∧
      wakeMasked u c = true ∧ modeHigh v = true ∧ v.power.boot = .complete ∧ v.power.change = none) ∧
    (∃ (s : State) (level : Bool), s.power.charger = some level) ∧
    (∃ (s : State) (level : Bool), s.power.charger ≠ some level ∧ modeHigh s = false) ∧
    (∃ (s : State) (level : Bool), s.power.charger ≠ some level ∧ modeHigh s = true) ∧
    (∃ (s : State) (temp : Int), s.power.hot = false ∧ 1200 ≤ temp ∧ inShip s = false ∧ s.power.boot ≠ .held) ∧
    (∃ (s : State) (temp : Int), (s.power.hot = true ∨ temp < 1200 ∨ inShip s = true ∨ s.power.boot = .held)) ∧
    (∃ (s : State), s.clock.xtalOn = true ∧ s.clock.xtalFault = false) ∧
    (∃ (s : State), (s.clock.xtalOn = false ∨ s.clock.xtalFault = true)) :=
  ⟨⟨ship, 0, _, _, rfl, rfl, by decide +kernel⟩,
   ⟨ship, 1, _, _, rfl, rfl, by decide +kernel⟩,
   ⟨{ up .idle with power :=
     { (up .idle).power with change := some ⟨[.a1], .idle, .idle, 2, 3, true, 0, true, none, none, (0, 0)⟩ } }, 1, _,
     _, ⟨[.a1], .idle, .idle, 2, 3, true, 0, true, none, none, (0, 0)⟩, rfl, rfl, by decide +kernel⟩,
   ⟨{ up .idle with power :=
     { (up .idle).power with change := some ⟨[.a1], .idle, .idle, 2, 3, true, 0, true, none, none, (0, 1)⟩ } }, 1, _,
     _, ⟨[.a1], .idle, .idle, 2, 3, true, 0, true, none, none, (0, 1)⟩, rfl, rfl, by decide +kernel⟩,
   ⟨{ State.reset with record := { State.reset.record with last := 6 } }, 1, _, _, rfl, rfl, by decide +kernel⟩,
   ⟨withBoot .thermalHold, 1, _, _, rfl, rfl, by decide +kernel⟩,
   ⟨{ low with clock := { xtalFault := true } }, 1, _, _, rfl, rfl, by decide +kernel⟩,
   ⟨low, 1, _, _, rfl, rfl, by decide +kernel⟩,
   ⟨{ low with power := { low.power with wake := { low.power.wake with target := .active } } }, 1, _, _, rfl, rfl,
     by decide +kernel⟩,
   ⟨{ low with power := { low.power with wake := { low.power.wake with target := .idle } } }, 1, _, _, rfl, rfl,
     by decide +kernel⟩,
   ⟨up .idle, 1, _, _, rfl, rfl, by decide +kernel⟩,
   ⟨{ act with power := { act.power with charger := some true } }, true, by decide +kernel⟩,
   ⟨low, true, by decide +kernel⟩,
   ⟨act, true, by decide +kernel⟩,
   ⟨act, 1200, by decide +kernel⟩,
   ⟨{ act with power := { act.power with hot := true } }, 0, by decide +kernel⟩,
   ⟨{ act with clock := { state := .freerun, xtalOn := true } }, by decide +kernel⟩,
   ⟨act, by decide +kernel⟩⟩

theorem witness_RegisterRowsAct :
    (∃ (a : Word), paddrReg a.toNat = none) ∧
    (∃ (s : State) (a : Word) (v : Word) (r : Reg), coreOn s = true ∧ paddrReg a.toNat = some r ∧ r.access = .rw ∧
      paSpace a.toNat ≠ 2 ∧ r ≠ .drvCfg ∧ r.rangeOk s (maskTo r v.toNat) = true ∧ regsCommitOk (wr s r (maskTo r
      v.toNat)) = true ∧ stageFree s (wr s r (maskTo r v.toNat)) = true) ∧
    (∃ (s : State) (a : Word) (v : Word) (r : Reg), coreOn s = true ∧ paddrReg a.toNat = some r ∧ r.access = .rw ∧
      paSpace a.toNat ≠ 2 ∧ r ≠ .drvCfg ∧ r.rangeOk s (maskTo r v.toNat) = true ∧ regsCommitOk (wr s r (maskTo r
      v.toNat)) = true ∧ stageFree s (wr s r (maskTo r v.toNat)) = true ∧ r ∈ [Reg.hpjCfg, .hpjBtn, .auxjCfg,
      .sagKnee, .sagSlope, .sagMax, .sagRel, .tfStart, .tfSlope, .tfMax, .retryCfg, .dcCfg, .diagCfg, .tchGlobal,
      .tchGest, .evGlobalReg, .psCfg]) ∧
    (∃ (s : State) (a : Word) (v : Word) (r : Reg), paddrReg a.toNat = some r ∧ (r.access ≠ .rw ∨ paSpace a.toNat = 2
      ∨ r = .drvCfg ∨ r.rangeOk s (maskTo r v.toNat) = false ∨ regsCommitOk (wr s r (maskTo r v.toNat)) = false ∨
      stageFree s (wr s r (maskTo r v.toNat)) = false)) ∧
    (∃ (s : State), coreOn s = false) ∧
    (∃ (s : State) (v : Word), coreOn s = true ∧ Reg.drvCfg.rangeOk s (maskTo .drvCfg v.toNat) = true ∧ slotsEmpty s =
      true) ∧
    (∃ (s : State) (v : Word), (slotsEmpty s = false ∨ Reg.drvCfg.rangeOk s (maskTo .drvCfg v.toNat) = false)) ∧
    (∃ (s : State), s.cycle ≠ 0) ∧
    (∃ (s : State), s.params.commits.filter (fun c => bsnReached s.bsn c.boundary) = []) ∧
    (∃ (s : State), s.cycle = 0 ∧ s.params.commits.filter (fun c => bsnReached s.bsn c.boundary) ≠ []) ∧
    (∃ (a : CommitAcc) (c : Commit), c.stale = false ∧ c.strict = false ∧ fadesOn a.real (lastEntries (wordEntries
      c.entries)) ≠ []) ∧
    (∃ (a : CommitAcc) (c : Commit) (st : Status), (c.stale = true ∨ c.strict = true ∨ fadesOn a.real (lastEntries
      (wordEntries c.entries)) = []) ∧ commitStatus a c (lastEntries (wordEntries c.entries)) (rawAll a.work c.slot
      (lastEntries (wordEntries c.entries))) = some st) ∧
    (∃ (a : CommitAcc) (c : Commit), (c.stale = true ∨ c.strict = true ∨ fadesOn a.real (lastEntries (wordEntries
      c.entries)) = []) ∧ commitStatus a c (lastEntries (wordEntries c.entries)) (rawAll a.work c.slot (lastEntries
      (wordEntries c.entries))) = none) ∧
    (∃ (s : State) (r : Reg) (v : Nat), bits (rd s r) 7 0 = bits (maskTo r v) 7 0) ∧
    (∃ (s : State) (r : Reg) (v : Nat), bits (rd s r) 7 0 ≠ bits (maskTo r v) 7 0) ∧
    (∃ (s : State) (x : CommitEntry), paSpace x.addr = 1 ∧ (slotAt s x.slot).phase ≠ .active) ∧
    (∃ (s : State) (x : CommitEntry) (ms : _), (slotAt s x.slot).phase = .active ∧ x.interp = some ms ∧ (opEntry
      (slotAt s x.slot).image (paUnit x.addr)).mark (paField x.addr) = .li ∧ (slotAt s x.slot).n ≠ s.bsn - 1#40 ∧
      (liWord s (slotAt s x.slot).image (s.bsn - 1#40 - 1#40) (paUnit x.addr) (opEntry (slotAt s x.slot).image (paUnit
      x.addr)) (paField x.addr) 23) ≠ toSigned 32 x.value) ∧
    (∃ (s : State) (c : _) (h : _) (v : Word) (p : PortId) (o : Outstanding), s.cycle = 0 ∧ s.params.commits = [c] ∧
      bsnReached s.bsn c.boundary = true ∧ c.hamper = some h ∧ c.stale = false ∧ c.entries = [(BitVec.ofNat 32
      Reg.sagKnee.addr, v)] ∧ (findJobs s (isCommit c.id)).head? = some (p, o) ∧ regsCommitOk (wr s .sagKnee v.toNat)
      = true) ∧
    (∃ (s : State) (c : _) (p : PortId) (o : Outstanding), s.cycle = 0 ∧ s.params.commits = [c] ∧ bsnReached s.bsn
      c.boundary = true ∧ c.hamper = none ∧ c.stale = true ∧ (findJobs s (isCommit c.id)).head? = some (p, o)) :=
  ⟨⟨0xFFFFFFFF#32, by decide +kernel⟩,
   ⟨act, 0x50100005#32, 0x2710#32, .sagRel, by decide +kernel⟩,
   ⟨act, 0x50100005#32, 0x2710#32, .sagRel, by decide +kernel⟩,
   ⟨act, 0x50100005#32, 9999#32, .sagRel, by decide +kernel⟩,
   ⟨ship, by decide +kernel⟩,
   ⟨act, 1#32, by decide +kernel⟩,
   ⟨withSlot { phase := .ready }, 1#32, by decide +kernel⟩,
   ⟨{ act with cycle := 1 }, by decide +kernel⟩,
   ⟨act, by decide +kernel⟩,
   ⟨waiting [held (.commit 0)] { act with params :=
     { commits := [⟨0, some 0, 255, [(0x50100002#32, 0#32)], none, 0, true, false, false⟩] } }, by decide +kernel⟩,
   ⟨⟨{ act with params := { fades := [⟨0, 0, 0, 4, false⟩] } }, act, []⟩, ⟨0, none, 255, [(0x20000000#32, 0#32)],
     none, 0, false, false, false⟩, by decide +kernel⟩,
   ⟨⟨{ act with params := { fades := [] } }, act, []⟩, ⟨0, none, 255, [(0x20000000#32, 0#32)], none, 0, false, false,
     true⟩, .state, by decide +kernel⟩,
   ⟨⟨{ act with params := { fades := [] } }, act, []⟩, ⟨0, none, 255, [(0x20000000#32, 0#32)], none, 0, false, false,
     false⟩, by decide +kernel⟩,
   ⟨act, .inRoute 0, 0xFF, by decide +kernel⟩,
   ⟨act, .inRoute 0, 1, by decide +kernel⟩,
   ⟨act, ⟨0, 0x10000000, 1, none⟩, by decide +kernel⟩,
   ⟨withSlot { phase := .active, image := [(0x40, 3#8)] }, ⟨0, 0x10000000, 1, some 5⟩, 5, by decide +kernel⟩,
   ⟨waiting [held (.commit 0)] { act with params :=
     { commits := [⟨0, some 0, 255, [(0x50100002#32, 0#32)], none, 0, true, false, false⟩] } }, ⟨0, some 0, 255,
     [(0x50100002#32, 0#32)], none, 0, true, false, false⟩, 0, 0#32, .spi, held (.commit 0), by decide +kernel⟩,
   ⟨waiting [held (.commit 0)] { act with params := { commits := [⟨0, none, 255, [], none, 0, true, false, true⟩] } },
     ⟨0, none, 255, [], none, 0, true, false, true⟩, .spi, held (.commit 0), by decide +kernel⟩⟩

theorem witness_BlockBoundaryActs :
    (∃ (s : State), counting s = true) ∧
    (∃ (s : State), counting s = false) :=
  ⟨⟨act, by decide +kernel⟩,
   ⟨ship, by decide +kernel⟩⟩

theorem witness_BoundaryScanActs :
    (∃ (s : State), s.power.pwrEn0 = false) ∧
    (∃ (s : State) (code : BitVec 4), s.power.pwrEn0 = true ∧ ((if code.toNat ≤ 3 then code else 0xF#4)) ∉ [0#4, 2#4,
      3#4]) ∧
    (∃ (s : State) (code : BitVec 4), s.power.pwrEn0 = true ∧ ((if code.toNat ≤ 3 then code else 0xF#4)) ∈ [0#4, 2#4,
      3#4] ∧ (sweepLeave { s with jtag := ((if code.toNat ≤ 3 then code else 0xF#4)) }).stage.chans.length = 32) :=
  ⟨⟨State.reset, by decide +kernel⟩,
   ⟨act, 1#4, by decide +kernel⟩,
   ⟨act, 2#4, by decide +kernel⟩⟩

end Sys2Proof.Tests
end

namespace Sys2Proof.Machine

open Sys2Proof

/-! ## A requested BSN (R14) -/

/-- R14 refuses a request: it is too far, or it is too early under STRICT. -/
def bsnRefused (r e : Bsn) (strict : Bool) : Prop :=
  (2 ^ 32 ≤ (r - e).toNat ∧ (r - e).toNat < 2 ^ 39) ∨ (2 ^ 39 ≤ (r - e).toNat ∧ strict = true)

/-- R14 grants block `b` to a request: the block asked for, or the earliest one where the request is too early. -/
def bsnGrants (r e : Bsn) (strict : Bool) (b : Bsn) : Prop :=
  ((r - e).toNat < 2 ^ 32 ∧ b = r) ∨ (2 ^ 39 ≤ (r - e).toNat ∧ strict = false ∧ b = e)

theorem bsnResolve_asked {r e : Bsn} (h : (r - e).toNat < 2 ^ 32) : bsnResolve r e = .asked := if_pos h

theorem bsnResolve_tooFar {r e : Bsn} (h : 2 ^ 32 ≤ (r - e).toNat) (h' : (r - e).toNat < 2 ^ 39) :
    bsnResolve r e = .tooFar := by
  rw [bsnResolve, if_neg (Nat.not_lt.mpr h), if_pos h']

theorem bsnResolve_early {r e : Bsn} (h : 2 ^ 39 ≤ (r - e).toNat) : bsnResolve r e = .early := by
  rw [bsnResolve, if_neg (by omega), if_neg (by omega)]

theorem bsnRefused_check {r e : Bsn} {strict : Bool} (h : bsnRefused r e strict) :
    (bsnResolve r e == .tooFar || (bsnResolve r e == .early && strict)) = true := by
  rcases h with ⟨h, h'⟩ | ⟨h, rfl⟩
  · simp [bsnResolve_tooFar h h']
  · simp [bsnResolve_early h]

theorem bsnGrants_check {r e b : Bsn} {strict : Bool} (h : bsnGrants r e strict b) :
    (bsnResolve r e == .tooFar || (bsnResolve r e == .early && strict)) = false := by
  rcases h with ⟨h, -⟩ | ⟨h, rfl, -⟩
  · simp [bsnResolve_asked h]
  · simp [bsnResolve_early h]

theorem bsnGrants_block {r e b : Bsn} {strict : Bool} (h : bsnGrants r e strict b) :
    (if bsnResolve r e = .asked then r else e) = b := by
  rcases h with ⟨h, rfl⟩ | ⟨h, -, rfl⟩
  · simp [bsnResolve_asked h]
  · simp [bsnResolve_early h]

/-! ## What the place of a new command leaves (R397) -/

@[simp] theorem takePlace_earliestCommit (s : State) (p : PortId) (op tag : Byte) :
    earliestCommit (takePlace s p op tag) = earliestCommit s := by
  simp [earliestCommit]

@[simp] theorem takePlace_earliestSwitch (s : State) (p : PortId) (op tag : Byte) (fade : Bool) (f : Nat) :
    earliestSwitch (takePlace s p op tag) fade f = earliestSwitch s fade f := by
  simp [earliestSwitch]

@[simp] theorem takePlace_bsnNext (s : State) (p : PortId) (op tag : Byte) :
    bsnNext (takePlace s p op tag) = bsnNext s := by
  simp [bsnNext]

@[simp] theorem takePlace_hamperAt (s : State) (p : PortId) (op tag : Byte) (h : Nat) :
    hamperAt (takePlace s p op tag) h = hamperAt s h := by
  simp [hamperAt]

@[simp] theorem takePlace_slotAt (s : State) (p : PortId) (op tag : Byte) (i : Nat) :
    slotAt (takePlace s p op tag) i = slotAt s i := by
  simp [slotAt]

@[simp] theorem takePlace_rd (s : State) (p : PortId) (op tag : Byte) (r : Reg) :
    rd (takePlace s p op tag) r = rd s r := by
  simp [rd, regGet]

@[simp] theorem takePlace_mayUse (s : State) (p : PortId) (op tag : Byte) (q : Request) (h : Hamper) :
    mayUse (takePlace s p op tag) q h = mayUse s q h := by
  rw [mayUse, mayUse, classOf, classOf, takePlace_cls]

@[simp] theorem takePlace_opsHold (s : State) (p : PortId) (op tag : Byte) (slot : Nat) (es : List Entry) :
    opsHold (takePlace s p op tag) slot es = opsHold s slot es := by
  simp [opsHold, opFails, slotLive]

@[simp] theorem takePlace_guaranteed (s : State) (p : PortId) (op tag : Byte) (x : Slot) :
    guaranteed (takePlace s p op tag) x = guaranteed s x := by
  rw [guaranteed, guaranteed, loadOf, loadOf, takePlace_drover]

@[simp] theorem takePlace_graphActive (s : State) (p : PortId) (op tag : Byte) :
    graphActive (takePlace s p op tag) = graphActive s := by
  simp [graphActive]

@[simp] theorem takePlace_auxAt (s : State) (p : PortId) (op tag : Byte) (a : Nat) :
    auxAt (takePlace s p op tag) a = auxAt s a := by
  simp [auxAt]

@[simp] theorem takePlace_auxPorts (s : State) (p : PortId) (op tag : Byte) (a : Nat) :
    auxPorts (takePlace s p op tag) a = auxPorts s a := by
  simp [auxPorts, auxConsumer]

/-- A commit is scheduled beside the place of its command. -/
theorem schedule_takePlace (s : State) (p : PortId) (op tag : Byte) (c : Commit) (h : Nat) (f : Hamper → Hamper) :
    modHamper (schedule (takePlace s p op tag) c) h f = takePlace (modHamper (schedule s c) h f) p op tag := by
  cases p <;> rfl

/-- A slot is written beside the place of the command that names it. -/
theorem setSlot_act_takePlace (s : State) (p : PortId) (op tag : Byte) (i : Nat) (x : Slot) (a : Option Activation) :
    ({ setSlot (takePlace s p op tag) i x with
        graph := { (setSlot (takePlace s p op tag) i x).graph with act := a } } : State) =
      takePlace { setSlot s i x with graph := { (setSlot s i x).graph with act := a } } p op tag := by
  cases p <;> rfl

/-! ## HAMPER_COMMIT (R209, R224) -/

theorem doHamperCommit_refuses (s : State) (q : Request) (hl : q.payload.length = 16) (hh : heard s q 0x14 = true)
    (hf : bit (pay8 q 1) 0 = true) (h : bsnRefused (payBsn q 8) (earliestCommit s - 1#40) (bit (pay8 q 1) 1)) :
    doHamperCommit q s = answered s q 0x14 .range [] := by
  refine runOp_refuses _ _ _ q s _ _ hh (by simp [lenIs, hl]) ?_
  simp [hf, bsnRefused_check h]

theorem doHamperCommit_takes (s : State) (q : Request) (c : Bsn) (hl : q.payload.length = 16)
    (hh : heard s q 0x14 = true) (hf : bit (pay8 q 1) 0 = true)
    (h : bsnGrants (payBsn q 8) (earliestCommit s - 1#40) (bit (pay8 q 1) 1) c)
    (hi : pay8 q 0 ≤ 7) (hn : bit (pay8 q 1) 2 = false) (ho : (hamperAt s (pay8 q 0)).phase = .opened)
    (hu : mayUse s q (hamperAt s (pay8 q 0)) = true)
    (hw : opsHold s (hamperAt s (pay8 q 0)).slot (wordEntries (hamperAt s (pay8 q 0)).entries) = true) :
    doHamperCommit q s = waitsWith (modHamper (schedule s {
        id := s.params.nextId, hamper := some (pay8 q 0), slot := (hamperAt s (pay8 q 0)).slot,
        entries := (hamperAt s (pay8 q 0)).entries, interp := none, boundary := c + 1#40, strict := bit (pay8 q 1) 1,
        deferred := false, stale := false }) (pay8 q 0) (fun x => { x with phase := .committing })) q 0x14
      (.commit s.params.nextId) (some (bsn8 c)) := by
  refine runOp_waits _ _ _ q s _ _ _ hh (by simp [lenIs, hl]) (by decide) ?_ rfl
  have hr : within (pay8 q 0) 0 7 = true := by simp [within, hi]
  simp [hf, hr, hn, ho, hu, hw, bsnGrants_block h, bsnGrants_check h, schedule_takePlace]

/-! ## GRAPH_ACTIVATE (R61, R72) -/

theorem doGraphActivate_refuses (s : State) (q : Request) (hl : q.payload.length = 16) (hh : heard s q 0x23 = true)
    (hf : bit (pay8 q 2) 0 = true)
    (h : bsnRefused (payBsn q 8) (earliestSwitch s (pay8 q 1 == 1) (pay16 q 4)) (bit (pay8 q 2) 1)) :
    doGraphActivate q s = answered s q 0x23 .range [] := by
  refine runOp_refuses _ _ _ q s _ _ hh (by simp [lenIs, hl]) ?_
  simp [hf, bsnRefused_check h]

theorem doGraphActivate_takes (s : State) (q : Request) (n : Bsn) (hl : q.payload.length = 16)
    (hh : heard s q 0x23 = true) (hf : bit (pay8 q 2) 0 = true)
    (h : bsnGrants (payBsn q 8) (earliestSwitch s (pay8 q 1 == 1) (pay16 q 4)) (bit (pay8 q 2) 1) n)
    (hi : pay8 q 0 ≤ 1) (hm : pay8 q 1 = 0 ∨ pay8 q 1 = 1 ∧ 1 ≤ pay16 q 4 ∧ pay16 q 4 ≤ 50)
    (hr : (slotAt s (pay8 q 0)).phase = .ready) (ha : s.graph.act = none)
    (hg : bit (pay8 q 2) 2 = true ∨ guaranteed s (slotAt s (pay8 q 0)) = true) :
    doGraphActivate q s = waitsWith
      { setSlot s (pay8 q 0) { slotAt s (pay8 q 0) with phase := .armed, n := n, noGuar := bit (pay8 q 2) 2 } with
        graph := { (setSlot s (pay8 q 0)
            { slotAt s (pay8 q 0) with phase := .armed, n := n, noGuar := bit (pay8 q 2) 2 }).graph with
          act := some { slot := some (pay8 q 0), fade := pay8 q 1 == 1, f := pay16 q 4, n := n,
                        falls := graphActive s } } } q 0x23
      .graphActivate (some (bsn8 n)) := by
  refine runOp_waits _ _ _ q s _ _ _ hh (by simp [lenIs, hl]) (by decide) ?_ rfl
  have hs : (pay8 q 0 == 0 || pay8 q 0 == 1) = true := by simp; omega
  have hx : pay8 q 0 ≠ 0xFF := by omega
  have hmode : ¬ 1 < pay8 q 1 := by omega
  have hfade : (pay8 q 1 == 1 && !within (pay16 q 4) 1 50) = false := by
    rcases hm with h | ⟨h, h1, h50⟩ <;> simp [within, *]
  dsimp only
  rw [if_neg, if_neg]
  · simp only [takePlace_earliestSwitch, takePlace_slotAt, takePlace_graphActive, hf, hx, Bool.true_and, beq_iff_eq,
      bsnGrants_block h, if_false, setSlot_act_takePlace]
  · simp [hx, hr, ha]
  · rcases hg with hg | hg <;> simp only [hf, hs, hmode, hfade, hg, takePlace_earliestSwitch, takePlace_slotAt, takePlace_guaranteed,
        bsnGrants_check h] <;> simp

/-! ## AUX_PROFILE (R389) -/

theorem doAuxProfile_refuses (s : State) (q : Request) (hl : q.payload.length = 16) (hh : heard s q 0x4A = true)
    (hf : bit (pay8 q 2) 0 = true) (h : bsnRefused (payBsn q 8) (bsnNext s) (bit (pay8 q 2) 1)) :
    doAuxProfile q s = answered s q 0x4A .range [] := by
  refine runOp_refuses _ _ _ q s _ _ hh (by simp [lenIs, hl]) ?_
  simp [hf, bsnRefused_check h]

theorem doAuxProfile_takes (s : State) (q : Request) (b : Bsn) (hl : q.payload.length = 16)
    (hh : heard s q 0x4A = true) (hf : bit (pay8 q 2) 0 = true)
    (h : bsnGrants (payBsn q 8) (bsnNext s) (bit (pay8 q 2) 1) b)
    (hi : pay8 q 0 ≤ 3) (hm : pay8 q 1 = 0) (hon : bit (rd s (.auxCfg (pay8 q 0))) 0 = true)
    (hmclk : bit (rd s (.auxCfg (pay8 q 0))) 2 = false) (hp : auxPorts s (pay8 q 0) = [])
    (hx : (auxAt s (pay8 q 0)).profile = true) :
    doAuxProfile q s = waitsWith s q 0x4A (.auxProfile (pay8 q 0) false b) (some (bsn8 b)) := by
  refine runOp_waits _ _ _ q s _ _ _ hh (by simp [lenIs, hl]) (by decide) ?_ rfl
  have ha : ¬ 3 < pay8 q 0 := by omega
  simp [hf, ha, hm, hon, hmclk, hp, hx, bsnGrants_block h, bsnGrants_check h]

/-- Settles O10: each of the three opcodes resolves its request by R14's distance from its own earliest block, and refuses or
takes the block that this gives. -/
theorem requestedBsnResolution : Obligations.RequestedBsnResolution := by
  intro s q r e hl hr
  subst hr
  refine ⟨fun hh hf he => ?_, fun hh hf he => ?_, fun hh hf he => ?_⟩
  · have he : e = earliestCommit s - 1#40 := he
    subst he
    exact ⟨fun h h' => congrArg _ (doHamperCommit_refuses s q hl hh hf (.inl ⟨h, h'⟩)),
      fun h h' => congrArg _ (doHamperCommit_refuses s q hl hh hf (.inr ⟨h, h'⟩)),
      fun c h hi hn ho hu hw => congrArg _ (doHamperCommit_takes s q c hl hh hf h hi hn ho hu hw)⟩
  · have he : e = earliestSwitch s (pay8 q 1 == 1) (pay16 q 4) := by simpa [earliestSwitch] using he
    subst he
    exact ⟨fun h h' => congrArg _ (doGraphActivate_refuses s q hl hh hf (.inl ⟨h, h'⟩)),
      fun h h' => congrArg _ (doGraphActivate_refuses s q hl hh hf (.inr ⟨h, h'⟩)),
      fun n u h hi hm hr ha hg hu => hu ▸ congrArg _ (doGraphActivate_takes s q n hl hh hf h hi hm hr ha hg)⟩
  · have he : e = bsnNext s := he
    subst he
    exact ⟨fun h h' => congrArg _ (doAuxProfile_refuses s q hl hh hf (.inl ⟨h, h'⟩)),
      fun h h' => congrArg _ (doAuxProfile_refuses s q hl hh hf (.inr ⟨h, h'⟩)),
      fun b h hi hm hon hmclk hp hx => congrArg _ (doAuxProfile_takes s q b hl hh hf h hi hm hon hmclk hp hx)⟩

end Sys2Proof.Machine

namespace Sys2Proof.Machine

open Sys2Proof

/-! ## The stamp of a state: what an ordinary operation leaves alone -/

/-- The queue, the instant and the mode of a state: what only the passing of time, changes of mode and resets write. -/
structure Stamp where
  pending : List Instr
  bsn     : Bsn
  cycle   : Nat
  mode    : Mode

/-- The stamp of a state. -/
def State.stamp (s : State) : Stamp := ⟨s.pending, s.bsn, s.cycle, s.power.mode⟩

/-- An update that names none of the stamp's fields keeps it. -/
@[simp] theorem stamp_update (s : State) (seq mapDue spi addrA addrB bus events record otp clock dports asrc analog wake
    stage diag touch graph drover health params regs jtag sramClean rcNow free) :
    (State.mk s.pending s.bsn s.cycle seq mapDue spi addrA addrB bus events s.power record otp clock dports asrc analog
      wake stage diag touch graph drover health params regs jtag sramClean rcNow free).stamp = s.stamp := by
  simp only [State.stamp]

/-- So does one that changes the power state and not its mode. -/
@[simp] theorem stamp_update_power (s : State) (change boot bootPor bootWake pwrEn0 pwrEn1 isoGate sramOn fabricOn
    lastChange coreTemp vstby hot charger wakeSet heldWake shipClock porShip bootActive bootPlay bootDiag firstA2
    accepting seq mapDue spi addrA addrB bus events record otp clock dports asrc analog wake stage diag touch graph
    drover health params regs jtag sramClean rcNow free) :
    (State.mk s.pending s.bsn s.cycle seq mapDue spi addrA addrB bus events
      (Power.mk s.power.mode change boot bootPor bootWake pwrEn0 pwrEn1 isoGate sramOn fabricOn lastChange coreTemp
        vstby hot charger wakeSet heldWake shipClock porShip bootActive bootPlay bootDiag firstA2 accepting)
      record otp clock dports asrc analog wake stage diag touch graph drover health params regs jtag sramClean rcNow
      free).stamp = s.stamp := by
  simp only [State.stamp]

@[simp] theorem modPower_stamp (s : State) (f : Power → Power) (h : ∀ p, (f p).mode = p.mode) :
    (modPower s f).stamp = s.stamp := by
  simp only [State.stamp, modPower, h]

@[simp] theorem stamp_ite (c : Prop) [Decidable c] (a b : State) :
    (if c then a else b).stamp = if c then a.stamp else b.stamp := by
  split <;> rfl

/-- A fold of operations that keep the stamp keeps it. -/
@[simp] theorem foldl_stamp {α : Type} (f : State → α → State) (h : ∀ s x, (f s x).stamp = s.stamp) (l : List α)
    (s : State) : (l.foldl f s).stamp = s.stamp := by
  induction l generalizing s with
  | nil => rfl
  | cons x l ih => rw [List.foldl_cons, ih, h]

/-!
The operations of the model follow, file by file in the model's order: each keeps the stamp because it writes other
fields, and runs operations that keep it.
-/

/-! ### Ops -/

@[simp] theorem regSet_stamp (s : State) (reset : Nat → Nat) (a v : Nat) : (regSet s reset a v).stamp = s.stamp := by
  simp [regSet]

@[simp] theorem setPort_stamp (s : State) (p : PortId) (v : Port) : (setPort s p v).stamp = s.stamp := by
  unfold setPort
  split <;> simp

@[simp] theorem modPort_stamp (s : State) (p : PortId) (f : Port → Port) : (modPort s p f).stamp = s.stamp := by
  simp [modPort]

@[simp] theorem finalReply_stamp (s : State) (p : PortId) (tag op : Byte) (st : Status) (payload : List Byte) :
    (finalReply s p tag op st payload).stamp = s.stamp := by
  simp [finalReply]

@[simp] theorem answerNow_stamp (s : State) (p : PortId) (tag op : Byte) (st : Status) (payload : List Byte) :
    (answerNow s p tag op st payload).stamp = s.stamp := by
  simp [answerNow]

@[simp] theorem earlyReply_stamp (s : State) (p : PortId) (tag op : Byte) (payload : List Byte) :
    (earlyReply s p tag op payload).stamp = s.stamp := by
  simp [earlyReply]

@[simp] theorem completeJob_stamp (s : State) (f : Job → Bool) (st : Status) (payload : List Byte) :
    (completeJob s f st payload).stamp = s.stamp := by
  unfold completeJob
  split <;> simp

@[simp] theorem completeSeq_stamp (s : State) (n : Nat) (st : Status) (payload : List Byte) :
    (completeSeq s n st payload).stamp = s.stamp := by
  unfold completeSeq
  split <;> simp

@[simp] theorem completeJobs_stamp (s : State) (f : Job → Bool) (reply : Job → Status × List Byte) :
    (completeJobs s f reply).stamp = s.stamp := by
  simp [completeJobs]

@[simp] theorem evEnter_stamp (s : State) (r : EvRecord) : (evEnter s r).stamp = s.stamp := by
  unfold evEnter
  dsimp only
  (repeat' split) <;> simp

@[simp] theorem evQueue_stamp (s : State) (r : EvRecord) : (evQueue s r).stamp = s.stamp := by
  unfold evQueue
  dsimp only
  (repeat' split) <;> simp

@[simp] theorem drainAon_stamp (s : State) : (drainAon s).stamp = s.stamp := by simp [drainAon]

@[simp] theorem raiseAt_stamp (s : State) (num payload : Nat) (bsn : Bsn) (cycle : Nat) :
    (raiseAt s num payload bsn cycle).stamp = s.stamp := by
  simp [raiseAt]

@[simp] theorem raise_stamp (s : State) (num payload : Nat) : (raise s num payload).stamp = s.stamp := by simp [raise]

@[simp] theorem nextFree_stamp (s : State) : (nextFree s).stamp = s.stamp := by simp [nextFree]

@[simp] theorem dropPacket_stamp (s : State) (p : PortId) (reason : Nat) (op tag : Nat) :
    (dropPacket s p reason op tag).stamp = s.stamp := by
  simp [dropPacket]

/-! ### Regs -/

@[simp] theorem wr_stamp (s : State) (r : Reg) (v : Nat) : (wr s r v).stamp = s.stamp := by simp [wr]

@[simp] theorem rcNote_stamp (s : State) (r : Reg) (old fresh : Nat) : (rcNote s r old fresh).stamp = s.stamp := by
  simp [rcNote]

@[simp] theorem rcUpdate_stamp (s : State) (r : Reg) (f : Nat → Nat) : (rcUpdate s r f).stamp = s.stamp := by
  simp [rcUpdate]

@[simp] theorem rcClear_stamp (s : State) (r : Reg) : (rcClear s r).stamp = s.stamp := by simp [rcClear]

@[simp] theorem addCount_stamp (s : State) (r : Reg) (hi lo k : Nat) : (addCount s r hi lo k).stamp = s.stamp := by
  simp [addCount]

@[simp] theorem raisePeak_stamp (s : State) (r : Reg) (v : Nat) : (raisePeak s r v).stamp = s.stamp := by
  simp [raisePeak]

/-! ### Fabric -/

@[simp] theorem countPlaced_stamp (s : State) (p : Nat) (spilled : Bool) :
    (countPlaced s p spilled).stamp = s.stamp := by
  simp [countPlaced]

@[simp] theorem makeReady_stamp (m : Memory) (c : Nat) (s : State) (t : Task) :
    (makeReady m c s t).stamp = s.stamp := by
  unfold makeReady
  dsimp only
  (repeat' split) <;> simp

@[simp] theorem computeStart_stamp (s : State) (k : Bsn) : (computeStart s k).stamp = s.stamp := by simp [computeStart]

@[simp] theorem commitTask_stamp (s : State) (m : Memory) (k : Bsn) (t : Task) :
    (commitTask s m k t).stamp = s.stamp := by
  unfold commitTask
  split <;> simp

@[simp] theorem strayWrites_stamp (s : State) (m : Memory) (k : Bsn) (t : Task) (done fault : Bool) :
    (strayWrites s m k t done fault).stamp = s.stamp := by
  simp [strayWrites]

@[simp] theorem guardFrame_stamp (s : State) (f : Nat) : (guardFrame s f).stamp = s.stamp := by
  unfold guardFrame
  exact foldl_stamp _ (fun t k => by split <;> simp) _ _

/-! ### Drover -/

@[simp] theorem grantOp_stamp (s : State) (p i : Nat) (src : GrantFrom) : (grantOp s p i src).stamp = s.stamp := by
  unfold grantOp
  dsimp only
  (repeat' split) <;> simp

@[simp] theorem grantMe_stamp (s : State) (p i : Nat) (r : Ready) : (grantMe s p i r).stamp = s.stamp := by
  unfold grantMe
  split <;> simp

@[simp] theorem countCycles_stamp (s : State) (r : Ready) (since : Nat) : (countCycles s r since).stamp = s.stamp := by
  simp [countCycles]

@[simp] theorem retireTask_stamp (s : State) (k : Bsn) (me : Bool) (i : Nat) (r : Ready) (since : Nat) :
    (retireTask s k me i r since).stamp = s.stamp := by
  simp [retireTask]

@[simp] theorem comeReady_stamp (s : State) : (comeReady s).stamp = s.stamp := by simp [comeReady]

@[simp] theorem sendReport_stamp (s : State) (r : FaultReport) (injected : Bool) (t : Option Task) :
    (sendReport s r injected t).stamp = s.stamp := by
  simp [sendReport]

@[simp] theorem strayAll_stamp (s : State) (m : Memory) (k : Bsn) : (strayAll s m k).stamp = s.stamp := by
  unfold strayAll
  exact foldl_stamp _ (fun t e => by split <;> simp) _ _

@[simp] theorem cancelBlock_stamp (s : State) : (cancelBlock s).stamp = s.stamp := by
  unfold cancelBlock
  split <;> simp

/-! ### Banks -/

@[simp] theorem modHealth_stamp (s : State) (f : Health → Health) : (modHealth s f).stamp = s.stamp := by
  simp [modHealth]

@[simp] theorem modBank_stamp (s : State) (b : Nat) (f : Bank → Bank) : (modBank s b f).stamp = s.stamp := by
  simp [modBank]

@[simp] theorem setFlips_stamp (s : State) (b w : Nat) (l : List Nat) : (setFlips s b w l).stamp = s.stamp := by
  simp [setFlips]

@[simp] theorem poison_stamp (s : State) (b w : Nat) : (poison s b w).stamp = s.stamp := by simp [poison]

@[simp] theorem upset_stamp (s : State) (x : Nat × Nat × Nat) : (upset s x).stamp = s.stamp := by simp [upset]

/-! ### Engine -/

@[simp] theorem reservedReply_stamp (s : State) (p : PortId) (op tag : Byte) (st : Status) :
    (reservedReply s p op tag st).stamp = s.stamp := by
  simp [reservedReply]

@[simp] theorem takePlace_stamp (s : State) (p : PortId) (op tag : Byte) : (takePlace s p op tag).stamp = s.stamp := by
  simp [takePlace]

@[simp] theorem noteSlot_stamp (s : State) (q : Request) (op : Byte) : (noteSlot s q op).stamp = s.stamp := by
  simp [noteSlot]

@[simp] theorem setJob_stamp (s : State) (p : PortId) (tag : Byte) (j : Job) : (setJob s p tag j).stamp = s.stamp := by
  simp [setJob]

/-! ### What an opcode leaves -/

/-- A property that nothing decides which the transport of commands writes: ports, bus, events, counts. -/
structure TransportBlind (P : State → Prop) : Prop where
  port  : ∀ t p f, P t → P (modPort t p f)
  seq   : ∀ t n, P t → P { t with seq := n }
  bus   : ∀ t b, P t → P { t with bus := b }
  event : ∀ t n p, P t → P (raise t n p)
  count : ∀ t r hi lo k, P t → P (addCount t r hi lo k)

/-- The effect of a verdict meets a property. -/
def Verdict.Leaves (P : State → Prop) : Verdict → Prop
  | .refuse _ _ => True
  | .done u _ | .fail u _ _ | .pend u _ _ | .silent u => P u

@[simp] theorem leaves_refuse (P : State → Prop) (st : Status) (l : List Byte) : (Verdict.refuse st l).Leaves P :=
  trivial

@[simp] theorem leaves_done (P : State → Prop) (u : State) (l : List Byte) : (Verdict.done u l).Leaves P ↔ P u :=
  Iff.rfl

@[simp] theorem leaves_fail (P : State → Prop) (u : State) (st : Status) (l : List Byte) :
    (Verdict.fail u st l).Leaves P ↔ P u := Iff.rfl

@[simp] theorem leaves_pend (P : State → Prop) (u : State) (j : Job) (early : Option (List Byte)) :
    (Verdict.pend u j early).Leaves P ↔ P u := Iff.rfl

@[simp] theorem leaves_silent (P : State → Prop) (u : State) : (Verdict.silent u).Leaves P ↔ P u := Iff.rfl

@[simp] theorem leaves_ite (P : State → Prop) (c : Prop) [Decidable c] (v w : Verdict) :
    (if c then v else w).Leaves P ↔ if c then v.Leaves P else w.Leaves P := by
  split <;> rfl

namespace TransportBlind

variable {P : State → Prop} (h : TransportBlind P) {s : State}
include h

theorem dropPacket (hs : P s) (p : PortId) (reason op tag : Nat) : P (dropPacket s p reason op tag) :=
  h.event _ _ _ (h.port _ _ _ hs)

theorem reservedReply (hs : P s) (p : PortId) (op tag : Byte) (st : Status) : P (reservedReply s p op tag st) := by
  unfold Machine.reservedReply
  split
  · exact h.dropPacket hs _ _ _ _
  · exact h.port _ _ _ hs

theorem takePlace (hs : P s) (p : PortId) (op tag : Byte) : P (takePlace s p op tag) := by
  unfold Machine.takePlace
  exact h.port _ _ _ (h.seq _ _ hs)

theorem answerNow (hs : P s) (p : PortId) (tag op : Byte) (st : Status) (payload : List Byte) :
    P (answerNow s p tag op st payload) :=
  h.port _ _ _ hs

theorem noteSlot (hs : P s) (q : Request) (op : Byte) : P (noteSlot s q op) := by
  unfold Machine.noteSlot
  split
  · exact h.port _ _ _ hs
  · exact hs

/-- Acceptance adds a place and a reply to what the verdict leaves. -/
theorem settle (hs : P s) (q : Request) (op : Byte) {v : Verdict} (hv : v.Leaves P) : P (settle s q op v) := by
  cases v with
  | refuse st payload => exact h.answerNow hs _ _ _ _ _
  | done u payload => exact h.noteSlot (h.answerNow hv _ _ _ _ _) _ _
  | fail u st payload => exact h.answerNow hv _ _ _ _ _
  | silent u => exact hv
  | pend u j early =>
    have hu : P (Machine.noteSlot (setJob u q.port q.tag j) q op) := h.noteSlot (h.port _ _ _ hv) _ _
    cases early with
    | none => exact hu
    | some payload =>
      unfold Machine.settle
      dsimp only
      split
      · exact h.port _ _ _ hu
      · exact hu

/-- What an opcode's own effect keeps, its packet keeps (R395). -/
theorem runOp (hs : P s) {op : Nat} {lenOk : List Byte → Bool} {body : State → Request → Verdict} {q : Request}
    (hb : ∀ t, t.stamp = s.stamp → P t → (body t q).Leaves P) : P (runOp op lenOk body q s) := by
  have ht : P (Machine.takePlace s q.port (BitVec.ofNat 8 op) q.tag) := h.takePlace hs _ _ _
  unfold Machine.runOp judge
  dsimp only
  split
  · exact hs
  split
  · exact h.dropPacket hs _ _ _ _
  split
  · exact h.reservedReply hs _ _ _ _
  refine h.settle ht _ _ ?_
  simp [hb _ (takePlace_stamp _ _ _ _) ht]

theorem badOpcode (hs : P s) (q : Request) (op : Byte) : P (badOpcode q op s) := by
  unfold Machine.badOpcode
  split
  · exact hs
  split
  · exact h.dropPacket hs _ _ _ _
  split
  · exact h.reservedReply hs _ _ _ _
  · exact h.answerNow (h.takePlace hs _ _ _) _ _ _ _ _

end TransportBlind

/-- No port, place or event is part of the stamp. -/
theorem transportBlind_stamp (x : Stamp) : TransportBlind (fun t => t.stamp = x) where
  port t p f h := by rw [modPort_stamp, h]
  seq t n h := by rw [stamp_update, h]
  bus t b h := by rw [stamp_update, h]
  event t n p h := by rw [raise_stamp, h]
  count t r hi lo k h := by rw [addCount_stamp, h]

/-- A packet keeps the stamp where its opcode does. -/
theorem runOp_stamp {op : Nat} {lenOk : List Byte → Bool} {body : State → Request → Verdict} {q : Request} {s : State}
    (hb : ∀ t, (body t q).Leaves (fun u => u.stamp = t.stamp)) : (runOp op lenOk body q s).stamp = s.stamp :=
  (transportBlind_stamp s.stamp).runOp rfl (fun t ht _ => ht ▸ hb t)

@[simp] theorem badOpcode_stamp (q : Request) (op : Byte) (s : State) : (badOpcode q op s).stamp = s.stamp :=
  (transportBlind_stamp s.stamp).badOpcode rfl q op

/-! ### Events -/

@[simp] theorem doEventStatus_stamp (q : Request) (s : State) : (doEventStatus q s).stamp = s.stamp :=
  runOp_stamp (fun t => by simp)

@[simp] theorem takeRecords_stamp (s : State) (n : Nat) (clear : Bool) : (takeRecords s n clear).stamp = s.stamp := by
  simp [takeRecords]

@[simp] theorem doEventRead_stamp (q : Request) (s : State) : (doEventRead q s).stamp = s.stamp :=
  runOp_stamp (fun t => by simp)

@[simp] theorem peekRecords_stamp (s : State) (f n : Nat) : (peekRecords s f n).stamp = s.stamp := by simp [peekRecords]

@[simp] theorem doEventPeek_stamp (q : Request) (s : State) : (doEventPeek q s).stamp = s.stamp :=
  runOp_stamp (fun t => by simp)

@[simp] theorem doEventClear_stamp (q : Request) (s : State) : (doEventClear q s).stamp = s.stamp :=
  runOp_stamp (fun t => by simp)

/-! ### Otp -/

@[simp] theorem doOtpStatus_stamp (q : Request) (s : State) : (doOtpStatus q s).stamp = s.stamp :=
  runOp_stamp (fun t => by simp)

@[simp] theorem doOtpRead_stamp (q : Request) (s : State) : (doOtpRead q s).stamp = s.stamp :=
  runOp_stamp (fun t => by simp)

@[simp] theorem otpQueue_stamp (s : State) (q : Request) (k : OtpKind) (ws : List (Nat × Word)) :
    (otpQueue s q k ws).stamp = s.stamp := by
  simp [otpQueue]

@[simp] theorem otpAccept_stamp (s : State) (q : Request) (k : OtpKind) (ws : List (Nat × Word)) :
    (otpAccept s q k ws).Leaves (fun u => u.stamp = s.stamp) := by
  simp [otpAccept]

@[simp] theorem doOtpGenBegin_stamp (q : Request) (s : State) : (doOtpGenBegin q s).stamp = s.stamp :=
  runOp_stamp (fun t => by dsimp only; (repeat' split) <;> simp)

@[simp] theorem doOtpGenData_stamp (q : Request) (s : State) : (doOtpGenData q s).stamp = s.stamp :=
  runOp_stamp (fun t => by (repeat' split) <;> simp)

@[simp] theorem doOtpGenCommit_stamp (q : Request) (s : State) : (doOtpGenCommit q s).stamp = s.stamp :=
  runOp_stamp (fun t => by split <;> simp)

@[simp] theorem doOtpLock_stamp (q : Request) (s : State) : (doOtpLock q s).stamp = s.stamp :=
  runOp_stamp (fun t => by split <;> simp)

@[simp] theorem doOtpFactoryWrite_stamp (q : Request) (s : State) : (doOtpFactoryWrite q s).stamp = s.stamp :=
  runOp_stamp (fun t => by simp)

@[simp] theorem setClasses_stamp (s : State) (cs : List Nat) : (setClasses s cs).stamp = s.stamp := by simp [setClasses]

@[simp] theorem setBootClasses_stamp (s : State) (cs : List Nat) : (setBootClasses s cs).stamp = s.stamp := by
  simp [setBootClasses]

@[simp] theorem dropService_stamp (s : State) : (dropService s).stamp = s.stamp := by simp [dropService]

@[simp] theorem applyLock_stamp (s : State) (cs : List Nat) (fl : Nat) : (applyLock s cs fl).stamp = s.stamp := by
  simp [applyLock]

@[simp] theorem mapChange_stamp (s : State) (due : MappingDue) : (mapChange s due).stamp = s.stamp := by
  unfold mapChange
  split <;> simp

@[simp] theorem mapApply_stamp (s : State) : (mapApply s).stamp = s.stamp := by simp [mapApply]

@[simp] theorem otpFinish_stamp (s : State) (k : OtpKind) : (otpFinish s k).1.stamp = s.stamp := by
  unfold otpFinish
  split <;> simp

@[simp] theorem programmed_stamp (s : State) (w : Nat × Word) (verified : Bool) :
    (programmed s w verified).stamp = s.stamp := by
  simp [programmed]

/-! ### Session -/

@[simp] theorem doPing_stamp (q : Request) (s : State) : (doPing q s).stamp = s.stamp :=
  runOp_stamp (fun t => by simp)

@[simp] theorem doIdentify_stamp (q : Request) (s : State) : (doIdentify q s).stamp = s.stamp :=
  runOp_stamp (fun t => by simp)

@[simp] theorem doGetStatus_stamp (q : Request) (s : State) : (doGetStatus q s).stamp = s.stamp :=
  runOp_stamp (fun t => by simp)

@[simp] theorem doPortClassGet_stamp (q : Request) (s : State) : (doPortClassGet q s).stamp = s.stamp :=
  runOp_stamp (fun t => by simp)

@[simp] theorem doPortClassSet_stamp (q : Request) (s : State) : (doPortClassSet q s).stamp = s.stamp :=
  runOp_stamp (fun t => by simp)

/-! ### Root -/

@[simp] theorem modClock_stamp (s : State) (f : Clock → Clock) : (modClock s f).stamp = s.stamp := by simp [modClock]

@[simp] theorem setRoot_stamp (s : State) (r : RootState) : (setRoot s r).stamp = s.stamp := by simp [setRoot]

@[simp] theorem restartRoot_stamp (s : State) : (restartRoot s).stamp = s.stamp := by simp [restartRoot]

@[simp] theorem refLost_stamp (s : State) : (refLost s).stamp = s.stamp := by
  unfold refLost
  dsimp only
  (repeat' split) <;> simp

@[simp] theorem refPortCheck_stamp (s : State) (p : Nat) : (refPortCheck s p).stamp = s.stamp := by simp [refPortCheck]

/-! ### Ports -/

@[simp] theorem modDport_stamp (s : State) (p : Nat) (f : DPort → DPort) : (modDport s p f).stamp = s.stamp := by
  simp [modDport]

@[simp] theorem portPins_stamp (s : State) (p : Nat) : (portPins s p).stamp = s.stamp := by simp [portPins]

@[simp] theorem dropHold_stamp (s : State) (p : Nat) : (dropHold s p).stamp = s.stamp := by simp [dropHold]

@[simp] theorem enterLock_stamp (s : State) (p : Nat) (l : LockState) : (enterLock s p l).stamp = s.stamp := by
  simp [enterLock]

@[simp] theorem rampPortOut_stamp (s : State) (p : Nat) : (rampPortOut s p).stamp = s.stamp := by simp [rampPortOut]

@[simp] theorem portCutoff_stamp (s : State) (p : Nat) : (portCutoff s p).stamp = s.stamp := by simp [portCutoff]

@[simp] theorem portLose_stamp (s : State) (p : Nat) (clockLeft : Bool) : (portLose s p clockLeft).stamp = s.stamp := by
  simp [portLose]

@[simp] theorem portFrame_stamp (s : State) : (portFrame s).stamp = s.stamp := by
  unfold portFrame
  exact foldl_stamp _ (fun t x => by split <;> simp) _ _

@[simp] theorem portStart_stamp (s : State) (p : Nat) : (portStart s p).stamp = s.stamp := by simp [portStart]

@[simp] theorem portStop_stamp (s : State) (p : Nat) : (portStop s p).stamp = s.stamp := by simp [portStop]

@[simp] theorem portRestartWord_stamp (s : State) (p old : Nat) : (portRestartWord s p old).stamp = s.stamp := by
  simp [portRestartWord]

@[simp] theorem applyPortCfg_stamp (s : State) (p v : Nat) : (applyPortCfg s p v).stamp = s.stamp := by
  unfold applyPortCfg
  dsimp only
  (repeat' split) <;> simp

@[simp] theorem portAdd_stamp (s : State) (p hi lo : Nat) : (portAdd s p hi lo).stamp = s.stamp := by
  unfold portAdd
  split <;> simp

@[simp] theorem parityCheck_stamp (s : State) (p : Nat) : (parityCheck s p).stamp = s.stamp := by simp [parityCheck]

@[simp] theorem nonpcmMute_stamp (s : State) (p : Nat) : (nonpcmMute s p).stamp = s.stamp := by simp [nonpcmMute]

@[simp] theorem applyMap_stamp (s : State) (output : Bool) (c v : Nat) : (applyMap s output c v).stamp = s.stamp := by
  simp [applyMap]

@[simp] theorem asrcRestart_stamp (s : State) : (asrcRestart s).stamp = s.stamp := by simp [asrcRestart]

@[simp] theorem takeInputs_stamp (s : State) (i : BlockInput) : (takeInputs s i).stamp = s.stamp := by simp [takeInputs]

@[simp] theorem sendPorts_stamp (s : State) (i : BlockInput) : (sendPorts s i).stamp = s.stamp := by simp [sendPorts]

@[simp] theorem countValidity_stamp (s : State) (i : BlockInput) (p : Nat) : (countValidity s i p).stamp = s.stamp := by
  unfold countValidity
  (repeat' split) <;> simp

@[simp] theorem portBlock_stamp (s : State) (i : BlockInput) : (portBlock s i).stamp = s.stamp := by simp [portBlock]

@[simp] theorem portReading_stamp (i : BlockInput) (s : State) (p : Nat) : (portReading i s p).stamp = s.stamp := by
  simp [portReading]

@[simp] theorem portReadings_stamp (s : State) (i : BlockInput) : (portReadings s i).stamp = s.stamp := by
  simp [portReadings]

@[simp] theorem doPortStatus_stamp (q : Request) (s : State) : (doPortStatus q s).stamp = s.stamp :=
  runOp_stamp (fun t => by simp)

@[simp] theorem doSpdifCsRead_stamp (q : Request) (s : State) : (doSpdifCsRead q s).stamp = s.stamp :=
  runOp_stamp (fun t => by simp)

@[simp] theorem doRouteRead_stamp (q : Request) (s : State) : (doRouteRead q s).stamp = s.stamp :=
  runOp_stamp (fun t => by simp)

@[simp] theorem doPortRestart_stamp (q : Request) (s : State) : (doPortRestart q s).stamp = s.stamp :=
  runOp_stamp (fun t => by simp)

@[simp] theorem portsTo_stamp (s : State) (l : LockState) : (portsTo s l).stamp = s.stamp := by simp [portsTo]

/-! ### Analog -/

@[simp] theorem modAdc_stamp (s : State) (a : Nat) (f : Adc → Adc) : (modAdc s a f).stamp = s.stamp := by simp [modAdc]

@[simp] theorem pgaTo_stamp (s : State) (m gain : Nat) : (pgaTo s m gain).stamp = s.stamp := by simp [pgaTo]

@[simp] theorem applyAdcCfg_stamp (s : State) (a v : Nat) : (applyAdcCfg s a v).stamp = s.stamp := by simp [applyAdcCfg]

@[simp] theorem biasUpdate_stamp (s : State) : (biasUpdate s).stamp = s.stamp := by
  unfold biasUpdate
  split <;> simp

@[simp] theorem applyMicbias_stamp (s : State) (v : Nat) : (applyMicbias s v).stamp = s.stamp := by simp [applyMicbias]

@[simp] theorem modHp_stamp (s : State) (f : Output → Output) : (modHp s f).stamp = s.stamp := by simp [modHp]

@[simp] theorem modLo_stamp (s : State) (f : Output → Output) : (modLo s f).stamp = s.stamp := by simp [modLo]

@[simp] theorem hpTryUp_stamp (s : State) : (hpTryUp s).stamp = s.stamp := by simp [hpTryUp]

@[simp] theorem loTryUp_stamp (s : State) : (loTryUp s).stamp = s.stamp := by simp [loTryUp]

@[simp] theorem applyHpCfg_stamp (s : State) (v : Nat) : (applyHpCfg s v).stamp = s.stamp := by simp [applyHpCfg]

@[simp] theorem applyLoCfg_stamp (s : State) (v : Nat) : (applyLoCfg s v).stamp = s.stamp := by simp [applyLoCfg]

@[simp] theorem analogFrame_stamp (s : State) : (analogFrame s).stamp = s.stamp := by simp [analogFrame]

@[simp] theorem dacBlock_stamp (s : State) : (dacBlock s).stamp = s.stamp := by simp [dacBlock]

@[simp] theorem limitBlock_stamp (s : State) (l r : Bool) : (limitBlock s l r).stamp = s.stamp := by simp [limitBlock]

@[simp] theorem modJack_stamp (s : State) (f : Jacks → Jacks) : (modJack s f).stamp = s.stamp := by simp [modJack]

@[simp] theorem jackEvent_stamp (s : State) : (jackEvent s).stamp = s.stamp := by simp [jackEvent]

@[simp] theorem standKind_stamp (s : State) (k : PlugKind) (mvA mvB : Nat) :
    (standKind s k mvA mvB).stamp = s.stamp := by
  simp [standKind]

@[simp] theorem measureContacts_stamp (a b : Bool) (s : State) : (measureContacts a b s).stamp = s.stamp := by
  simp [measureContacts]

@[simp] theorem classifyStart_stamp (s : State) : (classifyStart s).stamp = s.stamp := by simp [classifyStart]

@[simp] theorem jackBlock_stamp (s : State) (mv : Option Nat) : (jackBlock s mv).stamp = s.stamp := by
  unfold jackBlock
  split <;> simp

/-! ### Wake -/

@[simp] theorem modWake_stamp (s : State) (f : Wake → Wake) : (modWake s f).stamp = s.stamp := by simp [modWake]

@[simp] theorem modSrcs_stamp (s : State) (c : Nat) (f : Adc → Adc) : (modSrcs s c f).stamp = s.stamp := by
  simp [modSrcs]

@[simp] theorem noteBridge_stamp (s : State) : (noteBridge s).stamp = s.stamp := by simp [noteBridge]

@[simp] theorem bridgeMics_stamp (s : State) (ms : List Nat) : (bridgeMics s ms).stamp = s.stamp := by simp [bridgeMics]

@[simp] theorem pushFeeds_stamp (s : State) (feeds : List (Nat × List Int)) : (pushFeeds s feeds).stamp = s.stamp := by
  simp [pushFeeds]

@[simp] theorem wakeInstant_stamp (s : State) (n : Csn) : (wakeInstant s n).stamp = s.stamp := by simp [wakeInstant]

@[simp] theorem coolerErrors_stamp (s : State) (words : List (List (Nat × Nat))) :
    (coolerErrors s words).stamp = s.stamp := by
  simp [coolerErrors]

@[simp] theorem wakeBlock_stamp (s : State) (feeds : List (Nat × List Int)) (words : List (List (Nat × Nat))) :
    (wakeBlock s feeds words).stamp = s.stamp := by
  simp [wakeBlock]

@[simp] theorem endFetches_stamp (s : State) : (endFetches s).stamp = s.stamp := by simp [endFetches]

@[simp] theorem doCoolerFetch_stamp (q : Request) (s : State) : (doCoolerFetch q s).stamp = s.stamp :=
  runOp_stamp (fun t => by split <;> simp)

@[simp] theorem detectionEvent_stamp (s : State) (w : Csn) : (detectionEvent s w).stamp = s.stamp := by
  unfold detectionEvent
  dsimp only
  (repeat' split) <;> simp

@[simp] theorem detectionLeft_stamp (s t : State) : (detectionLeft s t).stamp = t.stamp := by
  unfold detectionLeft
  split <;> simp

@[simp] theorem detUpdate_stamp (s : State) (again : Bool) : (detUpdate s again).stamp = s.stamp := by simp [detUpdate]

@[simp] theorem captureUpdate_stamp (s : State) : (captureUpdate s).stamp = s.stamp := by
  unfold captureUpdate
  split <;> simp

@[simp] theorem pathStart_stamp (s : State) : (pathStart s).stamp = s.stamp := by simp [pathStart]

@[simp] theorem pathStop_stamp (s : State) : (pathStop s).stamp = s.stamp := by simp [pathStop]

@[simp] theorem clockTo_stamp (s : State) (c : Nat) (listen : Bool) : (clockTo s c listen).stamp = s.stamp := by
  simp [clockTo]

@[simp] theorem clockDue_stamp (s : State) (c : Nat) (listen : Bool) (b : Bsn) :
    (clockDue s c listen b).stamp = s.stamp := by
  simp [clockDue]

@[simp] theorem clocksStop_stamp (s : State) : (clocksStop s).stamp = s.stamp := by simp [clocksStop]

@[simp] theorem abandonSwaps_stamp (s : State) (c : Nat) : (abandonSwaps s c).stamp = s.stamp := by simp [abandonSwaps]

@[simp] theorem doWakeStatus_stamp (q : Request) (s : State) : (doWakeStatus q s).stamp = s.stamp :=
  runOp_stamp (fun t => by simp)

@[simp] theorem doWakeRearm_stamp (q : Request) (s : State) : (doWakeRearm q s).stamp = s.stamp :=
  runOp_stamp (fun t => by simp)

@[simp] theorem applyPdmCfg_stamp (s : State) (v : Nat) : (applyPdmCfg s v).stamp = s.stamp := by
  unfold applyPdmCfg
  rw [foldl_stamp _ (fun t c => by split <;> simp), wr_stamp]

@[simp] theorem applyPmicCfg_stamp (s : State) (m v : Nat) : (applyPmicCfg s m v).stamp = s.stamp := by
  simp [applyPmicCfg]

@[simp] theorem wakeMoved_stamp (s : State) (before : List Nat) : (wakeMoved s before).stamp = s.stamp := by
  simp [wakeMoved]

@[simp] theorem applyBeamCfg_stamp (s : State) (b v : Nat) : (applyBeamCfg s b v).stamp = s.stamp := by
  simp [applyBeamCfg]

@[simp] theorem applyCoolerCfg_stamp (s : State) (v : Nat) : (applyCoolerCfg s v).stamp = s.stamp := by
  simp [applyCoolerCfg]

@[simp] theorem micFrame_stamp (s : State) : (micFrame s).stamp = s.stamp := by simp [micFrame]

/-! ### PStage -/

@[simp] theorem modChan_stamp (s : State) (c : Nat) (f : Chan → Chan) : (modChan s c f).stamp = s.stamp := by
  simp [modChan]

@[simp] theorem beginStart_stamp (s : State) (c : Nat) : (beginStart s c).stamp = s.stamp := by simp [beginStart]

@[simp] theorem beginStop_stamp (s : State) (c ms lag : Nat) (dest : ChState) :
    (beginStop s c ms lag dest).stamp = s.stamp := by
  simp [beginStop]

@[simp] theorem chanFrame_stamp (s : State) : (chanFrame s).stamp = s.stamp := by simp [chanFrame]

@[simp] theorem enChange_stamp (s : State) (c lag : Nat) (a b : Bool) : (enChange s c lag a b).stamp = s.stamp := by
  unfold enChange
  (repeat' split) <;> simp

@[simp] theorem applyChanCfg_stamp (s : State) (c v : Nat) : (applyChanCfg s c v).stamp = s.stamp := by
  simp [applyChanCfg]

@[simp] theorem applyVfs_stamp (s : State) (h v : Nat) : (applyVfs s h v).stamp = s.stamp := by simp [applyVfs]

@[simp] theorem memberUpdate_stamp (s : State) : (memberUpdate s).stamp = s.stamp := by simp [memberUpdate]

@[simp] theorem shutdown_stamp (s : State) (c cause : Nat) : (shutdown s c cause).stamp = s.stamp := by simp [shutdown]

@[simp] theorem warnNow_stamp (s : State) (c w : Nat) : (warnNow s c w).stamp = s.stamp := by simp [warnNow]

@[simp] theorem sagBlock_stamp (s : State) (c : Nat) (ps : List Nat) : (sagBlock s c ps).1.stamp = s.stamp := by
  unfold sagBlock
  dsimp only
  (repeat' split) <;> simp

@[simp] theorem limitCount_stamp (s : State) (c : Nat) (sp : LimitSpan) : (limitCount s c sp).stamp = s.stamp := by
  simp [limitCount]

@[simp] theorem diagLimited_stamp (s : State) (c : Nat) (r : LimitedPeriod) : (diagLimited s c r).stamp = s.stamp := by
  simp [diagLimited]

@[simp] theorem diagBlock_stamp (s : State) (c : Nat) (senses : List SensePair) :
    (diagBlock s c senses).stamp = s.stamp := by
  unfold diagBlock
  dsimp only
  (repeat' split) <;> simp

@[simp] theorem diagMeasure_stamp (s : State) (raw : List (Nat × List SensePair)) :
    (diagMeasure s raw).stamp = s.stamp := by
  unfold diagMeasure
  dsimp only
  (repeat' split) <;> simp

@[simp] theorem pathBlock_stamp (s : State) (c : Nat) (gains : List Nat) (k : Sensed) :
    (pathBlock s c gains k).stamp = s.stamp := by
  simp [pathBlock]

@[simp] theorem chanBoundary_stamp (i : BlockInput) (ps : List Nat) (s : State) (c : Nat) :
    (chanBoundary i ps s c).stamp = s.stamp := by
  unfold chanBoundary
  dsimp only
  (repeat' split) <;> simp

@[simp] theorem latchEvent_stamp (s : State) (c : Nat) : (latchEvent s c).stamp = s.stamp := by simp [latchEvent]

@[simp] theorem releaseChan_stamp (s : State) (c : Nat) : (releaseChan s c).stamp = s.stamp := by simp [releaseChan]

@[simp] theorem releaseChans_stamp (s : State) : (releaseChans s).stamp = s.stamp := by simp [releaseChans]

@[simp] theorem linkTo_stamp (s : State) (down : Bool) : (linkTo s down).stamp = s.stamp := by simp [linkTo]

@[simp] theorem thermalRead_stamp (s : State) (temps : List Int) : (thermalRead s temps).stamp = s.stamp := by
  simp [thermalRead]

@[simp] theorem stageBoundary_stamp (s : State) (i : BlockInput) : (stageBoundary s i).stamp = s.stamp := by
  simp [stageBoundary]

@[simp] theorem doPstageStatus_stamp (q : Request) (s : State) : (doPstageStatus q s).stamp = s.stamp :=
  runOp_stamp (fun t => by simp)

@[simp] theorem doPstageClear_stamp (q : Request) (s : State) : (doPstageClear q s).stamp = s.stamp :=
  runOp_stamp (fun t => by simp)

@[simp] theorem clearChan_stamp (s : State) (c : Nat) : (clearChan s c).1.stamp = s.stamp := by
  unfold clearChan
  dsimp only
  (repeat' split) <;> simp

@[simp] theorem clearChans_stamp (s : State) (mask : Nat) : (clearChans s mask).1.stamp = s.stamp := by
  unfold clearChans
  exact List.foldlRecOn (motive := fun a : State × Nat => a.1.stamp = s.stamp) _ _ rfl
    (fun a ha c _ => (clearChan_stamp a.1 c).trans ha)

@[simp] theorem doPstageSenseRead_stamp (q : Request) (s : State) : (doPstageSenseRead q s).stamp = s.stamp :=
  runOp_stamp (fun t => by simp)

/-! ### Diag -/

@[simp] theorem modDiag_stamp (s : State) (f : Diag → Diag) : (modDiag s f).stamp = s.stamp := by simp [modDiag]

@[simp] theorem doDiagRun_stamp (q : Request) (s : State) : (doDiagRun q s).stamp = s.stamp :=
  runOp_stamp (fun t => by simp)

@[simp] theorem sweepStart_stamp (s : State) (mask : Nat) : (sweepStart s mask).stamp = s.stamp := by simp [sweepStart]

@[simp] theorem nextSlot_stamp (s : State) (b : Bsn) : (nextSlot s b).stamp = s.stamp := by
  unfold nextSlot
  split <;> simp

@[simp] theorem slotEnd_stamp (s : State) : (slotEnd s).stamp = s.stamp := by
  unfold slotEnd
  split <;> simp

@[simp] theorem sweepFinish_stamp (s : State) (b : Bsn) : (sweepFinish s b).stamp = s.stamp := by simp [sweepFinish]

@[simp] theorem sweepCut_stamp (s : State) (code : Nat) : (sweepCut s code).stamp = s.stamp := by
  unfold sweepCut
  split <;> simp

@[simp] theorem sweepDrop_stamp (s : State) (st : Status) : (sweepDrop s st).stamp = s.stamp := by simp [sweepDrop]

@[simp] theorem sweepAbort_stamp (s : State) : (sweepAbort s).stamp = s.stamp := by
  unfold sweepAbort
  split <;> simp

@[simp] theorem sweepLeave_stamp (s : State) : (sweepLeave s).stamp = s.stamp := by
  unfold sweepLeave
  split <;> simp

@[simp] theorem sweepFail_stamp (s : State) : (sweepFail s).stamp = s.stamp := by
  unfold sweepFail
  split <;> simp

@[simp] theorem sweepSkip_stamp (s : State) (h : Nat) : (sweepSkip s h).stamp = s.stamp := by simp [sweepSkip]

@[simp] theorem sweepCutOff_stamp (s : State) (c : Nat) : (sweepCutOff s c).stamp = s.stamp := by
  unfold sweepCutOff
  dsimp only
  (repeat' split) <;> simp

@[simp] theorem fingerLatch_stamp (s : State) (h : Nat) : (fingerLatch s h).stamp = s.stamp := by simp [fingerLatch]

@[simp] theorem doDiagResult_stamp (q : Request) (s : State) : (doDiagResult q s).stamp = s.stamp :=
  runOp_stamp (fun t => by simp)

/-! ### Bridge -/

@[simp] theorem linkFail_stamp (s : State) : (linkFail s).stamp = s.stamp := by simp [linkFail]

@[simp] theorem setStage_stamp (s : State) (pv : Stage) (thermal : Bool) (mv : Nat) :
    (setStage s pv thermal mv).stamp = s.stamp := by
  simp [setStage]

@[simp] theorem stopChan_stamp (imm : Bool) (s : State) (c : Nat) : (stopChan imm s c).stamp = s.stamp := by
  simp [stopChan]

@[simp] theorem stopsDone_stamp (s : State) : (stopsDone s).stamp = s.stamp := by
  unfold stopsDone
  exact foldl_stamp _ (fun t x => by split <;> simp) _ _

@[simp] theorem doPstageStop_stamp (q : Request) (s : State) : (doPstageStop q s).stamp = s.stamp :=
  runOp_stamp (fun t => by simp)

/-! ### Clock -/

@[simp] theorem lockAt_stamp (s : State) (point : Int) : (lockAt s point).stamp = s.stamp := by simp [lockAt]

@[simp] theorem newLock_stamp (s : State) : (newLock s).stamp = s.stamp := by simp [newLock]

@[simp] theorem oldLock_stamp (s : State) : (oldLock s).stamp = s.stamp := by simp [oldLock]

@[simp] theorem switchBack_stamp (s : State) : (switchBack s).stamp = s.stamp := by simp [switchBack]

@[simp] theorem loadRatios_stamp (s : State) (d : Int) : (loadRatios s d).stamp = s.stamp := by simp [loadRatios]

@[simp] theorem realignFrame_stamp (s : State) : (realignFrame s).stamp = s.stamp := by simp [realignFrame]

@[simp] theorem realignEnd_stamp (s : State) : (realignEnd s).stamp = s.stamp := by simp [realignEnd]

@[simp] theorem clockReadings_stamp (s : State) (i : BlockInput) : (clockReadings s i).stamp = s.stamp := by
  simp [clockReadings]

@[simp] theorem syncBoundary_stamp (s : State) (mark : Bool) : (syncBoundary s mark).stamp = s.stamp := by
  simp [syncBoundary]

@[simp] theorem applySync_stamp (s : State) (v : Nat) : (applySync s v).stamp = s.stamp := by simp [applySync]

@[simp] theorem modAux_stamp (s : State) (a : Nat) (f : Aux → Aux) : (modAux s a f).stamp = s.stamp := by simp [modAux]

@[simp] theorem auxPins_stamp (s : State) (a : Nat) : (auxPins s a).stamp = s.stamp := by simp [auxPins]

@[simp] theorem applyAuxCfg_stamp (s : State) (a v : Nat) : (applyAuxCfg s a v).stamp = s.stamp := by simp [applyAuxCfg]

@[simp] theorem mclkCommit_stamp (a v : Nat) (s : State) : (mclkCommit a v s).stamp = s.stamp := by simp [mclkCommit]

@[simp] theorem applyAuxRatio_stamp (s : State) (a int num den : Nat) :
    (applyAuxRatio s a int num den).stamp = s.stamp := by
  simp [applyAuxRatio]

@[simp] theorem applyAuxWords_stamp (s : State) (a cfg int num den : Nat) :
    (applyAuxWords s a cfg int num den).stamp = s.stamp := by
  simp [applyAuxWords]

@[simp] theorem enterSegment_stamp (s : State) (a k : Nat) (from_ : Int) :
    (enterSegment s a k from_).stamp = s.stamp := by
  simp [enterSegment]

@[simp] theorem profileAct_stamp (s : State) (a : Nat) (start : Bool) : (profileAct s a start).stamp = s.stamp := by
  simp [profileAct]

@[simp] theorem doAuxProfile_stamp (q : Request) (s : State) : (doAuxProfile q s).stamp = s.stamp :=
  runOp_stamp (fun t => by simp)

@[simp] theorem doClockStatus_stamp (q : Request) (s : State) : (doClockStatus q s).stamp = s.stamp :=
  runOp_stamp (fun t => by simp)

@[simp] theorem doRootRestart_stamp (q : Request) (s : State) : (doRootRestart q s).stamp = s.stamp :=
  runOp_stamp (fun t => by simp)

@[simp] theorem rootStop_stamp (s : State) : (rootStop s).stamp = s.stamp := by simp [rootStop]

@[simp] theorem rootStart_stamp (s : State) : (rootStart s).stamp = s.stamp := by simp [rootStart]

/-! ### Touch -/

@[simp] theorem modEl_stamp (s : State) (n : Nat) (f : Electrode → Electrode) : (modEl s n f).stamp = s.stamp := by
  simp [modEl]

@[simp] theorem touchEnd_stamp (s : State) (c : Nat) (swiped : Bool) (pos : Nat) (b : Bsn) (cyc : Nat) :
    (touchEnd s c swiped pos b cyc).stamp = s.stamp := by
  simp [touchEnd]

@[simp] theorem elRelease_stamp (s : State) (n : Nat) : (elRelease s n).stamp = s.stamp := by simp [elRelease]

@[simp] theorem sliderRelease_stamp (s : State) : (sliderRelease s).stamp = s.stamp := by simp [sliderRelease]

@[simp] theorem scanIdle_stamp (s : State) (n : Nat) : (scanIdle s n).stamp = s.stamp := by simp [scanIdle]

@[simp] theorem scanTouched_stamp (s : State) (n : Nat) : (scanTouched s n).stamp = s.stamp := by simp [scanTouched]

@[simp] theorem scanCal_stamp (s : State) (n : Nat) : (scanCal s n).stamp = s.stamp := by simp [scanCal]

@[simp] theorem scanTakes_stamp (s : State) (n : Nat) : (scanTakes s n).stamp = s.stamp := by simp [scanTakes]

@[simp] theorem scanRead_stamp (s : State) (n raw : Nat) : (scanRead s n raw).stamp = s.stamp := by
  unfold scanRead
  dsimp only
  (repeat' split) <;> simp

@[simp] theorem scanEl_stamp (s : State) (n raw : Nat) : (scanEl s n raw).stamp = s.stamp := by simp [scanEl]

@[simp] theorem swipe_stamp (s : State) (up : Bool) : (swipe s up).stamp = s.stamp := by simp [swipe]

@[simp] theorem scanSlider_stamp (s : State) : (scanSlider s).stamp = s.stamp := by simp [scanSlider]

@[simp] theorem sliderLeft_stamp (s : State) : (sliderLeft s).stamp = s.stamp := by simp [sliderLeft]

@[simp] theorem recalDone_stamp (s : State) : (recalDone s).stamp = s.stamp := by
  unfold recalDone
  exact foldl_stamp _ (fun t x => by split <;> simp) _ _

@[simp] theorem applyTchCfg_stamp (s : State) (n v : Nat) : (applyTchCfg s n v).stamp = s.stamp := by simp [applyTchCfg]

@[simp] theorem applySldCfg_stamp (s : State) (v : Nat) : (applySldCfg s v).stamp = s.stamp := by simp [applySldCfg]

@[simp] theorem scanStop_stamp (s : State) : (scanStop s).stamp = s.stamp := by simp [scanStop]

@[simp] theorem scanStart_stamp (s : State) : (scanStart s).stamp = s.stamp := by simp [scanStart]

@[simp] theorem modKey_stamp (s : State) (k : Nat) (f : Key → Key) : (modKey s k f).stamp = s.stamp := by simp [modKey]

@[simp] theorem doTouchStatus_stamp (q : Request) (s : State) : (doTouchStatus q s).stamp = s.stamp :=
  runOp_stamp (fun t => by simp)

@[simp] theorem doTouchRecal_stamp (q : Request) (s : State) : (doTouchRecal q s).stamp = s.stamp :=
  runOp_stamp (fun t => by simp)

@[simp] theorem doKeyStatus_stamp (q : Request) (s : State) : (doKeyStatus q s).stamp = s.stamp :=
  runOp_stamp (fun t => by simp)

/-! ### Health -/

@[simp] theorem modDec_stamp (s : State) (d : Nat) (f : Decimator → Decimator) : (modDec s d f).stamp = s.stamp := by
  simp [modDec]

@[simp] theorem logRepair_stamp (s : State) (kind : Nat) (spareFail : Bool) (unit finger cause promoted : Nat)
    (want : Bool) :
    (logRepair s kind spareFail unit finger cause promoted want).stamp = s.stamp := by simp [logRepair]

@[simp] theorem forcedDone_stamp (s : State) (f : Option Nat) : (forcedDone s f).stamp = s.stamp := by
  unfold forcedDone
  split <;> simp

@[simp] theorem forcedLost_stamp (s : State) (f : Option Nat) : (forcedLost s f).stamp = s.stamp := by
  unfold forcedLost
  split <;> simp

@[simp] theorem dropMigration_stamp (s : State) : (dropMigration s).stamp = s.stamp := by
  unfold dropMigration
  split <;> simp

@[simp] theorem bankTrigger_stamp (s : State) (b : Nat) (trig : BankTrigger) (cause : Nat) :
    (bankTrigger s b trig cause).stamp = s.stamp := by
  unfold bankTrigger
  split <;> simp

@[simp] theorem triggerOnce_stamp (s : State) (b : Nat) (trig : BankTrigger) (cause : Nat) :
    (triggerOnce s b trig cause).stamp = s.stamp := by
  simp [triggerOnce]

@[simp] theorem memStop_stamp (s : State) : (memStop s).stamp = s.stamp := by simp [memStop]

@[simp] theorem memStart_stamp (s : State) : (memStart s).stamp = s.stamp := by simp [memStart]

@[simp] theorem ce2Outcome_stamp (s : State) (b : Nat) : (ce2Outcome s b).stamp = s.stamp := by simp [ce2Outcome]

@[simp] theorem ueOutcome_stamp (s : State) (b : Nat) : (ueOutcome s b).stamp = s.stamp := by simp [ueOutcome]

@[simp] theorem taskRead_stamp (s : State) (x : Nat × Nat × List Nat) : (taskRead s x).stamp = s.stamp := by
  simp [taskRead]

@[simp] theorem taskErrors_stamp (s : State) (i : BlockInput) : (taskErrors s i).stamp = s.stamp := by simp [taskErrors]

@[simp] theorem scrubNext_stamp (s : State) (b errors : Nat) : (scrubNext s b errors).stamp = s.stamp := by
  simp [scrubNext]

@[simp] theorem injectSpent_stamp (s : State) (x : Injection) : (injectSpent s x).stamp = s.stamp := by
  simp [injectSpent]

@[simp] theorem scrubParity_stamp (s : State) (b : Nat) (x : Injection) : (scrubParity s b x).stamp = s.stamp := by
  simp [scrubParity]

@[simp] theorem scrubOutcome_stamp (s : State) (b w : Nat) (l : List Nat) : (scrubOutcome s b w l).stamp = s.stamp := by
  unfold scrubOutcome
  dsimp only
  (repeat' split) <;> simp

@[simp] theorem stopTask_stamp (s : State) (u : Option UnitRef) (replay : Bool) :
    (stopTask s u replay).1.stamp = s.stamp := by
  unfold stopTask
  dsimp only
  (repeat' split) <;> simp

@[simp] theorem blankLine_stamp (s : State) (inst : Nat) : (blankLine s inst).stamp = s.stamp := by
  unfold blankLine
  dsimp only
  (repeat' split) <;> simp

@[simp] theorem wordFault_stamp (s : State) (u : Option UnitRef) (w : WordKind) :
    (wordFault s u w).1.stamp = s.stamp := by
  unfold wordFault
  split <;> simp

@[simp] theorem readLeaves_stamp (s : State) (r : FaultReport) (cls : FaultClass) :
    (readLeaves s r cls).stamp = s.stamp := by
  unfold readLeaves
  split <;> simp

@[simp] theorem faultFound_stamp (s : State) (r : FaultReport) (injected : Bool) :
    (faultFound s r injected).stamp = s.stamp := by
  unfold faultFound
  dsimp only
  (repeat' split) <;> simp

@[simp] theorem detect_stamp (s : State) (r : FaultReport) : (detect s r).stamp = s.stamp := by
  unfold detect
  dsimp only
  (repeat' split) <;> simp

@[simp] theorem retireRunning_stamp (s : State) (k : Bsn) (me : Bool) (i : Nat) (r : Ready) (since : Nat) :
    (retireRunning s k me i r since).stamp = s.stamp := by
  simp [retireRunning]

@[simp] theorem injectWatchdog_stamp (s : State) : (injectWatchdog s).stamp = s.stamp := by simp [injectWatchdog]

@[simp] theorem injectFrame_stamp (s : State) : (injectFrame s).stamp = s.stamp := by simp [injectFrame]

@[simp] theorem refillOne_stamp (bad : List Nat) (s : State) (i : Nat) : (refillOne bad s i).stamp = s.stamp := by
  unfold refillOne
  dsimp only
  (repeat' split) <;> simp

@[simp] theorem spareFails_stamp (s : State) (u : UnitRef) : (spareFails s u).stamp = s.stamp := by simp [spareFails]

@[simp] theorem fingerFailed_stamp (s : State) (hb f : Nat) : (fingerFailed s hb f).stamp = s.stamp := by
  simp [fingerFailed]

@[simp] theorem testReport_stamp (s : State) (r : FaultReport) : (testReport s r).stamp = s.stamp := by
  simp [testReport]

@[simp] theorem enterTable_stamp (s : State) (r : Report) (rs : List Report) : (enterTable s r rs).stamp = s.stamp := by
  unfold enterTable
  dsimp only
  (repeat' split) <;> simp

@[simp] theorem limitReached_stamp (s : State) (u : UnitRef) (cls : FaultClass) :
    (limitReached s u cls).stamp = s.stamp := by
  unfold limitReached
  split <;> simp

@[simp] theorem incident_stamp (s : State) (u : UnitRef) (cls : FaultClass) (b : Bsn) :
    (incident s u cls b).stamp = s.stamp := by
  simp [incident]

@[simp] theorem portReset_stamp (s : State) (b : Nat) : (portReset s b).stamp = s.stamp := by simp [portReset]

@[simp] theorem joinReplays_stamp (s : State) (ts : List Task) : (joinReplays s ts).stamp = s.stamp := by
  simp [joinReplays]

@[simp] theorem portAction_stamp (s : State) (b : Nat) (real : Bool) : (portAction s b real).stamp = s.stamp := by
  simp [portAction]

@[simp] theorem enterKey_stamp (s : State) (r : Report) (rs : List Report) (ts : List Task) :
    (enterKey s r rs ts).stamp = s.stamp := by
  simp [enterKey]

@[simp] theorem enterKeys_stamp (n : Nat) (s : State) (rs : List Report) (ts : List Task) :
    (enterKeys n s rs ts).stamp = s.stamp := by
  induction n generalizing s rs ts with
  | zero => simp [enterKeys]
  | succ n ih => cases rs <;> simp [enterKeys, ih]

@[simp] theorem retireOe_stamp (s : State) (i cause floor : Nat) (log : Bool) :
    (retireOe s i cause floor log).1.stamp = s.stamp := by
  unfold retireOe
  (repeat' split) <;> simp

@[simp] theorem retireMe_stamp (s : State) (i cause floor : Nat) (log : Bool) :
    (retireMe s i cause floor log).1.stamp = s.stamp := by
  unfold retireMe
  split <;> simp

@[simp] theorem retireStruck_stamp (s : State) (me : Bool) : (retireStruck s me).stamp = s.stamp := by
  unfold retireStruck
  refine foldl_stamp _ (fun t i => ?_) _ _
  split
  · dsimp only
    (repeat' split) <;> simp
  · rfl

@[simp] theorem retireForced_stamp (s : State) : (retireForced s).stamp = s.stamp := by
  unfold retireForced
  rw [foldl_stamp _ (fun t f => ?_)]
  · simp
  · dsimp only
    split
    · simp
    · split <;> simp

@[simp] theorem swapStart_stamp (s : State) (x : DecSwap) : (swapStart s x).stamp = s.stamp := by
  unfold swapStart
  (repeat' split) <;> simp

@[simp] theorem swapEnd_stamp (s : State) (x : DecSwap) : (swapEnd s x).stamp = s.stamp := by
  unfold swapEnd
  split <;> simp

@[simp] theorem testOver_stamp (s : State) (x : SelfTest) : (testOver s x).stamp = s.stamp := by simp [testOver]

@[simp] theorem serviceTests_stamp (s : State) : (serviceTests s).stamp = s.stamp := by
  unfold serviceTests
  exact foldl_stamp _ (fun t x => by split <;> simp) _ _

@[simp] theorem injectExpire_stamp (s : State) : (injectExpire s).stamp = s.stamp := by simp [injectExpire]

@[simp] theorem healthBoundary_stamp (s : State) : (healthBoundary s).stamp = s.stamp := by simp [healthBoundary]

@[simp] theorem doHealthStatus_stamp (q : Request) (s : State) : (doHealthStatus q s).stamp = s.stamp :=
  runOp_stamp (fun t => by simp)

@[simp] theorem doFaultTableRead_stamp (q : Request) (s : State) : (doFaultTableRead q s).stamp = s.stamp :=
  runOp_stamp (fun t => by simp)

@[simp] theorem doFaultTableClear_stamp (q : Request) (s : State) : (doFaultTableClear q s).stamp = s.stamp :=
  runOp_stamp (fun t => by simp)

@[simp] theorem doRepairLogRead_stamp (q : Request) (s : State) : (doRepairLogRead q s).stamp = s.stamp :=
  runOp_stamp (fun t => by simp)

@[simp] theorem doBankCounters_stamp (q : Request) (s : State) : (doBankCounters q s).stamp = s.stamp :=
  runOp_stamp (fun t => by simp)

@[simp] theorem doHealthCfg_stamp (q : Request) (s : State) : (doHealthCfg q s).stamp = s.stamp :=
  runOp_stamp (fun t => by simp)

@[simp] theorem doRepairForce_stamp (q : Request) (s : State) : (doRepairForce q s).stamp = s.stamp :=
  runOp_stamp (fun t => by simp)

@[simp] theorem forceAbort_stamp (s : State) (id : Nat) : (forceAbort s id).stamp = s.stamp := by simp [forceAbort]

@[simp] theorem doFaultInject_stamp (q : Request) (s : State) : (doFaultInject q s).stamp = s.stamp :=
  runOp_stamp (fun t => by split <;> simp)

@[simp] theorem doSvcRawRead_stamp (q : Request) (s : State) : (doSvcRawRead q s).stamp = s.stamp :=
  runOp_stamp (fun t => by simp)

@[simp] theorem doSvcSpareTest_stamp (q : Request) (s : State) : (doSvcSpareTest q s).stamp = s.stamp :=
  runOp_stamp (fun t => by simp)

@[simp] theorem applyLogEntry_stamp (s : State) (w : Nat) : (applyLogEntry s w).stamp = s.stamp := by
  unfold applyLogEntry
  dsimp only
  (repeat' split) <;> simp

@[simp] theorem applyFactory_stamp (s : State) : (applyFactory s).stamp = s.stamp := by simp [applyFactory]

@[simp] theorem applyLog_stamp (s : State) : (applyLog s).stamp = s.stamp := by simp [applyLog]

/-! ### Params -/

@[simp] theorem rawRegs_stamp (s : State) (es : List Entry) : (rawRegs s es).stamp = s.stamp := by
  unfold rawRegs
  exact foldl_stamp _ (fun t x => by split <;> simp) _ _

@[simp] theorem applyReg_stamp (s : State) (r : Reg) (v : Nat) : (applyReg s r v).stamp = s.stamp := by
  unfold applyReg
  split <;> simp

@[simp] theorem applyImmediate_stamp (s : State) (es : List Entry) : (applyImmediate s es).stamp = s.stamp := by
  simp [applyImmediate]

@[simp] theorem schedule_stamp (s : State) (c : Commit) : (schedule s c).stamp = s.stamp := by simp [schedule]

@[simp] theorem modHamper_stamp (s : State) (h : Nat) (f : Hamper → Hamper) : (modHamper s h f).stamp = s.stamp := by
  simp [modHamper]

@[simp] theorem doParamWrite_stamp (q : Request) (s : State) : (doParamWrite q s).stamp = s.stamp :=
  runOp_stamp (fun t => by dsimp only; (repeat' split) <;> simp)

@[simp] theorem readClear_stamp (s : State) (a : Nat) : (readClear s a).stamp = s.stamp := by
  unfold readClear
  (repeat' split) <;> simp

@[simp] theorem doParamRead_stamp (q : Request) (s : State) : (doParamRead q s).stamp = s.stamp :=
  runOp_stamp (fun t => by dsimp only; (repeat' split) <;> simp)

@[simp] theorem doHamperOpen_stamp (q : Request) (s : State) : (doHamperOpen q s).stamp = s.stamp :=
  runOp_stamp (fun t => by split <;> simp)

@[simp] theorem doHamperStage_stamp (q : Request) (s : State) : (doHamperStage q s).stamp = s.stamp :=
  runOp_stamp (fun t => by simp)

@[simp] theorem doHamperCommit_stamp (q : Request) (s : State) : (doHamperCommit q s).stamp = s.stamp :=
  runOp_stamp (fun t => by simp)

@[simp] theorem doHamperDiscard_stamp (q : Request) (s : State) : (doHamperDiscard q s).stamp = s.stamp :=
  runOp_stamp (fun t => by simp)

@[simp] theorem doHamperStatus_stamp (q : Request) (s : State) : (doHamperStatus q s).stamp = s.stamp :=
  runOp_stamp (fun t => by simp)

@[simp] theorem slotGone_stamp (s : State) (i : Nat) : (slotGone s i).stamp = s.stamp := by simp [slotGone]

@[simp] theorem putWord_stamp (s : State) (slot inst i v : Nat) : (putWord s slot inst i v).stamp = s.stamp := by
  simp [putWord]

@[simp] theorem rawAll_stamp (s : State) (slot : Nat) (es : List Entry) : (rawAll s slot es).stamp = s.stamp := by
  simp [rawAll]

@[simp] theorem endCommit_stamp (s : State) (c : Commit) (ok : Bool) : (endCommit s c ok).stamp = s.stamp := by
  unfold endCommit
  split <;> simp

@[simp] theorem failCommit_stamp (s : State) (c : Commit) (st : Status) : (failCommit s c st).stamp = s.stamp := by
  simp [failCommit]

@[simp] theorem applyWord_stamp (s : State) (x : CommitEntry) : (applyWord s x).stamp = s.stamp := by simp [applyWord]

@[simp] theorem applyRoute_stamp (s : State) (r : Reg) (unit v : Nat) : (applyRoute s r unit v).stamp = s.stamp := by
  simp [applyRoute]

@[simp] theorem applyChange_stamp (s : State) (x : CommitEntry) : (applyChange s x).stamp = s.stamp := by
  unfold applyChange
  (repeat' split) <;> simp

@[simp] theorem applyAuxChanges_stamp (s : State) (l : List CommitEntry) : (applyAuxChanges s l).stamp = s.stamp := by
  simp [applyAuxChanges]

@[simp] theorem applyChanges_stamp (s : State) (l : List CommitEntry) : (applyChanges s l).stamp = s.stamp := by
  simp [applyChanges]

/-! ### Slots -/

@[simp] theorem setSlot_stamp (s : State) (i : Nat) (x : Slot) : (setSlot s i x).stamp = s.stamp := by simp [setSlot]

@[simp] theorem doGraphBegin_stamp (q : Request) (s : State) : (doGraphBegin q s).stamp = s.stamp :=
  runOp_stamp (fun t => by simp)

@[simp] theorem doGraphData_stamp (q : Request) (s : State) : (doGraphData q s).stamp = s.stamp :=
  runOp_stamp (fun t => by simp)

@[simp] theorem doGraphEnd_stamp (q : Request) (s : State) : (doGraphEnd q s).stamp = s.stamp :=
  runOp_stamp (fun t => by simp)

@[simp] theorem doGraphUnload_stamp (q : Request) (s : State) : (doGraphUnload q s).stamp = s.stamp :=
  runOp_stamp (fun t => by simp)

@[simp] theorem doGraphActivate_stamp (q : Request) (s : State) : (doGraphActivate q s).stamp = s.stamp :=
  runOp_stamp (fun t => by simp)

@[simp] theorem disarm_stamp (s : State) (a : Activation) : (disarm s a).stamp = s.stamp := by
  unfold disarm
  split <;> simp

@[simp] theorem switchGraph_stamp (s : State) (a : Activation) : (switchGraph s a).stamp = s.stamp := by
  simp [switchGraph]

@[simp] theorem doGraphStatus_stamp (q : Request) (s : State) : (doGraphStatus q s).stamp = s.stamp :=
  runOp_stamp (fun t => by simp)

@[simp] theorem doLoadMeter_stamp (q : Request) (s : State) : (doLoadMeter q s).stamp = s.stamp :=
  runOp_stamp (fun t => by simp)

@[simp] theorem doLoadMeterSet_stamp (q : Request) (s : State) : (doLoadMeterSet q s).stamp = s.stamp :=
  runOp_stamp (fun t => by simp)

@[simp] theorem doMemRead_stamp (q : Request) (s : State) : (doMemRead q s).stamp = s.stamp :=
  runOp_stamp (fun t => by simp)

@[simp] theorem doMemWrite_stamp (q : Request) (s : State) : (doMemWrite q s).stamp = s.stamp :=
  runOp_stamp (fun t => by simp)

@[simp] theorem sramLost_stamp (s : State) : (sramLost s).stamp = s.stamp := by simp [sramLost]

/-! ### Power -/

@[simp] theorem powerEvent_stamp (s : State) (new prev : Mode) (reason source : Nat) :
    (powerEvent s new prev reason source).stamp = s.stamp := by
  simp [powerEvent]

@[simp] theorem a1Begin_stamp (s : State) : (a1Begin s).stamp = s.stamp := by simp [a1Begin]

@[simp] theorem startChange_stamp (s : State) (target : Mode) (reason source : Nat) (keep : Bool) (cmd : Option Nat) :
    (startChange s target reason source keep cmd).stamp = s.stamp := by
  simp [startChange]

@[simp] theorem d3Begin_stamp (s : State) (c : Change) : (d3Begin s c).stamp = s.stamp := by simp [d3Begin]

@[simp] theorem d1Act_stamp (s : State) : (d1Act s).stamp = s.stamp := by
  simp only [d1Act, modLo_stamp, modHp_stamp]
  rw [foldl_stamp _ (fun t c => by split <;> simp), sweepLeave_stamp]

@[simp] theorem testsGated_stamp (s : State) : (testsGated s).stamp = s.stamp := by simp [testsGated]

@[simp] theorem clocksStart_stamp (s : State) (listen : Bool) : (clocksStart s listen).stamp = s.stamp := by
  simp [clocksStart]

@[simp] theorem anaOff_stamp (s : State) : (anaOff s).stamp = s.stamp := by simp [anaOff]

@[simp] theorem routingLost_stamp (s : State) : (routingLost s).stamp = s.stamp := by simp [routingLost]

@[simp] theorem sramInit_stamp (s : State) : (sramInit s).stamp = s.stamp := by simp [sramInit]

@[simp] theorem bootPlay_stamp (s : State) : (bootPlay s).stamp = s.stamp := by simp [bootPlay]

@[simp] theorem testsUngated_stamp (s : State) : (testsUngated s).stamp = s.stamp := by simp [testsUngated]

@[simp] theorem chargerTo_stamp (s : State) (level : Bool) : (chargerTo s level).stamp = s.stamp := by simp [chargerTo]

@[simp] theorem doPowerStatus_stamp (q : Request) (s : State) : (doPowerStatus q s).stamp = s.stamp :=
  runOp_stamp (fun t => by simp)

@[simp] theorem doPowerModeSet_stamp (q : Request) (s : State) : (doPowerModeSet q s).stamp = s.stamp :=
  runOp_stamp (fun t => by split <;> simp)

@[simp] theorem doWakeCfg_stamp (q : Request) (s : State) : (doWakeCfg q s).stamp = s.stamp :=
  runOp_stamp (fun t => by
    rw [leaves_ite]
    (repeat' split) <;> simp)

@[simp] theorem doResetInfo_stamp (q : Request) (s : State) : (doResetInfo q s).stamp = s.stamp :=
  runOp_stamp (fun t => by simp)

/-! ### Boot -/

@[simp] theorem countGroup_stamp (s : State) (b : Nat) (ok : Bool) : (countGroup s b ok).stamp = s.stamp := by
  simp [countGroup]

@[simp] theorem applyGroup_stamp (s : State) (b : Nat) (ok : Bool) (f : State → State)
    (h : ∀ t, (f t).stamp = t.stamp) :
    (applyGroup s b ok f).stamp = s.stamp := by
  simp [applyGroup, h]

@[simp] theorem applyBootGroup_stamp (s : State) : (applyBootGroup s).stamp = s.stamp := by simp [applyBootGroup]

@[simp] theorem applyWakeGroup_stamp (s : State) : (applyWakeGroup s).stamp = s.stamp := by simp [applyWakeGroup]

@[simp] theorem applyClassGroup_stamp (s : State) : (applyClassGroup s).stamp = s.stamp := by simp [applyClassGroup]

@[simp] theorem setAddrs_stamp (s : State) (a : Nat) : (setAddrs s a).stamp = s.stamp := by simp [setAddrs]

@[simp] theorem twInForce_stamp (s : State) : (twInForce s).stamp = s.stamp := by simp [twInForce]

@[simp] theorem applyTwoWireGroup_stamp (s : State) (straps : Straps) :
    (applyTwoWireGroup s straps).stamp = s.stamp := by
  simp [applyTwoWireGroup]

@[simp] theorem applyJackGroup_stamp (s : State) : (applyJackGroup s).stamp = s.stamp := by simp [applyJackGroup]

@[simp] theorem applyPairGroup_stamp (s : State) : (applyPairGroup s).stamp = s.stamp := by simp [applyPairGroup]

@[simp] theorem applyDiagGroup_stamp (s : State) : (applyDiagGroup s).stamp = s.stamp := by simp [applyDiagGroup]

@[simp] theorem applyHealthGroup_stamp (s : State) : (applyHealthGroup s).stamp = s.stamp := by simp [applyHealthGroup]

@[simp] theorem applyOtp_stamp (s : State) (straps : Straps) : (applyOtp s straps).stamp = s.stamp := by simp [applyOtp]

@[simp] theorem bootKeys_stamp (s : State) (pressed : List Bool) : (bootKeys s pressed).stamp = s.stamp := by
  simp [bootKeys]

@[simp] theorem bootChange_stamp (s : State) : (bootChange s).stamp = s.stamp := by simp [bootChange]

/-! ### Block -/

@[simp] theorem frameTick_stamp (s : State) : (frameTick s).stamp = s.stamp := by simp [frameTick]

@[simp] theorem cycleTick_stamp (s : State) : (cycleTick s).stamp = s.stamp := by simp [cycleTick]

@[simp] theorem modSrc_stamp (s : State) (c : Nat) (f : Adc → Adc) : (modSrc s c f).stamp = s.stamp := by simp [modSrc]

@[simp] theorem captureSrc_stamp (i : BlockInput) (s : State) (c : Nat) : (captureSrc i s c).stamp = s.stamp := by
  simp [captureSrc]

@[simp] theorem capture_stamp (s : State) (i : BlockInput) : (capture s i).stamp = s.stamp := by simp [capture]

@[simp] theorem meterBlock_stamp (s : State) (k : Bsn) (late : Bool) : (meterBlock s k late).stamp = s.stamp := by
  simp [meterBlock]

@[simp] theorem mendBuffers_stamp (s : State) (m : Memory) (k : Bsn) : (mendBuffers s m k).stamp = s.stamp := by
  simp [mendBuffers]

@[simp] theorem playSinks_stamp (s : State) (b : Bsn) (late : Bool) : (playSinks s b late).1.stamp = s.stamp := by
  simp [playSinks]

@[simp] theorem deadline_stamp (s : State) : (deadline s).stamp = s.stamp := by
  unfold deadline
  split <;> simp

@[simp] theorem readings_stamp (s : State) (i : BlockInput) : (readings s i).stamp = s.stamp := by simp [readings]

@[simp] theorem sysBoundary_stamp (s : State) (i : BlockInput) : (sysBoundary s i).stamp = s.stamp := by
  simp [sysBoundary]

/-! ### Abort -/

@[simp] theorem stopOtpJob_stamp (s : State) (p : PortId) (tag : Byte) : (stopOtpJob s p tag).stamp = s.stamp := by
  simp [stopOtpJob]

@[simp] theorem abortSweep_stamp (s : State) : (abortSweep s).stamp = s.stamp := by simp [abortSweep]

/-! ### Transport -/

@[simp] theorem badPacket_stamp (s : State) (p : PortId) (op tag : Byte) (st : Status) :
    (badPacket s p op tag st).stamp = s.stamp := by
  simp [badPacket]

@[simp] theorem touchPorts_stamp (s : State) : (touchPorts s).stamp = s.stamp := by simp [touchPorts]

@[simp] theorem dropPartial_stamp (s : State) (p : PortId) (reason : Nat) :
    (dropPartial s p reason).stamp = s.stamp := by
  unfold dropPartial
  split <;> simp

@[simp] theorem deliver_stamp (s : State) (p : PortId) : (deliver s p).stamp = s.stamp := by
  unfold deliver
  split <;> simp

@[simp] theorem sendBytes_stamp (s : State) (p : PortId) (bs : List Byte) : (sendBytes s p bs).stamp = s.stamp := by
  simp [sendBytes]

@[simp] theorem takeBytes_stamp (p : PortId) (fuel n old : Nat) (gaps : List Nat) (s : State) :
    (takeBytes p fuel n old gaps s).stamp = s.stamp := by
  induction fuel generalizing n old gaps s with
  | zero => simp [takeBytes]
  | succ fuel ih =>
    unfold takeBytes
    split
    · simp
    · simp [ih]

@[simp] theorem readPort_stamp (s : State) (p : PortId) (r : ReadOut) : (readPort s p r).stamp = s.stamp := by
  simp [readPort]

@[simp] theorem shiftStatus_stamp (s : State) (p : PortId) : (shiftStatus s p).stamp = s.stamp := by simp [shiftStatus]

@[simp] theorem endTransaction_stamp (s : State) (p : PortId) : (endTransaction s p).stamp = s.stamp := by
  simp [endTransaction]

@[simp] theorem startBackoff_stamp (s : State) (wait : Nat) : (startBackoff s wait).stamp = s.stamp := by
  simp [startBackoff]

@[simp] theorem busStop_stamp (s : State) : (busStop s).stamp = s.stamp := by simp [busStop]

@[simp] theorem busIdle_stamp (s : State) : (busIdle s).stamp = s.stamp := by simp [busIdle]

@[simp] theorem busStart_stamp (s : State) : (busStart s).stamp = s.stamp := by simp [busStart]

@[simp] theorem twAddress_stamp (s : State) (a : BitVec 7) (read : Bool) : (twAddress s a read).stamp = s.stamp := by
  unfold twAddress
  split <;> simp

@[simp] theorem twEnds_stamp (s : State) (stop : Bool) : (twEnds s stop).stamp = s.stamp := by simp [twEnds]

@[simp] theorem modAlert_stamp (s : State) (f : Alert → Option Alert) : (modAlert s f).stamp = s.stamp := by
  simp [modAlert]

@[simp] theorem releaseBus_stamp (s : State) : (releaseBus s).stamp = s.stamp := by simp [releaseBus]

@[simp] theorem alertBackoff_stamp (s : State) : (alertBackoff s).stamp = s.stamp := by simp [alertBackoff]

@[simp] theorem failStop_stamp (why : AlertFailure) (s : State) : (failStop why s).stamp = s.stamp := by simp [failStop]

@[simp] theorem busStuck_stamp (s : State) (scl : Nat) : (busStuck s scl).stamp = s.stamp := by simp [busStuck]

/-! ## The block boundary -/

/-- The stamp but for the cycle, which passes within a block. -/
def Stamp.untimed (x : Stamp) : Stamp := { x with cycle := 0 }

@[simp] theorem untimed_setCycle (s : State) (n : Nat) : { s with cycle := n }.stamp.untimed = s.stamp.untimed := rfl

theorem catchUp_untimed (s : State) : (catchUp s).stamp.untimed = s.stamp.untimed :=
  List.foldlRecOn (motive := fun t : State => t.stamp.untimed = s.stamp.untimed) _ _ rfl
    (fun t ht f _ => by rw [frameTick_stamp, untimed_setCycle, ht])

/-- The frames and cycles of the block that pass before its boundary change the cycle alone (R22). -/
theorem blockRest_untimed (s : State) : (blockRest s).stamp.untimed = s.stamp.untimed := by
  unfold blockRest
  split
  · simp only [cycleTick_stamp, untimed_setCycle, catchUp_untimed, stamp_ite, frameTick_stamp, ite_self]
  · rfl

theorem edgesBlock_untimed (s : State) (i : BlockInput) : (edgesBlock s i).stamp.untimed = s.stamp.untimed := by
  simp [edgesBlock, blockRest_untimed]

/-- The instant that follows a block's last cycle. -/
def Stamp.nextBlock (x : Stamp) : Stamp := { x with bsn := x.bsn + 1#40, cycle := 0 }

theorem nextBlock_of_untimed {x y : Stamp} (h : x.untimed = y.untimed) : x.nextBlock = y.nextBlock := by
  simp only [Stamp.untimed, Stamp.mk.injEq] at h
  obtain ⟨hp, hb, -, hm⟩ := h
  simp only [Stamp.nextBlock, hp, hb, hm]

/-- BLOCK_BOUNDARY moves to the next block and leaves the mode as it is (R12). -/
theorem execBlockBoundary_counting (i : BlockInput) (s : State) (h : counting s = true) :
    ∃ t, execBlockBoundary i s = .next t ∧ t.stamp = s.stamp.nextBlock := by
  have hn : ¬(!counting s) = true := by simp [h]
  refine ⟨_, if_neg hn, ?_⟩
  simp only [jackBlock_stamp, wakeBlock_stamp, stamp_ite, sysBoundary_stamp, healthBoundary_stamp, ite_self]
  refine nextBlock_of_untimed (x := (if modeHigh (mapApply s) then edgesBlock (mapApply s) i else mapApply s).stamp) ?_
  rw [stamp_ite, apply_ite Stamp.untimed, edgesBlock_untimed, ite_self, mapApply_stamp]

theorem execBlockBoundary_stopped (i : BlockInput) (s : State) (h : counting s = false) :
    execBlockBoundary i s = .next s := by
  simp [execBlockBoundary, h]

/-! ## Changes of mode -/

@[simp] theorem stamp_bsn (s : State) : s.stamp.bsn = s.bsn := rfl

theorem bsn_of_stamp {s t : State} (h : t.stamp = s.stamp) : t.bsn = s.bsn := congrArg Stamp.bsn h

/-- A change of the power state's mode shows in the stamp's mode alone. -/
theorem modPower_stamp_mode (s : State) (f : Power → Power) :
    (modPower s f).stamp = { s.stamp with mode := (f s.power).mode } := rfl

theorem crystalStop_bsn (s : State) : (crystalStop s).bsn = s.bsn := by
  simp only [crystalStop, modClock_bsn]
  exact bsn_of_stamp (by simp)

theorem sysStart_bsn (s : State) : (sysStart s).bsn = s.bsn := by
  rw [← stamp_bsn]
  simp only [sysStart, classifyStart_stamp, biasUpdate_stamp, scanStart_stamp, portsTo_stamp]
  exact bsn_of_stamp (t := memStart (sramInit s)) (by simp)

theorem a2Act_bsn (s : State) : (a2Act s).bsn = s.bsn := by
  rw [← stamp_bsn]
  simp [a2Act]

theorem swapAct_bsn (s : State) (c : Change) : (swapAct s c).bsn = s.bsn := by
  rw [← stamp_bsn]
  simp [swapAct, modPower_stamp_mode]

theorem d2Act_bsn (s : State) (c : Change) : (d2Act s c).bsn = s.bsn := by
  unfold d2Act
  extract_lets listen t u v
  have hu : u.bsn = s.bsn := by
    rw [← stamp_bsn]
    simp [u, t, modPower_stamp_mode]
  have hv : v.bsn = s.bsn := by
    rw [← stamp_bsn]
    simp [v, hu]
  split
  · rw [crystalStop_bsn, hv]
  · rw [← stamp_bsn]
    simp [hv]

theorem shipEnter_bsn (s : State) : (shipEnter s).bsn = s.bsn := by
  rw [← stamp_bsn]
  simp [shipEnter, modPower_stamp_mode]

theorem bootFailed_bsn (s : State) : (bootFailed s).bsn = s.bsn := by
  rw [← stamp_bsn]
  exact bsn_of_stamp (t := rootStop s) (by simp)

/-! ## Resets and SHIP exits (R12, R488) -/

/-- What a restart of the device leaves: BSN 0 at the block's first cycle, no graph, no parameters, and no command taken
before the boot has ended. -/
def Restarted (t : State) : Prop :=
  t.bsn = 0 ∧ t.cycle = 0 ∧ t.graph = State.reset.graph ∧ t.params = State.reset.params ∧ t.power.accepting = false

/-- The BSN stands, or the device has restarted. -/
def StandsOrRestarts (s t : State) : Prop := t.bsn = s.bsn ∨ Restarted t

theorem standsOrRestarts_of_stamp {s t : State} (h : t.stamp = s.stamp) : StandsOrRestarts s t := .inl (bsn_of_stamp h)

theorem standsOrRestarts_of_bsn {s t u : State} (ht : t.bsn = s.bsn) (hu : StandsOrRestarts t u) :
    StandsOrRestarts s u :=
  hu.imp_left (·.trans ht)

theorem restarted_deviceReset (code : Nat) (s : State) : Restarted (deviceReset code s) := by
  refine ⟨rfl, rfl, rfl, rfl, ?_⟩
  show (resetPower s code).accepting = false
  unfold resetPower
  split <;> rfl

theorem restarted_shipExit (code : Nat) (s : State) : Restarted (shipExit code s) := restarted_deviceReset 6 s

theorem transportBlind_restarted : TransportBlind Restarted where
  port t p f h := by simpa [Restarted] using h
  seq t n h := h
  bus t b h := h
  event t n p h := by simpa [Restarted] using h
  count t r hi lo k h := by simpa [Restarted, addCount, rcUpdate, rcNote] using h

theorem transportBlind_standsOrRestarts (s : State) : TransportBlind (StandsOrRestarts s) where
  port t p f h := h.imp (by simp) (transportBlind_restarted.port t p f)
  seq t n h := h
  bus t b h := h
  event t n p h := h.imp (by simp) (transportBlind_restarted.event t n p)
  count t r hi lo k h := h.imp (bsn_of_stamp (addCount_stamp t r hi lo k)).trans
    (transportBlind_restarted.count t r hi lo k)

theorem restarted_bootFailed {s : State} (h : Restarted s) : Restarted (bootFailed s) := by
  have hr : Restarted (rootStop s) := by
    unfold rootStop setRoot
    dsimp only
    split
    · exact h
    · exact transportBlind_restarted.event _ _ _ h
  exact hr

/-! ## A held wake, and the end of a change (R482, R484) -/

theorem standsOrRestarts_actHeld (s : State) : StandsOrRestarts s (actHeld s) := by
  unfold actHeld
  split
  · exact .inl rfl
  split
  · exact .inl rfl
  dsimp only
  split
  · split
    · exact .inr (restarted_shipExit _ _)
    · exact .inl rfl
  split
  · exact standsOrRestarts_of_stamp (by simp)
  split
  · exact standsOrRestarts_of_stamp (by simp)
  · exact .inl rfl

theorem standsOrRestarts_completeChange (s : State) (c : Change) : StandsOrRestarts s (completeChange s c) :=
  standsOrRestarts_of_bsn (bsn_of_stamp (by simp)) (standsOrRestarts_actHeld _)

theorem standsOrRestarts_stepDone {s t : State} (h : t.bsn = s.bsn) (c : Change) (b : Bsn) :
    StandsOrRestarts s (stepDone t c b) := by
  refine standsOrRestarts_of_bsn h ?_
  unfold stepDone
  dsimp only
  split
  · exact standsOrRestarts_completeChange t _
  · exact standsOrRestarts_of_stamp (by simp)

theorem standsOrRestarts_wakeAct (s : State) (c : Nat) : StandsOrRestarts s (wakeAct s c) := by
  unfold wakeAct
  dsimp only
  split
  · exact .inr (restarted_shipExit _ _)
  · refine standsOrRestarts_of_stamp ?_
    (repeat' split) <;> simp

/-! ## ABORT and RESET_DEVICE among the packets (R413, R414) -/

theorem standsOrRestarts_abortCommand (s : State) (p : PortId) (o : Outstanding) :
    StandsOrRestarts s (abortCommand s p o) := by
  unfold abortCommand
  dsimp only
  split
  case h_4 => exact standsOrRestarts_of_bsn (bsn_of_stamp (by simp)) (standsOrRestarts_actHeld _)
  all_goals
    refine standsOrRestarts_of_stamp ?_
    (repeat' split) <;> simp

theorem standsOrRestarts_doAbort (q : Request) (s : State) : StandsOrRestarts s (doAbort q s) := by
  refine (transportBlind_standsOrRestarts s).runOp (.inl rfl) (fun t ht _ => ?_)
  have ha : ∀ p o, StandsOrRestarts s (abortCommand t p o) := fun p o =>
    standsOrRestarts_of_bsn (bsn_of_stamp ht) (standsOrRestarts_abortCommand t p o)
  split
  · simp
  split
  · simp
  · simp [ha]

theorem standsOrRestarts_doResetDevice (q : Request) (s : State) : StandsOrRestarts s (doResetDevice q s) :=
  (transportBlind_standsOrRestarts s).runOp (.inl rfl) (fun _ _ _ => .inr (restarted_deviceReset 3 _))

theorem runOp_closed {q : Request} {s : State} (h : portOpen s q.port = false) {op : Nat} {lenOk : List Byte → Bool}
    {body : State → Request → Verdict} : runOp op lenOk body q s = s := by
  simp [runOp, h]

/-- A closed port takes no packet (R485). -/
theorem dispatch_closed {q : Request} {s : State} (h : portOpen s q.port = false) (op : Byte) :
    dispatch op q s = s := by
  unfold dispatch
  split
  case h_69 => simp [badOpcode, h]
  all_goals exact runOp_closed h

/-- Of the opcodes only ABORT, through a wake that was held, and RESET_DEVICE can move the BSN (R417). -/
theorem standsOrRestarts_dispatch (op : Byte) (q : Request) (s : State) : StandsOrRestarts s (dispatch op q s) := by
  unfold dispatch
  split
  case h_4 => exact standsOrRestarts_doAbort q s
  case h_5 => exact standsOrRestarts_doResetDevice q s
  all_goals exact standsOrRestarts_of_stamp (by simp)

/-- A device that has restarted accepts no packet (R485). -/
theorem portOpen_of_restarted {s : State} (h : Restarted s) (p : PortId) : portOpen s p = false := by
  obtain ⟨-, -, -, -, ha⟩ := h
  simp [portOpen, accepts, portsRun, ha]

/-! ## A port's stream (R394, R395) -/

theorem TransportBlind.badPacket {P : State → Prop} (h : TransportBlind P) {s : State} (hs : P s) (p : PortId)
    (op tag : Byte) (st : Status) : P (badPacket s p op tag st) := by
  unfold Machine.badPacket
  exact h.port _ _ _ (h.reservedReply hs _ _ _ _)

theorem standsOrRestarts_trans {s t u : State} (ht : StandsOrRestarts s t) (hb : StandsOrRestarts t u)
    (hr : Restarted t → Restarted u) : StandsOrRestarts s u :=
  ht.elim (fun h => standsOrRestarts_of_bsn h hb) (fun h => .inr (hr h))

theorem standsOrRestarts_takePacket {s t u : State} {p : PortId} (ht : StandsOrRestarts s t)
    (h : takePacket t p = some u) : StandsOrRestarts s u := by
  have hb := transportBlind_standsOrRestarts s
  unfold takePacket at h
  split at h
  · cases h
  dsimp only at h
  split at h
  · cases h
  split at h
  · cases h
    exact hb.badPacket ht _ _ _ _
  split at h
  · cases h
  split at h
  · cases h
    exact hb.badPacket ht _ _ _ _
  · cases h
    refine standsOrRestarts_trans (hb.port _ _ _ ht) (standsOrRestarts_dispatch _ _ _) (fun hr => ?_)
    rw [dispatch_closed (portOpen_of_restarted hr _)]
    exact hr

theorem standsOrRestarts_takePackets {s t : State} (p : PortId) (fuel : Nat) (ht : StandsOrRestarts s t) :
    StandsOrRestarts s (takePackets p fuel t) := by
  have hb := transportBlind_standsOrRestarts s
  induction fuel generalizing t with
  | zero => exact ht
  | succ fuel ih =>
    unfold takePackets
    split
    · exact hb.port _ _ _ ht
    split
    next u hu => exact ih (standsOrRestarts_takePacket ht hu)
    next => exact hb.port _ _ _ ht

theorem standsOrRestarts_feedPort (s : State) (p : PortId) (bytes : List Byte) :
    StandsOrRestarts s (feedPort s p bytes) := by
  unfold feedPort
  split
  · exact .inl rfl
  · exact standsOrRestarts_takePackets p _ (standsOrRestarts_of_stamp (by simp))

namespace TransportBlind

variable {P : State → Prop} (h : TransportBlind P) {s : State}
include h

theorem dropPartial (hs : P s) (p : PortId) (reason : Nat) : P (dropPartial s p reason) := by
  unfold Machine.dropPartial
  split
  · exact hs
  · exact h.dropPacket (h.port _ _ _ hs) _ _ _ _

theorem deliver (hs : P s) (p : PortId) : P (deliver s p) := by
  unfold Machine.deliver
  split
  · exact hs
  · exact h.port _ _ _ (h.bus _ _ hs)

theorem takeBytes (hs : P s) (p : PortId) (fuel n old : Nat) (gaps : List Nat) : P (takeBytes p fuel n old gaps s) := by
  have sent : ∀ {t}, P t → ∀ bs, P (sendBytes t p bs) := fun ht _ => h.port _ _ _ ht
  induction fuel generalizing n old gaps s with
  | zero =>
    unfold Machine.takeBytes
    exact sent hs _
  | succ fuel ih =>
    unfold Machine.takeBytes
    split
    · exact sent hs _
    · exact iteInduction (motive := P) (fun _ => h.port _ _ _ (sent hs _)) (fun _ => ih (h.deliver (sent hs _) _) _ _ _)

theorem readPort (hs : P s) (p : PortId) (r : ReadOut) : P (readPort s p r) := by
  unfold Machine.readPort
  split
  · exact hs
  · exact h.takeBytes (h.port _ _ _ (h.bus _ _ hs)) _ _ _ _ _

end TransportBlind

/-! ## Rows that may restart the device, or change its mode -/

/-- The row answers a next state, and it meets `P`. -/
def Answers (P : State → Prop) (x : Step) : Prop := ∃ t, x = .next t ∧ P t

@[simp] theorem answers_next (P : State → Prop) (t : State) : Answers P (.next t) ↔ P t := by
  simp [Answers]

@[simp] theorem answers_ite (P : State → Prop) (c : Prop) [Decidable c] (x y : Step) :
    Answers P (if c then x else y) ↔ if c then Answers P x else Answers P y := by
  split <;> rfl

@[simp] theorem answers_fieldStep (P : State → Prop) (s t : State) :
    Answers P (fieldStep s t) ↔ if coreOn s then P t else P s := by
  unfold fieldStep
  split <;> simp

theorem answers_changeDue {s : State} {x : ModeStep} {f : Change → State} (hf : ∀ c, StandsOrRestarts s (f c)) :
    Answers (StandsOrRestarts s) (match changeDue s x with
      | some c => .next (f c)
      | none => .next s) := by
  split
  · exact ⟨_, rfl, hf _⟩
  · exact ⟨_, rfl, .inl rfl⟩

theorem execModeD1_answers (s : State) : Answers (StandsOrRestarts s) (execModeD1 s) :=
  answers_changeDue (fun c => standsOrRestarts_stepDone (bsn_of_stamp (by simp)) c _)

theorem execFabricGate_answers (s : State) : Answers (StandsOrRestarts s) (execFabricGate s) :=
  answers_changeDue (fun c =>
    standsOrRestarts_stepDone (t := modPower (testsGated (cancelBlock s)) _)
      (bsn_of_stamp (t := testsGated (cancelBlock s)) (by simp)) c _)

theorem execModeD2_answers (s : State) : Answers (StandsOrRestarts s) (execModeD2 s) :=
  answers_changeDue (fun c => standsOrRestarts_stepDone (d2Act_bsn s c) c _)

theorem execModeD3_answers (s : State) : Answers (StandsOrRestarts s) (execModeD3 s) :=
  answers_changeDue (fun c => standsOrRestarts_stepDone (shipEnter_bsn s) c _)

theorem execListenRetainSwitch_answers (s : State) : Answers (StandsOrRestarts s) (execListenRetainSwitch s) :=
  answers_changeDue (fun c => standsOrRestarts_stepDone (swapAct_bsn s c) c _)

theorem execFabricUngate_answers (s : State) : Answers (StandsOrRestarts s) (execFabricUngate s) :=
  answers_changeDue (fun c =>
    standsOrRestarts_stepDone ((bsn_of_stamp (testsUngated_stamp (a2Act s))).trans (a2Act_bsn s)) c _)

theorem execIdleReached_answers (s : State) : Answers (StandsOrRestarts s) (execIdleReached s) := by
  refine answers_changeDue (fun c => standsOrRestarts_stepDone ?_ c _)
  exact (bsn_of_stamp (t := ite _ _ _) (by simp)).trans (sysStart_bsn s)

theorem execBootComplete_answers (s : State) : Answers (StandsOrRestarts s) (execBootComplete s) := by
  simp only [execBootComplete, answers_ite, answers_next]
  split
  · exact .inl rfl
  · exact .inl ((bsn_of_stamp (s := sysStart s) (by simp)).trans (sysStart_bsn s))

theorem execBootFail_answers (s : State) : Answers (StandsOrRestarts s) (execBootFail s) := by
  have hf : StandsOrRestarts s (bootFailed s) := .inl (bootFailed_bsn s)
  have hs : StandsOrRestarts s s := .inl rfl
  unfold execBootFail
  split <;> simp [hf, hs]

theorem execXtalFaultSet_answers (s : State) : Answers (StandsOrRestarts s) (execXtalFaultSet s) := by
  simp only [execXtalFaultSet, answers_ite, answers_next]
  split
  · exact .inl rfl
  · refine .inl ((raise_bsn _ _ _).trans ?_)
    split
    · exact crystalStop_bsn _
    · rfl

theorem execXtalFaultClear_answers (s : State) : Answers (StandsOrRestarts s) (execXtalFaultClear s) := by
  unfold execXtalFaultClear
  extract_lets t u v
  have hv : v.bsn = s.bsn := bsn_of_stamp (by simp [v, u, t])
  simp only [answers_ite, answers_next]
  split
  · exact .inl rfl
  · exact iteInduction (motive := StandsOrRestarts s)
      (fun _ => standsOrRestarts_of_bsn hv (standsOrRestarts_actHeld v)) (fun _ => .inl hv)

theorem execWakeSource_answers (c : Fin 7) (s : State) : Answers (StandsOrRestarts s) (execWakeSource c s) := by
  unfold execWakeSource
  extract_lets k t on u
  have hu : u.bsn = s.bsn := bsn_of_stamp (by simp [u, t])
  rw [answers_next]
  split
  · exact standsOrRestarts_of_bsn hu (standsOrRestarts_wakeAct u k)
  · exact .inl hu

theorem execPinReset_answers (s : State) : Answers (StandsOrRestarts s) (execPinReset s) := by
  simp only [execPinReset, answers_ite, answers_next]
  split
  · exact .inl rfl
  · exact .inr (restarted_deviceReset 2 s)

theorem execThermalReset_answers (s : State) : Answers (StandsOrRestarts s) (execThermalReset s) := by
  simp only [execThermalReset, answers_ite, answers_next]
  split
  · exact .inl rfl
  · exact .inr (restarted_deviceReset 5 s)

/-- A supply reset that acts restarts the device, also where it is the third within 1 s and ends in SHIP (R488). -/
theorem execSupplyReset_restarts (rails : Byte) (s : State) (hs : inShip s = false)
    (hm : Nat.land rails.toNat (railMask s) ≠ 0) : Answers Restarted (execSupplyReset rails s) := by
  have hr : Restarted (deviceReset 4 s) := restarted_deviceReset 4 s
  have hc : ¬(inShip s || Nat.land rails.toNat (railMask s) == 0) = true := by
    rw [hs, Bool.false_or, beq_iff_eq]
    exact hm
  refine ⟨_, if_neg hc, ?_⟩
  exact iteInduction (motive := Restarted) (fun _ => restarted_bootFailed hr) (fun _ => hr)

theorem execSupplyReset_answers (rails : Byte) (s : State) :
    Answers (StandsOrRestarts s) (execSupplyReset rails s) := by
  by_cases h : (inShip s || Nat.land rails.toNat (railMask s) == 0) = true
  · exact ⟨s, if_pos h, .inl rfl⟩
  · simp only [Bool.or_eq_true, beq_iff_eq, not_or, Bool.not_eq_true] at h
    obtain ⟨t, ht, hr⟩ := execSupplyReset_restarts rails s h.1 h.2
    exact ⟨t, ht, .inr hr⟩

theorem execSpiTransactionEnd_answers (bytes : List Byte) (extraBits : Fin 8) (gaps : List Nat) (s : State) :
    Answers (StandsOrRestarts s) (execSpiTransactionEnd bytes extraBits gaps s) := by
  have hb := transportBlind_standsOrRestarts s
  unfold execSpiTransactionEnd
  extract_lets _ t u v w
  have hu : u.bsn = s.bsn := bsn_of_stamp (by simp [u, t])
  have hv : StandsOrRestarts s v :=
    hb.readPort (standsOrRestarts_of_bsn hu (standsOrRestarts_feedPort u _ _)) _ _
  have hw : StandsOrRestarts s w :=
    iteInduction (motive := StandsOrRestarts s) (fun _ => hv) (fun _ => hb.count _ _ _ _ _ (hb.dropPartial hv _ _))
  simp only [answers_ite, answers_next]
  split
  · exact .inl rfl
  split
  · exact hb.port _ _ _ (.inl hu)
  · exact hb.port _ _ _ hw

theorem execTwTransactionEnd_answers (bytes : List Byte) (how : TwEnd) (s : State) :
    Answers (StandsOrRestarts s) (execTwTransactionEnd bytes how s) := by
  have hb := transportBlind_standsOrRestarts s
  unfold execTwTransactionEnd
  split
  · simp only [answers_ite, answers_next]
    split
    · exact .inl rfl
    · exact standsOrRestarts_of_stamp (by simp)
  next t _ =>
    extract_lets _ u v
    have hu : u.bsn = s.bsn := bsn_of_stamp (by simp [u])
    have hv : StandsOrRestarts s v := standsOrRestarts_of_bsn hu (standsOrRestarts_feedPort u _ _)
    simp only [answers_ite, answers_next]
    split
    · exact hb.readPort (.inl hu) _ _
    · exact hb.port _ _ _ (iteInduction (motive := StandsOrRestarts s) (fun _ => hb.dropPartial hv _ _) (fun _ => hv))

/-! ## Rows that keep the stamp -/

@[simp] theorem execTaskGrant_stamp (p : Fin 4) (s : State) :
    Answers (fun t => t.stamp = s.stamp) (execTaskGrant p s) := by
  unfold execTaskGrant
  (repeat' split) <;> simp

@[simp] theorem execHeldAdmit_stamp (s : State) : Answers (fun t => t.stamp = s.stamp) (execHeldAdmit s) := by
  unfold execHeldAdmit
  split <;> simp

@[simp] theorem execEngineStopEnd_stamp (u : UnitRef) (s : State) :
    Answers (fun t => t.stamp = s.stamp) (execEngineStopEnd u s) := by
  unfold execEngineStopEnd
  split <;> simp

@[simp] theorem execAlertCompose_stamp (s : State) : Answers (fun t => t.stamp = s.stamp) (execAlertCompose s) := by
  unfold execAlertCompose
  (repeat' split) <;> simp

@[simp] theorem execOtpReadDone_stamp (s : State) : Answers (fun t => t.stamp = s.stamp) (execOtpReadDone s) := by
  unfold execOtpReadDone
  (repeat' split) <;> simp

@[simp] theorem execOtpWordProgrammed_stamp (verified : Bool) (s : State) :
    Answers (fun t => t.stamp = s.stamp) (execOtpWordProgrammed verified s) := by
  unfold execOtpWordProgrammed
  (repeat' split) <;> simp

@[simp] theorem execPortLockLoss_stamp (p : Fin 7) (why : LockLoss) (clockLeft : Bool) (s : State) :
    Answers (fun t => t.stamp = s.stamp) (execPortLockLoss p why clockLeft s) := by
  unfold execPortLockLoss
  (repeat' split) <;> simp

@[simp] theorem execSpdifBlockCapture_stamp (r : Fin 2) (csA csB : List Byte) (s : State) :
    Answers (fun t => t.stamp = s.stamp) (execSpdifBlockCapture r csA csB s) := by
  unfold execSpdifBlockCapture
  dsimp only
  (repeat' split) <;> simp

@[simp] theorem execClassifyMeasure_stamp (mv : Nat) (s : State) :
    Answers (fun t => t.stamp = s.stamp) (execClassifyMeasure mv s) := by
  unfold execClassifyMeasure
  dsimp only
  (repeat' split) <;> simp

@[simp] theorem execClassifyRetry_stamp (s : State) : Answers (fun t => t.stamp = s.stamp) (execClassifyRetry s) := by
  unfold execClassifyRetry
  split <;> simp

@[simp] theorem execThreePoleRepeat_stamp (mvA mvB : Nat) (s : State) :
    Answers (fun t => t.stamp = s.stamp) (execThreePoleRepeat mvA mvB s) := by
  unfold execThreePoleRepeat
  dsimp only
  (repeat' split) <;> simp

@[simp] theorem execHsButtonPress_stamp (mv : Nat) (s : State) :
    Answers (fun t => t.stamp = s.stamp) (execHsButtonPress mv s) := by
  unfold execHsButtonPress
  split <;> simp

@[simp] theorem execPdmClockChange_stamp (c : Fin 2) (s : State) :
    Answers (fun t => t.stamp = s.stamp) (execPdmClockChange c s) := by
  unfold execPdmClockChange
  dsimp only
  (repeat' split) <;> simp

@[simp] theorem execSetACrossfade_stamp (b : Fin 4) (s : State) :
    Answers (fun t => t.stamp = s.stamp) (execSetACrossfade b s) := by
  unfold execSetACrossfade
  split <;> simp

@[simp] theorem execRoosterWindow_stamp (b : Fin 4) (u : Unit) (s : State) :
    Answers (fun t => t.stamp = s.stamp) (execRoosterWindow b u s) := by
  unfold execRoosterWindow
  split <;> simp

@[simp] theorem execPstageClearApply_stamp (s : State) :
    Answers (fun t => t.stamp = s.stamp) (execPstageClearApply s) := by
  simp only [execPstageClearApply, answers_ite, answers_next]
  rw [foldl_stamp _ (fun t x => by split <;> simp)]
  split <;> simp

@[simp] theorem execChannelShutdown_stamp (c : Fin 32) (why : ShutdownCause) (s : State) :
    Answers (fun t => t.stamp = s.stamp) (execChannelShutdown c why s) := by
  unfold execChannelShutdown
  cases why <;> simp

@[simp] theorem execPvddFault_stamp (mv : Nat) (s : State) :
    Answers (fun t => t.stamp = s.stamp) (execPvddFault mv s) := by
  unfold execPvddFault
  (repeat' split) <;> simp

@[simp] theorem execRefQualify_stamp (ppm100 : Int) (s : State) :
    Answers (fun t => t.stamp = s.stamp) (execRefQualify ppm100 s) := by
  unfold execRefQualify
  dsimp only
  (repeat' split) <;> simp

@[simp] theorem execRealignBlock_stamp (s : State) : Answers (fun t => t.stamp = s.stamp) (execRealignBlock s) := by
  unfold execRealignBlock
  split <;> simp

@[simp] theorem execAuxRampEnd_stamp (a : Fin 4) (s : State) :
    Answers (fun t => t.stamp = s.stamp) (execAuxRampEnd a s) := by
  unfold execAuxRampEnd
  dsimp only
  (repeat' split) <;> simp

@[simp] theorem execAuxProfileBegin_stamp (a : Fin 4) (s : State) :
    Answers (fun t => t.stamp = s.stamp) (execAuxProfileBegin a s) := by
  simp only [execAuxProfileBegin, answers_ite, answers_next]
  rw [foldl_stamp _ (fun t x => by split <;> simp)]
  split <;> simp

@[simp] theorem execRepairLogWrite_stamp (verified : Bool) (s : State) :
    Answers (fun t => t.stamp = s.stamp) (execRepairLogWrite verified s) := by
  unfold execRepairLogWrite
  split <;> simp

@[simp] theorem execMigrationBegin_stamp (s : State) : Answers (fun t => t.stamp = s.stamp) (execMigrationBegin s) := by
  unfold execMigrationBegin
  (repeat' split) <;> simp

@[simp] theorem execMigrationCopyEnd_stamp (s : State) :
    Answers (fun t => t.stamp = s.stamp) (execMigrationCopyEnd s) := by
  unfold execMigrationCopyEnd
  split <;> simp

@[simp] theorem execMigrationSwitch_stamp (s : State) :
    Answers (fun t => t.stamp = s.stamp) (execMigrationSwitch s) := by
  unfold execMigrationSwitch
  split <;> simp

@[simp] theorem execScrubRead_stamp (bank : Fin 18) (flips : List Nat) (s : State) :
    Answers (fun t => t.stamp = s.stamp) (execScrubRead bank flips s) := by
  unfold execScrubRead
  dsimp only
  (repeat' split) <;> simp

@[simp] theorem execTaskRetire_stamp (u : UnitRef) (s : State) :
    Answers (fun t => t.stamp = s.stamp) (execTaskRetire u s) := by
  unfold execTaskRetire
  dsimp only
  (repeat' split) <;> simp

@[simp] theorem execFaultDetect_stamp (r : FaultReport) (s : State) :
    Answers (fun t => t.stamp = s.stamp) (execFaultDetect r s) := by
  unfold execFaultDetect
  (repeat' split) <;> simp

@[simp] theorem execBankWaitTimeout_stamp (bank : Fin 18) (engine : UnitRef) (s : State) :
    Answers (fun t => t.stamp = s.stamp) (execBankWaitTimeout bank engine s) := by
  unfold execBankWaitTimeout
  split <;> simp

@[simp] theorem execFaultTableEntry_stamp (s : State) :
    Answers (fun t => t.stamp = s.stamp) (execFaultTableEntry s) := by
  unfold execFaultTableEntry
  split <;> simp

@[simp] theorem execPortResetDone_stamp (bank : Fin 18) (s : State) :
    Answers (fun t => t.stamp = s.stamp) (execPortResetDone bank s) := by
  unfold execPortResetDone
  split <;> simp

@[simp] theorem execSelfTestEnd_stamp (unit : UnitRef) (pass : Bool) (s : State) :
    Answers (fun t => t.stamp = s.stamp) (execSelfTestEnd unit pass s) := by
  unfold execSelfTestEnd
  (repeat' split) <;> simp

@[simp] theorem execSvcRawReadDone_stamp (s : State) : Answers (fun t => t.stamp = s.stamp) (execSvcRawReadDone s) := by
  unfold execSvcRawReadDone
  (repeat' split) <;> simp

@[simp] theorem commitOne_real_stamp (a : CommitAcc) (c : Commit) : (commitOne a c).real.stamp = a.real.stamp := by
  unfold commitOne
  dsimp only
  (repeat' split) <;> simp

@[simp] theorem execCommitApply_stamp (s : State) : Answers (fun t => t.stamp = s.stamp) (execCommitApply s) := by
  have hr : ∀ l a, (List.foldl commitOne a l).real.stamp = a.real.stamp := fun l a =>
    List.foldlRecOn (motive := fun b : CommitAcc => b.real.stamp = a.real.stamp) _ _ rfl
      (fun b hb c _ => (commitOne_real_stamp b c).trans hb)
  simp [execCommitApply, hr]

@[simp] theorem execRegisterWrite_stamp (paddr value : Word) (s : State) :
    Answers (fun t => t.stamp = s.stamp) (execRegisterWrite paddr value s) := by
  unfold execRegisterWrite
  split <;> simp

@[simp] theorem execGraphCheckDone_stamp (copyFault : Bool) (s : State) :
    Answers (fun t => t.stamp = s.stamp) (execGraphCheckDone copyFault s) := by
  unfold execGraphCheckDone
  (repeat' split) <;> simp

@[simp] theorem execGraphSwitch_stamp (s : State) : Answers (fun t => t.stamp = s.stamp) (execGraphSwitch s) := by
  unfold execGraphSwitch
  split <;> simp

@[simp] theorem execMemReadSnapshot_stamp (s : State) :
    Answers (fun t => t.stamp = s.stamp) (execMemReadSnapshot s) := by
  simp only [execMemReadSnapshot, answers_ite, answers_next]
  rw [foldl_stamp _ (fun t x => by split <;> simp)]
  split <;> simp

@[simp] theorem execStretchTimeout_stamp (how : StretchEnd) (s : State) :
    Answers (fun t => t.stamp = s.stamp) (execStretchTimeout how s) := by
  unfold execStretchTimeout
  split <;> simp

@[simp] theorem execAlertAttemptFail_stamp (why : AlertFailure) (s : State) :
    Answers (fun t => t.stamp = s.stamp) (execAlertAttemptFail why s) := by
  unfold execAlertAttemptFail
  dsimp only
  (repeat' split) <;> simp

@[simp] theorem execAlertBackoffEnd_stamp (s : State) :
    Answers (fun t => t.stamp = s.stamp) (execAlertBackoffEnd s) := by
  unfold execAlertBackoffEnd
  (repeat' split) <;> simp

@[simp] theorem execArbitrationLost_stamp (winner : Option (BitVec 7 × Bool)) (s : State) :
    Answers (fun t => t.stamp = s.stamp) (execArbitrationLost winner s) := by
  unfold execArbitrationLost
  (repeat' split) <;> simp

/-- The rows that may move the BSN, the cycle or the mode: the boundary, resets and wakes, changes of mode, crystal
faults, and what brings packets, since ABORT and RESET_DEVICE are among them. -/
def movesStamp : Instr → Bool
  | .commandPacket _ _ | .spiTransactionEnd _ _ _ | .twTransactionEnd _ _ | .abort _ | .resetDevice _
  | .blockBoundary _ | .xtalFaultSet | .xtalFaultClear | .powerOnReset | .pinReset | .supplyReset _ | .thermalReset
  | .bootComplete | .bootFail | .modeD1 | .fabricGate | .modeD2 | .modeD3 | .idleReached | .fabricUngate
  | .listenRetainSwitch | .wakeSource _ => true
  | _ => false

/-- Every other row answers a state with the same queue, instant and mode. -/
theorem exec_stamp (c : Instr) (s : State) (h : movesStamp c = false) :
    Answers (fun t => t.stamp = s.stamp) (exec c s) := by
  cases c with
  | commandPacket | spiTransactionEnd | twTransactionEnd | abort | resetDevice | blockBoundary | xtalFaultSet |
  xtalFaultClear | powerOnReset | pinReset | supplyReset | thermalReset | bootComplete | bootFail | modeD1 |
  fabricGate | modeD2 | modeD3 | idleReached | fabricUngate | listenRetainSwitch | wakeSource =>
    cases h
  | eventStatus | eventRead | eventPeek | eventClear | aonQueueDrain =>
    simp [exec, execEventStatus, execEventRead, execEventPeek, execEventClear, execAonQueueDrain]
  | otpStatus | otpRead | otpGenBegin | otpGenData | otpGenCommit | otpLock | otpFactoryWrite =>
    simp [exec, execOtpStatus, execOtpRead, execOtpGenBegin, execOtpGenData, execOtpGenCommit, execOtpLock,
      execOtpFactoryWrite]
  | ping | identify | getStatus | portClassGet | portClassSet =>
    simp [exec, execPing, execIdentify, execGetStatus, execPortClassGet, execPortClassSet]
  | portDisable | portClockFound | portClockLost | portLock | framingError | spdifParityError | spdifNonpcm |
  spdifNonpcmExit | channelMapChange | portStatus | spdifCsRead | routeRead | portRestart =>
    simp [exec, execPortDisable, execPortClockFound, execPortClockLost, execPortLock, execFramingError,
      execSpdifParityError, execSpdifNonpcm, execSpdifNonpcmExit, execChannelMapChange, execPortStatus,
      execSpdifCsRead, execRouteRead, execPortRestart]
  | adcEnable | adcDisable | adcMute | adcUnmute | adcSettleEnd | pgaChange | pgaStep | micbiasEnable |
  micbiasOverload | micbiasOverloadEnd | hpPowerUp | hpPowerDown | hpMute | loPowerUp | loPowerDown | classGHigh |
  classGLow | hpOvercurrent | hpFaultRetry | jackLevelChange | jackInsert | jackRemove | headsetMicSwitch |
  hsButtonRelease =>
    simp [exec, execAdcEnable, execAdcDisable, execAdcMute, execAdcUnmute, execAdcSettleEnd, execPgaChange,
      execPgaStep, execMicbiasEnable, execMicbiasOverload, execMicbiasOverloadEnd, execHpPowerUp, execHpPowerDown,
      execHpMute, execLoPowerUp, execLoPowerDown, execClassGHigh, execClassGLow, execHpOvercurrent, execHpFaultRetry,
      execJackLevelChange, execJackInsert, execJackRemove, execHeadsetMicSwitch, execHsButtonRelease]
  | coolerFetchComplete | coolerFetch | wakeStatus | wakeRearm =>
    simp [exec, execCoolerFetchComplete, execCoolerFetch, execWakeStatus, execWakeRearm]
  | channelStart | channelStop | vfsChange | channelRetry | retriesReset | loopOpen | dcDetect | xfault | limitedCycle
  | pstageStatus | pstageClear | pstageSenseRead =>
    simp [exec, execChannelStart, execChannelStop, execVfsChange, execChannelRetry, execRetriesReset, execLoopOpen,
      execDcDetect, execXfault, execLimitedCycle, execPstageStatus, execPstageClear, execPstageSenseRead]
  | diagRun | diagSweepStart | diagBiasRiseEnd | diagSlotEnd | diagSweepEnd | diagResult =>
    simp [exec, execDiagRun, execDiagSweepStart, execDiagBiasRiseEnd, execDiagSlotEnd, execDiagSweepEnd,
      execDiagResult]
  | dieLinkFail | pvddAvailable | thermalShutdown | thermalRecover | pstageStop =>
    simp [exec, execDieLinkFail, execPvddAvailable, execThermalShutdown, execThermalRecover, execPstageStop]
  | rootConfigWrite | pllRootLock | rootSwitchBack | trackLock | refLoss | coastTimeout | auxLock | mclkEnable |
  mclkDisable | syncPeriodWrite | auxRatioChange | auxSegmentEnd | auxProfile | clockStatus | rootRestart |
  pllSafeLock =>
    simp [exec, execRootConfigWrite, execPllRootLock, execRootSwitchBack, execTrackLock, execRefLoss,
      execCoastTimeout, execAuxLock, execMclkEnable, execMclkDisable, execSyncPeriodWrite, execAuxRatioChange,
      execAuxSegmentEnd, execAuxProfile, execClockStatus, execRootRestart, execPllSafeLock]
  | touchScan | gestureHold | touchMaxOn | touchConfigChange | sliderConfigChange | keyPress | keyRelease | keyLong |
  touchStatus | touchRecal | keyStatus =>
    simp [exec, execTouchScan, execGestureHold, execTouchMaxOn, execTouchConfigChange, execSliderConfigChange,
      execKeyPress, execKeyRelease, execKeyLong, execTouchStatus, execTouchRecal, execKeyStatus]
  | penRefill | fingerFail | watchdogExpire | strikeExpire | engineRetire | decimatorParallelStart | decimatorSwitch |
  fingerRetire | healthStatus | faultTableRead | faultTableClear | repairLogRead | bankCounters | healthCfg |
  repairForce | faultInject | svcRawRead | svcSpareTest =>
    simp [exec, execPenRefill, execFingerFail, execWatchdogExpire, execStrikeExpire, execEngineRetire,
      execDecimatorParallelStart, execDecimatorSwitch, execFingerRetire, execHealthStatus, execFaultTableRead,
      execFaultTableClear, execRepairLogRead, execBankCounters, execHealthCfg, execRepairForce, execFaultInject,
      execSvcRawRead, execSvcSpareTest]
  | paramWrite | paramRead | hamperOpen | hamperStage | hamperCommit | hamperDiscard | hamperStatus |
  routeCrossfadeEnd | interpRampEnd | portEnable | portConfigChange | paddockSizeWrite =>
    simp [exec, execParamWrite, execParamRead, execHamperOpen, execHamperStage, execHamperCommit, execHamperDiscard,
      execHamperStatus, execRouteCrossfadeEnd, execInterpRampEnd, execPortEnable, execPortConfigChange,
      execPaddockSizeWrite]
  | graphBegin | graphData | graphEnd | graphUnload | graphActivate | graphStatus | loadMeter | loadMeterSet | memRead
  | memWrite =>
    simp [exec, execGraphBegin, execGraphData, execGraphEnd, execGraphUnload, execGraphActivate, execGraphStatus,
      execLoadMeter, execLoadMeterSet, execMemRead, execMemWrite]
  | chargerChange | coreTemp120 | shipClockMeasure | powerStatus | powerModeSet | wakeCfg | resetInfo =>
    simp [exec, execChargerChange, execCoreTemp120, execShipClockMeasure, execPowerStatus, execPowerModeSet,
      execWakeCfg, execResetInfo]
  | bootStart | bootThermalRelease | coreRelease =>
    simp [exec, execBootStart, execBootThermalRelease, execCoreRelease]
  | testInstructionUpdate =>
    simp [exec, execTestInstructionUpdate]
  | replyDelivered | spiTransactionStart | rxFifoOverflow | twTargetAddress | controlClockStart | controlClockStop |
  twFieldApply | alertWrite | alertDelivered | arbLate | busStuck | sclStuck | busFree =>
    simp [exec, execReplyDelivered, execSpiTransactionStart, execRxFifoOverflow, execTwTargetAddress,
      execControlClockStart, execControlClockStop, execTwFieldApply, execAlertWrite, execAlertDelivered, execArbLate,
      execBusStuck, execSclStuck, execBusFree]
  | taskGrant | heldAdmit | engineStopEnd | alertCompose | otpReadDone | otpWordProgrammed | portLockLoss |
  spdifBlockCapture | classifyMeasure | classifyRetry | threePoleRepeat | hsButtonPress | pdmClockChange |
  setACrossfade | roosterWindow | pstageClearApply | channelShutdown | pvddFault | refQualify | realignBlock |
  auxRampEnd | auxProfileBegin | repairLogWrite | migrationBegin | migrationCopyEnd | migrationSwitch | scrubRead |
  taskRetire | faultDetect | bankWaitTimeout | faultTableEntry | portResetDone | selfTestEnd | svcRawReadDone |
  commitApply | registerWrite | graphCheckDone | graphSwitch | memReadSnapshot | stretchTimeout | alertAttemptFail |
  alertBackoffEnd | arbitrationLost =>
    simp [exec]

/-! ## Every row (R12) -/

/-- Whatever is run, but a block boundary: the BSN stands, or the device has restarted. -/
theorem exec_standsOrRestarts (c : Instr) (s : State) (hc : ∀ i, c ≠ .blockBoundary i) :
    Answers (StandsOrRestarts s) (exec c s) := by
  cases h : movesStamp c with
  | false =>
    obtain ⟨t, ht, hs⟩ := exec_stamp c s h
    exact ⟨t, ht, standsOrRestarts_of_stamp hs⟩
  | true =>
    cases c with
    | blockBoundary i => exact absurd rfl (hc i)
    | commandPacket p bytes => exact ⟨_, rfl, standsOrRestarts_feedPort s p bytes⟩
    | spiTransactionEnd bytes extraBits gaps => exact execSpiTransactionEnd_answers bytes extraBits gaps s
    | twTransactionEnd bytes how => exact execTwTransactionEnd_answers bytes how s
    | abort q => exact ⟨_, rfl, standsOrRestarts_doAbort q s⟩
    | resetDevice q => exact ⟨_, rfl, standsOrRestarts_doResetDevice q s⟩
    | xtalFaultSet => exact execXtalFaultSet_answers s
    | xtalFaultClear => exact execXtalFaultClear_answers s
    | powerOnReset => exact ⟨_, rfl, .inr (restarted_deviceReset 1 s)⟩
    | pinReset => exact execPinReset_answers s
    | supplyReset rails => exact execSupplyReset_answers rails s
    | thermalReset => exact execThermalReset_answers s
    | bootComplete => exact execBootComplete_answers s
    | bootFail => exact execBootFail_answers s
    | modeD1 => exact execModeD1_answers s
    | fabricGate => exact execFabricGate_answers s
    | modeD2 => exact execModeD2_answers s
    | modeD3 => exact execModeD3_answers s
    | idleReached => exact execIdleReached_answers s
    | fabricUngate => exact execFabricUngate_answers s
    | listenRetainSwitch => exact execListenRetainSwitch_answers s
    | wakeSource c => exact execWakeSource_answers c s
    | _ => cases h

/-- What the BSN of the next state can be: itself, the next one at a block boundary, or 0 of a device that restarted. -/
theorem bsn_exec {c : Instr} {s t : State} (h : exec c s = .next t) :
    t.bsn = s.bsn ∨
      ((∃ i, c = .blockBoundary i) ∧ t.bsn = s.bsn + 1#40 ∧ t.cycle = 0 ∧ t.power.mode = s.power.mode) ∨
      (t.bsn = 0 ∧ t.cycle = 0 ∧ t.graph = State.reset.graph ∧ t.params = State.reset.params) := by
  by_cases hc : ∃ i, c = .blockBoundary i
  · obtain ⟨i, rfl⟩ := hc
    cases hn : counting s with
    | false =>
      cases (execBlockBoundary_stopped i s hn).symm.trans h
      exact .inl rfl
    | true =>
      obtain ⟨u, hu, hs⟩ := execBlockBoundary_counting i s hn
      cases hu.symm.trans h
      exact .inr (.inl ⟨⟨i, rfl⟩, congrArg Stamp.bsn hs, congrArg Stamp.cycle hs, congrArg Stamp.mode hs⟩)
  · obtain ⟨u, hu, hs⟩ := exec_standsOrRestarts c s (not_exists.mp hc)
    cases hu.symm.trans h
    exact hs.imp_right (fun ⟨hb, hy, hg, hp, _⟩ => .inr ⟨hb, hy, hg, hp⟩)

/-- The charger's level does not lead out of SHIP. -/
theorem chargerTo_inShip {s : State} (h : inShip s = true) (level : Bool) : inShip (chargerTo s level) = true := by
  have hm : s.power.mode = .ship := eq_of_beq (Bool.and_eq_true_iff.mp h).2
  have hh : ∀ f : Power → Power, (f s.power).mode = s.power.mode → modeHigh (modPower s f) = false := fun f hf => by
    simp [modeHigh, modPower, hf, hm]
  unfold chargerTo
  dsimp only
  split
  · exact h
  · rw [hh _ rfl]
    exact h

/-- A wake that its mask lets through takes the device from SHIP through reset 6, whose record keeps the BSN (R484). -/
theorem execWakeSource_fromShip {c : Fin 7} {s : State} (h : inShip s = true)
    (hm : wakeMasked (if c.val = 5 then chargerTo s s.power.wake.chgPol else s) c = true) :
    Answers (fun t => t.bsn = 0 ∧ t.record.bsnBefore = s.bsn) (execWakeSource c s) := by
  unfold execWakeSource
  extract_lets k t on u
  have hu : u.bsn = s.bsn := bsn_of_stamp (by simp [u, t])
  have ht : inShip t = true := by
    unfold t
    split
    · exact chargerTo_inShip h _
    · exact h
  have hi : inShip u = true := by
    unfold u
    split <;> exact ht
  have hw : wakeAct u k = shipExit k u := if_pos hi
  rw [answers_next, if_pos hm, hw]
  exact ⟨rfl, hu⟩

/-- Settles O4: only BLOCK_BOUNDARY and a restart of the device write the BSN. Every operation of the other rows keeps
the stamp of the state; changes of mode keep its BSN; and a packet restarts the device only as RESET_DEVICE, or as an
ABORT that lets a held wake act. -/
theorem bsnCountsBlocks : Obligations.BsnCountsBlocks := by
  unfold Obligations.BsnCountsBlocks
  intro s
  refine ⟨fun i hi => ?_, ⟨rfl, rfl⟩, fun code h2 _ => ⟨rfl, ?_⟩, fun hs => ⟨?_, ?_, fun rails hm => ?_⟩,
    fun q hq hp => ?_, fun c hm hs => execWakeSource_fromShip hs hm, fun _ _ => bsn_exec⟩
  · obtain ⟨t, ht, hb⟩ := execBlockBoundary_counting i s hi
    exact ⟨t, ht, congrArg Stamp.bsn hb⟩
  · have hr : resetRecord s code = _ := if_neg (show code ≠ 1 by omega)
    exact congrArg ResetRecord.bsnBefore hr
  · exact ⟨deviceReset 2 s, if_neg (by simp [hs]), rfl⟩
  · exact ⟨deviceReset 5 s, if_neg (by simp [hs]), rfl⟩
  · obtain ⟨t, ht, hb, -⟩ := execSupplyReset_restarts rails s hs hm
    exact ⟨t, ht, hb⟩
  · exact ⟨_, congrArg Host.Outcome.next (runOp_heard _ _ _ q s hq (by simp [hp, lenIs])), rfl⟩

end Sys2Proof.Machine

namespace Sys2Proof.Machine

open Sys2Proof

/-! ## The reserved reply slot (R398) -/

theorem reservedReply_free {s : State} {p : PortId} (h : (getPort s p).replies.any (fun r => r.reserved) = false)
    (op tag : Byte) (st : Status) :
    reservedReply s p op tag st = modPort s p (fun v => { v with
      replies := v.replies ++ [{ op := op, tag := tag, status := st, payload := [], reserved := true }] }) :=
  if_neg (by simp [h])

theorem reservedReply_taken {s : State} {p : PortId} (h : (getPort s p).replies.any (fun r => r.reserved) = true)
    (op tag : Byte) (st : Status) : reservedReply s p op tag st = dropPacket s p 2 op.toNat tag.toNat :=
  if_pos h

/-- A packet of a defined opcode beyond the 32 places passes step 3 and goes no further (R395, R398). -/
theorem runOp_full {q : Request} {s : State} (ho : portOpen s q.port = true) (ht : tagHeld s q.port q.tag = false)
    (hf : placesFull s q.port = true) {op : Byte} {n : Nat} (hn : op.toNat = n) {lenOk : List Byte → Bool}
    {body : State → Request → Verdict} : runOp n lenOk body q s = reservedReply s q.port op q.tag .busy := by
  subst hn
  simp [runOp, ho, ht, hf]

/-- With no place left, every opcode, a defined one or not, takes the reserved slot (R398). -/
theorem dispatch_full {q : Request} {s : State} (ho : portOpen s q.port = true) (ht : tagHeld s q.port q.tag = false)
    (hf : placesFull s q.port = true) (op : Byte) : dispatch op q s = reservedReply s q.port op q.tag .busy := by
  unfold dispatch
  split
  case h_69 => simp [badOpcode, ho, ht, hf]
  all_goals
    next hn => exact runOp_full ho ht hf hn

/-! ## Packets that fail step 1 or 2 (R394, R395) -/

/-- With the reserved slot free, the packet is answered there, and BAD_CRC alone adds to its count (R394, R412, log
entry 26). -/
theorem badPacket_free {s : State} {p : PortId} (h : (getPort s p).replies.any (fun r => r.reserved) = false)
    (op tag : Byte) (st : Status) :
    badPacket s p op tag st = modPort s p (fun v => { v with
      rx := [], discarding := true, badCrc := if st = .badCrc then bump 0xFFFFFFFF v.badCrc else v.badCrc,
      replies := v.replies ++ [{ op := op, tag := tag, status := st, payload := [], reserved := true }] }) := by
  simp [badPacket, reservedReply_free h, h]

/-- With the reserved slot holding a reply, the packet counts as dropped and not as BAD_CRC (R398). -/
theorem badPacket_taken {s : State} {p : PortId} (h : (getPort s p).replies.any (fun r => r.reserved) = true)
    (op tag : Byte) (st : Status) :
    badPacket s p op tag st =
      modPort (dropPacket s p 2 op.toNat tag.toNat) p (fun v => { v with rx := [], discarding := true }) := by
  simp [badPacket, reservedReply_taken h, h]

section
variable {s : State} {p : PortId} {head : List Byte} (hrx : (getPort s p).rx = 0x5A#8 :: head) (hl : 5 ≤ head.length)
include hrx hl

/-- Step 1 of R395: a length field above 4,096. -/
theorem takePacket_badLength (hn : 4096 < leField (0x5A#8 :: head) 4 2) :
    takePacket s p = some (badPacket s p (head.getD 0 0) (head.getD 1 0) .badLength) := by
  have h6 : ¬ head.length + 1 < 6 := by omega
  simp [takePacket, hrx, h6, hn]

/-- Step 2 of R395: a whole packet whose CRC-32C is not the one it carries. -/
theorem takePacket_badCrc {n : Nat} (hn : n = leField (0x5A#8 :: head) 4 2) (hmax : n ≤ 4096)
    (hlen : n + 9 ≤ head.length) (hcrc : crc32c (head.take (n + 5)) ≠ leField head (5 + n) 4) :
    takePacket s p = some (badPacket s p (head.getD 0 0) (head.getD 1 0) .badCrc) := by
  have h6 : ¬ head.length + 1 < 6 := by omega
  have h4096 : ¬ 4096 < n := by omega
  have h10 : ¬ head.length + 1 < n + 10 := by omega
  have hfield : leField (0x5A#8 :: head) (6 + n) 4 = leField head (5 + n) 4 := by
    rw [show 6 + n = (5 + n) + 1 by omega]
    rfl
  simp [takePacket, hrx, h6, ← hn, h4096, h10, hfield, hcrc]

end

/-- Settles O9: a packet that finds no place and one that fails step 1 or 2 come to the same reserved reply, which is
queued where the slot is free and dropped where it holds a reply. -/
theorem reservedSlotAnswersBusy : Obligations.ReservedSlotAnswersBusy := by
  intro s
  refine ⟨fun q op _ ho ht h32 hfree => ?_, fun q op hop ho ht h32 htaken => ?_, fun p head n hrx hl hn => ?_⟩
  · rw [dispatch_full ho ht (decide_eq_true h32.ge), reservedReply_free hfree]
  · rw [dispatch_full ho ht (decide_eq_true h32.ge), reservedReply_taken htaken, BitVec.toNat_ofNat,
      Nat.mod_eq_of_lt hop]
    rfl
  · refine ⟨fun hbig hfree => ?_, fun hbig htaken => ?_, fun hmax hlen hcrc hfree => ?_,
      fun hmax hlen hcrc htaken => ?_⟩
    · rw [takePacket_badLength hrx hl (hn ▸ hbig), badPacket_free hfree]
      rfl
    · rw [takePacket_badLength hrx hl (hn ▸ hbig), badPacket_taken htaken]
      rfl
    · rw [takePacket_badCrc hrx hl hn hmax hlen hcrc, badPacket_free hfree]
      rfl
    · rw [takePacket_badCrc hrx hl hn hmax hlen hcrc, badPacket_taken htaken]
      rfl

end Sys2Proof.Machine

namespace Sys2Proof.Machine

open Sys2Proof

/-! ## Little-endian fields read back (R4) -/

theorem leBytes_length (n v : Nat) : (leBytes n v).length = n := by
  induction n generalizing v with
  | zero => rfl
  | succ n ih => simp [leBytes, ih]

theorem leValue_leBytes (n v : Nat) (h : v < 256 ^ n) : leValue (leBytes n v) = v := by
  induction n generalizing v with
  | zero => simp [leBytes, leValue]; omega
  | succ n ih =>
    have hq : v / 256 < 256 ^ n := Nat.div_lt_of_lt_mul (by rwa [Nat.pow_succ, Nat.mul_comm] at h)
    simp only [leBytes, leValue, ih _ hq, BitVec.toNat_ofNat]
    exact Nat.mod_add_div v 256

/-- A field written at an offset is the field read there. -/
theorem leField_leBytes (a b : List Byte) (n v o : Nat) (ho : a.length = o) (h : v < 256 ^ n) :
    leField (a ++ (leBytes n v ++ b)) o n = v := by
  subst ho
  rw [leField, List.drop_left, List.take_left' (leBytes_length n v), leValue_leBytes n v h]

/-! ## CRC-32C (R393) -/

theorem crcBit_lt {c : Nat} (h : c < 2 ^ 32) : crcBit c < 2 ^ 32 := by
  unfold crcBit
  split
  · exact Nat.xor_lt_two_pow (by omega) (by decide)
  · omega

theorem crcByte_lt {c : Nat} (h : c < 2 ^ 32) (b : Byte) : crcByte c b < 2 ^ 32 := by
  have hx : Nat.xor c b.toNat < 2 ^ 32 := Nat.xor_lt_two_pow h (by omega)
  exact crcBit_lt (crcBit_lt (crcBit_lt (crcBit_lt (crcBit_lt (crcBit_lt (crcBit_lt (crcBit_lt hx)))))))

theorem crc32c_lt (bs : List Byte) : crc32c bs < 2 ^ 32 := by
  have hf : bs.foldl crcByte 0xFFFFFFFF < 2 ^ 32 :=
    List.foldlRecOn (motive := fun c => c < 2 ^ 32) bs crcByte (by decide) (fun c hc b _ => crcByte_lt hc b)
  exact Nat.xor_lt_two_pow hf (by decide)

/-! ## A packet at the head of a stream (R391, R394, R395) -/

/-- The bytes of a packet that its check value covers. -/
def packetBody (op : Nat) (q : Request) : List Byte :=
  BitVec.ofNat 8 op :: q.tag :: q.flags :: (leBytes 2 q.payload.length ++ q.payload)

theorem packetOf_eq (op : Nat) (q : Request) :
    packetOf op q = 0x5A#8 :: (packetBody op q ++ leBytes 4 (crc32c (packetBody op q))) := rfl

theorem packetBody_length (op : Nat) (q : Request) : (packetBody op q).length = q.payload.length + 5 := by
  simp [packetBody, leBytes_length]
  omega

theorem packetOf_length (op : Nat) (q : Request) : (packetOf op q).length = q.payload.length + 10 := by
  simp [packetOf_eq, packetBody_length, leBytes_length]

/-- A whole packet with a good CRC runs its opcode on the state whose stream holds the rest. -/
theorem takePacket_packetOf {s : State} {q : Request} {op : Nat} {rest : List Byte} (hn : q.payload.length ≤ 4096)
    (hrx : (getPort s q.port).rx = packetOf op q ++ rest) :
    takePacket s q.port =
      some (dispatch (BitVec.ofNat 8 op) q (modPort s q.port (fun v => { v with rx := rest }))) := by
  have hlen := packetOf_length op q
  have hfield : leField (packetOf op q ++ rest) 4 2 = q.payload.length := by
    refine (congrArg (leField · 4 2) ?_).trans (leField_leBytes [0x5A#8, BitVec.ofNat 8 op, q.tag, q.flags]
      (q.payload ++ leBytes 4 (crc32c (packetBody op q)) ++ rest) 2 q.payload.length 4 rfl (by omega))
    simp [packetOf_eq, packetBody]
  have hcrc : leField (packetOf op q ++ rest) (6 + q.payload.length) 4 = crc32c (packetBody op q) := by
    refine (congrArg (leField · (6 + q.payload.length) 4) ?_).trans (leField_leBytes (0x5A#8 :: packetBody op q) rest 4
      (crc32c (packetBody op q)) _ (by simp [packetBody_length]; omega) (crc32c_lt _))
    simp [packetOf_eq]
  have hbody : ((packetOf op q ++ rest).drop 1).take (q.payload.length + 5) = packetBody op q := by
    rw [packetOf_eq, List.cons_append, List.drop_succ_cons, List.drop_zero, List.append_assoc,
      List.take_left' (packetBody_length op q)]
  have hpay : ((packetOf op q ++ rest).drop 6).take q.payload.length = q.payload := by
    simp [packetOf_eq, packetBody, leBytes]
  have hrest : (packetOf op q ++ rest).drop (q.payload.length + 10) = rest := List.drop_left' hlen
  have hsync : (packetOf op q ++ rest).dropWhile (fun b => b != 0x5A#8) = packetOf op q ++ rest := by
    simp [packetOf_eq]
  have h1 : (packetOf op q ++ rest).getD 1 0 = BitVec.ofNat 8 op := by simp [packetOf_eq, packetBody]
  have h2 : (packetOf op q ++ rest).getD 2 0 = q.tag := by simp [packetOf_eq, packetBody]
  have h3 : (packetOf op q ++ rest).getD 3 0 = q.flags := by simp [packetOf_eq, packetBody]
  have hall : (packetOf op q ++ rest).length = q.payload.length + 10 + rest.length := by simp [hlen]
  have hcons : packetOf op q ++ rest = 0x5A#8 :: (packetOf op q ++ rest).drop 1 := by simp [packetOf_eq]
  unfold takePacket
  rw [hrx, hsync]
  generalize packetOf op q ++ rest = head at *
  cases head with
  | nil => cases hcons
  | cons b bs =>
    simp only [hfield, hcrc, hbody, hpay, hrest, h1, h2, h3, hall]
    simp only [show ¬ q.payload.length + 10 + rest.length < 6 by omega, show ¬ 4096 < q.payload.length by omega,
      show ¬ q.payload.length + 10 + rest.length < q.payload.length + 10 by omega, if_false, ne_eq, not_true_eq_false]

/-! ## The opcode table (R417) -/

/-- The row of a defined opcode is what its packet runs. -/
theorem exec_opcodeRow {op : Nat} {q : Request} {i : Instr} (h : opcodeRow op q = some i) (s : State) :
    exec i s = .next (dispatch (BitVec.ofNat 8 op) q s) := by
  unfold opcodeRow at h
  split at h
  case h_69 => cases h
  all_goals
    cases h
    rfl

/-- An opcode with no row is refused at step 5. -/
theorem dispatch_undefined {op : Nat} (hop : op < 256) {q : Request} (h : opcodeRow op q = none) (s : State) :
    dispatch (BitVec.ofNat 8 op) q s = badOpcode q (BitVec.ofNat 8 op) s := by
  have hn : (BitVec.ofNat 8 op).toNat = op := by simpa using hop
  unfold dispatch
  rw [hn]
  unfold opcodeRow at h
  split
  case h_69 => rfl
  all_goals cases h

/-- On a port with its tag free and a place left, the refusal of step 5 is the reply BAD_OPCODE. -/
theorem badOpcode_canTake {s : State} {q : Request} (h : canTake s q = true) (op : Nat) :
    badOpcode q (BitVec.ofNat 8 op) s = answered s q op .badOpcode [] := by
  have ht := h
  simp only [canTake, Bool.and_eq_true, Bool.not_eq_true'] at ht
  obtain ⟨⟨ho, ht⟩, hf⟩ := ht
  simp only [badOpcode, ho, ht, hf, Bool.not_true, Bool.false_eq_true, if_false]
  exact answerNow_takePlace s q op .badOpcode [] ht

/-- Settles O7: the fields of `packetOf` are the fields that `takePacket` reads, and the opcode table sends each opcode to
its row. -/
theorem packetsRunTheirOpcode : Obligations.PacketsRunTheirOpcode := by
  refine ⟨by decide +kernel, fun s u q op rest hop hn hrx hu => ?_⟩
  subst hu
  have ht := takePacket_packetOf hn hrx
  refine ⟨packetOf_length op q, fun i hi => ⟨_, ht, exec_opcodeRow hi _⟩, fun h => ?_, fun h hc => ?_⟩
  · rw [ht, dispatch_undefined hop h]
  · rw [ht, dispatch_undefined hop h, badOpcode_canTake hc]

/-- An opcode's row runs its packet through the acceptance steps, with the one length of R417 where it has one. -/
theorem exec_opcodeRow_runOp {op : Nat} {q : Request} {i : Instr} (h : opcodeRow op q = some i) (s : State) :
    ∃ lenOk body, exec i s = .next (runOp op lenOk body q s) ∧ ∀ n, fixedLength op = some n → lenOk = lenIs n := by
  unfold opcodeRow at h
  split at h
  case h_69 => cases h
  all_goals
    cases h
    exact ⟨_, _, rfl, fun n hn => by cases hn <;> rfl⟩

section
variable {op : Nat} {lenOk : List Byte → Bool} {body : State → Request → Verdict} {q : Request} {s : State}

/-- Step 3 of R395: a packet whose tag is held is discarded and counted. -/
theorem runOp_tagHeld (ho : portOpen s q.port = true) (ht : tagHeld s q.port q.tag = true) :
    runOp op lenOk body q s = dropPacket s q.port 1 op q.tag.toNat := by
  simp [runOp, ho, ht]

/-- What the checks of steps 6 and 7 refuse is the reply alone. -/
theorem runOp_judged (h : canTake s q = true) {st : Status}
    (hj : judge op lenOk body q (takePlace s q.port (BitVec.ofNat 8 op) q.tag) = .refuse st []) :
    runOp op lenOk body q s = answered s q op st [] := by
  have ht := h
  simp only [canTake, Bool.and_eq_true, Bool.not_eq_true'] at ht
  rw [runOp_taken _ _ _ _ _ h, hj]
  exact answerNow_takePlace _ _ _ _ _ ht.1.2

/-- Step 6 of R395: the port's class is below the opcode's. -/
theorem runOp_denied (h : canTake s q = true) {c : Nat} (hc : opClass op = some c) (hl : (getPort s q.port).cls < c) :
    runOp op lenOk body q s = answered s q op .denied [] :=
  runOp_judged h (by simp [judge, hc, hl])

/-- Step 7 of R395: a payload of another length. -/
theorem runOp_badLength (h : canTake s q = true) {c : Nat} (hc : opClass op = some c) (hl : c ≤ (getPort s q.port).cls)
    (hn : lenOk q.payload = false) : runOp op lenOk body q s = answered s q op .badLength [] :=
  runOp_judged h (by simp [judge, hc, Nat.not_lt.mpr hl, hn])

/-- R475: RETAIN and LISTEN refuse the opcode. -/
theorem runOp_lowRefused (h : canTake s q = true) {c : Nat} (hc : opClass op = some c) (hl : c ≤ (getPort s q.port).cls)
    (hn : lenOk q.payload = true) (hm : modeLow s = true) (hr : lowRefused op = true) :
    runOp op lenOk body q s = answered s q op .state [] :=
  runOp_judged h (by simp [judge, hc, Nat.not_lt.mpr hl, hn, hm, hr])

end

/-- Settles O8: every opcode runs the acceptance steps, and these end it at the first check that fails. -/
theorem acceptanceStepsInOrder : Obligations.AcceptanceStepsInOrder := by
  intro s q op i hi
  obtain ⟨lenOk, body, hx, hlen⟩ := exec_opcodeRow_runOp hi s
  rw [hx]
  refine ⟨fun ho => ?_, fun ho ht => ?_, fun c h hc hl => ?_, fun c n h hc hl hn hp => ?_,
    fun c n h hc hl hn hp hm hr => ?_⟩
  · rw [runOp_closed ho]
  · rw [runOp_tagHeld ho ht]
    rfl
  · rw [runOp_denied h hc hl]
  · rw [runOp_badLength h hc hl (by simp [hlen n hn, lenIs, hp])]
  · rw [runOp_lowRefused h hc hl (by simp [hlen n hn, lenIs, hp]) hm hr]

end Sys2Proof.Machine

namespace Sys2Proof.Machine

open Sys2Proof

/-! ## Commands that read (R396, R399) -/

/-- A place changes the ports and the count of commands alone. -/
theorem takePlace_frame (s : State) (p : PortId) (op tag : Byte) :
    ∃ a b c, takePlace s p op tag = { s with seq := s.seq + 1, spi := a, addrA := b, addrB := c } := by
  cases p
  · exact ⟨_, s.addrA, s.addrB, rfl⟩
  · exact ⟨s.spi, _, s.addrB, rfl⟩
  · exact ⟨s.spi, s.addrA, _, rfl⟩

/-- What tells of neither the ports nor the count of commands tells the same beside a new place. -/
theorem takePlace_tells {α : Sort _} {f : State → α}
    (h : ∀ s n a b c, f { s with seq := n, spi := a, addrA := b, addrB := c } = f s) (s : State) (p : PortId)
    (op tag : Byte) : f (takePlace s p op tag) = f s := by
  obtain ⟨a, b, c, e⟩ := takePlace_frame s p op tag
  rw [e, h]

/-- The row of an opcode that only reads, and tells of neither the ports nor the count of commands. -/
theorem exec_tells {i : Instr} {op : Nat} {lenOk : List Byte → Bool} {body : State → Request → Verdict} {q : Request}
    {s : State} {payload : State → List Byte} {bytes : List Byte} (hx : exec i s = .next (runOp op lenOk body q s))
    (h : heard s q op = true) (hl : lenOk q.payload = true)
    (hn : ¬(BitVec.ofNat 8 op = 0xB0#8 ∨ BitVec.ofNat 8 op = 0xB1#8)) (hb : ∀ t, body t q = .done t (payload t))
    (hp : ∀ s n a b c, payload { s with seq := n, spi := a, addrA := b, addrB := c } = payload s)
    (he : payload s = bytes) : exec i s = .next (answered s q op .ok bytes) := by
  rw [hx, ← he, runOp_reads op lenOk body q s (payload s) h hl hn (by rw [hb, takePlace_tells hp])]

/-- The row of an opcode that its chapter refuses. -/
theorem exec_refuses {i : Instr} {op : Nat} {lenOk : List Byte → Bool} {body : State → Request → Verdict} {q : Request}
    {s : State} {st : Status} {bytes : List Byte} (hx : exec i s = .next (runOp op lenOk body q s))
    (h : heard s q op = true) (hl : lenOk q.payload = true)
    (hb : body (takePlace s q.port (BitVec.ofNat 8 op) q.tag) q = .refuse st bytes) :
    exec i s = .next (answered s q op st bytes) := by
  rw [hx, runOp_refuses op lenOk body q s st bytes h hl hb]

/-- The row of an opcode that only reads, where its chapter takes it. -/
theorem exec_reads {i : Instr} {op : Nat} {lenOk : List Byte → Bool} {body : State → Request → Verdict} {q : Request}
    {s : State} {bytes : List Byte} (hx : exec i s = .next (runOp op lenOk body q s))
    (h : heard s q op = true) (hl : lenOk q.payload = true)
    (hn : ¬(BitVec.ofNat 8 op = 0xB0#8 ∨ BitVec.ofNat 8 op = 0xB1#8))
    (hb : body (takePlace s q.port (BitVec.ofNat 8 op) q.tag) q =
      .done (takePlace s q.port (BitVec.ofNat 8 op) q.tag) bytes) :
    exec i s = .next (answered s q op .ok bytes) := by
  rw [hx, runOp_reads op lenOk body q s bytes h hl hn hb]

/-- The row of an opcode that is complete at once, with its effect `v`. -/
theorem exec_acts {i : Instr} {op : Nat} {lenOk : List Byte → Bool} {body : State → Request → Verdict} {q : Request}
    {s v : State} {bytes : List Byte} (hx : exec i s = .next (runOp op lenOk body q s))
    (h : heard s q op = true) (hl : lenOk q.payload = true)
    (hn : ¬(BitVec.ofNat 8 op = 0xB0#8 ∨ BitVec.ofNat 8 op = 0xB1#8))
    (hb : body (takePlace s q.port (BitVec.ofNat 8 op) q.tag) q =
      .done (takePlace v q.port (BitVec.ofNat 8 op) q.tag) bytes)
    (ht : tagHeld v q.port q.tag = tagHeld s q.port q.tag) : exec i s = .next (answered v q op .ok bytes) := by
  rw [hx, runOp_acts op lenOk body q s v bytes h hl hn hb ht]

/-- The row of an opcode that is accepted and waits, with its effect `v`, its job and its ACCEPTED reply. -/
theorem exec_waits {i : Instr} {op : Nat} {lenOk : List Byte → Bool} {body : State → Request → Verdict} {q : Request}
    {s v : State} {j : Job} {early : Option (List Byte)} (hx : exec i s = .next (runOp op lenOk body q s))
    (h : heard s q op = true) (hl : lenOk q.payload = true)
    (hn : ¬(BitVec.ofNat 8 op = 0xB0#8 ∨ BitVec.ofNat 8 op = 0xB1#8))
    (hb : body (takePlace s q.port (BitVec.ofNat 8 op) q.tag) q =
      .pend (takePlace v q.port (BitVec.ofNat 8 op) q.tag) j early)
    (ht : tagHeld v q.port q.tag = tagHeld s q.port q.tag) : exec i s = .next (waitsWith v q op j early) := by
  rw [hx, runOp_waits op lenOk body q s v j early h hl hn hb ht]

@[simp] theorem takePlace_dport (s : State) (p : PortId) (op tag : Byte) (k : Nat) :
    dport (takePlace s p op tag) k = dport s k :=
  takePlace_tells (f := fun t => dport t k) (fun _ _ _ _ _ => rfl) s p op tag

theorem lenIs_nil {q : Request} (h : q.payload = []) : lenIs 0 q.payload = true := by rw [h]; rfl

theorem lenIs_of {q : Request} {n : Nat} (h : q.payload.length = n) : lenIs n q.payload = true := by
  rw [lenIs, h, beq_self_eq_true]

/-- Settles O15: the tables lie outside the ports. -/
theorem healthReadsAnswer : Obligations.HealthReadsAnswer := by
  intro s q
  refine ⟨fun h hp => ?_, fun h hp hf h1 hn => ?_, fun h hp hn => ?_, fun h hp => ?_, fun h hp => ?_⟩
  · exact exec_tells rfl h (lenIs_nil hp) (by decide) (fun _ => rfl) (fun _ _ _ _ _ => rfl) rfl
  · have hb : ¬(!(within (pay8 q 0) 0 63 && within (pay8 q 1) 1 64 && decide (pay8 q 0 + pay8 q 1 ≤ 64))) = true := by
      simp [within]
      omega
    exact exec_tells (payload := fun t => ((t.health.table.drop (pay8 q 0)).take (pay8 q 1)).flatMap (entryBytes t)) rfl h
      (lenIs_of hp) (by decide) (fun _ => if_neg hb) (fun _ _ _ _ _ => rfl) rfl
  · exact exec_refuses rfl h (lenIs_of hp) (if_pos (by simp; omega))
  · exact exec_tells rfl h (lenIs_nil hp) (by decide) (fun _ => rfl) (fun _ _ _ _ _ => rfl) rfl
  · exact exec_tells rfl h (lenIs_nil hp) (by decide) (fun _ => rfl) (fun _ _ _ _ _ => rfl) rfl

/-- Settles O16: graphs, Hampers, digital ports and routes lie outside the command ports. -/
theorem graphAndPortReadsAnswer : Obligations.GraphAndPortReadsAnswer := by
  intro s q
  refine ⟨fun h hp => ?_, fun h hp => ?_, fun h hp hr hs hv => ?_, fun h hp hr hv => ?_, fun h hp => ?_, fun h hp => ?_,
    fun h hp => ?_⟩
  · exact exec_tells rfl h (lenIs_nil hp) (by decide) (fun _ => rfl) (fun _ _ _ _ _ => rfl) rfl
  · exact exec_tells rfl h (lenIs_nil hp) (by decide) (fun _ => rfl) (fun _ _ _ _ _ => rfl) rfl
  · have hw : ¬(!within (pay8 q 0) 4 5) = true := by rcases hr with hr | hr <;> simp [hr, within]
    refine exec_reads rfl h (lenIs_of hp) (by decide) ((if_neg hw).trans ?_)
    rw [takePlace_dport]
    refine if_neg ?_
    rcases hs with hs | hs <;> simp [hs, hv]
  · have hw : ¬(!within (pay8 q 0) 4 5) = true := by rcases hr with hr | hr <;> simp [hr, within]
    refine exec_refuses rfl h (lenIs_of hp) ((if_neg hw).trans (if_pos ?_))
    rw [takePlace_dport, hv]
    simp
  · exact exec_tells rfl h (lenIs_nil hp) (by decide) (fun _ => rfl) (fun _ _ _ _ _ => rfl) rfl
  · exact exec_tells rfl h (lenIs_nil hp) (by decide) (fun _ => rfl) (fun _ _ _ _ _ => rfl) rfl
  · refine exec_tells rfl h (lenIs_nil hp) (by decide) (fun _ => rfl) (fun _ _ _ _ _ => rfl) ?_
    cases slotIn s.graph .active <;> rfl

/-! ## Session, device, stage and OTP reads -/

/-- The tags held beside a new place (R412). -/
theorem heldTags_append (p : Port) (o : Outstanding) :
    heldTags { p with outstanding := p.outstanding ++ [o] } = Nat.lor (heldTags p) (2 ^ o.tag.toNat) := by
  simp [heldTags, List.foldl_append]

/-- Settles O14: of what these opcodes tell, a place adds to the outstanding commands and tags of its own port alone. -/
theorem sessionReadsAnswer : Obligations.SessionReadsAnswer := by
  intro s q
  refine ⟨fun h => ?_, fun h hp => ?_, fun h hp => ?_, fun h hp => ?_⟩
  · exact exec_reads rfl h rfl (by decide) rfl
  · refine exec_reads rfl h (lenIs_nil hp) (by decide) ?_
    rw [classOf, takePlace_cls, takePlace_otp]
    rfl
  · refine exec_reads rfl h (lenIs_nil hp) (by decide) ?_
    have hport : getPort (takePlace s q.port (BitVec.ofNat 8 0x02) q.tag) q.port = { getPort s q.port with
        outstanding := (getPort s q.port).outstanding ++ [placeOf s q 0x02 .none false] } := by
      cases q.port <;> rfl
    dsimp only
    rw [hport, heldTags_append, List.length_append]
    simp only [takePlace_bsn, takePlace_power, takePlace_graphActive, takePlace_events, takePlace_otp, serviceOn]
    rfl
  · refine exec_reads rfl h (lenIs_nil hp) (by decide) ?_
    cases q.port <;> rfl

/-- Settles O17: what these opcodes tell lies outside the ports; POWER_STATUS takes a free value besides. -/
theorem deviceReadsAnswer : Obligations.DeviceReadsAnswer := by
  intro s q
  refine ⟨fun h hp => ?_, fun h hp => ?_, fun h hp => ?_, fun h hp => ?_, fun h hp => ?_, fun h hp => ?_⟩
  · refine exec_acts (v := nextFree s) rfl h (lenIs_nil hp) (by decide) ?_ (by cases q.port <;> rfl)
    have ht : (match s.power.change with
        | some c => c.target
        | none => s.power.mode) = (s.power.change.map (fun c => c.target)).getD s.power.mode := by
      cases s.power.change <;> rfl
    rw [← ht]
    cases q.port <;> rfl
  · exact exec_tells rfl h (lenIs_nil hp) (by decide) (fun _ => rfl) (fun _ _ _ _ _ => rfl) rfl
  · exact exec_tells rfl h (lenIs_nil hp) (by decide) (fun _ => rfl) (fun _ _ _ _ _ => rfl) rfl
  · refine exec_tells rfl h (lenIs_nil hp) (by decide) (fun _ => rfl) (fun _ _ _ _ _ => rfl) ?_
    cases s.wake.bridge <;> rfl
  · exact exec_tells rfl h (lenIs_nil hp) (by decide) (fun _ => rfl) (fun _ _ _ _ _ => rfl) rfl
  · exact exec_tells rfl h (lenIs_nil hp) (by decide) (fun _ => rfl) (fun _ _ _ _ _ => rfl) rfl

@[simp] theorem takePlace_leads (s : State) (p : PortId) (op tag : Byte) (k : Nat) :
    leads (takePlace s p op tag) k = leads s k :=
  takePlace_tells (f := fun t => leads t k) (fun _ _ _ _ _ => rfl) s p op tag

@[simp] theorem takePlace_chan (s : State) (p : PortId) (op tag : Byte) (k : Nat) :
    chan (takePlace s p op tag) k = chan s k :=
  takePlace_tells (f := fun t => chan t k) (fun _ _ _ _ _ => rfl) s p op tag

/-- Settles O18: power stage, diagnostics and OTP lie outside the ports. -/
theorem stageAndOtpReadsAnswer : Obligations.StageAndOtpReadsAnswer := by
  intro s q
  refine ⟨fun h hp => ?_, fun h hp hi hl => ?_, fun h hp hi => ?_, fun h hp => ?_, fun h hp => ?_⟩
  · exact exec_tells rfl h (lenIs_nil hp) (by decide) (fun _ => rfl) (fun _ _ _ _ _ => rfl) rfl
  · refine exec_reads rfl h (lenIs_of hp) (by decide) ?_
    simp [Nat.not_lt.mpr hi, hl]
  · refine exec_refuses rfl h (lenIs_of hp) ?_
    rcases hi with hi | hi <;> simp [hi]
  · exact exec_tells rfl h (lenIs_nil hp) (by decide) (fun _ => rfl) (fun _ _ _ _ _ => rfl) rfl
  · exact exec_tells rfl h (lenIs_nil hp) (by decide) (fun _ => rfl) (fun _ _ _ _ _ => rfl) rfl

/-! ## The event opcodes (R465 to R468) -/

/-- The event state after a record has entered (R457 to R459). -/
theorem evEnter_events (s : State) (r : EvRecord) : (evEnter s r).events =
    (evMerge (s.bsn, s.cycle) r.num r.payload (alertBit s r.num) s.events.fifo).elim
      (let e := { pendingNow s r.num with
          pend := s.events.pend ||| (1#128 <<< r.num),
          fifo := (evJoin 64 (s.bsn, s.cycle) s.events.fifo { r with due := alertBit s r.num }).1 }
        let k := (evJoin 64 (s.bsn, s.cycle) s.events.fifo { r with due := alertBit s r.num }).2
        if r.num = 108 then { e with lost := min 65535 (e.lost + k) } else evLose e k)
      (fun f => { pendingNow s r.num with pend := s.events.pend ||| (1#128 <<< r.num), fifo := f }) := by
  unfold evEnter
  dsimp only
  have hf : (pendingNow s r.num).fifo = s.events.fifo := rfl
  rw [hf]
  cases evMerge (s.bsn, s.cycle) r.num r.payload (alertBit s r.num) s.events.fifo with
  | some f => rfl
  | none => exact apply_ite State.events _ _ _

/-- The event state after a record has joined the AON queue (R461). -/
theorem evQueue_events (s : State) (r : EvRecord) : (evQueue s r).events =
    (evMerge (s.bsn, s.cycle) r.num r.payload false s.events.aonQueue).elim
      (evLose { pendingNow s r.num with
          aonPend := s.events.aonPend ||| (1#128 <<< r.num),
          aonQueue := (evJoin 8 (s.bsn, s.cycle) s.events.aonQueue { r with queued := true }).1 }
        (evJoin 8 (s.bsn, s.cycle) s.events.aonQueue { r with queued := true }).2)
      (fun f => { pendingNow s r.num with aonPend := s.events.aonPend ||| (1#128 <<< r.num), aonQueue := f }) := by
  unfold evQueue
  dsimp only
  have hf : (pendingNow s r.num).aonQueue = s.events.aonQueue := rfl
  rw [hf]
  cases evMerge (s.bsn, s.cycle) r.num r.payload false s.events.aonQueue <;> rfl

/-- A record as it is raised (R456). -/
def newRecord (n p : Nat) (b : Bsn) (c : Nat) : EvRecord :=
  { num := n, merged := false, alerted := false, queued := false, count := 1, bsn := b, cycle := c,
    payload := BitVec.ofNat 32 p }

theorem raiseAt_events (s : State) (n p : Nat) (b : Bsn) (c : Nat) : (raiseAt s n p b c).events =
    if evExists n && bit (evCfg s n) 0 && !shipMode s then
      if evClocked s then (evEnter (drainAon s) (newRecord n p b c)).events
      else (evQueue s (newRecord n p b c)).events
    else s.events := by
  unfold raiseAt
  rw [apply_ite State.events]
  dsimp only
  rw [apply_ite State.events]
  rfl

/-- Events do not see ports and count of commands. -/
theorem raise_setPorts (s : State) (n p k : Nat) (a b c : Port) :
    raise { s with seq := k, spi := a, addrA := b, addrB := c } n p =
      { raise s n p with seq := k, spi := a, addrA := b, addrB := c } := by
  have he : (raise { s with seq := k, spi := a, addrA := b, addrB := c } n p).events = (raise s n p).events := by
    simp only [raise, raiseAt_events, evEnter_events, evQueue_events]
    rfl
  rw [raise_frame, he, raise_frame s]

theorem raise_takePlace (s : State) (p : PortId) (op tag : Byte) (n x : Nat) :
    raise (takePlace s p op tag) n x = takePlace (raise s n x) p op tag := by
  have hseq : (raise s n x).seq = s.seq := raise_seq s n x
  cases p
  all_goals
    refine (raise_setPorts s n x _ _ _ _).trans ?_
    rw [raise_frame]
    rfl

theorem takeRecords_takePlace (s : State) (p : PortId) (op tag : Byte) (n : Nat) (clear : Bool) :
    takeRecords (takePlace s p op tag) n clear = takePlace (takeRecords s n clear) p op tag := by
  have hu : ∀ e, { takePlace s p op tag with events := e } = takePlace { s with events := e } p op tag := fun e => by
    cases p <;> rfl
  unfold takeRecords
  dsimp only
  rw [apply_ite (takePlace · p op tag)]
  refine ite_congr (by cases p <;> rfl) (fun _ => ?_) (fun _ => ?_)
  · rw [hu, raise_takePlace]
    cases p <;> rfl
  · rw [hu]
    cases p <;> rfl

/-- Settles O19: records and pending bits lie outside the ports, and the EV108 record that a read may leave is raised beside
the command's place as without it. -/
theorem eventCommandsAnswer : Obligations.EventCommandsAnswer := by
  intro s q
  refine ⟨fun h hp => ?_, fun h hp h1 hn => ?_, fun n hn => ?_, fun h hp hn => ?_, fun h hp hf h1 hn => ?_, fun f n => ?_,
    fun h hp hf => ?_, fun h hp hf => ?_⟩
  · exact exec_tells rfl h (lenIs_nil hp) (by decide) (fun _ => rfl) (fun _ _ _ _ _ => rfl) rfl
  · refine exec_acts rfl h (lenIs_of hp) (by decide) ?_ ?_
    · have hw : ¬(!within (pay8 q 0) 1 64) = true := by simp [within, h1, hn]
      refine (if_neg hw).trans ?_
      dsimp only
      rw [takeRecords_takePlace, takePlace_events]
    · unfold takeRecords tagHeld
      dsimp only
      rw [apply_ite (getPort · q.port), raise_getPort]
      cases q.port <;> simp [getPort]
  · simp [takeRecords, hn]
  · exact exec_refuses rfl h (lenIs_of hp) (if_pos (by simp [within]; omega))
  · refine exec_acts rfl h (lenIs_of hp) (by decide) ((if_neg ?_).trans ?_) (by cases q.port <;> rfl)
    · simp [within]
      omega
    · cases q.port <;> rfl
  · simp only [peekRecords, List.map_append, List.map_map]
    have hm : recordBytes ∘ (fun r : EvRecord => { r with peeked := some (s.bsn, s.cycle) }) = recordBytes := rfl
    rw [hm, ← List.map_append, ← List.map_append]
    congr 1
    rw [List.append_assoc, ← List.drop_drop, List.take_append_drop, List.take_append_drop]
  · refine exec_acts rfl h (lenIs_of hp) (by decide) ?_ (by cases q.port <;> rfl)
    simp only [clearEvents, hf]
    cases q.port <;> rfl
  · refine exec_acts rfl h (lenIs_of hp) (by decide) ?_ (by cases q.port <;> rfl)
    simp only [clearEvents, hf]
    cases q.port <;> rfl

end Sys2Proof.Machine

namespace Sys2Proof.Machine

open Sys2Proof

/-! ## One step (log entry 1) -/

/-- Settles O1: the definition of a step at a queue that is not empty. -/
theorem stepRunsTheFrontCommand : Obligations.StepRunsTheFrontCommand := by
  intro s c rest h
  simp only [step, h]

theorem mapApply_none {s : State} (h : s.mapDue = []) : mapApply s = s := by
  simp only [mapApply, h, List.foldl_nil]
  rw [← h]

theorem injectExpire_none {s : State} (h : s.health.inject = []) : injectExpire s = s := by
  simp [injectExpire, h]

theorem injectWatchdog_none {s : State} (h : s.health.inject = []) : injectWatchdog s = s := by
  simp [injectWatchdog, h]

theorem comeReady_none {s : State} (h : s.drover.coming = []) : comeReady s = s := by
  simp [comeReady, h]

theorem cycleTick_cycle (s : State) : (cycleTick s).cycle = s.cycle := congrArg Stamp.cycle (cycleTick_stamp s)

theorem step_idle {s : State} (h : s.pending = []) : step s = .next (tick s) := by
  simp only [step, h]

/-- Settles O2: each clause is one branch of `tick`, on the state whose mapping is in force. -/
theorem idleStepPassesTime : Obligations.IdleStepPassesTime := by
  intro s u h hu
  subst hu
  rw [step_idle h]
  unfold tick
  dsimp only
  generalize hu : mapApply s = u
  refine ⟨fun hc => ?_, fun hc hm hy => ?_, fun hc hm hy hf => ?_, fun hc hm hy hf => ?_, fun hc hm hy hf hg hi => ?_,
    fun hc hm hx => ?_, fun hc hm hy => ?_, fun hc hm hx hy => ?_, fun hd => hu ▸ mapApply_none hd, injectExpire_none⟩
  · simp [hc]
  · have hy : ¬ u.cycle + 1 < Config.blockCycles := Nat.not_lt.mpr hy
    simp [hc, hm, hy]
  · have hf : ¬ (u.cycle + 1) % Config.frameCycles = 0 := hf
    have hy : u.cycle + 1 < Config.blockCycles := hy
    simp [hc, hm, hy, hf, cycleTick_cycle]
  · have hf : (u.cycle + 1) % Config.frameCycles = 0 := hf
    have hy : u.cycle + 1 < Config.blockCycles := hy
    simp [hc, hm, hy, hf, cycleTick_cycle]
  · have ht : cycleTick { u with cycle := u.cycle + 1 } = { u with cycle := u.cycle + 1 } := by
      unfold cycleTick
      rw [comeReady_none (by exact hg), injectWatchdog_none (by exact hi), injectExpire_none (by exact hi)]
    have hf : ¬ (u.cycle + 1) % Config.frameCycles = 0 := hf
    have hy : u.cycle + 1 < Config.blockCycles := hy
    simp [hc, hm, hy, ht, hf]
  · simp [hc, hm, hx]
  · have hy : ¬ u.cycle + Config.tickCycles < Config.blockCycles := Nat.not_lt.mpr hy
    simp [hc, hm, hy]
  · have hy : u.cycle + Config.tickCycles < Config.blockCycles := hy
    simp [hc, hm, hx, hy]
    rfl

/-- Settles O5: the state after reset is a literal. -/
theorem resetStateIsSound : Obligations.ResetStateIsSound := by
  refine ⟨⟨rfl, rfl, rfl, rfl, rfl, rfl, rfl, by decide, by decide, by decide⟩, ?_⟩
  refine ⟨rfl, rfl, rfl, rfl, rfl, rfl, fun p => by cases p <;> exact ⟨rfl, rfl⟩, rfl, rfl, rfl, rfl, rfl, rfl,
    by decide, by decide, rfl, rfl, by decide +kernel, by decide +kernel, by decide +kernel, by decide +kernel,
    by decide +kernel, by decide +kernel, by decide +kernel⟩

end Sys2Proof.Machine

namespace Sys2Proof.Machine

open Sys2Proof

/-! ## Raising an event (R458) -/

/-- An IDLE device whose LOST count stands beyond the 16 bits that the spec gives it: a state of the model that no run
reaches. -/
def lostBeyond : State :=
  { State.reset with
    power := { State.reset.power with mode := .idle, boot := .complete }, events := { State.reset.events with lost := 65536 } }

/-- Refutes O11: the statement speaks of every state, and in one whose LOST count is 65,536 an event that joins the empty
FIFO sets LOST to 65,535, where the statement leaves it as it was. -/
theorem not_raisedEvents : ¬ Obligations.RaisedEvents := by
  intro h
  obtain ⟨-, -, -, hon⟩ := h lostBeyond 0 0 _ _ rfl rfl
  obtain ⟨-, -, -, hclocked, -⟩ := hon (by decide +kernel) (by decide +kernel) (by decide +kernel)
  obtain ⟨-, hnew⟩ := hclocked _ (by decide +kernel) rfl
  have hjoin := (hnew (.inl (by decide +kernel))).1 [] [] (by decide +kernel) (by decide +kernel) (by decide +kernel)
    (by decide +kernel)
  have hlost : (raise lostBeyond 0 0).events.lost = (drainAon lostBeyond).events.lost := congrArg (·.events.lost) hjoin
  exact absurd hlost (by decide +kernel)

end Sys2Proof.Machine

namespace Sys2Proof.Machine

open Sys2Proof

/-! ## The queue of waiting commands -/

@[simp] theorem stamp_pending (s : State) : s.stamp.pending = s.pending := rfl

theorem pending_of_stamp {s t : State} (h : t.stamp = s.stamp) : t.pending = s.pending := congrArg Stamp.pending h

/-- No port, place or event is part of the queue. -/
theorem transportBlind_pending (l : List Instr) : TransportBlind (fun t => t.pending = l) where
  port t p f h := by rw [modPort_pending, h]
  seq t n h := h
  bus t b h := h
  event t n p h := by rw [raise_pending, h]
  count t r hi lo k h := (pending_of_stamp (addCount_stamp t r hi lo k)).trans h

theorem crystalStop_pending (s : State) : (crystalStop s).pending = s.pending := by
  simp only [crystalStop, modClock_pending]
  exact pending_of_stamp (by simp)

theorem sysStart_pending (s : State) : (sysStart s).pending = s.pending := by
  rw [← stamp_pending]
  simp only [sysStart, classifyStart_stamp, biasUpdate_stamp, scanStart_stamp, portsTo_stamp]
  exact pending_of_stamp (t := memStart (sramInit s)) (by simp)

theorem a2Act_pending (s : State) : (a2Act s).pending = s.pending := by
  rw [← stamp_pending]
  simp [a2Act]

theorem swapAct_pending (s : State) (c : Change) : (swapAct s c).pending = s.pending := by
  rw [← stamp_pending]
  simp [swapAct, modPower_stamp_mode]

theorem d2Act_pending (s : State) (c : Change) : (d2Act s c).pending = s.pending := by
  unfold d2Act
  extract_lets listen t u v
  have hu : u.pending = s.pending := by
    rw [← stamp_pending]
    simp [u, t, modPower_stamp_mode]
  have hv : v.pending = s.pending := by
    rw [← stamp_pending]
    simp [v, hu]
  split
  · rw [crystalStop_pending, hv]
  · rw [← stamp_pending]
    simp [hv]

theorem shipEnter_pending (s : State) : (shipEnter s).pending = s.pending := by
  rw [← stamp_pending]
  simp [shipEnter, modPower_stamp_mode]

theorem bootFailed_pending (s : State) : (bootFailed s).pending = s.pending := by
  rw [← stamp_pending]
  exact pending_of_stamp (t := rootStop s) (by simp)

theorem actHeld_pending (s : State) : (actHeld s).pending = s.pending := by
  unfold actHeld
  split
  · rfl
  split
  · rfl
  dsimp only
  split
  · split <;> rfl
  split
  · exact pending_of_stamp (by simp)
  split
  · exact pending_of_stamp (by simp)
  · rfl

theorem completeChange_pending (s : State) (c : Change) : (completeChange s c).pending = s.pending :=
  (actHeld_pending _).trans (pending_of_stamp (by simp))

theorem stepDone_pending {s t : State} (h : t.pending = s.pending) (c : Change) (b : Bsn) :
    (stepDone t c b).pending = s.pending := by
  refine Eq.trans ?_ h
  unfold stepDone
  dsimp only
  split
  · exact completeChange_pending t _
  · exact pending_of_stamp (by simp)

theorem wakeAct_pending (s : State) (c : Nat) : (wakeAct s c).pending = s.pending := by
  unfold wakeAct
  dsimp only
  split
  · rfl
  · refine pending_of_stamp ?_
    (repeat' split) <;> simp

theorem abortCommand_pending (s : State) (p : PortId) (o : Outstanding) :
    (abortCommand s p o).pending = s.pending := by
  unfold abortCommand
  dsimp only
  split
  case h_4 => exact (actHeld_pending _).trans (pending_of_stamp (by simp))
  all_goals
    refine pending_of_stamp ?_
    (repeat' split) <;> simp

theorem doAbort_pending (q : Request) (s : State) : (doAbort q s).pending = s.pending := by
  refine (transportBlind_pending s.pending).runOp rfl (fun t _ ht => ?_)
  split
  · simp
  split
  · simp
  · simp [abortCommand_pending, ht]

theorem doResetDevice_pending (q : Request) (s : State) : (doResetDevice q s).pending = s.pending :=
  (transportBlind_pending s.pending).runOp rfl (fun _ _ ht => ht)

theorem dispatch_pending (op : Byte) (q : Request) (s : State) : (dispatch op q s).pending = s.pending := by
  unfold dispatch
  split
  case h_4 => exact doAbort_pending q s
  case h_5 => exact doResetDevice_pending q s
  all_goals exact pending_of_stamp (by simp)

/-! ## A port's stream keeps the queue -/

section
variable {l : List Instr}

theorem takePacket_pending {s t : State} {p : PortId} (hs : s.pending = l) (h : takePacket s p = some t) :
    t.pending = l := by
  have hb := transportBlind_pending l
  unfold takePacket at h
  split at h
  · cases h
  dsimp only at h
  split at h
  · cases h
  split at h
  · cases h
    exact hb.badPacket hs _ _ _ _
  split at h
  · cases h
  split at h
  · cases h
    exact hb.badPacket hs _ _ _ _
  · cases h
    exact (dispatch_pending _ _ _).trans (hb.port _ _ _ hs)

theorem takePackets_pending (p : PortId) (fuel : Nat) {s : State} (hs : s.pending = l) :
    (takePackets p fuel s).pending = l := by
  have hb := transportBlind_pending l
  induction fuel generalizing s with
  | zero => exact hs
  | succ fuel ih =>
    unfold takePackets
    split
    · exact hb.port _ _ _ hs
    split
    next u hu => exact ih (takePacket_pending hs hu)
    next => exact hb.port _ _ _ hs

theorem feedPort_pending (p : PortId) (bytes : List Byte) {s : State} (hs : s.pending = l) :
    (feedPort s p bytes).pending = l := by
  unfold feedPort
  split
  · exact hs
  · exact takePackets_pending p _ ((transportBlind_pending l).port _ _ _ hs)

end

/-! ## Rows that may move the stamp keep the queue -/

theorem keepsQueue_changeDue {s : State} {x : ModeStep} {f : Change → State} (hf : ∀ c, (f c).pending = s.pending) :
    Answers (fun t => t.pending = s.pending) (match changeDue s x with
      | some c => .next (f c)
      | none => .next s) := by
  split
  · exact ⟨_, rfl, hf _⟩
  · exact ⟨_, rfl, rfl⟩

theorem execBootFail_pending (s : State) : Answers (fun t => t.pending = s.pending) (execBootFail s) := by
  unfold execBootFail
  split <;> simp [bootFailed_pending]

theorem execXtalFaultSet_pending (s : State) : Answers (fun t => t.pending = s.pending) (execXtalFaultSet s) := by
  simp only [execXtalFaultSet, answers_ite, answers_next]
  split
  · trivial
  · refine (raise_pending _ _ _).trans ?_
    split
    · exact crystalStop_pending _
    · rfl

theorem execXtalFaultClear_pending (s : State) : Answers (fun t => t.pending = s.pending) (execXtalFaultClear s) := by
  unfold execXtalFaultClear
  extract_lets t u v
  have hv : v.pending = s.pending := pending_of_stamp (by simp [v, u, t])
  simp only [answers_ite, answers_next]
  split
  · trivial
  · exact iteInduction (motive := fun t : State => t.pending = s.pending)
      (fun _ => (actHeld_pending v).trans hv) (fun _ => hv)

theorem execWakeSource_pending (c : Fin 7) (s : State) :
    Answers (fun t => t.pending = s.pending) (execWakeSource c s) := by
  unfold execWakeSource
  extract_lets k t on u
  have hu : u.pending = s.pending := pending_of_stamp (by simp [u, t])
  rw [answers_next]
  split
  · exact (wakeAct_pending u k).trans hu
  · exact hu

theorem execSupplyReset_pending (rails : Byte) (s : State) :
    Answers (fun t => t.pending = s.pending) (execSupplyReset rails s) := by
  by_cases h : (inShip s || Nat.land rails.toNat (railMask s) == 0) = true
  · exact ⟨s, if_pos h, rfl⟩
  · refine ⟨_, if_neg h, ?_⟩
    exact iteInduction (motive := fun t : State => t.pending = s.pending) (fun _ => bootFailed_pending _) (fun _ => rfl)

theorem execSpiTransactionEnd_pending (bytes : List Byte) (extraBits : Fin 8) (gaps : List Nat) (s : State) :
    Answers (fun t => t.pending = s.pending) (execSpiTransactionEnd bytes extraBits gaps s) := by
  have hb := transportBlind_pending s.pending
  unfold execSpiTransactionEnd
  extract_lets _ t u v w
  have hu : u.pending = s.pending := pending_of_stamp (by simp [u, t])
  have hv : v.pending = s.pending := hb.readPort (feedPort_pending _ _ hu) _ _
  have hw : w.pending = s.pending := iteInduction (motive := fun t : State => t.pending = s.pending) (fun _ => hv)
    (fun _ => hb.count _ _ _ _ _ (hb.dropPartial hv _ _))
  simp only [answers_ite, answers_next]
  split
  · trivial
  split
  · exact hb.port _ _ _ hu
  · exact hb.port _ _ _ hw

theorem execTwTransactionEnd_pending (bytes : List Byte) (how : TwEnd) (s : State) :
    Answers (fun t => t.pending = s.pending) (execTwTransactionEnd bytes how s) := by
  have hb := transportBlind_pending s.pending
  unfold execTwTransactionEnd
  split
  · simp only [answers_ite, answers_next]
    split
    · trivial
    · exact pending_of_stamp (by simp)
  next t _ =>
    extract_lets _ u v
    have hu : u.pending = s.pending := pending_of_stamp (by simp [u])
    have hv : v.pending = s.pending := feedPort_pending _ _ hu
    simp only [answers_ite, answers_next]
    split
    · exact hb.readPort hu _ _
    · exact hb.port _ _ _ (iteInduction (motive := fun t : State => t.pending = s.pending)
        (fun _ => hb.dropPartial hv _ _) (fun _ => hv))

theorem execBlockBoundary_pending (i : BlockInput) (s : State) :
    Answers (fun t => t.pending = s.pending) (execBlockBoundary i s) := by
  cases hn : counting s with
  | false => exact ⟨s, execBlockBoundary_stopped i s hn, rfl⟩
  | true =>
    obtain ⟨t, ht, hs⟩ := execBlockBoundary_counting i s hn
    exact ⟨t, ht, congrArg Stamp.pending hs⟩

/-- Every row answers a next state with the same queue. -/
theorem exec_pending (c : Instr) (s : State) : Answers (fun t => t.pending = s.pending) (exec c s) := by
  cases h : movesStamp c with
  | false =>
    obtain ⟨t, ht, hs⟩ := exec_stamp c s h
    exact ⟨t, ht, pending_of_stamp hs⟩
  | true =>
    cases c with
    | blockBoundary i => exact execBlockBoundary_pending i s
    | commandPacket p bytes => exact ⟨_, rfl, feedPort_pending p bytes rfl⟩
    | spiTransactionEnd bytes extraBits gaps => exact execSpiTransactionEnd_pending bytes extraBits gaps s
    | twTransactionEnd bytes how => exact execTwTransactionEnd_pending bytes how s
    | abort q => exact ⟨_, rfl, doAbort_pending q s⟩
    | resetDevice q => exact ⟨_, rfl, doResetDevice_pending q s⟩
    | xtalFaultSet => exact execXtalFaultSet_pending s
    | xtalFaultClear => exact execXtalFaultClear_pending s
    | powerOnReset => exact ⟨_, rfl, rfl⟩
    | pinReset =>
      simp only [exec, execPinReset, answers_ite, answers_next]
      split <;> trivial
    | supplyReset rails => exact execSupplyReset_pending rails s
    | thermalReset =>
      simp only [exec, execThermalReset, answers_ite, answers_next]
      split <;> trivial
    | bootComplete =>
      simp only [exec, execBootComplete, answers_ite, answers_next]
      split
      · trivial
      · exact (pending_of_stamp (s := sysStart s) (by simp)).trans (sysStart_pending s)
    | bootFail => exact execBootFail_pending s
    | modeD1 => exact keepsQueue_changeDue (fun c => stepDone_pending (pending_of_stamp (by simp)) c _)
    | fabricGate =>
      exact keepsQueue_changeDue (fun c => stepDone_pending (t := modPower (testsGated (cancelBlock s)) _)
        (pending_of_stamp (t := testsGated (cancelBlock s)) (by simp)) c _)
    | modeD2 => exact keepsQueue_changeDue (fun c => stepDone_pending (d2Act_pending s c) c _)
    | modeD3 => exact keepsQueue_changeDue (fun c => stepDone_pending (shipEnter_pending s) c _)
    | idleReached =>
      refine keepsQueue_changeDue (fun c => stepDone_pending ?_ c _)
      exact (pending_of_stamp (t := ite _ _ _) (by simp)).trans (sysStart_pending s)
    | fabricUngate =>
      exact keepsQueue_changeDue (fun c => stepDone_pending
        ((pending_of_stamp (testsUngated_stamp (a2Act s))).trans (a2Act_pending s)) c _)
    | listenRetainSwitch => exact keepsQueue_changeDue (fun c => stepDone_pending (swapAct_pending s c) c _)
    | wakeSource c => exact execWakeSource_pending c s
    | _ => cases h

/-- Settles O3: no arm of `exec` is a fault or a refusal, and only a step takes a command off the queue. -/
theorem everyCommandAnswersAndKeepsTheQueue : Obligations.EveryCommandAnswersAndKeepsTheQueue :=
  fun c s => exec_pending c s

end Sys2Proof.Machine

namespace Sys2Proof.Machine

open Sys2Proof

/-! ## Operations that see neither the ports nor the count of commands -/

/-- A state with other ports and another count of commands. -/
def withPorts (s : State) (k : Nat) (a b c : Port) : State := { s with seq := k, spi := a, addrA := b, addrB := c }

/-- An operation that neither reads nor writes the ports and the count of commands, and takes no time. -/
structure PortBlind (f : State → State) : Prop where
  apart : ∀ s k a b c, f (withPorts s k a b c) = withPorts (f s) k a b c
  bsn   : ∀ s, (f s).bsn = s.bsn
  cycle : ∀ s, (f s).cycle = s.cycle

theorem portBlind_raise (n p : Nat) : PortBlind (fun s => raise s n p) :=
  ⟨fun s k a b c => raise_setPorts s n p k a b c, fun s => raise_bsn s n p, fun s => raise_cycle s n p⟩

theorem portBlind_comp {f g : State → State} (hg : PortBlind g) (hf : PortBlind f) : PortBlind (fun s => g (f s)) where
  apart s k a b c := (congrArg g (hf.apart s k a b c)).trans (hg.apart (f s) k a b c)
  bsn s := (hg.bsn (f s)).trans (hf.bsn s)
  cycle s := (hg.cycle (f s)).trans (hf.cycle s)

theorem portBlind_ite {p : State → Prop} [∀ s, Decidable (p s)] {f g : State → State}
    (hp : ∀ s k a b c, p (withPorts s k a b c) = p s) (hf : PortBlind f) (hg : PortBlind g) :
    PortBlind (fun s => if p s then f s else g s) where
  apart s k a b c := by
    rw [apply_ite (fun t => withPorts t k a b c)]
    exact ite_congr (hp s k a b c) (fun _ => hf.apart s k a b c) (fun _ => hg.apart s k a b c)
  bsn s := iteInduction (motive := fun t : State => t.bsn = s.bsn) (fun _ => hf.bsn s) (fun _ => hg.bsn s)
  cycle s := iteInduction (motive := fun t : State => t.cycle = s.cycle) (fun _ => hf.cycle s) (fun _ => hg.cycle s)

theorem portBlind_id : PortBlind (fun s => s) := ⟨fun _ _ _ _ _ => rfl, fun _ => rfl, fun _ => rfl⟩

theorem portBlind_foldl {α : Type} {f : State → α → State} (hf : ∀ x, PortBlind (fun s => f s x)) (l : List α) :
    PortBlind (fun s => l.foldl f s) := by
  induction l with
  | nil => exact portBlind_id
  | cons x l ih => exact portBlind_comp ih (hf x)

section
variable {f : State → State} (hf : PortBlind f)
include hf

theorem PortBlind.ports (s : State) : f s = withPorts (f s) s.seq s.spi s.addrA s.addrB :=
  hf.apart s s.seq s.spi s.addrA s.addrB

/-- The operation acts beside the place of a command as without it. -/
theorem PortBlind.takePlace (s : State) (p : PortId) (op tag : Byte) :
    f (takePlace s p op tag) = Machine.takePlace (f s) p op tag := by
  have h := hf.ports s
  have hb := hf.bsn s
  have hc := hf.cycle s
  cases p
  all_goals
    refine (hf.apart s _ _ _ _).trans ?_
    rw [h]
    unfold Machine.takePlace
    simp only [modPort, setPort, withPorts, getPort, hb, hc]

theorem PortBlind.tagHeld (s : State) (p : PortId) (tag : Byte) : tagHeld (f s) p tag = Machine.tagHeld s p tag := by
  rw [hf.ports s]
  cases p <;> rfl

end

/-- The row of an opcode that is complete at once, where what it does sees no port. -/
theorem exec_does {i : Instr} {op : Nat} {lenOk : List Byte → Bool} {body : State → Request → Verdict} {q : Request}
    {s : State} {f : State → State} {bytes : List Byte} (hx : exec i s = .next (runOp op lenOk body q s))
    (h : heard s q op = true) (hl : lenOk q.payload = true)
    (hn : ¬(BitVec.ofNat 8 op = 0xB0#8 ∨ BitVec.ofNat 8 op = 0xB1#8)) (hf : PortBlind f)
    (hb : body (takePlace s q.port (BitVec.ofNat 8 op) q.tag) q =
      .done (f (takePlace s q.port (BitVec.ofNat 8 op) q.tag)) bytes) : exec i s = .next (answered (f s) q op .ok bytes) :=
  exec_acts hx h hl hn (by rw [hb, hf.takePlace]) (hf.tagHeld _ _ _)

/-- The row of an opcode that waits, where what it does sees no port. -/
theorem exec_begins {i : Instr} {op : Nat} {lenOk : List Byte → Bool} {body : State → Request → Verdict} {q : Request}
    {s : State} {f : State → State} {j : Job} {early : Option (List Byte)}
    (hx : exec i s = .next (runOp op lenOk body q s))
    (h : heard s q op = true) (hl : lenOk q.payload = true)
    (hn : ¬(BitVec.ofNat 8 op = 0xB0#8 ∨ BitVec.ofNat 8 op = 0xB1#8)) (hf : PortBlind f)
    (hb : body (takePlace s q.port (BitVec.ofNat 8 op) q.tag) q =
      .pend (f (takePlace s q.port (BitVec.ofNat 8 op) q.tag)) j early) :
    exec i s = .next (waitsWith (f s) q op j early) :=
  exec_waits hx h hl hn (by rw [hb, hf.takePlace]) (hf.tagHeld _ _ _)

/-! ## Loading a graph (R69 to R76) -/

@[simp] theorem takePlace_fits (s : State) (p : PortId) (op tag : Byte) (i n : Nat) :
    fits (takePlace s p op tag) i n = fits s i n :=
  takePlace_tells (f := fun t => fits t i n) (fun _ _ _ _ _ => rfl) s p op tag

/-- The place that a command has just taken names no slot (R69, R73). -/
theorem takePlace_bulkOn (s : State) (p : PortId) (op tag : Byte) {i : Nat} (hi : i ≤ 1) :
    bulkOn (takePlace s p op tag) i = bulkOn s i := by
  have h : (0xFF == i) = false := by simp; omega
  cases p <;> simp [bulkOn, allPorts, takePlace, modPort, setPort, getPort, h]

/-- Settles O20: past its checks each opcode writes its slot, or the meter, and nothing else. -/
theorem graphLoadingCommandsAct : Obligations.GraphLoadingCommandsAct := by
  intro s q
  refine ⟨fun h hl hi h64 hmax h32 ha hr hc hb hf => ?_, fun h h9 hmax hi h4 hp hc hlen => ?_, fun h hl hi hp hc => ?_,
    fun h hl hi hp hc hb => ?_, fun h hl hi hp => ?_, fun h hl hi hp => ?_, fun h hl h1 hmax => ?_⟩
  · refine exec_does (f := fun t => { slotGone (setSlot t (pay8 q 0) { phase := .loading, imageLen := pay32 q 4 }) (pay8 q 0) with
      sramClean := false }) rfl h (lenIs_of hl) (by decide) ⟨fun _ _ _ _ _ => rfl, fun _ => rfl, fun _ => rfl⟩ ?_
    simp [Nat.not_lt.mpr hi, within, h64, hmax, h32, ha, hr, hc, takePlace_bulkOn _ _ _ _ hi, hb, hf]
  · refine exec_does (f := fun t => setSlot t (pay8 q 0) { slotAt t (pay8 q 0) with
      image := imageWrite (slotAt t (pay8 q 0)).image (pay32 q 4) (q.payload.drop 8) }) rfl h (by simp [within, h9, hmax])
      (by decide) ⟨fun _ _ _ _ _ => rfl, fun _ => rfl, fun _ => rfl⟩ ?_
    simp [Nat.not_lt.mpr hi, h4, hp, hc, Nat.not_lt.mpr hlen]
  · refine exec_begins (f := fun t => setSlot t (pay8 q 0) { slotAt t (pay8 q 0) with checking := true }) rfl h (lenIs_of hl)
      (by decide) ⟨fun _ _ _ _ _ => rfl, fun _ => rfl, fun _ => rfl⟩ ?_
    simp [Nat.not_lt.mpr hi, hp, hc]
  · refine exec_does (f := fun t => slotGone (setSlot t (pay8 q 0) {}) (pay8 q 0)) rfl h (lenIs_of hl)
      (by decide) ⟨fun _ _ _ _ _ => rfl, fun _ => rfl, fun _ => rfl⟩ ?_
    rcases hp with hp | hp <;> simp [Nat.not_lt.mpr hi, hp, hc, takePlace_bulkOn _ _ _ _ hi, hb]
  · refine exec_reads rfl h (lenIs_of hl) (by decide) ?_
    simp [Nat.not_lt.mpr hi, hp]
  · refine exec_refuses rfl h (lenIs_of hl) ?_
    rcases hp with hp | hp <;> simp [Nat.not_lt.mpr hi, hp]
  · refine exec_does (f := fun t => { t with graph := { t.graph with meter := { t.graph.meter with
        threshold := pay16 q 0, peak := if bit (pay8 q 2) 0 then 0 else t.graph.meter.peak } } }) rfl h (lenIs_of hl)
      (by decide) ⟨fun _ _ _ _ _ => rfl, fun _ => rfl, fun _ => rfl⟩ ?_
    simp [within, h1, hmax]

/-! ## What leaves the graph as it is -/

@[simp] theorem addCount_graph (s : State) (r : Reg) (hi lo k : Nat) : (addCount s r hi lo k).graph = s.graph := by
  simp [addCount, rcUpdate, rcNote]

@[simp] theorem raisePeak_graph (s : State) (r : Reg) (v : Nat) : (raisePeak s r v).graph = s.graph := by
  simp [raisePeak, rcUpdate, rcNote]

@[simp] theorem countPlaced_graph (s : State) (p : Nat) (spilled : Bool) : (countPlaced s p spilled).graph = s.graph := by
  cases spilled <;> simp [countPlaced]

@[simp] theorem makeReady_graph (m : Memory) (c : Nat) (s : State) (t : Task) : (makeReady m c s t).graph = s.graph := by
  unfold makeReady
  dsimp only
  (repeat' split) <;> simp

/-- The start of a compute leaves slots and activation as they are. -/
theorem computeStart_slots (s : State) (k : Bsn) :
    (computeStart s k).graph.slots = s.graph.slots ∧ (computeStart s k).graph.act = s.graph.act :=
  List.foldlRecOn (motive := fun t : State => t.graph.slots = s.graph.slots ∧ t.graph.act = s.graph.act) _ _ ⟨rfl, rfl⟩
    (fun t ht x _ => by rw [makeReady_graph]; exact ht)

@[simp] theorem completeJobs_graph (s : State) (f : Job → Bool) (reply : Job → Status × List Byte) :
    (completeJobs s f reply).graph = s.graph :=
  List.foldlRecOn (motive := fun t : State => t.graph = s.graph) _ _ rfl (fun t ht x _ => by rw [finalReply_graph, ht])

/-! ## Activation (R58 to R61, R72) -/

/-- The block that R14 gives a request. -/
theorem bsnGranted (fl : Bool) (r e : Bsn) :
    (if (fl && bsnResolve r e == .asked) = true then r else e) = if fl = true ∧ bsnResolve r e = .asked then r else e := by
  simp

/-- A request that R14 does not refuse passes the check. -/
theorem bsnRequest_passes {fl strict : Bool} {r e : Bsn}
    (h : fl = true → bsnResolve r e ≠ .tooFar ∧ (strict = true → bsnResolve r e ≠ .early)) :
    (fl && (bsnResolve r e == .tooFar || (bsnResolve r e == .early && strict))) = false := by
  cases fl with
  | false => rfl
  | true =>
    obtain ⟨hfar, hearly⟩ := h rfl
    cases strict <;> simp_all

/-- The length that mode 1 asks for is in range. -/
theorem modeOne_passes {m f : Nat} (h : m = 1 → 1 ≤ f ∧ f ≤ 50) : (m == 1 && !within f 1 50) = false := by
  by_cases h1 : m = 1
  · simp [within, h1, h h1]
  · simp [h1]

/-- At the boundary that begins block n + 1 the switch acts: the armed slot is ACTIVE and the old one READY (R58). -/
theorem execGraphSwitch_acts {s : State} {a : Activation} (ha : s.graph.act = some a)
    (hc : s.cycle = 0) (hb : s.bsn = a.n + 1#40) :
    ∃ t, execGraphSwitch s = .next t ∧ t.graph.act = none ∧ t.graph.slots = (switchSlots s.graph a).slots := by
  have hr : bsnReached s.bsn (a.n + 1#40) = true := by simp [bsnReached, hb]
  have hg : (switchGraph s a).graph.act = none ∧ (switchGraph s a).graph.slots = (switchSlots s.graph a).slots := ⟨rfl, rfl⟩
  simp only [execGraphSwitch, ha, hc, hr, ne_eq, not_true_eq_false, Bool.true_eq_false, or_self, if_false]
  split
  · refine ⟨_, rfl, ?_⟩
    obtain ⟨hs, hact⟩ := computeStart_slots
      { completeJobs (switchGraph s a) isActivate (fun _ => (.ok, bsn8 a.n)) with
        drover := tasksGone (completeJobs (switchGraph s a) isActivate (fun _ => (.ok, bsn8 a.n))).drover }
      ((completeJobs (switchGraph s a) isActivate (fun _ => (.ok, bsn8 a.n))).bsn - 1#40)
    rw [hs, hact]
    simp [hg]
  · exact ⟨_, rfl, by simp [hg]⟩

/-- Slot `i` is armed for switch block `n` (R72). -/
def armSlot (i : Nat) (n : Bsn) (noGuar fade : Bool) (f : Nat) (s : State) : State :=
  let t := setSlot s i { slotAt s i with phase := .armed, n := n, noGuar := noGuar }
  { t with graph := { t.graph with act := some { slot := some i, fade := fade, f := f, n := n, falls := graphActive s } } }

theorem portBlind_armSlot (i : Nat) (n : Bsn) (noGuar fade : Bool) (f : Nat) : PortBlind (armSlot i n noGuar fade f) :=
  ⟨fun _ _ _ _ _ => rfl, fun _ => rfl, fun _ => rfl⟩

/-- The slots of a pair after a switch to slot `i`. -/
theorem switchSlots_pair {g : Graph} {a : Activation} {i : Nat} (hi : i ≤ 1) (hl : g.slots.length = 2)
    (ha : a.slot = some i) :
    ((switchSlots g a).slots.getD i {}).phase = .active ∧ ((switchSlots g a).slots.getD i {}).n = a.n ∧
      ((switchSlots g a).slots.getD i {}).sat = 0 ∧
      ((g.slots.getD (1 - i) {}).phase = .active → ((switchSlots g a).slots.getD (1 - i) {}).phase = .ready) ∧
      ((switchSlots g a).slots.getD i {}).image = (g.slots.getD i {}).image := by
  obtain ⟨x, y, hxy⟩ := List.length_eq_two.mp hl
  simp only [switchSlots, ha, hxy, List.map_cons, List.map_nil, modAt]
  have hi : i = 0 ∨ i = 1 := by omega
  rcases hi with rfl | rfl
  · refine ⟨rfl, rfl, rfl, fun hp => ?_, ?_⟩
    · have hp : y.phase = .active := hp
      simp [hp]
    · by_cases hx : x.phase = .active <;> simp [hx]
  · refine ⟨rfl, rfl, rfl, fun hp => ?_, ?_⟩
    · have hp : x.phase = .active := hp
      simp [hp]
    · by_cases hy : y.phase = .active <;> simp [hy]

/-- Settles O21: an activation arms its slot and waits, and the boundary of its block makes the switch. -/
theorem graphActivationActs : Obligations.GraphActivationActs := by
  intro s q
  refine ⟨fun n h hl hm hf ha hreq hn => ⟨fun hi hr hg => ?_, fun hi hact => ?_⟩, fun fade f => rfl,
    fun i n fade f falls hi hlen hc hb ha => ?_⟩
  · refine exec_begins (f := armSlot (pay8 q 0) n (bit (pay8 q 2) 2) (pay8 q 1 == 1) (pay16 q 4)) rfl h (lenIs_of hl)
      (by decide) (portBlind_armSlot _ _ _ _ _) ?_
    have hs : (pay8 q 0 == 0 || pay8 q 0 == 1) = true := by simp; omega
    have hx : pay8 q 0 ≠ 0xFF := by omega
    have hmode : ¬ 1 < pay8 q 1 := by omega
    have hfade := modeOne_passes hf
    dsimp only
    rw [if_neg, if_neg]
    · simp only [takePlace_earliestSwitch, takePlace_slotAt, takePlace_graphActive, hx, if_false, bsnGranted, ← hn]
      simp [armSlot]
    · simp [hx, hr, ha]
    · rcases hg with hg | hg <;> simp only [hs, hmode, hfade, hg, takePlace_earliestSwitch, takePlace_slotAt,
        takePlace_guaranteed, bsnRequest_passes hreq] <;> simp
  · refine exec_begins (f := fun t => { t with graph := { t.graph with
        act := some { slot := none, fade := pay8 q 1 == 1, f := pay16 q 4, n := n, falls := true } } }) rfl h (lenIs_of hl)
      (by decide) ⟨fun _ _ _ _ _ => rfl, fun _ => rfl, fun _ => rfl⟩ ?_
    have hmode : ¬ 1 < pay8 q 1 := by omega
    have hfade := modeOne_passes hf
    dsimp only
    rw [if_neg, if_neg]
    · simp only [takePlace_earliestSwitch, takePlace_graphActive, hi, hact, if_true, bsnGranted, ← hn]
    · simp [hi, hact, ha]
    · simp only [hi, hmode, hfade, takePlace_earliestSwitch, bsnRequest_passes hreq]
      simp
  · obtain ⟨t, ht, hact, hs⟩ := execGraphSwitch_acts ha hc hb
    refine ⟨t, ht, hact, ?_⟩
    rw [hs]
    exact switchSlots_pair hi hlen rfl

end Sys2Proof.Machine

namespace Sys2Proof.Machine

open Sys2Proof

/-! ## Hampers (R206, R222 to R225) -/

@[simp] theorem takePlace_slotLive (s : State) (p : PortId) (op tag : Byte) (i : Nat) :
    slotLive (takePlace s p op tag) i = slotLive s i :=
  takePlace_tells (f := fun t => slotLive t i) (fun _ _ _ _ _ => rfl) s p op tag

@[simp] theorem takePlace_classOf (s : State) (p : PortId) (op tag : Byte) (q : Request) :
    classOf (takePlace s p op tag) q = (getPort s q.port).cls := takePlace_cls s p q.port op tag

@[simp] theorem takePlace_entryFails (s : State) (p : PortId) (op tag : Byte) (stage : Bool) (cls slot : Nat)
    (es : List Entry) (x : Entry) :
    entryFails (takePlace s p op tag) (takePlace s p op tag) stage cls slot es x = entryFails s s stage cls slot es x :=
  takePlace_tells (f := fun t => entryFails t t stage cls slot es x) (fun _ _ _ _ _ => rfl) s p op tag

/-- No entry of a list is refused for a reason that none of them meets. -/
theorem any_fails_none {α : Type} {l : List α} {g : α → EntryFails} (h : ∀ x ∈ l, g x = ⟨false, false, false⟩)
    (r : EntryFails → Bool) (hr : r ⟨false, false, false⟩ = false) : (l.map g).any r = false := by
  simp only [List.any_map, List.any_eq_false, Function.comp_apply, Bool.not_eq_true]
  intro x hx
  rw [h x hx, hr]

/-- Settles O22: past its checks each opcode writes one Hamper and nothing else. -/
theorem hamperCommandsAct : Obligations.HamperCommandsAct := by
  intro s q
  refine ⟨fun k h hl hff hk => ?_, fun k h hl hi hlive hk => ?_, fun h hl hff hnone => ?_,
    fun h hl h7 h1 h511 hp hu hok hlen => ?_, fun h hl h7 hu hp => ?_⟩
  · refine exec_does (f := fun t => modHamper t k (fun _ =>
      { phase := .opened, slot := 0xFF, port := portNum q.port, graphId := 0#32, entries := [] })) rfl h (lenIs_of hl)
      (by decide) ⟨fun _ _ _ _ _ => rfl, fun _ => rfl, fun _ => rfl⟩ ?_
    simp [hff, hk]
  · refine exec_does (f := fun t => modHamper t k (fun _ => {
        phase := .opened, slot := pay8 q 0, port := portNum q.port, graphId := (slotAt s (pay8 q 0)).graphId, entries := [] }))
      rfl h (lenIs_of hl) (by decide) ⟨fun _ _ _ _ _ => rfl, fun _ => rfl, fun _ => rfl⟩ ?_
    have hs : (pay8 q 0 == 0 || pay8 q 0 == 1 || pay8 q 0 == 0xFF) = true := by simp; omega
    have hx : pay8 q 0 ≠ 0xFF := by omega
    simp [hs, hx, hlive, hk]
  · refine exec_refuses rfl h (lenIs_of hl) ?_
    have hn : s.params.hampers.findIdx? (fun x => x.phase == .empty) = none := by
      simpa [List.findIdx?_eq_none_iff] using hnone
    simp [hff, hn]
  · refine exec_does (f := fun t => modHamper t (pay8 q 0) (fun x => { x with
        entries := (entryWords (payEntries q (pay16 q 2))).foldl stageOne (hamperAt s (pay8 q 0)).entries })) rfl h hl
      (by decide) ⟨fun _ _ _ _ _ => rfl, fun _ => rfl, fun _ => rfl⟩ ?_
    have hnot := any_fails_none hok
    simp [within, h7, h1, h511, hp, hu, hnot, Nat.not_lt.mpr hlen]
  · refine exec_does (f := fun t => modHamper t (pay8 q 0) (fun _ => {})) rfl h (lenIs_of hl) (by decide)
      ⟨fun _ _ _ _ _ => rfl, fun _ => rfl, fun _ => rfl⟩ ?_
    rcases hp with hp | hp <;> simp [within, h7, hu, hp]

end Sys2Proof.Machine

namespace Sys2Proof.Machine

open Sys2Proof

/-! ## Parameters (R14, R204, R209, R220, R221) -/

theorem portBlind_wr (r : Reg) (v : Nat) : PortBlind (fun s => wr s r v) := by
  refine ⟨fun s k a b c => ?_, fun s => wr_bsn s r v, fun s => wr_cycle s r v⟩
  rfl

theorem portBlind_rawRegs (es : List Entry) : PortBlind (fun s => rawRegs s es) := by
  refine portBlind_foldl (fun x => ?_) es
  cases hx : paddrReg x.1 with
  | none => exact portBlind_id
  | some r => exact portBlind_ite (fun _ _ _ _ _ => rfl) (portBlind_wr r _) portBlind_id

theorem portBlind_addCount (r : Reg) (hi lo k : Nat) : PortBlind (fun s => addCount s r hi lo k) :=
  ⟨fun _ _ _ _ _ => rfl, fun s => bsn_of_stamp (addCount_stamp s r hi lo k),
    fun s => congrArg Stamp.cycle (addCount_stamp s r hi lo k)⟩

theorem portBlind_modClock (f : Clock → Clock) : PortBlind (fun s => modClock s f) :=
  ⟨fun _ _ _ _ _ => rfl, fun _ => rfl, fun _ => rfl⟩

theorem cycle_of_stamp {s t : State} (h : t.stamp = s.stamp) : t.cycle = s.cycle := congrArg Stamp.cycle h

theorem portBlind_setRoot (r : RootState) : PortBlind (fun s => setRoot s r) where
  apart s k a b c := by
    unfold setRoot
    dsimp only
    rw [apply_ite (fun t => withPorts t k a b c)]
    exact ite_congr rfl (fun _ => rfl) (fun _ => raise_setPorts
      (modClock s (fun c => { c with state := r, changed := s.bsn })) 96 (rootCode r + rootCode s.clock.state * 16) k a b c)
  bsn s := bsn_of_stamp (setRoot_stamp s r)
  cycle s := cycle_of_stamp (setRoot_stamp s r)

theorem portBlind_restartRoot : PortBlind restartRoot where
  apart s k a b c := by
    unfold restartRoot
    dsimp only
    rw [apply_ite (fun t => withPorts t k a b c)]
    refine ite_congr rfl (fun _ => rfl) (fun _ => ?_)
    rw [← (portBlind_setRoot .restart).apart]
    rfl
  bsn s := bsn_of_stamp (restartRoot_stamp s)
  cycle s := cycle_of_stamp (restartRoot_stamp s)

theorem portBlind_applyImmediate (es : List Entry) : PortBlind (fun s => applyImmediate s es) :=
  portBlind_ite (fun _ _ _ _ _ => rfl) (portBlind_comp portBlind_restartRoot (portBlind_rawRegs es)) (portBlind_rawRegs es)

theorem portBlind_schedule (c : Commit) : PortBlind (fun s => schedule s c) :=
  ⟨fun _ _ _ _ _ => rfl, fun _ => rfl, fun _ => rfl⟩

@[simp] theorem takePlace_rawRegs (s : State) (p : PortId) (op tag : Byte) (es : List Entry) :
    rawRegs (takePlace s p op tag) es = takePlace (rawRegs s es) p op tag :=
  (portBlind_rawRegs es).takePlace s p op tag

@[simp] theorem takePlace_mapClash (s : State) (p : PortId) (op tag : Byte) (es : List Entry) (x : Entry) :
    mapClash (takePlace s p op tag) es x = mapClash s es x := by
  unfold mapClash
  split <;> simp

/-- The checks of an entry do not see the place of their command. -/
@[simp] theorem takePlace_entryFails_raw (s : State) (p : PortId) (op tag : Byte) (now : List Entry) (stage : Bool)
    (cls slot : Nat) (es : List Entry) (x : Entry) :
    entryFails (takePlace s p op tag) (takePlace (rawRegs s now) p op tag) stage cls slot es x =
      entryFails s (rawRegs s now) stage cls slot es x := by
  obtain ⟨a, b, c, e⟩ := takePlace_frame s p op tag
  obtain ⟨a', b', c', e'⟩ := takePlace_frame (rawRegs s now) p op tag
  rw [e, e']
  rfl

theorem doParamWrite_stores {s : State} {q : Request} {es : List Entry} (h : heard s q 0x10 = true)
    (hl : countLen 8 q.payload = true) (h1 : 1 ≤ pay16 q 2) (h64 : pay16 q 2 ≤ 64) (hes : es = payEntries q (pay16 q 2))
    (hok : ∀ x ∈ es, mapClash s es x = false ∧ entryFails s (rawRegs s (es.filter isImmediate)) false
      (getPort s q.port).cls (pay8 q 0) es x = ⟨false, false, false⟩) :
    (es.filter (fun x => !isImmediate x) = [] → exec (.paramWrite q) s =
      .next (answered (applyImmediate s (es.filter isImmediate)) q 0x10 .ok (bsn8 0 ++ u16 0xFFFF))) ∧
    (es.filter (fun x => !isImmediate x) ≠ [] → exec (.paramWrite q) s =
      .next (waitsWith (schedule (applyImmediate s (es.filter isImmediate)) {
        id := s.params.nextId, hamper := none,
        slot := if (es.filter (fun x => !isImmediate x)).any (fun x => paSpace x.1 == 1) then pay8 q 0 else 0xFF,
        entries := entryWords (es.filter (fun x => !isImmediate x)), interp := none, boundary := earliestCommit s,
        strict := false, deferred := false, stale := false }) q 0x10 (.commit s.params.nextId) none)) := by
  subst hes
  have hnot := any_fails_none (l := payEntries q (pay16 q 2)) (g := fun x =>
    { entryFails s (rawRegs s ((payEntries q (pay16 q 2)).filter isImmediate)) false (getPort s q.port).cls (pay8 q 0)
        (payEntries q (pay16 q 2)) x with
      range := (entryFails s (rawRegs s ((payEntries q (pay16 q 2)).filter isImmediate)) false (getPort s q.port).cls
        (pay8 q 0) (payEntries q (pay16 q 2)) x).range || mapClash s (payEntries q (pay16 q 2)) x })
    (fun x hx => by
      obtain ⟨hc, hf⟩ := hok x hx
      simp only [hc, hf, Bool.or_self])
  have hw : within (pay16 q 2) 1 64 = true := by simp [within, h1, h64]
  refine ⟨fun hlater => ?_, fun hlater => ?_⟩
  · refine exec_does (f := fun s => applyImmediate s ((payEntries q (pay16 q 2)).filter isImmediate)) rfl h hl (by decide)
      (portBlind_applyImmediate _) ?_
    simp [hw, hnot, failStatus, hlater]
  · refine exec_begins (f := fun t => schedule (applyImmediate t ((payEntries q (pay16 q 2)).filter isImmediate)) _)
      rfl h hl (by decide) (portBlind_comp (portBlind_schedule _) (portBlind_applyImmediate _)) ?_
    have hne : ((payEntries q (pay16 q 2)).filter (fun x => !isImmediate x)).isEmpty = false := by
      simpa using hlater
    simp [hw, hnot, failStatus, hne]

@[simp] theorem takePlace_spiReady (s : State) (p : PortId) (op tag : Byte) :
    spiReady (takePlace s p op tag) = spiReady s := by
  cases p <;> rfl

/-- A read of a register does not see the place of its command. -/
@[simp] theorem takePlace_readWord (s : State) (p : PortId) (op tag : Byte) (r : Reg) :
    readWord (takePlace s p op tag) r = readWord s r := by
  have hspi : spiStatusWord (takePlace s p op tag) = spiStatusWord s := by simp [spiStatusWord]
  obtain ⟨a, b, c, e⟩ := takePlace_frame s p op tag
  rw [e] at hspi ⊢
  unfold readWord
  split
  case h_8 => exact hspi
  all_goals rfl

@[simp] theorem takePlace_readAt (s : State) (p : PortId) (op tag : Byte) (slot a : Nat) :
    readAt (takePlace s p op tag) slot a = readAt s slot a := by
  unfold readAt
  split
  · simp
  · split <;> simp

theorem portBlind_rcClear (r : Reg) : PortBlind (fun s => rcClear s r) :=
  ⟨fun _ _ _ _ _ => rfl, fun s => bsn_of_stamp (rcClear_stamp s r), fun s => cycle_of_stamp (rcClear_stamp s r)⟩

theorem portBlind_readClear (a : Nat) : PortBlind (fun s => readClear s a) := by
  unfold readClear
  refine portBlind_ite (fun _ _ _ _ _ => rfl) portBlind_id ?_
  split
  · exact portBlind_ite (fun _ _ _ _ _ => rfl) (portBlind_rcClear _) portBlind_id
  · exact portBlind_ite (fun _ _ _ _ _ => rfl) (portBlind_rcClear _) portBlind_id
  · exact portBlind_id

@[simp] theorem takePlace_readFails (s : State) (p : PortId) (op tag : Byte) :
    readFails (takePlace s p op tag) = readFails s :=
  takePlace_tells (f := readFails) (fun _ _ _ _ _ => rfl) s p op tag

/-- Settles O23: what the checks pass is scheduled, stored or read. -/
theorem parameterCommandsAct : Obligations.ParameterCommandsAct := by
  intro s q
  refine ⟨fun c h hl hk hms hb hc ho hu hops => ?_, rfl, fun es now later h hl h1 h64 hes hnow hlater hok => ?_,
    fun h hl h1 h64 hok => ?_⟩
  · subst hc
    refine exec_begins (f := fun t => modHamper (schedule t _) (pay8 q 0) (fun x => { x with phase := .committing })) rfl h
      (lenIs_of hl) (by decide) ⟨fun _ _ _ _ _ => rfl, fun _ => rfl, fun _ => rfl⟩ ?_
    have hr : within (pay8 q 0) 0 7 = true := by simp [within, hk]
    have hp := bsnRequest_passes hb
    have hw : (bit (pay8 q 1) 2 && !within (pay16 q 2) 1 50) = false := by
      cases hb2 : bit (pay8 q 1) 2 <;> simp [within, hms, hb2]
    simp [hr, hw, hp, ho, hu, hops]
  · subst hnow hlater
    exact doParamWrite_stores h hl h1 h64 hes hok
  · refine exec_does (f := fun t => ((List.range (pay16 q 2)).map (fun i => pay32 q (4 + 4 * i))).foldl readClear t) rfl h hl
      (by decide) (portBlind_foldl portBlind_readClear _) ?_
    have hw : within (pay16 q 2) 1 64 = true := by simp [within, h1, h64]
    dsimp only
    generalize (List.range (pay16 q 2)).map (fun i => pay32 q (4 + 4 * i)) = as at hok ⊢
    have hnot := any_fails_none hok
    simp [hw, hnot, failStatus, -List.any_map]

end Sys2Proof.Machine

namespace Sys2Proof.Machine

open Sys2Proof

/-! ## ABORT of a change in SHIP (R405, R484, R496) -/

/-- A change that waits without steps: POWER_MODE_SET asked for it, and none of its steps has begun. -/
def waitingChange : Change :=
  { steps := [], target := .idle, start := .ship, reason := 1, source := 0, keepSram := false, notBefore := 0, begun := false,
    cmd := some 0, replied := none, asked := (0, 0) }

/-- The command that asked for it, which holds tag 5 of the SPI. -/
def changeCommand : Outstanding :=
  { tag := 5, op := 0x41, seq := 0, job := .powerMode, bsn := 0, cycle := 0, final := false, slot := 0xFF }

/-- A device in SHIP whose ports run, with that change and a held wake of source 1: a state of the model that no run reaches. -/
def shipListening : State :=
  { State.reset with
    seq := 1, bus := { State.reset.bus with ctrlClk := true },
    power := { State.reset.power with
      boot := .complete, accepting := true, change := some waitingChange, heldWake := some 1,
      wake := { State.reset.power.wake with ship := 1 } },
    spi := { State.reset.spi with outstanding := [changeCommand] } }

/-- ABORT of tag 5 on its own port. -/
def abortOfChange : Request := { port := .spi, flags := 0, tag := 1, payload := [5, 0xFF, 0, 0] }

/-- Refutes O24: the statement speaks of every state, and in SHIP with a wake held the end of an aborted change resets the
device (reset 6), which takes the place of the ABORT too; the statement leaves that place held. -/
theorem not_sessionCommandsAct : ¬ Obligations.SessionCommandsAct := by
  intro h
  obtain ⟨habort, -⟩ := h shipListening abortOfChange
  have hx := habort .spi changeCommand (by decide +kernel) (by decide +kernel) (by decide +kernel) (by decide +kernel)
    (by decide +kernel) (by decide +kernel) (by decide +kernel)
  have hstate := Host.Outcome.next.inj hx
  have hseq : (doAbort abortOfChange shipListening).seq =
      (answered (abortCommand shipListening .spi changeCommand) abortOfChange 0x03 .ok []).seq := congrArg State.seq hstate
  exact absurd hseq (by decide +kernel)

end Sys2Proof.Machine

namespace Sys2Proof.Machine

open Sys2Proof

/-! ## Operations that reply to other commands beside the place of a new one -/

theorem mem_insertSeq {x y : PortId × Outstanding} {l : List (PortId × Outstanding)} :
    x ∈ insertSeq y l ↔ x = y ∨ x ∈ l := by
  induction l with
  | nil => simp [insertSeq]
  | cons z l ih =>
    unfold insertSeq
    split
    · simp
    · simp only [List.mem_cons, ih]
      exact or_left_comm

theorem mem_foldr_insertSeq {x : PortId × Outstanding} {l : List (PortId × Outstanding)} :
    x ∈ l.foldr insertSeq [] ↔ x ∈ l := by
  induction l with
  | nil => simp
  | cons y l ih => simp [mem_insertSeq, ih]

/-- What findJobs finds: the outstanding commands of a job without a final reply. -/
theorem mem_findJobs {s : State} {f : Job → Bool} {p : PortId} {o : Outstanding} :
    (p, o) ∈ findJobs s f ↔ o ∈ (getPort s p).outstanding ∧ o.final = false ∧ f o.job = true := by
  unfold findJobs
  rw [mem_foldr_insertSeq]
  cases p <;> simp [allPorts]

/-- The place that takePlace adds (R397). -/
def newPlace (s : State) (op tag : Byte) : Outstanding :=
  { tag, op, seq := s.seq, job := .none, bsn := s.bsn, cycle := s.cycle, final := false, slot := 0xFF }

theorem outstanding_takePlace (s : State) (p r : PortId) (op tag : Byte) :
    (getPort (takePlace s p op tag) r).outstanding = (getPort s r).outstanding ++
      if r = p then [newPlace s op tag] else [] := by
  cases p <;> cases r <;> simp [takePlace, modPort, setPort, getPort, newPlace]

/-- A new place has no job, so no search by job finds it. -/
theorem takePlace_findJobs {f : Job → Bool} (hf : f .none = false) (s : State) (p : PortId) (op tag : Byte) :
    findJobs (takePlace s p op tag) f = findJobs s f := by
  have hl : ∀ r, (getPort (takePlace s p op tag) r).outstanding.filter (fun o => !o.final && f o.job) =
      (getPort s r).outstanding.filter (fun o => !o.final && f o.job) := by
    intro r
    rw [outstanding_takePlace]
    split <;> simp [newPlace, hf]
  simp only [findJobs, hl]

/-- A tag that no place of a port holds is not the tag of one of its commands. -/
theorem tag_ne_of_mem {s : State} {p : PortId} {tag : Byte} {o : Outstanding} (h : tagHeld s p tag = false)
    (ho : o ∈ (getPort s p).outstanding) : o.tag ≠ tag := by
  intro he
  have : tagHeld s p tag = true := List.any_eq_true.mpr ⟨o, ho, by simp [he]⟩
  simp [this] at h

theorem find_tag_append {l : List Outstanding} {o : Outstanding} {tag : Byte} (h : o.tag ≠ tag) :
    (l ++ [o]).find? (fun x => x.tag == tag) = l.find? (fun x => x.tag == tag) := by
  simp [List.find?_append, h]

/-- The final reply to a command goes out beside the place of another. -/
theorem takePlace_finalReply (s : State) {p r : PortId} {op tag : Byte} {t : Byte} (h : r = p → t ≠ tag) (o : Byte)
    (st : Status) (payload : List Byte) :
    finalReply (takePlace s p op tag) r t o st payload = takePlace (finalReply s r t o st payload) p op tag := by
  cases p <;> cases r
  all_goals
    simp only [finalReply, takePlace, modPort, setPort, getPort, markFinal, lastReply, seqOf, reduceCtorEq, false_implies,
      true_implies] at *
  all_goals
    rw [find_tag_append (Ne.symm h)]
    simp [Ne.symm h]

theorem finalReply_tagHeld (s : State) (p r : PortId) (tag t o : Byte) (st : Status) (payload : List Byte) :
    tagHeld (finalReply s r t o st payload) p tag = tagHeld s p tag := by
  have hm : ∀ l : List Outstanding, (l.map (fun o => if o.tag = t then { o with job := .none, final := true } else o)).any
      (fun o => o.tag == tag) = l.any (fun o => o.tag == tag) := by
    intro l
    rw [List.any_map]
    congr 1
    funext o
    simp only [Function.comp_apply]
    split <;> rfl
  cases p <;> cases r <;> simp only [tagHeld, finalReply, modPort, setPort, getPort, markFinal, hm]

/-- An operation that acts beside the place of a new command as without it, where no place holds the tag. -/
structure Beside (p : PortId) (op tag : Byte) (f : State → State) : Prop where
  place : ∀ s, tagHeld s p tag = false → f (takePlace s p op tag) = takePlace (f s) p op tag
  held  : ∀ s, tagHeld (f s) p tag = tagHeld s p tag

section
variable {p : PortId} {op tag : Byte}

theorem PortBlind.beside {f : State → State} (h : PortBlind f) : Beside p op tag f :=
  ⟨fun s _ => h.takePlace s p op tag, fun s => h.tagHeld s p tag⟩

theorem Beside.comp {f g : State → State} (hg : Beside p op tag g) (hf : Beside p op tag f) :
    Beside p op tag (fun s => g (f s)) :=
  ⟨fun s h => (congrArg g (hf.place s h)).trans (hg.place (f s) ((hf.held s).trans h)),
    fun s => (hg.held (f s)).trans (hf.held s)⟩

theorem Beside.ite {c : State → Prop} [∀ s, Decidable (c s)] {f g : State → State}
    (hc : ∀ s, c (Machine.takePlace s p op tag) = c s) (hf : Beside p op tag f) (hg : Beside p op tag g) :
    Beside p op tag (fun s => if c s then f s else g s) where
  place s h := by
    rw [apply_ite (fun t => Machine.takePlace t p op tag)]
    exact ite_congr (hc s) (fun _ => hf.place s h) (fun _ => hg.place s h)
  held s := by
    by_cases hs : c s
    · simp only [hs, if_true, hf.held]
    · simp only [hs, if_false, hg.held]

theorem beside_foldl {α : Type} {f : State → α → State} {l : List α} (hf : ∀ x ∈ l, Beside p op tag (fun s => f s x)) :
    Beside p op tag (fun s => l.foldl f s) := by
  induction l with
  | nil => exact portBlind_id.beside
  | cons x l ih =>
    exact (ih (fun y hy => hf y (List.mem_cons_of_mem x hy))).comp (hf x List.mem_cons_self)

theorem beside_finalReply {r : PortId} {t : Byte} (h : r = p → t ≠ tag) (o : Byte) (st : Status) (payload : List Byte) :
    Beside p op tag (fun s => finalReply s r t o st payload) :=
  ⟨fun s _ => takePlace_finalReply s h o st payload, fun s => finalReply_tagHeld s p r tag t o st payload⟩

theorem tag_ne_of_mem_findJobs {s : State} {f : Job → Bool} {x : PortId × Outstanding} (h : tagHeld s p tag = false)
    (hx : x ∈ findJobs s f) : x.1 = p → x.2.tag ≠ tag := by
  rintro rfl
  exact tag_ne_of_mem h (mem_findJobs.mp hx).1

theorem beside_completeJobs {f : Job → Bool} (hf : f .none = false) (reply : Job → Status × List Byte) :
    Beside p op tag (fun s => completeJobs s f reply) where
  place s h := by
    simp only [completeJobs, takePlace_findJobs hf]
    refine (beside_foldl (l := findJobs s f) (fun x hx => ?_)).place s h
    exact beside_finalReply (tag_ne_of_mem_findJobs h hx) _ _ _
  held s := List.foldlRecOn (findJobs s f) _ (motive := fun t : State => tagHeld t p tag = tagHeld s p tag) rfl
    (fun t ht x _ => (finalReply_tagHeld t p x.1 tag x.2.tag _ _ _).trans ht)

theorem beside_completeJob {f : Job → Bool} (hf : f .none = false) (st : Status) (payload : List Byte) :
    Beside p op tag (fun s => completeJob s f st payload) where
  place s h := by
    simp only [completeJob, takePlace_findJobs hf]
    cases hl : (findJobs s f).head? with
    | none => rfl
    | some x =>
      exact takePlace_finalReply s (tag_ne_of_mem_findJobs h (List.mem_of_mem_head? hl)) _ _ _
  held s := by
    simp only [completeJob]
    split
    · rfl
    · exact finalReply_tagHeld s p _ tag _ _ _ _

end

/-- The row of an opcode that is complete at once, where what it does acts beside its place. -/
theorem exec_doesBeside {i : Instr} {op : Nat} {lenOk : List Byte → Bool} {body : State → Request → Verdict} {q : Request}
    {s : State} {f : State → State} {bytes : List Byte} (hx : exec i s = .next (runOp op lenOk body q s))
    (h : heard s q op = true) (hl : lenOk q.payload = true)
    (hn : ¬(BitVec.ofNat 8 op = 0xB0#8 ∨ BitVec.ofNat 8 op = 0xB1#8)) (hf : Beside q.port (BitVec.ofNat 8 op) q.tag f)
    (hb : body (takePlace s q.port (BitVec.ofNat 8 op) q.tag) q =
      .done (f (takePlace s q.port (BitVec.ofNat 8 op) q.tag)) bytes) : exec i s = .next (answered (f s) q op .ok bytes) :=
  exec_acts hx h hl hn (by rw [hb, hf.place s (heard_tag s q op h)]) (hf.held s)

/-- The row of an opcode that waits, where what it does acts beside its place. -/
theorem exec_beginsBeside {i : Instr} {op : Nat} {lenOk : List Byte → Bool} {body : State → Request → Verdict} {q : Request}
    {s : State} {f : State → State} {j : Job} {early : Option (List Byte)}
    (hx : exec i s = .next (runOp op lenOk body q s))
    (h : heard s q op = true) (hl : lenOk q.payload = true)
    (hn : ¬(BitVec.ofNat 8 op = 0xB0#8 ∨ BitVec.ofNat 8 op = 0xB1#8)) (hf : Beside q.port (BitVec.ofNat 8 op) q.tag f)
    (hb : body (takePlace s q.port (BitVec.ofNat 8 op) q.tag) q =
      .pend (f (takePlace s q.port (BitVec.ofNat 8 op) q.tag)) j early) :
    exec i s = .next (waitsWith (f s) q op j early) :=
  exec_waits hx h hl hn (by rw [hb, hf.place s (heard_tag s q op h)]) (hf.held s)

/-! ## PORT_RESTART (R242, R257) -/

@[simp] theorem takePlace_portEn (s : State) (p : PortId) (op tag : Byte) (k : Nat) :
    portEn (takePlace s p op tag) k = portEn s k :=
  takePlace_tells (f := fun t => portEn t k) (fun _ _ _ _ _ => rfl) s p op tag

@[simp] theorem takePlace_portIs (s : State) (p : PortId) (op tag : Byte) (k : Nat) (l : LockState) :
    portIs (takePlace s p op tag) k l = portIs s k l :=
  takePlace_tells (f := fun t => portIs t k l) (fun _ _ _ _ _ => rfl) s p op tag

@[simp] theorem takePlace_portSounds (s : State) (p : PortId) (op tag : Byte) (k : Nat) :
    portSounds (takePlace s p op tag) k = portSounds s k :=
  takePlace_tells (f := fun t => portSounds t k) (fun _ _ _ _ _ => rfl) s p op tag

theorem portBlind_modDport (k : Nat) (f : DPort → DPort) : PortBlind (fun s => modDport s k f) :=
  ⟨fun _ _ _ _ _ => rfl, fun _ => rfl, fun _ => rfl⟩

/-- A lock state entered, without the replies to PORT_RESTART that end with it. -/
def lockRaised (s : State) (k : Nat) (l : LockState) : State :=
  let t := modDport (dropHold s k) k (lockEntered (dropHold s k) k l)
  if (dport s k).state = .locked ∨ l = .locked then raise t (1 + k) (lockCode l + (dport s k).rate * 16) else t

theorem portBlind_lockRaised (k : Nat) (l : LockState) : PortBlind (fun s => lockRaised s k l) where
  apart s n a b c := by
    unfold lockRaised
    dsimp only
    rw [apply_ite (fun t => withPorts t n a b c)]
    refine ite_congr rfl (fun _ => ?_) (fun _ => rfl)
    exact raise_setPorts (modDport (dropHold s k) k (lockEntered (dropHold s k) k l)) _ _ n a b c
  bsn s := by
    unfold lockRaised
    dsimp only
    split <;> simp [raise_bsn, modDport, dropHold]
  cycle s := by
    unfold lockRaised
    dsimp only
    split <;> simp [raise_cycle, modDport, dropHold]

theorem enterLock_eq (s : State) (k : Nat) (l : LockState) : enterLock s k l =
    if (dport s k).state = l then
      modDport (dropHold s k) k (fun d => { d with next := none, clkPin := clockPinOf (dropHold s k) k l })
    else if l = .acquire then completeJobs (lockRaised s k l) (isPortRestart k) (fun _ => (.ok, []))
    else if l = .off then completeJobs (lockRaised s k l) (isPortRestart k) (fun _ => (.state, []))
    else lockRaised s k l := rfl

/-- A port enters a lock state beside the place of a command. -/
theorem beside_enterLock {p : PortId} {op tag : Byte} (k : Nat) (l : LockState) :
    Beside p op tag (fun s => enterLock s k l) := by
  have hraised : Beside p op tag (fun s => lockRaised s k l) := (portBlind_lockRaised k l).beside
  simp only [enterLock_eq]
  refine .ite (fun s => by simp) (PortBlind.beside ⟨fun _ _ _ _ _ => rfl, fun _ => rfl, fun _ => rfl⟩) ?_
  refine .ite (fun _ => rfl) ((beside_completeJobs rfl _).comp hraised) ?_
  exact .ite (fun _ => rfl) ((beside_completeJobs rfl _).comp hraised) hraised

/-- A port loses its source beside the place of a command. -/
theorem beside_portLose {p : PortId} {op tag : Byte} (k : Nat) (clockLeft : Bool) :
    Beside p op tag (fun s => portLose s k clockLeft) := by
  refine .ite (fun s => by simp) (portBlind_modDport _ _).beside ?_
  refine .ite (fun s => by simp) (PortBlind.beside ?_) (beside_enterLock k _)
  exact ⟨fun _ _ _ _ _ => rfl, fun _ => rfl, fun _ => rfl⟩

/-! ## POWER_MODE_SET (R476 to R482, R496) -/

theorem portBlind_startChange (m : Mode) (reason source : Nat) (keep : Bool) (cmd : Option Nat) :
    PortBlind (fun s => startChange s m reason source keep cmd) := by
  refine portBlind_ite (fun _ _ _ _ _ => rfl) ?_ ⟨fun _ _ _ _ _ => rfl, fun _ => rfl, fun _ => rfl⟩
  exact portBlind_ite (fun _ _ _ _ _ => rfl) ⟨fun _ _ _ _ _ => rfl, fun _ => rfl, fun _ => rfl⟩
    ⟨fun _ _ _ _ _ => rfl, fun _ => rfl, fun _ => rfl⟩

theorem modeCode_of_modeOf {n : Nat} {m : Mode} (h : modeOf n = some m) : modeCode m = n := by
  unfold modeOf at h
  split at h <;> cases h <;> rfl

/-- An OTP command is outstanding, whatever other opcode takes a place. -/
theorem takePlace_otpOutstanding {op : Byte} (h : within op.toNat 0x70 0x76 = false) (s : State) (p : PortId) (tag : Byte) :
    otpOutstanding (takePlace s p op tag) = otpOutstanding s := by
  simp only [otpOutstanding, outstanding_takePlace, List.any_append]
  cases p <;> simp [allPorts, newPlace, h]

/-! ## AUX_PROFILE and WAKE_CFG (R389, R497) -/

@[simp] theorem takePlace_carrierOn (s : State) (p : PortId) (op tag : Byte) (a : Nat) :
    carrierOn (takePlace s p op tag) a = carrierOn s a :=
  takePlace_tells (f := fun t => carrierOn t a) (fun _ _ _ _ _ => rfl) s p op tag

@[simp] theorem takePlace_carrierOk (s : State) (p : PortId) (op tag : Byte) (a : Nat) (ofs : Int) :
    carrierOk (takePlace s p op tag) a ofs = carrierOk s a ofs :=
  takePlace_tells (f := fun t => carrierOk t a ofs) (fun _ _ _ _ _ => rfl) s p op tag

@[simp] theorem takePlace_auxSegments (s : State) (p : PortId) (op tag : Byte) (a : Nat) :
    auxSegments (takePlace s p op tag) a = auxSegments s a :=
  takePlace_tells (f := fun t => auxSegments t a) (fun _ _ _ _ _ => rfl) s p op tag

theorem portBlind_modPower (f : Power → Power) : PortBlind (fun s => modPower s f) :=
  ⟨fun _ _ _ _ _ => rfl, fun _ => rfl, fun _ => rfl⟩

theorem setRoot_clock (s : State) (r : RootState) :
    (setRoot s r).clock = if s.clock.state = r then s.clock else { s.clock with state := r, changed := s.bsn } := by
  by_cases h : s.clock.state = r
  · simp only [setRoot, h, if_true]
  · simp only [setRoot, h, if_false, raise_clock, modClock]

@[simp] theorem setRoot_state (s : State) (r : RootState) : (setRoot s r).clock.state = r := by
  rw [setRoot_clock]
  split
  · assumption
  · rfl

@[simp] theorem setRoot_refQual (s : State) (r : RootState) : (setRoot s r).clock.refQual = s.clock.refQual := by
  rw [setRoot_clock]
  split <;> rfl

@[simp] theorem setRoot_lockPoint (s : State) (r : RootState) : (setRoot s r).clock.lockPoint = s.clock.lockPoint := by
  rw [setRoot_clock]
  split <;> rfl

theorem restartRoot_clock {s : State} (h : s.clock.state ≠ .off) : (restartRoot s).clock.state = .restart ∧
    (restartRoot s).clock.refQual = false ∧ (restartRoot s).clock.lockPoint = false := by
  rw [restartRoot, if_neg h]
  exact ⟨setRoot_state _ _, setRoot_refQual _ _, setRoot_lockPoint _ _⟩

/-- No check of POWER_MODE_SET refuses a request that no OTP command stands against. -/
theorem modeSet_passes {s : State} {m : Mode} (hc : s.power.change = none)
    (h : modeCode m < 3 → otpOutstanding s = false ∧ s.otp.openGen = none) (p : PortId) (tag : Byte) :
    (s.power.change.isSome || (decide (modeCode m < 3) && (otpOutstanding (takePlace s p 0x41#8 tag) ||
      s.otp.openGen.isSome))) = false := by
  rw [takePlace_otpOutstanding (by decide)]
  by_cases hm : modeCode m < 3
  · simp [hc, h hm]
  · simp [hc, hm]

/-- A request of AUX_PROFILE that R14 does not refuse passes its check. -/
theorem auxRequest_passes {fl strict : Bool} {r e : Bsn}
    (h : fl = true → bsnResolve r e ≠ .tooFar ∧ (strict = true → bsnResolve r e ≠ .early)) :
    (fl && ((if fl = true then bsnResolve r e else .early) == .tooFar ||
      ((if fl = true then bsnResolve r e else .early) == .early && strict))) = false := by
  cases fl with
  | false => rfl
  | true => exact bsnRequest_passes h

/-- The boundary of an AUX_PROFILE: the one asked for where R14 grants it. -/
theorem auxGranted (fl : Bool) (r e : Bsn) :
    (if (if fl = true then bsnResolve r e else .early) = .asked then r else e) =
      if fl = true ∧ bsnResolve r e = .asked then r else e := by
  cases fl <;> simp

/-- The profile that a start asks for has segments that keep the carrier in range. -/
theorem auxSegments_pass {s : State} {a : Nat} {start : Bool}
    (h : start = true → auxSegments s a ≠ [] ∧ (carrierOn s a = true →
      ∀ k ∈ auxSegments s a, carrierOk s a (toSigned 32 (rd s (.segOfs a k))) = true)) :
    (start && ((auxSegments s a).isEmpty || (carrierOn s a && !(auxSegments s a).all (fun k =>
      carrierOk s a (toSigned 32 (rd s (.segOfs a k))))))) = false := by
  cases start with
  | false => rfl
  | true =>
    obtain ⟨hne, hok⟩ := h rfl
    cases hc : carrierOn s a with
    | false => simpa using hne
    | true => simpa [hne] using hok hc

theorem payload_ne_nil {q : Request} {n : Nat} (h : q.payload.length = n + 1) : q.payload ≠ [] := by
  intro he
  simp [he] at h

/-- Settles O25: each opcode acts as its chapter says on the checks that it passes. -/
theorem deviceCommandsAct : Obligations.DeviceCommandsAct := by
  intro s q
  refine ⟨fun h hl hk hen => ⟨fun ha => ?_, fun ha hs => ?_, fun ha hs hn => ?_⟩, fun h hl hk hen => ?_, fun h hp hc => ?_,
    fun hc => ?_, fun h hp hc => ?_, fun b start h hl hk h1 hst hb hbd hseg hen hint hports hprof => ?_,
    fun m h hl hm hch hsh => ⟨fun hmode => ?_, fun hmode hst => ?_, fun hmode hst => ?_⟩,
    fun m keep n hst hhd => ?_, fun h hp => ?_, fun w h hl h1 h2 h3 h4 hw => ?_, fun h hl hbad => ?_⟩
  · refine exec_reads rfl h (lenIs_of hl) (by decide) ?_
    simp [Nat.not_lt.mpr hk, hen, ha]
  · refine exec_beginsBeside rfl h (lenIs_of hl) (by decide) (beside_portLose (pay8 q 0) true) ?_
    have hs : (portSounds s (pay8 q 0) || (dport s (pay8 q 0)).next.isSome) = true := by simpa using hs
    simp [Nat.not_lt.mpr hk, hen, ha, hs]
  · refine exec_doesBeside rfl h (lenIs_of hl) (by decide) (beside_enterLock (pay8 q 0) .acquire) ?_
    simp [Nat.not_lt.mpr hk, hen, ha, hs, hn]
  · refine exec_refuses rfl h (lenIs_of hl) ?_
    simp [Nat.not_lt.mpr hk, hen]
  · refine exec_begins rfl h (lenIs_nil hp) (by decide) portBlind_restartRoot ?_
    simp [hc]
  · exact restartRoot_clock hc
  · refine exec_refuses rfl h (lenIs_nil hp) ?_
    simp [hc]
  · subst hbd hst
    refine exec_begins (f := fun s => s) rfl h (lenIs_of hl) (by decide) portBlind_id ?_
    have hreq : ¬(3 < pay8 q 0 ∨ 1 < pay8 q 1) := by omega
    have hlate := auxRequest_passes hb
    have hgrant := auxGranted (bit (pay8 q 2) 0) (payBsn q 8) (s.bsn + 1#40)
    have hsegs := auxSegments_pass hseg
    have hstate : (!bit (rd s (.auxCfg (pay8 q 0))) 0 || bit (rd s (.auxCfg (pay8 q 0))) 2 ||
        !(auxPorts s (pay8 q 0)).isEmpty || (pay8 q 1 == 1) == (auxAt s (pay8 q 0)).profile) = false := by
      simp [hen, hint, hports, hprof.symm]
    simp only [takePlace_auxSegments, takePlace_carrierOn, takePlace_carrierOk, takePlace_rd,
      takePlace_auxPorts, takePlace_auxAt, bsnNext]
    rw [if_neg hreq, if_neg (by simp [hlate]), if_neg (by simp [hsegs]), if_neg (by simp [hstate])]
    simp only [takePlace_bsn, hgrant]
  · refine exec_reads rfl h (lenIs_of hl) (by decide) ?_
    have hpass := modeSet_passes hch hsh q.port q.tag
    simp only [hm, takePlace_power, takePlace_otp]
    rw [if_neg (by simp only [hpass, reduceCtorEq, not_false_eq_true]), if_pos hmode]
    simp [modeReply, modeCode_of_modeOf hm]
  · refine exec_begins rfl h (lenIs_of hl) (by decide) (portBlind_startChange m 1 0 (bit (pay8 q 1) 0) (some s.seq)) ?_
    have hpass := modeSet_passes hch hsh q.port q.tag
    simp only [hm, takePlace_power, takePlace_otp]
    rw [if_neg (by simp only [hpass, reduceCtorEq, not_false_eq_true]), if_neg hmode, if_neg hst]
    simp
  · refine exec_does (f := fun t => modPower (startChange t m 1 0 (bit (pay8 q 1) 0) (some s.seq)) (fun p =>
      { p with change := p.change.map (fun c => { c with replied := some s.bsn }) })) rfl h (lenIs_of hl) (by decide)
      (portBlind_comp (portBlind_modPower _) (portBlind_startChange m 1 0 _ _)) ?_
    have hpass := modeSet_passes hch hsh q.port q.tag
    simp only [hm, takePlace_power, takePlace_otp]
    rw [if_neg (by simp only [hpass, reduceCtorEq, not_false_eq_true]), if_neg hmode, if_pos hst]
    simp [modeReply, modeCode]
  · have hup : ((changeSteps s.power.mode m).head? == some .a1) = false := by simpa using hhd
    simp [startChange, hup, modPower, bsnNext]
  · refine exec_reads rfl h (by simp [hp]) (by decide) ?_
    simp [hp]
  · refine exec_does (f := fun s => modPower s (fun p => { p with wake := w })) rfl h (by simp [hl]) (by decide)
      (portBlind_modPower _) ?_
    have hpass : wakeOf q.payload (bit (pay8 q 4) 0) = some w := by
      refine hw ▸ if_neg ?_
      change ¬(Nat.land (pay8 q 0) 0x1D ≠ pay8 q 0 ∨ 0x3F < pay8 q 1 ∨ (pay8 q 2 ≠ 3 ∧ pay8 q 2 ≠ 4) ∨ pay8 q 3 < 2)
      omega
    simp [payload_ne_nil hl, hpass]
  · refine exec_refuses rfl h (by simp [hl]) ?_
    have hbad : wakeOf q.payload (bit (pay8 q 4) 0) = none := if_pos hbad
    simp [payload_ne_nil hl, hbad]

end Sys2Proof.Machine

namespace Sys2Proof.Machine

open Sys2Proof

/-- An operation that goes on by what it reads of the state is blind to the ports where each of its branches is. -/
theorem portBlind_pick {α : Type} {k : State → α} {F : α → State → State} (hk : ∀ s n a b c, k (withPorts s n a b c) = k s)
    (hF : ∀ x, PortBlind (F x)) : PortBlind (fun s => F (k s) s) where
  apart s n a b c := by
    simp only [hk]
    exact (hF (k s)).apart s n a b c
  bsn s := (hF (k s)).bsn s
  cycle s := (hF (k s)).cycle s

/-! ## Stops of power-stage channels (R321, R326, R343) -/

theorem portBlind_modChan (c : Nat) (f : Chan → Chan) : PortBlind (fun s => modChan s c f) :=
  ⟨fun _ _ _ _ _ => rfl, fun _ => rfl, fun _ => rfl⟩

theorem portBlind_beginStop (c ms lag : Nat) (dest : ChState) : PortBlind (fun s => beginStop s c ms lag dest) :=
  ⟨fun _ _ _ _ _ => rfl, fun _ => rfl, fun _ => rfl⟩

theorem portBlind_enChange (c lag : Nat) (a b : Bool) : PortBlind (fun s => enChange s c lag a b) := by
  refine portBlind_ite (fun _ _ _ _ _ => rfl) portBlind_id (portBlind_comp (portBlind_modChan c _) ?_)
  refine portBlind_pick (k := fun s => (chan s c).state) (F := fun st s => match st with
    | .starting | .play => beginStop s c (stopMs s c) lag .off
    | .faultWait | .latched => modChan s c (hiZ .off)
    | .unavailable => modChan s c (fun x => { x with waiting := false, held := false })
    | _ => s) (fun _ _ _ _ _ => rfl) (fun st => ?_)
  have hstop : PortBlind (fun s => beginStop s c (stopMs s c) lag .off) :=
    ⟨fun _ _ _ _ _ => rfl, fun _ => rfl, fun _ => rfl⟩
  cases st with
  | starting | play => exact hstop
  | faultWait | latched | unavailable => exact portBlind_modChan c _
  | _ => exact portBlind_id

theorem portBlind_nextSlot {b : State → Bsn} (hb : ∀ s n x y z, b (withPorts s n x y z) = b s) :
    PortBlind (fun s => nextSlot s (b s)) := by
  refine portBlind_pick (k := fun s => (b s, s.diag.todo)) (F := fun x s => match x.2 with
    | h :: rest => modDiag s (fun d => { d with cur := some h, todo := rest, sums := {}, since := x.1, state := .testing })
    | [] => modDiag s (fun d => { d with cur := none, since := x.1, state := if sweepSe s then .phase3 else .testing }))
    (fun s n x y z => by rw [hb]; rfl) (fun x => ?_)
  obtain ⟨b, l⟩ := x
  cases l with
  | nil | cons => exact ⟨fun _ _ _ _ _ => rfl, fun _ => rfl, fun _ => rfl⟩

theorem portBlind_sweepSkip (h : Nat) : PortBlind (fun s => sweepSkip s h) := by
  refine portBlind_ite (fun _ _ _ _ _ => rfl) ?_ (portBlind_ite (fun _ _ _ _ _ => rfl) ?_ portBlind_id)
  · exact portBlind_comp (portBlind_nextSlot (b := fun s => s.bsn + 1#40) (fun _ _ _ _ _ => rfl))
      (f := fun s => modDiag s (fun d => setRec (markHiZ d h) h (codeRec s h 8)))
      ⟨fun _ _ _ _ _ => rfl, fun _ => rfl, fun _ => rfl⟩
  · exact ⟨fun _ _ _ _ _ => rfl, fun _ => rfl, fun _ => rfl⟩

theorem portBlind_stopChan (imm : Bool) (c : Nat) : PortBlind (fun s => stopChan imm s c) := by
  refine portBlind_comp (g := fun s => if !imm then s else
      if running (chan s c) then modChan s c (hiZ (if (chan s c).state = .stopping then (chan s c).stopTo else .off))
      else if (chan s c).state = .diag then sweepSkip s c else s)
    (f := fun s => enChange (wr s (chanReg c) (withBits (rd s (chanReg c)) 1 0)) c 1 (bit (rd s (chanReg c)) 0) false) ?_ ?_
  · refine portBlind_ite (fun _ _ _ _ _ => rfl) portBlind_id (portBlind_ite (fun _ _ _ _ _ => rfl) ?_ ?_)
    · exact ⟨fun _ _ _ _ _ => rfl, fun _ => rfl, fun _ => rfl⟩
    · exact portBlind_ite (fun _ _ _ _ _ => rfl) (portBlind_sweepSkip c) portBlind_id
  · exact portBlind_pick (k := fun s => rd s (chanReg c))
      (F := fun v s => enChange (wr s (chanReg c) (withBits v 1 0)) c 1 (bit v 0) false) (fun _ _ _ _ _ => rfl)
      (fun v => portBlind_comp (portBlind_enChange c 1 (bit v 0) false) (portBlind_wr (chanReg c) (withBits v 1 0)))

@[simp] theorem takePlace_ledBy (s : State) (p : PortId) (op tag : Byte) (mask : Nat) :
    ledBy (takePlace s p op tag) mask = ledBy s mask :=
  takePlace_tells (f := fun t => ledBy t mask) (fun _ _ _ _ _ => rfl) s p op tag

@[simp] theorem takePlace_leavingActive (s : State) (p : PortId) (op tag : Byte) :
    leavingActive (takePlace s p op tag) = leavingActive s :=
  takePlace_tells (f := leavingActive) (fun _ _ _ _ _ => rfl) s p op tag

@[simp] theorem takePlace_sweeping (s : State) (p : PortId) (op tag : Byte) : sweeping (takePlace s p op tag) = sweeping s :=
  takePlace_tells (f := sweeping) (fun _ _ _ _ _ => rfl) s p op tag

/-- The running channels that a DIAG_RUN stops first (R344). -/
def stopRunning (runs : List Nat) (s : State) : State :=
  runs.foldl (fun t h => if (chan t h).state = .stopping then t else beginStop t h (stopMs t h) 1 .off) s

theorem portBlind_stopRunning (runs : List Nat) : PortBlind (stopRunning runs) := by
  refine portBlind_foldl (f := fun t h => if (chan t h).state = .stopping then t else beginStop t h (stopMs t h) 1 .off)
    (fun h => ?_) runs
  exact portBlind_ite (fun _ _ _ _ _ => rfl) portBlind_id ⟨fun _ _ _ _ _ => rfl, fun _ => rfl, fun _ => rfl⟩

/-- Settles O26: the three opcodes of the power stage stop channels, or only wait. -/
theorem stageCommandsAct : Obligations.StageCommandsAct := by
  intro s q
  refine ⟨fun h hl => ?_, fun t h hl ht => ?_, fun named runs mask h hl hnamed hne htests hruns hforce hmode hleave hst hidle
    hboot hmask => ?_, fun named h hl hnamed hne htests hbad => ?_, fun h hl h0 => ?_⟩
  · exact exec_begins rfl h (lenIs_of hl) (by decide) portBlind_id rfl
  · have hstop : PortBlind (fun s => (ledBy s (pay32 q 0)).foldl (stopChan (bit (pay8 q 4) 0)) s) :=
      portBlind_pick (k := fun s => ledBy s (pay32 q 0)) (F := fun l s => l.foldl (stopChan (bit (pay8 q 4) 0)) s)
        (fun _ _ _ _ _ => rfl) (fun l => portBlind_foldl (portBlind_stopChan _) l)
    have hplace := hstop.takePlace s q.port 0x63#8 q.tag
    have hstate : ∀ c, (chan (takePlace t q.port 0x63#8 q.tag) c).state = (chan t c).state := fun c => by
      rw [takePlace_chan]
    subst ht
    refine ⟨fun hoff => ?_, fun hon => ?_⟩
    · refine exec_does rfl h (lenIs_of hl) (by decide) hstop (if_pos ?_)
      simp only [takePlace_ledBy] at hplace
      simpa [hplace] using hoff
    · refine exec_begins rfl h (lenIs_of hl) (by decide) hstop ?_
      simp only [takePlace_ledBy] at hplace
      refine (if_neg ?_).trans (by simp)
      simpa [hplace] using hon
  · refine exec_begins (f := fun t => modDiag (stopRunning runs t) (fun d => { d with
        state := .waiting, mask := mask, tests := pay8 q 2 % 4, aborted := false, failed := false, since := t.bsn + 1#40 }))
      rfl h (lenIs_of hl) (by decide)
      (portBlind_pick (k := fun t => t.bsn) (F := fun b t => modDiag (stopRunning runs t) (fun d => { d with
        state := .waiting, mask := mask, tests := pay8 q 2 % 4, aborted := false, failed := false, since := b + 1#40 }))
        (fun _ _ _ _ _ => rfl) (fun b => portBlind_comp (g := fun t => modDiag t _)
          ⟨fun _ _ _ _ _ => rfl, fun _ => rfl, fun _ => rfl⟩ (portBlind_stopRunning runs))) ?_
    have hnamed' : named.isEmpty = false := by simpa using hne
    have hrun : (!runs.isEmpty && !bit (pay8 q 3) 0) = false := by
      rcases hforce with hforce | hforce <;> simp [hforce]
    simp only [takePlace_leads, takePlace_chan, takePlace_power, takePlace_leavingActive, takePlace_stage, takePlace_sweeping,
      takePlace_bsn, ← hnamed, ← hruns, ← hmask]
    rw [if_neg (by simp [hnamed', htests]), if_neg (by simp [hmode, hleave, hst, sweeping, hidle, hboot, hrun])]
    rfl
  · refine exec_refuses rfl h (lenIs_of hl) ?_
    have hnamed' : named.isEmpty = false := by simpa using hne
    have hbad' : (s.power.mode != .active || leavingActive s || s.stage.stage != .available || sweeping s) = true := by
      simpa [sweeping, or_assoc] using hbad
    simp only [takePlace_leads, takePlace_chan, takePlace_power, takePlace_leavingActive, takePlace_stage, takePlace_sweeping,
      ← hnamed]
    rw [if_neg (by simp [hnamed', htests]), if_pos (by simp [hbad'])]
  · refine exec_refuses rfl h (lenIs_of hl) (if_pos ?_)
    simp [h0, bit]

end Sys2Proof.Machine

namespace Sys2Proof.Machine

open Sys2Proof

/-! ## OTP commands (R500 to R505) -/

theorem portBlind_otp (f : Otp → Otp) : PortBlind (fun s => { s with otp := f s.otp }) :=
  ⟨fun _ _ _ _ _ => rfl, fun _ => rfl, fun _ => rfl⟩

@[simp] theorem takePlace_modeHigh (s : State) (p : PortId) (op tag : Byte) : modeHigh (takePlace s p op tag) = modeHigh s :=
  takePlace_tells (f := modeHigh) (fun _ _ _ _ _ => rfl) s p op tag

@[simp] theorem takePlace_serviceOn (s : State) (p : PortId) (op tag : Byte) : serviceOn (takePlace s p op tag) = serviceOn s :=
  takePlace_tells (f := serviceOn) (fun _ _ _ _ _ => rfl) s p op tag

/-- A job that an OTP command queues. -/
theorem exec_queues {i : Instr} {op : Nat} {lenOk : List Byte → Bool} {body : State → Request → Verdict} {q : Request}
    {s : State} {j : OtpJob} {g : Option (Option Nat)} (hx : exec i s = .next (runOp op lenOk body q s))
    (h : heard s q op = true) (hl : lenOk q.payload = true)
    (hn : ¬(BitVec.ofNat 8 op = 0xB0#8 ∨ BitVec.ofNat 8 op = 0xB1#8))
    (hb : ∀ t : State, t.otp = s.otp → modeHigh t = modeHigh s → serviceOn t = serviceOn s → body t q =
      .pend { t with otp := { t.otp with jobs := t.otp.jobs ++ [j], openGen := g.getD t.otp.openGen } } .otp none) :
    exec i s = .next (waitsWith { s with otp := { s.otp with
      jobs := s.otp.jobs ++ [j], openGen := g.getD s.otp.openGen } } q op .otp none) :=
  exec_begins hx h hl hn (portBlind_otp (fun o => { o with jobs := o.jobs ++ [j], openGen := g.getD o.openGen }))
    (hb _ (takePlace_otp ..) (takePlace_modeHigh ..) (takePlace_serviceOn ..))

theorem dataWords_words_nil {base : Nat} {vs : List Nat} (h : ∀ v ∈ vs, v = 0) : progWords base vs = [] := by
  simp only [progWords, List.filterMap_eq_nil_iff]
  rintro ⟨i, v⟩ hx
  simp [h v (List.of_mem_zip hx).2]

theorem dataWords_words_ne_nil {base : Nat} {vs : List Nat} (h : ∃ v ∈ vs, v ≠ 0) : (progWords base vs).isEmpty = false := by
  obtain ⟨v, hv, hne⟩ := h
  obtain ⟨i, hi, rfl⟩ := List.getElem_of_mem hv
  have hmem : (base + i, BitVec.ofNat 32 vs[i]) ∈ progWords base vs := by
    refine List.mem_filterMap.mpr ⟨(i, vs[i]), ?_, by simp [hne]⟩
    refine List.mem_iff_getElem.mpr ⟨i, by simpa using hi, by simp⟩
  cases hp : progWords base vs with
  | nil => simp [hp] at hmem
  | cons => rfl

theorem leValue_lt (p : List Byte) : leValue p < 256 ^ p.length := by
  induction p with
  | nil => simp [leValue]
  | cons b p ih =>
    have hb := b.isLt
    simp only [leValue, List.length_cons, Nat.pow_succ]
    omega

theorem pay32_lt (q : Request) (o : Nat) : pay32 q o < 2 ^ 32 := by
  have hlt := leValue_lt ((q.payload.drop o).take 4)
  have hle : 256 ^ ((q.payload.drop o).take 4).length ≤ 256 ^ 4 := Nat.pow_le_pow_right (by decide) (by simp)
  exact lt_of_lt_of_le hlt hle

/-- Words 126 and 127 of a slot: the CRC and its complement, where they are not 0 (R503). -/
theorem progWords_crc {base crc : Nat} (h : crc < 2 ^ 32) :
    progWords (base + 126) [crc, 0xFFFFFFFF - crc] =
      (if crc = 0 then [] else [(base + 126, BitVec.ofNat 32 crc)]) ++
        (if crc = 0xFFFFFFFF then [] else [(base + 127, BitVec.ofNat 32 (0xFFFFFFFF - crc))]) := by
  have hz : 0xFFFFFFFF - crc = 0 ↔ crc = 0xFFFFFFFF := by omega
  by_cases h0 : crc = 0
  · simp [progWords, h0, List.range_succ]
  · by_cases h1 : crc = 0xFFFFFFFF
    · simp [progWords, h1, List.range_succ]
    · simp [progWords, h0, h1, hz, List.range_succ]

/-- Settles O27: an accepted OTP command queues its words. -/
theorem otpCommandsAct : Obligations.OtpCommandsAct := by
  intro s q
  refine ⟨fun h hl h1 h2 => ?_, fun h hl hbad => ?_, fun g h hp hm ho hb hg => ?_,
    fun g h hl h1 h2 h3 ho hm hz => ⟨fun hd => ?_, fun hd => ?_⟩, fun g h hl ho hm hc => ?_, fun g h hl ho hc => ?_,
    fun i classes flags h hl hcl hfl hne h3 h2 hserv hlock hm hfree => ?_,
    fun h hl h1 h2 h3 hb hm hz => ⟨fun hd => ?_, fun hd => ?_⟩⟩
  · refine exec_begins rfl h (lenIs_of hl) (by decide) portBlind_id (if_neg ?_)
    simp [within]
    omega
  · refine exec_refuses rfl h (lenIs_of hl) (if_pos ?_)
    simp [within]
    omega
  · refine exec_queues (g := some (some g)) rfl h (lenIs_nil hp) (by decide) (fun t hto htm _ => ?_)
    simp [hto, htm, hm, ho, hb, hg, otpQueue, slotBase]
  · refine exec_queues (g := none) rfl h hl (by decide) (fun t hto htm _ => ?_)
    have hz' : (List.range (pay16 q 2)).any (fun i => plannedWord s.otp (slotBase g + pay16 q 0 + i) != 0) = false := by
      simpa [slotBase] using hz
    simp only [hto, htm, ho]
    rw [if_neg (by simp [within]; omega), if_neg (by simp [hm, hz'])]
    rw [otpAccept, dataWords_words_ne_nil hd]
    simp [otpQueue, hto, ho, slotBase]
  · refine exec_reads rfl h hl (by decide) ?_
    have hz' : (List.range (pay16 q 2)).any (fun i => plannedWord s.otp (slotBase g + pay16 q 0 + i) != 0) = false := by
      simpa [slotBase] using hz
    simp only [takePlace_otp, takePlace_modeHigh, ho]
    rw [if_neg (by simp [within]; omega), if_neg (by simp [hm, hz'])]
    rw [otpAccept, dataWords_words_nil hd]
    rfl
  · refine exec_queues (g := none) rfl h (lenIs_of hl) (by decide) (fun t hto htm _ => ?_)
    rw [progWords_crc (base := 288 + 128 * g) (pay32_lt q 0)]
    simp [hto, htm, hm, ho, ← hc, otpQueue, slotBase]
  · refine exec_refuses rfl h (lenIs_of hl) ?_
    simp [ho, hc.symm]
  · refine exec_queues (g := none) rfl h (lenIs_of hl) (by decide) (fun t hto htm hts => ?_)
    subst hcl hfl
    have hhigh : [pay8 q 0, pay8 q 1, pay8 q 2].any (fun c => decide (3 < c)) = false := by simpa using h3
    have hmap : mappingOk [pay8 q 0, pay8 q 1, pay8 q 2] = true := by simpa [mappingOk] using h2
    have hsv : ([pay8 q 0, pay8 q 1, pay8 q 2].contains 3 && (!serviceOn s || bit (pay8 q 3 % 16) 1)) = false := by
      by_cases hin : 3 ∈ [pay8 q 0, pay8 q 1, pay8 q 2]
      · obtain ⟨hon, hb⟩ := hserv hin
        simp [hon, hb]
      · simp only [List.contains_eq_mem, hin, decide_false, Bool.false_and]
    have hlk : (bit (pay8 q 3 % 16) 0 && bit s.otp.locks 0) = false := by
      cases hb : bit (pay8 q 3 % 16) 0 <;> simp [hlock, hb]
    simp only [hto, htm, hts]
    rw [if_neg (by simp only [hhigh, hmap, hsv]; simpa using hne), if_neg (by simp [hlk, hm]), hfree]
    simp [otpQueue, hto]
  · refine exec_queues (g := none) rfl h hl (by decide) (fun t hto htm _ => ?_)
    have hz' : (List.range (pay16 q 2)).any (fun i => plannedWord s.otp (pay16 q 0 + i) != 0) = false := by
      simpa using hz
    simp only [hto, htm]
    rw [if_neg (by simp [within]; omega), if_neg (by simp [hm, hb, hz'])]
    rw [otpAccept, dataWords_words_ne_nil hd]
    simp [otpQueue, hto]
  · refine exec_reads rfl h hl (by decide) ?_
    have hz' : (List.range (pay16 q 2)).any (fun i => plannedWord s.otp (pay16 q 0 + i) != 0) = false := by
      simpa using hz
    simp only [takePlace_otp, takePlace_modeHigh]
    rw [if_neg (by simp [within]; omega), if_neg (by simp [hm, hb, hz'])]
    rw [otpAccept, dataWords_words_nil hd]
    rfl

/-! ## Health and service commands (R195 to R200, R418, R419) -/

theorem portBlind_modHealth (f : Health → Health) : PortBlind (fun s => modHealth s f) :=
  ⟨fun _ _ _ _ _ => rfl, fun _ => rfl, fun _ => rfl⟩

@[simp] theorem takePlace_forceInService (s : State) (p : PortId) (op tag : Byte) (a u f : Nat) :
    forceInService (takePlace s p op tag) a u f = forceInService s a u f :=
  takePlace_tells (f := fun t => forceInService t a u f) (fun _ _ _ _ _ => rfl) s p op tag

@[simp] theorem takePlace_forceBlocked (s : State) (p : PortId) (op tag : Byte) (a u : Nat) :
    forceBlocked (takePlace s p op tag) a u = forceBlocked s a u :=
  takePlace_tells (f := fun t => forceBlocked t a u) (fun _ _ _ _ _ => rfl) s p op tag

@[simp] theorem takePlace_logIsFull (s : State) (p : PortId) (op tag : Byte) : logIsFull (takePlace s p op tag) = logIsFull s :=
  takePlace_tells (f := logIsFull) (fun _ _ _ _ _ => rfl) s p op tag

@[simp] theorem takePlace_unitInService (s : State) (p : PortId) (op tag : Byte) (u : UnitRef) :
    unitInService (takePlace s p op tag) u = unitInService s u :=
  takePlace_tells (f := fun t => unitInService t u) (fun _ _ _ _ _ => rfl) s p op tag

@[simp] theorem takePlace_isSpare (s : State) (p : PortId) (op tag : Byte) (u : UnitRef) :
    isSpare (takePlace s p op tag) u = isSpare s u :=
  takePlace_tells (f := fun t => isSpare t u) (fun _ _ _ _ _ => rfl) s p op tag

/-- The unit that a REPAIR_FORCE names exists. -/
theorem repairRange {a u f count : Nat} (h1 : 1 ≤ a) (hc : [56, 18, 24, 16, 16][a - 1]? = some count) (hu : u < count)
    (hf : a = 4 → f < 8) :
    (!(within a 1 5 && decide (u < [0, 56, 18, 24, 16, 16].getD a 0) && (a != 4 || decide (f < 8)))) = false := by
  have ha : a - 1 < 5 := (List.getElem?_eq_some_iff.mp hc).1
  have hcount : [0, 56, 18, 24, 16, 16].getD a 0 = count := by
    obtain ⟨k, rfl⟩ : ∃ k, a = k + 1 := ⟨a - 1, by omega⟩
    simpa using congrArg (Option.getD · 0) hc
  have hw : within a 1 5 = true := by
    simp [within]
    omega
  rw [hcount]
  have hfin : (a != 4 || decide (f < 8)) = true := by simpa [Decidable.imp_iff_not_or] using hf
  simp only [hw, hu, hfin, decide_true, Bool.and_self, Bool.not_true]

/-- Settles O28: the health and service opcodes write their table, or wait. -/
theorem healthCommandsAct : Obligations.HealthCommandsAct := by
  intro s q
  refine ⟨fun h hl h63 => ?_, fun h hl hff => ?_, fun h hp => ?_, fun h hl hok => ?_, fun h hl hok => ?_,
    fun count h hl h1 hc hu hf => ⟨fun hin hmig hbl hlog => ?_, fun hbad => ?_, fun hin hmig hbl hw hfull => ?_⟩,
    fun c k h hl h1 h11 hc hk hs hu hin => ?_, fun h hl h17 h1 h113 hend => ?_, fun u h hl hu => ?_⟩
  · refine exec_does (f := fun s => modHealth s (fun h => { h with table := h.table.set (pay8 q 0) none })) rfl h (lenIs_of hl)
      (by decide) (portBlind_modHealth _) ?_
    have hne : ¬pay8 q 0 = 0xFF := by omega
    simp [Nat.not_lt.mpr h63, hne]
  · refine exec_does (f := fun s => modHealth s (fun h => { h with table := List.replicate 64 none })) rfl h (lenIs_of hl)
      (by decide) (portBlind_modHealth _) ?_
    simp [hff]
  · refine exec_reads rfl h (by simp [hp]) (by decide) ?_
    simp [hp]
  · refine exec_begins rfl h (by simp [hl]) (by decide)
      (portBlind_modHealth (fun h => { h with cfgNext := some (cfgOf q.payload) })) ?_
    simp [payload_ne_nil hl, hok]
  · refine exec_refuses rfl h (by simp [hl]) ?_
    simp [payload_ne_nil hl, hok]
  · refine exec_begins (f := fun s => modHealth s (fun h => forceStart { h with nextId := h.nextId + 1 } h.nextId (pay8 q 0)
      (pay8 q 1) (pay8 q 2) (bit (pay8 q 3) 0))) rfl h (lenIs_of hl) (by decide) (portBlind_modHealth _) ?_
    have hr := repairRange h1 hc hu hf
    have hlog' : (bit (pay8 q 3) 0 && logIsFull s) = false := by cases hb : bit (pay8 q 3) 0 <;> simp [hlog, hb]
    simp only [takePlace_forceInService, takePlace_forceBlocked, takePlace_health, takePlace_logIsFull, takePlace_bsnNext]
    rw [if_neg (by simp only [hr, Bool.false_eq_true, not_false_eq_true]), if_neg (by simp [hin, hmig, hbl]),
      if_neg (by simp [hlog'])]
    simp [modHealth, bsnNext]
  · refine exec_refuses rfl h (lenIs_of hl) ?_
    have hr := repairRange h1 hc hu hf
    simp only [takePlace_forceInService, takePlace_forceBlocked, takePlace_health]
    rw [if_neg (by simp only [hr, Bool.false_eq_true, not_false_eq_true]), if_pos (by simpa [or_assoc] using hbad)]
  · refine exec_refuses rfl h (lenIs_of hl) ?_
    have hr := repairRange h1 hc hu hf
    simp only [takePlace_forceInService, takePlace_forceBlocked, takePlace_health, takePlace_logIsFull]
    rw [if_neg (by simp only [hr, Bool.false_eq_true, not_false_eq_true]), if_neg (by simp [hin, hmig, hbl]),
      if_pos (by simp [hw, hfull])]
  · refine exec_begins (f := fun s => modHealth s (fun h => { h with
      nextId := h.nextId + 1, inject := h.inject ++ [⟨h.nextId, c, ⟨k, pay8 q 2, 0⟩, s.bsn, s.cycle⟩] })) rfl h (lenIs_of hl)
      (by decide) ⟨fun _ _ _ _ _ => rfl, fun _ => rfl, fun _ => rfl⟩ ?_
    have hw : within (pay8 q 0) 1 11 = true := by simp [within, h1, h11]
    simp [hc, hk, hw, hs, hu, hin, modHealth]
  · refine exec_begins rfl h (lenIs_of hl) (by decide) portBlind_id (if_neg ?_)
    simp [within]
    omega
  · rcases hu with ⟨h0, rfl, hlt⟩ | ⟨h0, rfl, hlt⟩
    all_goals
      split
      · refine exec_begins rfl h (lenIs_of hl) (by decide) portBlind_id ?_
        simp_all [unitOk, unitCount]
      · refine exec_refuses rfl h (lenIs_of hl) ?_
        simp_all [unitOk, unitCount]

end Sys2Proof.Machine

namespace Sys2Proof.Machine

open Sys2Proof

/-! ## WAKE_REARM while a detection waits (R298, R310) -/

/-- The detector of beam 0, which still has to end the window of the present boundary. -/
def waitingDetector : Detector := { on := true, win := 1, buf := List.replicate 16 0 }

/-- The detector of beam 1, which has ended that window and fired. -/
def firedDetector : Detector := { on := true, win := csnOf 0, hit := true, buf := List.replicate 16 0 }

/-- An IDLE device at the boundary of block 16, between the rows of the two detectors. -/
def detectionWaits : State :=
  { State.reset with
    bsn := 16, bus := { State.reset.bus with ctrlClk := true },
    power := { State.reset.power with mode := .idle, boot := .complete, accepting := true },
    wake := { State.reset.wake with dets := [waitingDetector, firedDetector, {}, {}] } }

/-- WAKE_REARM of beam 0, which starts its detector again. -/
def rearmBeam0 : Request := { port := .spi, flags := 0, tag := 1, payload := [1, 1, 0, 0] }

/-- Refutes O29: re-arming the one detector that a detection waits for makes that detection (R298), which raises EV089 and
sets the wake's mark of it; the statement's state holds the detectors alone. -/
theorem not_bulkWakeAndTouchCommandsAct : ¬ Obligations.BulkWakeAndTouchCommandsAct := by
  intro h
  obtain ⟨-, -, -, -, hrearm, -⟩ := h detectionWaits rearmBeam0
  have hstate := Host.Outcome.next.inj (hrearm (by decide +kernel) (by decide +kernel) (by decide +kernel))
  have hfired : (doWakeRearm rearmBeam0 detectionWaits).wake.srcFired = false := congrArg (·.wake.srcFired) hstate
  exact absurd hfired (by decide +kernel)

end Sys2Proof.Machine

namespace Sys2Proof.Machine

open Sys2Proof

/-! ## What the rows that end a waiting command reply (R71, R77, R309, R341, R389, R418, R500) -/

theorem rawRecord_clean {s : State} {b w : Nat} (hp : poisoned s b w = false) (hf : flipsOf s b w = []) :
    rawRecord s b w = leBytes 32 (bankData s b w).toNat ++ leBytes 3 (checkBits (bankData s b w).toNat) ++ [0#8] := by
  have hd : (bankData s b w).toNat < 2 ^ 256 := (bankData s b w).isLt
  have hs : storedBits s b w = (bankData s b w).toNat + checkBits (bankData s b w).toNat * 2 ^ 256 := by
    simp [storedBits, hp, hf, bitsOf]
  generalize checkBits (bankData s b w).toNat = c at *
  have hlow : storedBits s b w % 2 ^ 256 = (bankData s b w).toNat := by omega
  have hhigh : storedBits s b w / 2 ^ 256 = c := by omega
  simp only [rawRecord, hlow, hhigh]
  rfl

theorem endReply_failed (code idx : Nat) : endReply code 0 idx 0 0 0 0 = u8 code ++ zeros 1 ++ u16 idx ++ zeros 12 := by
  simp only [endReply, List.append_assoc]
  rfl

theorem memWords_blob (s : State) (i buf first count : Nat) : memWords s (i, 1, buf, first, count) =
    (List.range count).map (fun k => BitVec.ofNat 256 (blobAreaWord (slotAt s i).image (first + k))) := by
  simp [memWords, activeWords, readyWord]

theorem memWords_active {s : State} {i buf : Nat} {d : BufData} (h : (slotAt s i).phase = .active)
    (hd : s.graph.bufs[buf]? = some d) (first count : Nat) : memWords s (i, 0, buf, first, count) =
      (List.range count).map (fun k =>
        BitVec.ofNat 256 (activeWord (slotAt s i).image (bufEntry (slotAt s i).image buf) d (first + k))) := by
  simp [memWords, activeWords, h, hd]

/-- Settles O30: each row replies with what its chapter computes. -/
theorem waitingCommandsComplete : Obligations.WaitingCommandsComplete := by
  intro s p o
  refine ⟨fun first count rest hj ho => ?_, fun b f n rest hj ho => ?_, fun b w hp hf => rawRecord_clean hp hf,
    fun b w hr hc => ?_, fun first count lanes clamped hj ho => ?_, fun i target buf first count hc hj ho hb => ⟨?_, ?_, ?_⟩,
    fun i rest hj ho hok hfit => ?_, fun i rest hj ho hbad => ?_, fun i rest cf hj ho hok hbad => ?_,
    fun a b hc hj ho hb => ?_, fun a b hc hj ho hb => ?_, fun m hc hj ho hb => ?_⟩
  · change execOtpReadDone s = _
    simp [execOtpReadDone, hj, ho]
  · change execSvcRawReadDone s = _
    rw [execSvcRawReadDone, hj]
    simp [ho, rawJob]
  · simp [bankData, hr, staleData, hc]
  · change execCoolerFetchComplete s = _
    simp [execCoolerFetchComplete, completeJobs, hj, ho]
  · change execMemReadSnapshot s = _
    rw [execMemReadSnapshot, if_neg (by simp [hc]), hj]
    simp [ho, hb, memJob]
  · rintro rfl
    exact memWords_blob s i buf first count
  · rintro rfl hact d hd
    exact memWords_active hact hd first count
  · refine ⟨(checkSlot s i false).1, ?_⟩
    change execGraphCheckDone false s = _ ∧ _
    simp [execGraphCheckDone, hj, ho, checkSlot, hok, hfit]
  · change execGraphCheckDone false s = _
    simp [execGraphCheckDone, hj, ho, checkSlot, hbad, endReply_failed]
  · change execGraphCheckDone cf s = _
    cases hfit : fits s i (footprintOf (slotAt s i).image) with
    | false => simp [execGraphCheckDone, hj, ho, checkSlot, hok, hfit]
    | true =>
      have hcf : cf = true := by simpa [hfit] using hbad
      simp [execGraphCheckDone, hj, ho, checkSlot, hok, hfit, hcf]
  · change execAuxProfileBegin a s = _
    rw [execAuxProfileBegin, if_neg (by simp [hc]), hj]
    simp [ho, hb, profileDue, profileAct, enterSegment]
  · change execAuxProfileBegin a s = _
    rw [execAuxProfileBegin, if_neg (by simp [hc]), hj]
    simp [ho, hb, profileDue, profileAct]
  · change execPstageClearApply s = _
    rw [execPstageClearApply, if_neg (by simp [hc]), hj]
    simp [ho, hb, clearMask]

end Sys2Proof.Machine

namespace Sys2Proof.Machine

open Sys2Proof

/-! ## The word in progress (R493, R501 to R504) -/

section
variable {s : State} {j : OtpJob} {rest : List OtpJob} {w : Nat × Word} {ws : List (Nat × Word)}

theorem otpWord_goesOn {w2 : Nat × Word} (hj : s.otp.jobs = j :: rest) (hw : j.words = w :: w2 :: ws) (hs : j.stop = false) :
    exec (.otpWordProgrammed true) s = .next { s with otp := { s.otp with
      words := otpPut w.1 w.2 s.otp.words, jobs := { j with words := w2 :: ws } :: rest } } := by
  change execOtpWordProgrammed true s = _
  simp [execOtpWordProgrammed, hj, hw, hs, programmed]

theorem otpWord_completes (hj : s.otp.jobs = j :: rest) (hw : j.words = [w]) (hs : j.stop = false) {k : OtpKind}
    (hk : j.kind = k) {t : State} (ht : t = { s with otp := { s.otp with
      words := otpPut w.1 w.2 s.otp.words, jobs := rest } }) : exec (.otpWordProgrammed true) s =
      .next (finalReply (otpFinish t k).1 j.port j.tag (BitVec.ofNat 8 (otpOp k)) .ok (otpFinish t k).2) := by
  subst ht hk
  change execOtpWordProgrammed true s = _
  simp [execOtpWordProgrammed, hj, hw, hs, programmed]

theorem otpWord_stops (hj : s.otp.jobs = j :: rest) (hw : j.words = w :: ws) (hs : j.stop = true) :
    exec (.otpWordProgrammed true) s = .next { s with otp := { s.otp with
      words := otpPut w.1 w.2 s.otp.words, jobs := rest } } := by
  change execOtpWordProgrammed true s = _
  simp [execOtpWordProgrammed, hj, hw, hs, programmed]

end

/-- The state after a word of a job failed its verification, before the reply. -/
def otpFailed (s : State) (j : OtpJob) (rest : List OtpJob) (w : Nat × Word) : State :=
  { programmed s w false with otp := otpClose { (programmed s w false).otp with jobs := rest } j.kind }

@[simp] theorem otpFailed_getPort (s : State) (j : OtpJob) (rest : List OtpJob) (w : Nat × Word) (p : PortId) :
    getPort (otpFailed s j rest w) p = getPort s p := by
  cases p <;> rfl

theorem finalReply_replies (s : State) (p : PortId) (tag op : Byte) (st : Status) (payload : List Byte) :
    (getPort (finalReply s p tag op st payload) p).replies = queueReply (s.bsn, s.cycle) (seqOf (getPort s p) tag)
      (lastReply s (getPort s p) tag op st payload) (getPort s p).replies := by
  cases p <;> rfl

theorem otpClose_jobs (o : Otp) (k : OtpKind) : (otpClose o k).jobs = o.jobs ∧ (otpClose o k).weak = o.weak ∧
    (otpClose o k).fails = o.fails ∧
    (otpClose o k).openGen = (match k with | .factory | .lock _ _ _ => o.openGen | _ => none) := by
  cases k <;> exact ⟨rfl, rfl, rfl, rfl⟩

theorem otpWord_fails {s : State} {j : OtpJob} {rest : List OtpJob} {w : Nat × Word} {ws : List (Nat × Word)}
    (hj : s.otp.jobs = j :: rest) (hw : j.words = w :: ws) (hs : j.stop = false) : exec (.otpWordProgrammed false) s =
      .next (finalReply (otpFailed s j rest w) j.port j.tag (BitVec.ofNat 8 (otpOp j.kind)) .otpFail []) := by
  change execOtpWordProgrammed false s = _
  simp [execOtpWordProgrammed, hj, hw, hs, otpFailed]

/-! ## A mapping that is due (R504) -/

theorem setClasses_eq (s : State) (cs : List Nat) : setClasses s cs = { s with
    spi := { s.spi with cls := cs.getD 0 0 }, addrA := { s.addrA with cls := cs.getD 1 0 },
    addrB := { s.addrB with cls := cs.getD 2 0 } } := rfl

theorem setBootClasses_eq (s : State) (cs : List Nat) : setBootClasses s cs = { s with
    spi := { s.spi with bootCls := cs.getD 0 0 }, addrA := { s.addrA with bootCls := cs.getD 1 0 },
    addrB := { s.addrB with bootCls := cs.getD 2 0 } } := rfl

theorem dropService_eq (s : State) : dropService s = { s with
    spi := { s.spi with cls := min 2 s.spi.cls, bootCls := min 2 s.spi.bootCls },
    addrA := { s.addrA with cls := min 2 s.addrA.cls, bootCls := min 2 s.addrA.bootCls },
    addrB := { s.addrB with cls := min 2 s.addrB.cls, bootCls := min 2 s.addrB.bootCls } } := rfl

theorem mapApply_lock {s : State} {cs : List Nat} {fl : Nat} (h : s.mapDue = [.lock cs fl]) :
    mapApply s = applyLock { s with mapDue := [] } cs fl := by
  simp [mapApply, h, mapChange]

theorem applyLock_frame (s : State) (cs : List Nat) (fl : Nat) :
    (applyLock s cs fl).mapDue = s.mapDue ∧ (applyLock s cs fl).otp.locks = Nat.lor s.otp.locks fl := by
  cases h0 : bit fl 0 && !bit s.otp.locks 0 <;> cases h1 : bit fl 1 <;>
    simp only [applyLock, h0, h1, if_true, if_false, Bool.false_eq_true, setClasses_eq, setBootClasses_eq, dropService_eq,
      and_self]

theorem applyLock_classes {s : State} {cs : List Nat} {fl : Nat} (h1 : bit fl 1 = false) :
    (bit fl 0 = true → bit s.otp.locks 0 = false → (applyLock s cs fl).spi.cls = cs.getD 0 0 ∧
      (applyLock s cs fl).addrA.cls = cs.getD 1 0 ∧ (applyLock s cs fl).addrB.cls = cs.getD 2 0) ∧
    (bit s.otp.locks 0 = true → (applyLock s cs fl).spi = s.spi ∧ (applyLock s cs fl).addrA = s.addrA ∧
      (applyLock s cs fl).addrB = s.addrB) := by
  refine ⟨fun h0 hl => ?_, fun hl => ?_⟩
  · simp [applyLock, h0, h1, hl, setClasses_eq, setBootClasses_eq]
  · simp [applyLock, h1, hl]

theorem applyLock_service {s : State} {cs : List Nat} {fl : Nat} (h1 : bit fl 1 = true) :
    (applyLock s cs fl).spi.cls ≤ 2 ∧ (applyLock s cs fl).addrA.cls ≤ 2 ∧ (applyLock s cs fl).addrB.cls ≤ 2 := by
  simp [applyLock, h1, dropService_eq]

/-- Settles O31: a word verified ends its job or leaves the rest, and one that fails closes it. -/
theorem otpWordsAreProgrammed : Obligations.OtpWordsAreProgrammed := by
  intro s j rest w
  refine ⟨fun w2 ws hj hw hs => otpWord_goesOn hj hw hs, fun hj hw hs hk => ?_, fun g hj hw hs hk => ?_,
    fun g hj hw hs hk => ?_, fun i cs fl hj hw hs hk => ?_, fun cs fl hm => ?_, fun v hj hw hs => otpWord_stops hj hw hs,
    fun v hj hw hs => ⟨_, otpWord_fails hj hw hs, ?_⟩, fun v vs i hq hm hf => ?_⟩
  · rcases hk with hk | hk
    · refine (otpWord_completes hj hw hs hk rfl).trans ?_
      simp [otpFinish, otpOp, hk]
    · refine (otpWord_completes hj hw hs hk rfl).trans ?_
      simp [otpFinish, otpOp, hk]
  · refine (otpWord_completes hj hw hs hk rfl).trans ?_
    simp [otpFinish, otpOp, slotBase]
  · refine (otpWord_completes hj hw hs hk rfl).trans ?_
    simp only [otpFinish, otpOp]
    rfl
  · refine (otpWord_completes hj hw hs hk rfl).trans ?_
    simp [otpFinish, otpOp]
  · rw [mapApply_lock hm]
    obtain ⟨hdue, hlocks⟩ := applyLock_frame { s with mapDue := [] } cs fl
    exact ⟨hdue, hlocks, fun h0 hl h1 => (applyLock_classes h1).1 h0 hl, fun hl h1 => (applyLock_classes h1).2 hl,
      applyLock_service⟩
  · obtain ⟨hjobs, hweak, hfails, hgen⟩ := otpClose_jobs { (programmed s w false).otp with jobs := rest } j.kind
    simp only [finalReply_otp, finalReply_regs, finalReply_events, finalReply_health, finalReply_graph]
    refine ⟨hweak, hjobs, hfails, hgen, ?_, rfl, rfl, rfl, rfl⟩
    simp only [finalReply_replies, otpFailed_getPort]
    rfl
  · change execRepairLogWrite true s = _ ∧ ∃ t, execRepairLogWrite false s = _ ∧ _
    simp [execRepairLogWrite, hq, hf, hm, programmed, modHealth]

end Sys2Proof.Machine

namespace Sys2Proof.Machine

open Sys2Proof

/-! ## Packets and deliveries on a port (R394, R395, R428) -/

/-- A change that leaves its port as it is leaves the state. -/
theorem modPort_same {s : State} {p : PortId} {f : Port → Port} (h : f (getPort s p) = getPort s p) : modPort s p f = s := by
  rw [modPort, h]
  cases p <;> rfl

@[simp] theorem getPort_busActive (s : State) (p : PortId) : getPort (busActive s) p = getPort s p := by
  cases p <;> rfl

theorem portOpen_busActive (s : State) (p : PortId) : portOpen (busActive s) p = portOpen s p := rfl

theorem heard_busActive (s : State) (q : Request) (op : Nat) : heard (busActive s) q op = heard s q op := by
  simp only [heard, canTake, portOpen_busActive, tagHeld, placesFull, getPort_busActive]
  rfl

theorem heard_portOpen {s : State} {q : Request} {op : Nat} (h : heard s q op = true) : portOpen s q.port = true := by
  simp only [heard, canTake, Bool.and_eq_true] at h
  exact h.1.1.1.1

/-- A whole packet on an empty stream: its opcode runs, and then what is left is searched for packets. -/
theorem feedPort_packet {s : State} {q : Request} (op : Nat) (ho : portOpen s q.port = true) (hn : q.payload.length ≤ 4096)
    (hrx : (getPort s q.port).rx = []) (hd : (getPort s q.port).discarding = false) :
    feedPort s q.port (packetOf op q) =
      takePackets q.port (q.payload.length + 9) (dispatch (BitVec.ofNat 8 op) q (busActive s)) := by
  have hne : (packetOf op q).isEmpty = false := by simp [packetOf]
  have hfed : feedPort s q.port (packetOf op q) = takePackets q.port (packetOf op q).length
      (modPort (busActive s) q.port (fun v => { v with rx := packetOf op q })) := by
    have hm : modPort (busActive s) q.port (fun v => { v with rx := v.rx ++ packetOf op q }) =
        modPort (busActive s) q.port (fun v => { v with rx := packetOf op q }) := by
      simp [modPort, hrx]
    simp only [feedPort, ho, hne, Bool.not_true, Bool.or_self, Bool.false_eq_true, if_false]
    change takePackets _ (getPort (modPort (busActive s) q.port _) q.port).rx.length (modPort (busActive s) q.port _) = _
    rw [hm, getPort_modPort_self]
  have htake := takePacket_packetOf (s := modPort (busActive s) q.port (fun v => { v with rx := packetOf op q }))
    (op := op) (rest := []) hn (by simp)
  have hdisc : (getPort (modPort (busActive s) q.port (fun v => { v with rx := packetOf op q })) q.port).discarding = false := by
    simpa using hd
  have hsame : modPort (busActive s) q.port (fun v => { v with rx := [] }) = busActive s := modPort_same (by simp [← hrx])
  rw [hfed, packetOf_length, takePackets, hdisc, htake]
  rw [modPort_modPort]
  exact congrArg (fun t => takePackets q.port (q.payload.length + 9) (dispatch (BitVec.ofNat 8 op) q t)) hsame

theorem takePackets_empty {s : State} {p : PortId} (n : Nat) (hrx : (getPort s p).rx = []) : takePackets p n s = s := by
  cases n with
  | zero => rfl
  | succ n =>
    have hnone : takePacket s p = none := by simp [takePacket, hrx]
    simp only [takePackets, hnone]
    split
    · exact modPort_same (by rw [← hrx])
    · have hdrop : (getPort s p).rx.dropWhile (fun b => b != 0x5A#8) = (getPort s p).rx := by simp [hrx]
      exact modPort_same (by simp only [hdrop])

theorem feedPort_ping {s : State} {q : Request} (h : heard s q 0x00 = true) (hn : q.payload.length ≤ 4096)
    (hrx : (getPort s q.port).rx = []) (hd : (getPort s q.port).discarding = false) :
    feedPort s q.port (packetOf 0x00 q) = answered (busActive s) q 0x00 .ok q.payload := by
  rw [feedPort_packet 0x00 (heard_portOpen h) hn hrx hd]
  have hp : dispatch (BitVec.ofNat 8 0x00) q (busActive s) = answered (busActive s) q 0x00 .ok q.payload :=
    runOp_reads 0x00 _ _ q (busActive s) q.payload ((heard_busActive s q 0).trans h) rfl (by decide) rfl
  rw [hp]
  refine takePackets_empty _ ?_
  rw [answered, getPort_modPort_self, getPort_seq, getPort_busActive]
  exact hrx

/-! ## What a host reads (R424, R425, R428) -/

theorem replyBytes_pos (r : Reply) : 0 < (replyBytes r).length := by simp [replyBytes]

theorem sendBytes_nil (s : State) (p : PortId) : sendBytes s p [] = s := modPort_same (by simp)

/-- Reading no byte sends none and delivers nothing. -/
theorem takeBytes_zero {s : State} {p : PortId} (fuel old : Nat) (gaps : List Nat) (ht : (getPort s p).taken = 0) :
    takeBytes p fuel 0 old gaps s = s := by
  cases fuel with
  | zero => exact sendBytes_nil s p
  | succ fuel =>
    unfold takeBytes
    cases hr : (getPort s p).replies with
    | nil => exact sendBytes_nil s p
    | cons r rest =>
      have hlen := replyBytes_pos r
      simp only [ht, Nat.zero_min, Nat.sub_zero, List.take_zero, List.drop_zero, hlen, if_true, Nat.add_zero]
      change modPort (sendBytes s p []) p _ = s
      rw [sendBytes_nil]
      exact modPort_same rfl

/-- A host that reads the bytes of the oldest reply has it delivered. -/
theorem takeBytes_reply {s : State} {p : PortId} {r : Reply} {rest : List Reply} (hr : (getPort s p).replies = r :: rest)
    (ht : (getPort s p).taken = 0) {old : Nat} (ho : 0 < old) (fuel : Nat) :
    takeBytes p (fuel + 1) (replyBytes r).length old [] s = deliver (sendBytes s p (replyBytes r)) p := by
  have hold : ¬ old = 0 := by omega
  have hsent : (getPort (sendBytes s p (replyBytes r)) p).replies = r :: rest := by
    simpa only [sendBytes, getPort_modPort_self] using hr
  have htaken : (getPort (deliver (sendBytes s p (replyBytes r)) p) p).taken = 0 := by
    rw [deliver, hsent, getPort_modPort_self]
  rw [takeBytes, hr]
  simp only [hold, if_false, ht, Nat.min_zero, Nat.sub_zero, List.drop_zero, Nat.lt_irrefl, Nat.sub_self, List.take_length]
  exact takeBytes_zero _ _ _ htaken

/-- A port as a transaction begins to read it (R425). -/
def readStarts (s : State) (p : PortId) : State :=
  modPort (busActive s) p (fun v => { v with sent := [], drop := v.dropNew })

theorem readPort_eq (s : State) (p : PortId) (n : Nat) (gaps : List Nat) : readPort s p ⟨n + 1, gaps⟩ =
    takeBytes p ((getPort s p).replies.length + 1) n (getPort s p).before gaps (readStarts s p) := by
  cases p <;> rfl

theorem getPort_readStarts (s : State) (p : PortId) :
    getPort (readStarts s p) p = { getPort s p with sent := [], drop := (getPort s p).dropNew } := by
  rw [readStarts, getPort_modPort_self, getPort_busActive]

theorem readPort_reply {s : State} {p : PortId} {r : Reply} {rest : List Reply} (hr : (getPort s p).replies = r :: rest)
    (ht : (getPort s p).taken = 0) (hb : 0 < (getPort s p).before) :
    (getPort (readPort s p ⟨(replyBytes r).length + 1, []⟩) p).sent = replyBytes r ∧
      (getPort (readPort s p ⟨(replyBytes r).length + 1, []⟩) p).replies = rest := by
  have hr' : (getPort (readStarts s p) p).replies = r :: rest := by rw [getPort_readStarts, hr]
  have ht' : (getPort (readStarts s p) p).taken = 0 := by rw [getPort_readStarts, ht]
  rw [readPort_eq, takeBytes_reply hr' ht' hb]
  have hs : (getPort (sendBytes (readStarts s p) p (replyBytes r)) p) =
      { getPort (readStarts s p) p with sent := (getPort (readStarts s p) p).sent ++ replyBytes r } := by
    rw [sendBytes, getPort_modPort_self]
  rw [deliver, hs]
  simp only [hr', getPort_modPort_self]
  rw [show touchPorts = busActive from rfl, getPort_busActive, hs, getPort_readStarts]
  exact ⟨rfl, trivial⟩

theorem readPort_none {s : State} {p : PortId} (n : Nat) (hr : (getPort s p).replies = []) :
    (getPort (readPort s p ⟨n + 1, []⟩) p).sent = zeros n ∧
      (getPort (readPort s p ⟨n + 1, []⟩) p).drop = (getPort s p).dropNew := by
  have hr' : (getPort (readStarts s p) p).replies = [] := by rw [getPort_readStarts, hr]
  rw [readPort_eq, takeBytes, hr', sendBytes, getPort_modPort_self, getPort_readStarts]
  exact ⟨rfl, rfl⟩

/-- Settles O32: the rows of a port take bytes in and hand replies out. -/
theorem spiRowsAct : Obligations.SpiRowsAct := by
  intro s q
  refine ⟨fun h hn hrx hd => congrArg _ (feedPort_ping h hn hrx hd),
    fun op ho hn hrx hd => congrArg _ (feedPort_packet op ho hn hrx hd), fun r rest hp hr hres hst => ?_,
    fun r rest hp hr hkeep => ?_, fun high ho ha hc => ?_, fun high ho ha hc => ?_,
    fun b bytes extra gaps t u ho hdead hp ht hu => ?_, fun bytes extra gaps ho hdead hne => ?_,
    fun p r rest hr ht hb => ?_, fun p n hr => ?_, fun r => ⟨_, rfl, rfl⟩, fun b hp hrx => ?_, fun b hp => ?_⟩
  · change execReplyDelivered q.port s = _
    have hf : (!r.reserved && r.status != .accepted) = true := by simp [hres, hst]
    simp only [execReplyDelivered, hp, deliver, hr, hf, if_true]
    rfl
  · change execReplyDelivered q.port s = _
    have hf : (!r.reserved && r.status != .accepted) = false := by
      rcases hkeep with hkeep | hkeep <;> simp [hkeep]
    simp only [execReplyDelivered, hp, deliver, hr, hf, if_true, Bool.false_eq_true, if_false]
    rfl
  · change execSpiTransactionStart high s = _
    simp only [execSpiTransactionStart, ho, ha, hc, Bool.not_true, Bool.or_self, Bool.false_eq_true, if_false, if_true]
    rfl
  · change execSpiTransactionStart high s = _
    simp [execSpiTransactionStart, ho, ha, hc]
  · change execSpiTransactionEnd (b :: bytes) extra gaps s = _
    subst ht hu
    simp [execSpiTransactionEnd, ho, hdead, hp, endTransaction, touchPorts]
  · change execSpiTransactionEnd bytes extra gaps s = _
    have hne : bytes.isEmpty = false := by simpa using hne
    simp [execSpiTransactionEnd, ho, hdead, hne, touchPorts, modPort, setPort, getPort]
  · exact readPort_reply hr ht hb
  · exact readPort_none n hr
  · change execRxFifoOverflow b s = _
    simp [execRxFifoOverflow, hp, hrx, dropPacket, modPort, setPort, getPort, portNum]
  · change execRxFifoOverflow b s = _
    simp [execRxFifoOverflow, hp, modPort, setPort, getPort]

end Sys2Proof.Machine

namespace Sys2Proof.Machine

open Sys2Proof

/-! ## Two-wire target (R432 to R437, R452) -/

theorem twNames_busStart (s : State) (a : BitVec 7) (read : Bool) : twNames (busStart s) a read = twNames s a read := rfl

theorem execTwTargetAddress_idle {s : State} (ht : s.bus.target = none) (hc : s.bus.controller = false)
    (ha : s.power.accepting = true) (a : BitVec 7) (read : Bool) :
    exec (.twTargetAddress a read) s = .next (twAddress (busStart s) a read) := by
  change execTwTargetAddress a read s = _
  simp [execTwTargetAddress, ht, hc, ha]

theorem twAddress_none {s : State} {a : BitVec 7} {read : Bool} (h : twNames s a read = none) : twAddress s a read = s := by
  simp [twAddress, h]

theorem twAddress_stopped {s : State} {a : BitVec 7} {read : Bool} (h : twNames s a read ≠ none)
    (hc : s.bus.ctrlClk = false) : twAddress s a read = addCount { s with bus := { s.bus with
      ctrlStart := true, activeAt := s.bsn, activeCyc := s.cycle } } .twCount 31 24 1 := by
  obtain ⟨t, ht⟩ := Option.ne_none_iff_exists'.mp h
  simp [twAddress, ht, touchPorts, hc]

theorem twAddress_write {s : State} {a : BitVec 7} {p : PortId} {group : Bool} (hn : twNames s a false = some ⟨p, group, false⟩)
    (hc : s.bus.ctrlClk = true) : twAddress s a false = { s with bus := { s.bus with
      target := some ⟨p, group, false⟩, activeAt := s.bsn, activeCyc := s.cycle } } := by
  simp [twAddress, hn, touchPorts, hc]

theorem statusByteOf_bus (s : State) (b : Bus) (p : PortId) : statusByteOf { s with bus := b } p = statusByteOf s p := by
  cases p <;> rfl

theorem statusByteOf_busStart (s : State) (p : PortId) : statusByteOf (busStart s) p = statusByteOf s p := by
  cases p <;> rfl

theorem twBits_two (w : Word) : twBits w 2 2 = 1 ↔ bit w.toNat 2 = true := by
  simp [twBits, bits, bit]

theorem twAddress_read {s : State} {a : BitVec 7} {p : PortId} (hn : twNames s a true = some ⟨p, false, true⟩)
    (hc : s.bus.ctrlClk = true) : twAddress s a true = modPort { s with bus := { s.bus with
        target := some ⟨p, false, true⟩, activeAt := s.bsn, activeCyc := s.cycle } } p
      (fun v => { v with statusByte := BitVec.ofNat 8 (statusByteOf s p), dropNew := false, before := v.replies.length }) := by
  simp only [twAddress, hn, touchPorts, hc, shiftStatus, statusByteOf_bus, Bool.not_true, Bool.false_eq_true, if_false,
    if_true, Bool.false_and]

/-- Settles O33: each two-wire row serves the transaction that the bus holds. -/
theorem twoWireRowsAct : Obligations.TwoWireRowsAct := by
  intro s
  refine ⟨fun a p group ht hc ha hk hn => ?_, fun a p ht hc ha hk hn => ?_, fun rw => if_pos rfl, fun rw hne => ?_,
    fun a rw ht hc ha hn => ?_, fun a rw ht hc ha hk hn => ?_, fun p group bytes how t ht hu => ?_,
    fun p group bytes how ht => ?_, fun bytes how ht hc ha => ?_, rfl, rfl, fun b c hst hle => ?_, fun b c hb hst hlt => ?_,
    fun p group rw how t ht hu => ?_, fun hb hc ht ha => ?_, fun ⟨c, ht⟩ => ?_, fun hb => ?_⟩
  · exact (execTwTargetAddress_idle ht hc ha a false).trans (congrArg _ (twAddress_write (s := busStart s) hn hk))
  · rw [execTwTargetAddress_idle ht hc ha, twAddress_read (s := busStart s) hn hk, statusByteOf_busStart]
    rfl
  · simp only [twNames, hne.symm, if_false, if_true]
    simp [twBits_two]
  · rw [execTwTargetAddress_idle ht hc ha, twAddress_none (s := busStart s) hn]
  · rw [execTwTargetAddress_idle ht hc ha, twAddress_stopped (s := busStart s) hn hk]
    rfl
  · change execTwTransactionEnd bytes how s = _
    subst hu
    simp [execTwTransactionEnd, ht, twEnds, endTransaction]
  · change execTwTransactionEnd bytes how s = _
    simp [execTwTransactionEnd, ht, twEnds]
  · change execTwTransactionEnd bytes how s = _
    simp [execTwTransactionEnd, ht, hc, ha, twEnds]
  · simp [busBusy, hst, hle]
  · simp [busBusy, hst, hb, hlt]
  · change execStretchTimeout how s = _
    subst hu
    simp [execStretchTimeout, ht, endTransaction]
  · change execTwFieldApply s = _
    simp [execTwFieldApply, busFree, hb, hc, ht, ha, twInForce]
  · change execTwFieldApply s = _
    simp [execTwFieldApply, busFree, ht]
  · change execTwFieldApply s = _
    simp [execTwFieldApply, busFree, hb]

end Sys2Proof.Machine

namespace Sys2Proof.Machine

open Sys2Proof

/-! ## The control clock and stuck buses (R430, R444, R450, R451) -/

theorem alertWriting_of_needsBus {s : State} (h : alertNeedsBus s = true) : alertWriting s = false := by
  cases ha : s.events.alert with
  | none => simp [alertWriting, ha]
  | some a =>
    simp only [alertNeedsBus, ha, Option.map_some, Option.getD_some] at h
    split at h <;> simp_all [alertWriting]

theorem busStuck_quiet {s : State} (h : alertWriting s = false) (scl : Nat) : busStuck s scl =
    raise (addCount { s with bus := { s.bus with stuck := true, controller := false, busy := true, stopAt := none } }
      .twCount2 7 0 1) 106 scl := by
  simp [busStuck, h, releaseBus]

theorem busStuck_writing {s : State} {a : Alert} (ha : s.events.alert = some a) (hw : a.phase = .writing) (scl : Nat) :
    busStuck s scl = raise (addCount { s with
      bus := { s.bus with stuck := true, controller := false, busy := true, stopAt := none },
      events := { s.events with alert := some { a with phase := .waiting } } } .twCount2 7 0 1) 106 scl := by
  have h : alertWriting s = true := by simp [alertWriting, ha, hw]
  simp [busStuck, h, releaseBus, modAlert, ha]

theorem startBackoff_held {s : State} {a : Alert} {n : Nat} (ha : s.events.alert = some a) (hn : a.phase = .held n)
    (wait : Nat) : startBackoff s wait = { s with events := { s.events with
      alert := some { a with phase := .backoff n, at_ := s.bsn, cyc := s.cycle, wait := wait } } } := by
  simp [startBackoff, ha, hn]

/-- Settles O34: the rows of the control clock and of a stuck bus write the bus and the alert's phase. -/
theorem busClockRowsAct : Obligations.BusClockRowsAct := by
  intro s
  refine ⟨fun hm hs hc hx => ?_, fun hm hc hq hp => ?_, fun hm hc ⟨p, hp, ho⟩ => ?_, fun hn he hs hx ha => ?_,
    fun hn he hs hx ha => ?_, fun hw hs hx ha => ?_, fun a hal hw hs hx ha => ?_, fun hs hc ht => ?_, rfl,
    fun a n ha hn => ?_, fun a n ha hn => ?_, fun hs hc ht => ?_⟩
  · change execControlClockStart s = _
    simp [execControlClockStart, hm, hs, hc, hx]
  · change execControlClockStop s = _
    have hquiet : allPorts.all (fun p => (getPort s p).outstanding.isEmpty && (getPort s p).replies.isEmpty) = true := by
      simpa using hq
    simp [execControlClockStop, hm, hc, hquiet, hp]
  · change execControlClockStop s = _
    have hquiet : allPorts.all (fun p => (getPort s p).outstanding.isEmpty && (getPort s p).replies.isEmpty) = false := by
      simp only [List.all_eq_false]
      exact ⟨p, hp, by simp [ho]⟩
    simp [execControlClockStop, hquiet]
  · change execBusStuck true s = _
    simp [execBusStuck, hn, he, hs, hx, ha]
  · change execBusStuck false s = _
    rw [← busStuck_quiet (alertWriting_of_needsBus hn)]
    simp [execBusStuck, hn, he, hs, hx, ha]
  · change execSclStuck s = _
    rw [← busStuck_quiet hw]
    simp [execSclStuck, hs, hx, ha]
  · change execSclStuck s = _
    rw [← busStuck_writing hal hw]
    simp [execSclStuck, hs, hx, ha]
  · change execBusFree s = _
    simp [execBusFree, hs, hc, ht]
  · rw [busIdle, startBackoff_held (s := { s with bus := { s.bus with busy := false, stopAt := none } }) ha hn]
  · rw [busStop, startBackoff_held (s := { s with bus := { s.bus with busy := true, stopAt := some (s.bsn, s.cycle) } }) ha hn]
  · change execBusFree s = _
    cases ha : s.events.alert <;> simp [execBusFree, hs, hc, ht, busIdle, startBackoff, modAlert, ha]

end Sys2Proof.Machine

namespace Sys2Proof.Machine

open Sys2Proof

/-! ## Alert writes (R444 to R448, R461, R463) -/

theorem recordBytes_length (r : EvRecord) : (recordBytes r).length = 16 := by
  simp [recordBytes, u8, u16, u32, leBytes_length]

theorem alertBytes_eq (s : State) (r : EvRecord) (more : Bool) :
    ∃ tail, alertBytes s r more = [0xA5#8, 0x5F#8, 0xFF#8, 0x00#8, 0x14#8, 0x00#8] ++ (recordBytes { r with alerted := true } ++
      tail) ∧ tail.length = 8 := by
  simp only [alertBytes, List.cons_append, List.append_assoc]
  exact ⟨_, rfl, by simp [u8, u32, zeros, leBytes_length]⟩

/-- The alert packet: its header, the record and 8 bytes more. -/
theorem alertBytes_layout (s : State) (r : EvRecord) (more : Bool) : (alertBytes s r more).length = 30 ∧
    (alertBytes s r more).take 6 = [0xA5#8, 0x5F#8, 0xFF#8, 0x00#8, 0x14#8, 0x00#8] ∧
    ((alertBytes s r more).drop 6).take 16 = recordBytes { r with alerted := true } := by
  obtain ⟨tail, he, hl⟩ := alertBytes_eq s r more
  have hr := recordBytes_length { r with alerted := true }
  rw [he]
  exact ⟨by simp [hr, hl], rfl, List.take_left' hr⟩

theorem alertWriting_of {s : State} {a : Alert} (ha : s.events.alert = some a) (hw : a.phase = .writing) :
    alertWriting s = true := by
  simp [alertWriting, ha, hw]

/-- A backoff is drawn from a free value and waits for the free bus. -/
theorem alertBackoff_of {s : State} {a : Alert} (ha : s.events.alert = some a) : alertBackoff s = { s with
    free := s.free + 1,
    events := { s.events with alert := some { a with
      phase := .held (Config.backoff s.free % 25), at_ := s.bsn, cyc := s.cycle } } } := by
  simp [alertBackoff, modAlert, nextFree, ha]

/-- A count touches the register words alone. -/
theorem addCount_frame (s : State) (r : Reg) (hi lo k : Nat) : addCount s r hi lo k =
    { s with regs := (addCount s r hi lo k).regs, rcNow := (addCount s r hi lo k).rcNow } := rfl

/-- The state after a failed attempt is counted. -/
def attemptFailed (s : State) : State :=
  modAlert (addCount (releaseBus s) .twCount2 23 16 1) (fun a => some { a with tries := a.tries + 1 })

theorem attemptFailed_eq {s : State} {a : Alert} (ha : s.events.alert = some a) : attemptFailed s =
    { addCount s .twCount2 23 16 1 with
      bus := { s.bus with controller := false, busy := true, stopAt := none },
      events := { s.events with alert := some { a with tries := a.tries + 1 } } } := by
  have h : attemptFailed s = { addCount s .twCount2 23 16 1 with
      bus := { s.bus with controller := false, busy := true, stopAt := none },
      events := { s.events with alert := s.events.alert.bind (fun a => some { a with tries := a.tries + 1 }) } } := rfl
  rw [h, ha]
  rfl

theorem attemptFailed_alert {s : State} {a : Alert} (ha : s.events.alert = some a) :
    (attemptFailed s).events.alert = some { a with tries := a.tries + 1 } := by
  rw [attemptFailed_eq ha]

/-- The backoff that follows a failed attempt. -/
theorem attemptFailed_backoff {s : State} {a : Alert} (ha : s.events.alert = some a) : alertBackoff (attemptFailed s) =
    { addCount s .twCount2 23 16 1 with
      free := s.free + 1, bus := { s.bus with controller := false, busy := true, stopAt := none },
      events := { s.events with alert := some { a with
        tries := a.tries + 1, phase := .held (Config.backoff s.free % 25), at_ := s.bsn, cyc := s.cycle } } } := by
  rw [alertBackoff_of (attemptFailed_alert ha), attemptFailed_eq ha]
  rfl

/-- A failed attempt backs off, or is the alert's last (R445). -/
theorem alertAttemptFail_eq {s : State} {a : Alert} (ha : s.events.alert = some a) {why : AlertFailure}
    (h : (alertWriting s || (why == .lineLow && alertWaiting s && alertEn s && busFree s)) = true) :
    exec (.alertAttemptFail why) s = .next (if twBits s.bus.effLimits 16 13 ≤ a.tries + 1 then
      raise (addCount (failStop why { attemptFailed s with events := { (attemptFailed s).events with
        alert := none, alertEnd := some (s.bsn, s.cycle) } }) .twCount2 15 8 1) 107 a.num
      else failStop why (alertBackoff (attemptFailed s))) := by
  change execAlertAttemptFail why s = _
  rw [execAlertAttemptFail, if_neg (by simp only [h, Bool.not_true, Bool.false_eq_true, not_false_eq_true])]
  change (match (attemptFailed s).events.alert with
    | none => Host.Outcome.next (attemptFailed s)
    | some a => _) = _
  rw [attemptFailed_alert ha]
  exact (apply_ite Host.Outcome.next _ _ _).symm

theorem backoff_le (k : Nat) : Config.backoff k % 25 ≤ 24 := Nat.le_of_lt_succ (Nat.mod_lt _ (by decide))

/-- Settles O35: the alert's rows move it between its phases, with the bus and the counts of its chapter. -/
theorem alertRowsAct : Obligations.AlertRowsAct := by
  intro s
  refine ⟨fun i r he ha hh hi hr => ⟨alertBytes s r (decide (1 < (s.events.fifo.filter alertable).length)), ?_,
      alertBytes_layout s r _⟩,
    fun a he ha hw hf hs hp hx => ?_, fun a ha hw => ?_, fun a ha hw htr => ?_,
    fun a why ha hw hwhy htr => ?_, fun a why ha hw htr => ?_, fun a n ha hn hover => ?_, fun a n ha hn hover => ?_,
    fun a n ha hn => ?_, fun a ha hw => ?_, fun a ha hw => ?_, fun hc => ?_, fun r hq hlen => ?_,
    fun x ha hw he hf htr => ?_⟩
  · change execAlertCompose s = _
    simp [execAlertCompose, he, ha, hh, hi, hr]
  · change execAlertWrite s = _
    have hwait : alertWaiting s = true := by simp [alertWaiting, ha, hw]
    simp [execAlertWrite, he, hwait, hf, hs, hp, hx, modAlert, ha]
  · change execAlertDelivered s = _
    simp [execAlertDelivered, alertWriting_of ha hw, busStop, releaseBus, startBackoff]
  · refine ⟨failStop .nack (alertBackoff (attemptFailed s)), Config.backoff s.free % 25, ?_, backoff_le _, ?_⟩
    · rw [alertAttemptFail_eq ha (by simp [alertWriting_of ha hw]), if_neg (by omega)]
    · rw [attemptFailed_backoff ha]
      exact ⟨rfl, rfl, rfl⟩
  · have hfail : ∀ t, failStop why t = t := fun t => if_neg hwhy
    refine ⟨alertBackoff (attemptFailed s), Config.backoff s.free % 25, ?_, backoff_le _, ?_⟩
    · rw [alertAttemptFail_eq ha (by simp [alertWriting_of ha hw]), if_neg (by omega), hfail]
    · rw [attemptFailed_backoff ha]
      exact ⟨rfl, rfl, rfl⟩
  · rw [alertAttemptFail_eq ha (by simp [alertWriting_of ha hw]), if_pos htr]
    rw [attemptFailed_eq ha]
    cases why <;> rfl
  · change execAlertBackoffEnd s = _
    have hover : (1000 + 125 * n) * Config.blockCycles + a.wait * 250 ≤ cyclesSince s a.at_ a.cyc * 250 := hover
    simp [execAlertBackoffEnd, ha, hn, hover, modAlert]
  · change execAlertBackoffEnd s = _
    have hover : ¬(1000 + 125 * n) * Config.blockCycles + a.wait * 250 ≤ cyclesSince s a.at_ a.cyc * 250 :=
      Nat.not_le.mpr hover
    simp [execAlertBackoffEnd, ha, hn, hover]
  · change execAlertBackoffEnd s = _
    simp [execAlertBackoffEnd, ha, hn]
  · refine ⟨alertBackoff (addCount (releaseBus s) .twCount 7 0 1), Config.backoff s.free % 25, ?_, backoff_le _, ?_, rfl, rfl,
      fun w rw => ?_⟩
    · change execArbitrationLost none s = _
      simp [execArbitrationLost, alertWriting_of ha hw]
    · rw [alertBackoff_of (s := addCount (releaseBus s) .twCount 7 0 1) ha]
      rfl
    · change execArbitrationLost (some (w, rw)) s = _
      simp [execArbitrationLost, alertWriting_of ha hw]
  · change execArbLate s = _
    simp [execArbLate, alertWriting_of ha hw, releaseBus]
  · change execAonQueueDrain s = _
    simp [execAonQueueDrain, hc]
  · simp [drainAon, hq, drainOne, hlen]
  · have hwait : alertWaiting s = true := by simp [alertWaiting, ha, hw]
    rw [alertAttemptFail_eq ha (by simp [hwait, he, hf]), if_pos htr, attemptFailed_eq ha]
    rfl

end Sys2Proof.Machine

namespace Sys2Proof.Machine

open Sys2Proof

/-! ## Replies write the ports alone -/

/-- A state that differs from another in its ports alone. -/
def PortsOnly (s t : State) : Prop := ∃ a b c, t = { s with spi := a, addrA := b, addrB := c }

theorem PortsOnly.refl (s : State) : PortsOnly s s := ⟨_, _, _, rfl⟩

theorem PortsOnly.trans {s t u : State} (h : PortsOnly s t) (h' : PortsOnly t u) : PortsOnly s u := by
  obtain ⟨a, b, c, rfl⟩ := h
  obtain ⟨a', b', c', rfl⟩ := h'
  exact ⟨a', b', c', rfl⟩

theorem modPort_portsOnly (s : State) (p : PortId) (f : Port → Port) : PortsOnly s (modPort s p f) := by
  cases p <;> exact ⟨_, _, _, rfl⟩

theorem completeJobs_portsOnly (s : State) (f : Job → Bool) (reply : Job → Status × List Byte) :
    PortsOnly s (completeJobs s f reply) :=
  List.foldlRecOn (findJobs s f) _ (motive := PortsOnly s) (PortsOnly.refl s)
    (fun _ ht x _ => ht.trans (modPort_portsOnly _ x.1 _))

theorem completeJob_portsOnly (s : State) (f : Job → Bool) (st : Status) (payload : List Byte) :
    PortsOnly s (completeJob s f st payload) := by
  unfold completeJob
  split
  · exact PortsOnly.refl s
  · exact modPort_portsOnly _ _ _

@[simp] theorem completeJobs_dports (s : State) (f : Job → Bool) (reply : Job → Status × List Byte) :
    (completeJobs s f reply).dports = s.dports := by
  obtain ⟨a, b, c, h⟩ := completeJobs_portsOnly s f reply
  rw [h]

@[simp] theorem completeJobs_regs (s : State) (f : Job → Bool) (reply : Job → Status × List Byte) :
    (completeJobs s f reply).regs = s.regs := by
  obtain ⟨a, b, c, h⟩ := completeJobs_portsOnly s f reply
  rw [h]

@[simp] theorem completeJobs_events (s : State) (f : Job → Bool) (reply : Job → Status × List Byte) :
    (completeJobs s f reply).events = s.events := by
  obtain ⟨a, b, c, h⟩ := completeJobs_portsOnly s f reply
  rw [h]

/-! ## Digital ports: reading one after a change of one (R241) -/

theorem dport_of_dports {s t : State} (h : t.dports = s.dports) (k : Nat) : dport t k = dport s k := by
  simp only [dport, h]

theorem dport_modDport_self {s : State} {k : Nat} (h : k < s.dports.length) (f : DPort → DPort) :
    dport (modDport s k f) k = f (dport s k) := by
  simp [dport, modDport, modAt, h]

theorem dport_modDport_ne (s : State) {k r : Nat} (h : r ≠ k) (f : DPort → DPort) : dport (modDport s k f) r = dport s r := by
  simp [dport, modDport, modAt, h.symm]

theorem modDport_modDport (s : State) (k : Nat) (f g : DPort → DPort) :
    modDport (modDport s k f) k g = modDport s k (fun d => g (f d)) := by
  simp only [modDport, modAt, List.modify_modify_eq]
  rfl

@[simp] theorem modDport_length (s : State) (k : Nat) (f : DPort → DPort) :
    (modDport s k f).dports.length = s.dports.length := by
  simp [modDport, modAt]

theorem lockRaised_dports (s : State) (k : Nat) (l : LockState) :
    (lockRaised s k l).dports = (modDport (dropHold s k) k (lockEntered (dropHold s k) k l)).dports := by
  unfold lockRaised
  dsimp only
  split
  · rw [raise_dports]
  · rfl

/-- A port that enters another lock state. -/
theorem enterLock_dports {s : State} {k : Nat} {l : LockState} (h : (dport s k).state ≠ l) :
    (enterLock s k l).dports = (modDport (dropHold s k) k (lockEntered (dropHold s k) k l)).dports := by
  rw [enterLock_eq, if_neg h, ← lockRaised_dports]
  split
  · rw [completeJobs_dports]
  · split
    · rw [completeJobs_dports]
    · rfl

theorem dport_enterLock_self {s : State} {k : Nat} {l : LockState} (hk : k < s.dports.length) (h : (dport s k).state ≠ l) :
    dport (enterLock s k l) k = lockEntered (dropHold s k) k l { dport s k with hold := none } := by
  rw [dport_of_dports (enterLock_dports h), dport_modDport_self (by simpa [dropHold] using hk), dropHold,
    dport_modDport_self hk]

theorem dport_enterLock_ne (s : State) {k r : Nat} (h : r ≠ k) (l : LockState) : dport (enterLock s k l) r = dport s r := by
  by_cases hl : (dport s k).state = l
  · rw [enterLock_eq, if_pos hl, dport_modDport_ne _ h, dropHold, dport_modDport_ne _ h]
  · rw [dport_of_dports (enterLock_dports hl), dport_modDport_ne _ h, dropHold, dport_modDport_ne _ h]

@[simp] theorem enterLock_regs (s : State) (k : Nat) (l : LockState) : (enterLock s k l).regs = s.regs := by
  have hr : (lockRaised s k l).regs = s.regs := by
    unfold lockRaised
    dsimp only
    split
    · rw [raise_regs]
      rfl
    · rfl
  rw [enterLock_eq]
  split
  · rfl
  · split
    · rw [completeJobs_regs, hr]
    · split
      · rw [completeJobs_regs, hr]
      · exact hr

/-- No event tells of a change between states other than LOCKED (R242). -/
theorem lockRaised_quiet {s : State} {k : Nat} {l : LockState} (h : (dport s k).state ≠ .locked) (hl : l ≠ .locked) :
    lockRaised s k l = modDport (dropHold s k) k (lockEntered (dropHold s k) k l) := by
  simp [lockRaised, h, hl]

theorem enterLock_events {s : State} {k : Nat} {l : LockState} (h : (dport s k).state ≠ .locked) (hl : l ≠ .locked) :
    (enterLock s k l).events = s.events := by
  rw [enterLock_eq, lockRaised_quiet h hl]
  split
  · rfl
  · split
    · rw [completeJobs_events]
      rfl
    · split
      · rw [completeJobs_events]
        rfl
      · rfl

/-! ## A configuration word is written (R228, R248) -/

@[simp] theorem setRoot_dports (s : State) (r : RootState) : (setRoot s r).dports = s.dports := by
  by_cases h : s.clock.state = r
  · simp only [setRoot, h, if_true]
  · simp only [setRoot, h, if_false, raise_dports, modClock]

@[simp] theorem refLost_dports (s : State) : (refLost s).dports = s.dports := by
  unfold refLost
  dsimp only
  split
  · rfl
  · split
    · rw [raise_dports, setRoot_dports]; rfl
    · rw [raise_dports, setRoot_dports]; rfl
    · rw [raise_dports, setRoot_dports]; rfl
    · split
      · rw [raise_dports]; rfl
      · rfl
    · rfl

@[simp] theorem refPortCheck_dports (s : State) (k : Nat) : (refPortCheck s k).dports = s.dports := by
  unfold refPortCheck
  split
  · exact refLost_dports s
  · rfl

theorem refPortCheck_other {s : State} {k : Nat} (h : refSrc s ≠ k + 2) : refPortCheck s k = s :=
  if_neg (fun hc => h hc.1)

/-- The port configuration words stand apart from the root's. -/
theorem refSrc_wr_portCfg (s : State) (p : Fin 7) (v : Nat) : refSrc (wr s (portCfg p) v) = refSrc s := by
  have ha : Reg.rootCfg.addr ≠ (portCfg p).addr := by decide +revert
  rw [refSrc, refSrc, rd_wr_other _ _ _ _ ha]

/-- A configuration word is written on a port that is not the reference. -/
theorem applyPortCfg_other {s : State} {p : Fin 7} {v : Nat} (h : refSrc s ≠ p.val + 2) (hne : rd s (portCfg p) ≠ v) :
    applyPortCfg s p v = match bit (rd s (portCfg p)) 0, bit v 0 with
      | false, false => wr s (portCfg p) v
      | false, true => portStart (wr s (portCfg p) v) p
      | true, false => portStop (wr s (portCfg p) v) p
      | true, true => portRestartWord (wr s (portCfg p) v) p (rd s (portCfg p)) := by
  have hr : refPortCheck (wr s (portCfg p) v) p = wr s (portCfg p) v :=
    refPortCheck_other (by rw [refSrc_wr_portCfg]; exact h)
  simp only [applyPortCfg, hr, hne, if_false] <;> rfl

theorem bit_succ {v : Nat} (h : bit v 0 = false) : bit (v + 1) 0 = true := by
  simp [bit] at *
  omega

theorem bit_pred {v : Nat} (h : bit v 0 = true) : bit (v - 1) 0 = false ∧ v ≠ v - 1 := by
  simp [bit] at *
  omega

/-! ## A port is enabled, stopped and configured (R228, R248) -/

theorem portStop_self {s : State} {k : Nat} (hk : k < s.dports.length) :
    (dport (portStop s k) k).state = .off ∧ (dport (portStop s k) k).ramp = Ramp.zero ∧ (dport (portStop s k) k).rate = 0 ∧
      (dport (portStop s k) k).preamble = false ∧ (dport (portStop s k) k).clkPin = .input ∧
      ((dport s k).state ≠ .off → (dport (portStop s k) k).tx = []) := by
  have hl : k < (enterLock s k .off).dports.length := by
    by_cases h : (dport s k).state = .off
    · rw [enterLock_eq, if_pos h, modDport_length, dropHold, modDport_length]
      exact hk
    · rw [enterLock_dports h, modDport_length, dropHold, modDport_length]
      exact hk
  rw [portStop, dport_modDport_self hl]
  by_cases h : (dport s k).state = .off
  · have hd : dport (enterLock s k .off) k = { dport s k with hold := none, next := none, clkPin := .input } := by
      rw [enterLock_eq, if_pos h, dport_modDport_self (by rw [dropHold, modDport_length]; exact hk), dropHold,
        dport_modDport_self hk]
      simp [clockPinOf]
    rw [hd]
    exact ⟨h, rfl, rfl, rfl, rfl, fun hn => absurd h hn⟩
  · rw [dport_enterLock_self hk h]
    exact ⟨rfl, rfl, rfl, rfl, by simp [lockEntered, clockPinOf], fun _ => rfl⟩

theorem portStop_other (s : State) {k r : Nat} (h : r ≠ k) : dport (portStop s k) r = dport s r := by
  rw [portStop, dport_modDport_ne _ h, dport_enterLock_ne _ h]

@[simp] theorem portStop_regs (s : State) (k : Nat) : (portStop s k).regs = s.regs :=
  enterLock_regs s k .off

/-- Clock activity moves a port that is not LOCKED to another state. -/
theorem enterLock_moves {s : State} {k : Nat} {l : LockState} (hk : k < s.dports.length) (h : (dport s k).state ≠ l) :
    (dport (enterLock s k l) k).state = l ∧ (dport (enterLock s k l) k).changed = s.bsn := by
  rw [dport_enterLock_self hk h]
  exact ⟨rfl, rfl⟩

/-- A port ramps out over 48 frames. -/
theorem portLose_sounding {s : State} {p : Nat} (hs : portSounds s p = true) (hn : (dport s p).next = none) (left : Bool) :
    portLose s p left = modDport s p (fun d => { d with
      stopAt := d.stopAt.orElse (fun _ => some (s.bsn, s.cycle)), ramp := rampDown d.ramp 48 s.bsn (frameOf s),
      next := some (if left then .acquire else .noClock) }) := by
  rw [portLose, if_neg (by simp [hn]), if_pos hs, portCutoff, rampPortOut, modDport_modDport, modDport_modDport]
  rfl

/-- A port that enters NO_CLOCK without the event of R242 changes alone. -/
theorem enterLock_noClock {s : State} {p : Nat} (h : (dport s p).state ≠ .noClock) (hl : (dport s p).state ≠ .locked) :
    enterLock s p .noClock = modDport (dropHold s p) p (lockEntered (dropHold s p) p .noClock) := by
  rw [enterLock_eq, if_neg h, if_neg (by decide), if_neg (by decide), lockRaised_quiet hl (by decide)]

/-- Settles O36: a word written on a port that is not the root's reference starts, stops or restarts the port, and the lock
states follow it. -/
theorem portConfigurationRowsAct : Obligations.PortConfigurationRowsAct := by
  intro s p hp
  refine ⟨fun hc h0 hr hok => ?_, fun hc h0 => ?_, fun value v hc hv hen h0 hr hok => ⟨?_, fun hne href hck => ?_⟩,
    fun value hc => ⟨?_, ?_, ?_⟩, fun hs hn => portLose_sounding hs hn true, fun hst hck hsrc => ?_, fun hst => ?_,
    fun h1 h2 => ?_, fun output ch value v hc hv hok hd hne => ?_, fun output ch value hv => ?_, fun ch value v hv hbad => ?_⟩
  · refine ⟨applyPortCfg s p (rd s (portCfg p) + 1), ?_, fun href hst => ?_⟩
    · change execPortEnable p s = _
      simp [execPortEnable, fieldStep, h0, hr, hok, hc]
    · have hb := bit_succ h0
      rw [applyPortCfg_other href (by omega), h0, hb]
      have hoff : (dport (modDport (wr s (portCfg p) (rd s (portCfg p) + 1)) p
          (fun d => { d with ramp := Ramp.zero, rate := 0, measured := 0, ppm := 0 })) p).state = .off := by
        rw [dport_modDport_self (by simpa using hp)]
        exact hst
      have hl : (if ckSys s && sourceRuns (wr s (portCfg p) (rd s (portCfg p) + 1)) p then LockState.acquire else .noClock) ≠ .off := by
        split <;> decide
      have hnl : (if ckSys s && sourceRuns (wr s (portCfg p) (rd s (portCfg p) + 1)) p then LockState.acquire else .noClock) ≠
          .locked := by
        split <;> decide
      have hself := dport_enterLock_self (s := modDport (wr s (portCfg p) (rd s (portCfg p) + 1)) p
          (fun d => { d with ramp := Ramp.zero, rate := 0, measured := 0, ppm := 0 })) (by simpa using hp)
          (by rw [hoff]; exact hl.symm)
      rw [dport_modDport_self (by simpa using hp)] at hself
      simp only [portStart]
      refine ⟨enterLock_regs _ _ _, ?_, ?_, ?_, ?_, ?_, ?_, fun r hr' => ?_⟩
      · rw [show ckSys (wr s (portCfg p) (rd s (portCfg p) + 1)) = ckSys s from rfl, hself]
        rfl
      · rw [show ckSys (wr s (portCfg p) (rd s (portCfg p) + 1)) = ckSys s from rfl, hself]
        rfl
      · rw [show ckSys (wr s (portCfg p) (rd s (portCfg p) + 1)) = ckSys s from rfl, hself]
        rfl
      · rw [show ckSys (wr s (portCfg p) (rd s (portCfg p) + 1)) = ckSys s from rfl, hself]
        rfl
      · rw [show ckSys (wr s (portCfg p) (rd s (portCfg p) + 1)) = ckSys s from rfl, hself]
        rfl
      · exact enterLock_events (by rw [hoff]; decide) hnl
      · rw [dport_enterLock_ne _ hr', dport_modDport_ne _ hr']
        rfl
  · obtain ⟨hb, hne⟩ := bit_pred h0
    have heq : applyPortCfg s p (rd s (portCfg p) - 1) = portStop (refPortCheck (wr s (portCfg p) (rd s (portCfg p) - 1)) p) p := by
      simp only [applyPortCfg, if_neg hne, h0, hb]
    have hd : dport (refPortCheck (wr s (portCfg p) (rd s (portCfg p) - 1)) p) p = dport s p :=
      dport_of_dports (by rw [refPortCheck_dports, wr_dports]) p
    obtain ⟨hstate, hramp, hrate, hpre, hpin, htx⟩ := portStop_self
      (s := refPortCheck (wr s (portCfg p) (rd s (portCfg p) - 1)) p) (k := p) (by rw [refPortCheck_dports, wr_dports]; exact hp)
    rw [hd] at htx
    refine ⟨portStop (refPortCheck (wr s (portCfg p) (rd s (portCfg p) - 1)) p) p, ?_, hstate, hramp, hrate, hpre, hpin, htx,
      fun href => ?_⟩
    · change execPortDisable p s = _
      simp [execPortDisable, fieldStep, h0, hc, heq]
    · rw [refPortCheck_other (by rw [refSrc_wr_portCfg]; exact href)]
      refine ⟨portStop_regs _ _, fun r hr => ?_⟩
      rw [portStop_other _ hr]
      exact dport_of_dports (wr_dports _ _ _) r
  · change execPortConfigChange p value s = _
    simp only [execPortConfigChange, ← hv, hen, h0, hr, hok, fieldStep, hc]
    rfl
  · have hold : bit (rd s (portCfg p)) 0 = true := hen
    rw [applyPortCfg_other href hne, hold, h0]
    exact if_neg (by change ¬ (!ckSys s) = true; simp [hck])
  · change execPortDisable p s = _
    simp [execPortDisable, fieldStep, hc]
  · change execPortEnable p s = _
    simp [execPortEnable, fieldStep, hc]
  · change execPortConfigChange p value s = _
    simp [execPortConfigChange, fieldStep, hc]
  · have hne : (dport s p).state ≠ .acquire := by simp [hst]
    obtain ⟨hstate, hchanged⟩ := enterLock_moves hp hne
    refine ⟨enterLock s p .acquire, ?_, hstate, hchanged, ?_, ?_, enterLock_regs _ _ _,
      enterLock_events (by simp [hst]) (by decide), fun r hr => dport_enterLock_ne _ hr _⟩
    · change execPortClockFound p s = _
      simp [execPortClockFound, portIs, hst, hck, hsrc]
    · rw [dport_enterLock_self hp hne]
      simp [lockEntered]
    · rw [dport_enterLock_self hp hne]
      simp [lockEntered]
  · have hne : (dport s p).state ≠ .noClock := by rcases hst with h | h <;> simp [h]
    have hnl : (dport s p).state ≠ .locked := by rcases hst with h | h <;> simp [h]
    obtain ⟨hstate, hchanged⟩ := enterLock_moves hp hne
    refine ⟨enterLock s p .noClock, ?_, ?_, hstate, hchanged, ?_, fun r hr => dport_enterLock_ne _ hr _⟩
    · change execPortClockLost p s = _
      rcases hst with h | h <;> simp [execPortClockLost, portIs, h]
    · rw [enterLock_noClock hne hnl]
      rfl
    · rw [dport_enterLock_self hp hne]
      rfl
  · change execPortClockLost p s = _
    simp [execPortClockLost, portIs, h1, h2]
  · change execChannelMapChange output ch value s = _
    cases output
    · simp_all [execChannelMapChange, fieldStep, applyMap]
    · simp_all [execChannelMapChange, fieldStep, applyMap]
  · change execChannelMapChange output ch value s = _
    cases output
    · simp_all [execChannelMapChange, fieldStep, applyMap]
    · simp_all [execChannelMapChange, fieldStep, applyMap]
  · change execChannelMapChange true ch value s = _
    simp only [execChannelMapChange, if_true, ← hv]
    rcases hbad with h | h <;> simp [h]

end Sys2Proof.Machine

namespace Sys2Proof.Machine

open Sys2Proof

/-! ## Lock states, errors and captured channel status (R233, R241 to R246) -/

theorem findJobs_raise (s : State) (n p : Nat) (f : Job → Bool) : findJobs (raise s n p) f = findJobs s f := by
  rw [raise_frame]
  rfl

theorem findJobs_lockRaised (s : State) (k : Nat) (l : LockState) (f : Job → Bool) :
    findJobs (lockRaised s k l) f = findJobs s f := by
  unfold lockRaised
  dsimp only
  split
  · exact findJobs_raise _ _ _ _
  · rfl

theorem completeJobs_none {s : State} {f : Job → Bool} (h : findJobs s f = []) (reply : Job → Status × List Byte) :
    completeJobs s f reply = s := by
  simp [completeJobs, h]

theorem completeJobs_one {s : State} {f : Job → Bool} {q : PortId} {o : Outstanding} (h : findJobs s f = [(q, o)])
    (reply : Job → Status × List Byte) :
    completeJobs s f reply = finalReply s q o.tag o.op (reply o.job).1 (reply o.job).2 := by
  simp [completeJobs, h]

/-- A port leaves or enters LOCKED, and no PORT_RESTART waits for it. -/
theorem enterLock_alone {s : State} {k : Nat} {l : LockState} (h : (dport s k).state ≠ l)
    (hj : findJobs s (isPortRestart k) = [] ∨ l ≠ .acquire ∧ l ≠ .off) : enterLock s k l = lockRaised s k l := by
  have hnone (reply : Job → Status × List Byte) (hj : findJobs s (isPortRestart k) = []) :
      completeJobs (lockRaised s k l) (isPortRestart k) reply = lockRaised s k l :=
    completeJobs_none (by rw [findJobs_lockRaised]; exact hj) reply
  rw [enterLock_eq, if_neg h]
  rcases hj with hj | ⟨ha, ho⟩
  · simp only [hnone _ hj, ite_self]
  · rw [if_neg ha, if_neg ho]

theorem lockRaised_heard {s : State} {k : Nat} {l : LockState} (h : (dport s k).state = .locked ∨ l = .locked) :
    lockRaised s k l = raise (modDport (dropHold s k) k (lockEntered (dropHold s k) k l)) (1 + k)
      (lockCode l + (dport s k).rate * 16) := by
  simp only [lockRaised, if_pos h]

/-- What a change of a port leaves of its lock state. -/
theorem modDport_keeps {α : Type} {g : DPort → α} {f : DPort → DPort} (h : ∀ d, g (f d) = g d) (s : State) (k r : Nat) :
    g (dport (modDport s k f) r) = g (dport s r) := by
  by_cases hr : r = k
  · subst hr
    by_cases hl : r < s.dports.length
    · rw [dport_modDport_self hl, h]
    · have hl' : s.dports.length ≤ r := by omega
      simp [dport, modDport, modAt, hl']
  · rw [dport_modDport_ne _ hr]

theorem addCount_dports (s : State) (r : Reg) (hi lo k : Nat) : (addCount s r hi lo k).dports = s.dports := by
  rw [addCount_frame]

theorem portAdd_tdm (s : State) (p : Fin 4) (hi lo : Nat) : portAdd s p hi lo = addCount s (.tpCount p) hi lo 1 := by
  have h : p.val < 4 := p.isLt
  simp [portAdd, portCount, h]

theorem portAdd_spdifIn (s : State) (r : Fin 2) (hi lo : Nat) :
    portAdd s (4 + r.val) hi lo = addCount s (.spiCnt r) hi lo 1 := by
  have h : 4 + r.val < 6 := by omega
  simp [portAdd, portCount, h]

/-- A port that is cut off and ramps out over 48 frames, under the configuration word written last. -/
def portMuting (s : State) (k : Nat) : State := dropHold (portCutoff (rampPortOut s k) k) k

theorem portMuting_eq (s : State) (k : Nat) : portMuting s k = modDport s k (fun d => { d with
    ramp := rampDown d.ramp 48 s.bsn (frameOf s), stopAt := d.stopAt.orElse (fun _ => some (s.bsn, s.cycle)),
    hold := none }) := by
  rw [portMuting, dropHold, portCutoff, rampPortOut, modDport_modDport, modDport_modDport]
  rfl

theorem dportsOnly_trans {s t u : State} (h : t = { s with dports := t.dports }) (h' : u = { t with dports := u.dports }) :
    u = { s with dports := u.dports } := by
  rw [h] at h'
  exact h'

theorem portMuting_frame (s : State) (k : Nat) (f : DPort → DPort) :
    modDport (portMuting s k) k f = { s with dports := (modDport (portMuting s k) k f).dports } := rfl

/-- A receiver mutes as non-PCM (R245). -/
theorem nonpcmMute_locked {s : State} {k : Nat} (h : (dport s k).state = .locked) :
    nonpcmMute s k = raise (modDport (portMuting s k) k (lockEntered (portMuting s k) k .nonpcm)) (1 + k)
      (4 + (dport s k).rate * 16) := by
  have hcut : portCutoff (rampPortOut s k) k = modDport s k (fun d => { d with
      ramp := rampDown d.ramp 48 s.bsn (frameOf s), stopAt := d.stopAt.orElse (fun _ => some (s.bsn, s.cycle)) }) := by
    rw [portCutoff, rampPortOut, modDport_modDport]
    rfl
  have hst : (dport (portCutoff (rampPortOut s k) k) k).state = .locked := by
    rw [hcut]
    refine (modDport_keeps (g := DPort.state) ?_ s k k).trans h
    exact fun _ => rfl
  have hrate : (dport (portCutoff (rampPortOut s k) k) k).rate = (dport s k).rate := by
    rw [hcut]
    refine modDport_keeps (g := DPort.rate) ?_ s k k
    exact fun _ => rfl
  rw [nonpcmMute, if_pos (by simp [portIs, h]), enterLock_alone (by simp [hst]) (.inr (by decide)), lockRaised_heard (.inl hst),
    hrate]
  rfl

theorem nonpcmMute_other {s : State} {k : Nat} (h : (dport s k).state ≠ .locked) : nonpcmMute s k = s :=
  if_neg (by simp [portIs, h])

theorem dport_nonpcmMute_self {s : State} {k : Nat} (hk : k < s.dports.length) (h : (dport s k).state = .locked) :
    dport (nonpcmMute s k) k = lockEntered (portMuting s k) k .nonpcm { dport s k with
      ramp := rampDown (dport s k).ramp 48 s.bsn (frameOf s),
      stopAt := (dport s k).stopAt.orElse (fun _ => some (s.bsn, s.cycle)), hold := none } := by
  have hl : k < (portMuting s k).dports.length := by rw [portMuting_eq, modDport_length]; exact hk
  rw [nonpcmMute_locked h, dport_of_dports (raise_dports _ _ _), dport_modDport_self hl]
  congr 1
  rw [portMuting_eq, dport_modDport_self hk]

theorem dport_nonpcmMute_ne (s : State) {k r : Nat} (hr : r ≠ k) : dport (nonpcmMute s k) r = dport s r := by
  by_cases h : (dport s k).state = .locked
  · rw [nonpcmMute_locked h, dport_of_dports (raise_dports _ _ _), dport_modDport_ne _ hr, portMuting_eq, dport_modDport_ne _ hr]
  · rw [nonpcmMute_other h]

@[simp] theorem nonpcmMute_regs (s : State) (k : Nat) : (nonpcmMute s k).regs = s.regs := by
  by_cases h : (dport s k).state = .locked
  · rw [nonpcmMute_locked h, raise_regs]
    rfl
  · rw [nonpcmMute_other h]

/-- A block of channel status taken in a receiver that had none (R246). -/
theorem execSpdifBlockCapture_first {s : State} {r : Fin 2} (a b : List Byte)
    (h : (dport s (4 + r)).state = .acquire ∨ (dport s (4 + r)).state = .locked ∨ (dport s (4 + r)).state = .nonpcm)
    (hv : (dport s (4 + r)).csValid = false) (other : Bool)
    (ho : other = (bit (leField (cs24 a) 0 1) 1 || bit (leField (cs24 b) 0 1) 1)) (t : State)
    (ht : t = modDport s (4 + r) (fun d => { d with
        csA := cs24 a, csB := cs24 b, csBsn := s.bsn, csValid := true, parity := 0, nonpcmCs := other, fsBad := fsMismatch { d with
          csA := cs24 a, csB := cs24 b, csBsn := s.bsn, csValid := true, parity := 0, nonpcmCs := other } })) :
    execSpdifBlockCapture r a b s = .next (if other then nonpcmMute t (4 + r) else t) := by
  have hg : (!(portIs s (4 + r) .acquire || portIs s (4 + r) .locked || portIs s (4 + r) .nonpcm)) = false := by
    rcases h with h | h | h <;> simp [portIs, h]
  subst ht ho
  simp only [execSpdifBlockCapture, hg, hv]
  rfl

/-- Settles O37: each row is read off the port's change on entering a lock state, on losing it or on muting. -/
theorem portLockRowsAct : Obligations.PortLockRowsAct := by
  intro s
  refine ⟨fun p rate ppm ns hp hst hsrc hl => ?_, fun p rate ppm ns hst hsrc hl => ?_, fun p rate ppm ns hsrc => ?_,
    fun p why left hst => ?_, fun p left hs hn => portLose_sounding hs hn left, fun p left hs hn => ?_,
    fun p l hp hst hl hj => ?_, fun p q o hj hst => ?_, fun p again hen hd hst => ?_, fun p hen => ?_,
    fun r bi t hst ht => ?_, fun r pre hp hst => ?_, fun r hst => ?_, fun r h => ?_, fun r hp hst hcs hq => ?_,
    fun r a b other hp hst hv ho => ?_⟩
  · have hm := dport_modDport_self hp (fun d => { d with
      rate := rate.val, measured := rate.val, ppm := ppm, delay := min ns 0xFFFFFF, ramp := rampFull true 480 s.bsn (frameOf s) })
    generalize hx : modDport s p.val (fun d => { d with
      rate := rate.val, measured := rate.val, ppm := ppm, delay := min ns 0xFFFFFF,
      ramp := rampFull true 480 s.bsn (frameOf s) }) = x at hm
    have hst' : (dport x p).state ≠ .locked := by simp [hm, hst]
    have hpx : p.val < x.dports.length := by rw [← hx, modDport_length]; exact hp
    have hself : dport (modDport (dropHold x p) p (lockEntered (dropHold x p) p .locked)) p =
        lockEntered (dropHold x p) p .locked { dport x p with hold := none } := by
      rw [dport_modDport_self (by rw [dropHold, modDport_length]; exact hpx), dropHold, dport_modDport_self hpx]
    rw [hm] at hself
    refine ⟨modDport (dropHold x p) p (lockEntered (dropHold x p) p .locked), ?_, ?_, ?_, ?_, ?_, ?_, ?_, ?_, ?_, ?_, fun r hr => ?_⟩
    · change execPortLock p rate ppm ns s = _
      rw [execPortLock, if_neg (by simp [portIs, hst, hsrc]), if_pos hl]
      simp only [hx]
      rw [enterLock_alone hst' (.inr (by decide)), lockRaised_heard (.inr rfl), hm]
      rfl
    · rw [← hx]
      rfl
    · rw [hself]
      rfl
    · rw [hself]
      rfl
    · rw [hself]
      rfl
    · rw [hself]
      rfl
    · rw [hself]
      rfl
    · rw [hself, ← hx]
      rfl
    · rw [hself]
      rfl
    · rw [hself]
      rfl
    · rw [dport_modDport_ne _ hr, dropHold, dport_modDport_ne _ hr, ← hx, dport_modDport_ne _ hr]
  · change execPortLock p rate ppm ns s = _
    rw [execPortLock, if_neg (by simp [portIs, hst, hsrc]), if_neg (by simp [hl])]
  · change execPortLock p rate ppm ns s = _
    rw [execPortLock, if_pos (by simp [hsrc])]
  · change execPortLockLoss p why left s = _
    have hsix : (p.val < 4 ∨ p.val = 6) ↔ ¬ (4 ≤ p.val ∧ p.val < 6) := by omega
    by_cases h : 4 ≤ p.val ∧ p.val < 6 <;> cases why <;> simp only [execPortLockLoss, portIs, hst, hsix, h] <;> rfl
  · rw [portLose, if_neg (by simp [hn]), if_neg (by simp [hs])]
  · have hne : (dport s p).state ≠ l := by rw [hst]; exact hl.symm
    have hself : dport (modDport (dropHold s p) p (lockEntered (dropHold s p) p l)) p =
        lockEntered (dropHold s p) p l { dport s p with hold := none } := by
      rw [dport_modDport_self (by rw [dropHold, modDport_length]; exact hp), dropHold, dport_modDport_self hp]
    refine ⟨modDport (dropHold s p) p (lockEntered (dropHold s p) p l), ?_, rfl, ?_, ?_, ?_, ?_, fun r hr => ?_⟩
    · rw [enterLock_alone hne (.inl hj), lockRaised_heard (.inl hst)]
    · rw [hself]
      rfl
    · rw [hself]
      rfl
    · rw [hself]
      rfl
    · rw [hself]
      exact if_neg hl
    · rw [dport_modDport_ne _ hr, dropHold, dport_modDport_ne _ hr]
  · refine ⟨modDport (dropHold s p) p (lockEntered (dropHold s p) p .acquire), ?_, rfl⟩
    rw [enterLock_eq, if_neg (by simp [hst]), if_pos rfl, completeJobs_one (by rw [findJobs_lockRaised]; exact hj),
      lockRaised_quiet (by simp [hst]) (by decide)]
  · have hp4 : p.val < 4 := p.isLt
    have hen' : portEn s p = true := by simpa [portEn, portCfg, hp4] using hen
    have hlk : portIs (addCount s (.tpCount p) 7 0 1) p .locked = portIs s p .locked := by
      simp [portIs, dport, addCount_dports]
    change execFramingError p again s = _
    rw [execFramingError, if_neg (by rcases hst with h | h <;> simp [hen', hd, portIs, h])]
    simp only [portAdd_tdm, hlk]
    by_cases h : again = true ∧ (dport s p).state = .locked
    · simp [h, portIs]
    · rw [if_neg (by simpa [portIs] using h), if_neg h]
  · have hp4 : p.val < 4 := p.isLt
    have hen' : portEn s p = false := by simpa [portEn, portCfg, hp4] using hen
    change execFramingError p true s = _
    rw [execFramingError, if_pos (by simp [hen'])]
  · change execSpdifParityError r bi s = _
    have hg : (!(portIs s (4 + r) .acquire || portIs s (4 + r) .locked || portIs s (4 + r) .nonpcm)) = false := by
      rcases hst with h | h | h <;> simp [portIs, h]
    have hlk : (dport t (4 + r)).state = (dport s (4 + r)).state := by
      rw [ht]
      refine (modDport_keeps (g := DPort.state) ?_ _ _ _).trans ?_
      · exact fun _ => rfl
      · cases bi <;> simp [dport, addCount_dports]
    simp only [execSpdifParityError, hg, portAdd_spdifIn]
    refine congrArg Host.Outcome.next ?_
    rw [← ht, parityCheck, portIs, hlk]
    simp
  · have hp' : 4 + r.val < s.dports.length := hp
    generalize hx : modDport s (4 + r.val) (fun d => { d with
      preamble := d.preamble || pre, preSince := if pre then -(framesSoFar s d : Int) else d.preSince,
      quiet := -(framesSoFar s d : Int), nonpcmCs := d.nonpcmCs || !pre }) = x
    have hm : dport x (4 + r.val) = _ := hx ▸ dport_modDport_self hp' _
    have hst' : (dport x (4 + r.val)).state = .locked := by rw [hm]; exact hst
    have hpx : 4 + r.val < x.dports.length := by rw [← hx, modDport_length]; exact hp
    have hself := dport_nonpcmMute_self hpx hst'
    rw [nonpcmMute_locked hst', dport_of_dports (raise_dports _ _ _)] at hself
    refine ⟨modDport (portMuting x (4 + r)) (4 + r) (lockEntered (portMuting x (4 + r)) (4 + r) .nonpcm), ?_, ?_, ?_, ?_, ?_, ?_,
      fun k hk => ?_⟩
    · change execSpdifNonpcm r pre s = _
      rw [execSpdifNonpcm, if_neg (by simp [portIs, hst])]
      simp only [hx]
      rw [nonpcmMute_locked hst', hm, show 1 + (4 + r.val) = 5 + r.val by omega]
    · refine dportsOnly_trans (t := x) ?_ (portMuting_frame x _ _)
      rw [← hx]
      rfl
    · rw [hself]
      rfl
    · rw [hself, hm, ← hx]
      rfl
    · rw [hself, hm]
      rfl
    · rw [hself, hm, ← hx]
      rfl
    · rw [dport_modDport_ne _ hk, portMuting_eq, dport_modDport_ne _ hk, ← hx, dport_modDport_ne _ hk]
  · change execSpdifNonpcm r true s = _
    rw [execSpdifNonpcm, if_neg (by simp [portIs, hst])]
    refine congrArg Host.Outcome.next ((nonpcmMute_other ?_).trans ?_)
    · refine ne_of_eq_of_ne (modDport_keeps (g := DPort.state) ?_ _ _ _) ?_
      · exact fun _ => rfl
      · simp [hst]
    · simp
  · change execSpdifNonpcmExit r s = _
    rw [execSpdifNonpcmExit, if_neg]
    rcases h with h | h
    · simp [nonpcmOver, h]
    · simp [nonpcmOver, h]
  · have hp' : 4 + r.val < s.dports.length := hp
    generalize hx : modDport s (4 + r.val) (fun d => { d with preamble := false }) = x
    have hm : dport x (4 + r.val) = _ := hx ▸ dport_modDport_self hp' _
    have hst' : (dport x (4 + r.val)).state = .nonpcm := by rw [hm]; exact hst
    have hself := dport_enterLock_self (s := x) (k := 4 + r.val) (l := .acquire)
      (by rw [← hx, modDport_length]; exact hp) (by simp [hst'])
    refine ⟨enterLock x (4 + r) .acquire, ?_, ?_, ?_, ?_, ?_, ?_, fun k hk => ?_⟩
    · change execSpdifNonpcmExit r s = _
      rw [execSpdifNonpcmExit, if_pos (by simp [portIs, hst, nonpcmOver, hcs, hq])]
      simp only [hx]
    · rw [hself]
      rfl
    · rw [hself, hm]
      rfl
    · rw [hself]
      simp [lockEntered]
    · rw [enterLock_regs, ← hx]
      rfl
    · rw [enterLock_events (by simp [hst']) (by decide), ← hx]
      rfl
    · rw [dport_enterLock_ne _ hk, ← hx, dport_modDport_ne _ hk]
  · have hp' : 4 + r.val < s.dports.length := hp
    generalize hx : modDport s (4 + r.val) (fun d => { d with
      csA := cs24 a, csB := cs24 b, csBsn := s.bsn, csValid := true, parity := 0, nonpcmCs := other, fsBad := fsMismatch { d with
        csA := cs24 a, csB := cs24 b, csBsn := s.bsn, csValid := true, parity := 0, nonpcmCs := other } }) = x
    have hm : dport x (4 + r.val) = _ := hx ▸ dport_modDport_self hp' _
    have hst' : (dport x (4 + r.val)).state = (dport s (4 + r.val)).state := by rw [hm]
    have hpx : 4 + r.val < x.dports.length := by rw [← hx, modDport_length]; exact hp
    have hframe (k : Nat) (hk : k ≠ 4 + r.val) : dport x k = dport s k := by rw [← hx, dport_modDport_ne _ hk]
    have hregs : x.regs = s.regs := by rw [← hx]; rfl
    refine ⟨if other then nonpcmMute x (4 + r) else x, ?_, ?_⟩
    · change execSpdifBlockCapture r a b s = _
      exact execSpdifBlockCapture_first a b hst hv other ho x hx.symm
    · by_cases hmute : other = true ∧ (dport s (4 + r.val)).state = .locked
      · obtain ⟨hother, hlock⟩ := hmute
        have hself := dport_nonpcmMute_self hpx (hst'.trans hlock)
        rw [if_pos hother, hself, hm]
        refine ⟨rfl, rfl, rfl, rfl, rfl, ?_, (nonpcmMute_regs x _).trans hregs, ?_, fun k hk => ?_⟩
        · simp [lockEntered]
        · rw [if_pos ⟨hother, hlock⟩]
          rfl
        · rw [dport_nonpcmMute_ne _ hk, hframe k hk]
      · have hsame : (if other then nonpcmMute x (4 + r.val) else x) = x := by
          by_cases hother : other = true
          · rw [if_pos hother, nonpcmMute_other (by rw [hst']; exact fun h => hmute ⟨hother, h⟩)]
          · rw [if_neg hother]
        rw [hsame, hm]
        exact ⟨rfl, rfl, rfl, rfl, rfl, rfl, hregs, (if_neg hmute).symm, hframe⟩

end Sys2Proof.Machine

namespace Sys2Proof.Machine

open Sys2Proof

/-! ## The root's states (R364 to R373) -/

theorem setRoot_enters {s : State} {r : RootState} (h : s.clock.state ≠ r) : setRoot s r =
    raise { s with clock := { s.clock with state := r, changed := s.bsn } } 96 (rootCode r + rootCode s.clock.state * 16) :=
  if_neg h

theorem addCount_clock (s : State) (r : Reg) (hi lo k : Nat) : (addCount s r hi lo k).clock = s.clock := by
  rw [addCount_frame]

theorem addCount_bsn (s : State) (r : Reg) (hi lo k : Nat) : (addCount s r hi lo k).bsn = s.bsn := by
  rw [addCount_frame]

@[simp] theorem refLost_power (s : State) : (refLost s).power = s.power := by
  have hset (t : State) (r : RootState) : (setRoot t r).power = t.power := by
    by_cases h : t.clock.state = r
    · simp [setRoot, h]
    · rw [setRoot_enters h, raise_power]
  unfold refLost
  dsimp only
  split
  · rfl
  · split
    · rw [raise_power, hset]; rfl
    · rw [raise_power, hset]; rfl
    · rw [raise_power, hset]; rfl
    · split
      · rw [raise_power]; rfl
      · rfl
    · rfl

theorem roundHalfEven_zero (d : Nat) : roundHalfEven 0 d = 0 := by
  simp [roundHalfEven]

theorem foldPhase_zero (p : Nat × Nat) : foldPhase p 0 = 0 := by
  simp [foldPhase, roundHalfEven_zero]

/-- A rounded quotient is half a divisor off at most (R82). -/
theorem roundHalfEven_near (n : Int) {d : Nat} (hd : 0 < d) : (2 * (n - roundHalfEven n d * d)).natAbs ≤ d := by
  have h := Int.emod_add_mul_ediv n d
  have h0 := Int.emod_nonneg n (b := d) (by omega)
  have h1 := Int.emod_lt_of_pos n (b := d) (by omega)
  have hs : (n / d + 1) * (d : Int) = d * (n / d) + d := by ring
  have hq : (n / d) * (d : Int) = d * (n / d) := by ring
  simp only [roundHalfEven]
  split
  · rw [hq]; omega
  · split
    · rw [hs]; omega
    · split
      · rw [hq]; omega
      · rw [hs]; omega

theorem foldPhase_near (p : Nat × Nat) (e : Int) (h1 : 0 < p.1) (h2 : 0 < p.2) :
    2 * (foldPhase p e).natAbs * p.2 ≤ p.1 + p.2 := by
  have hk := roundHalfEven_near (e * p.2) h1
  have hr := roundHalfEven_near (roundHalfEven (e * p.2) p.1 * p.1) h2
  simp only [foldPhase]
  generalize roundHalfEven (e * p.2) p.1 = k at *
  generalize roundHalfEven (k * p.1) p.2 = r at *
  have hsum : 2 * ((e - r) * p.2) = 2 * (e * p.2 - k * p.1) + 2 * (k * p.1 - r * p.2) := by ring
  have habs : 2 * (e - r).natAbs * p.2 = (2 * ((e - r) * p.2)).natAbs := by
    rw [Int.natAbs_mul, Int.natAbs_mul, Int.natAbs_natCast, mul_assoc]
    rfl
  rw [habs, hsum]
  exact (Int.natAbs_add_le _ _).trans (by omega)

theorem newLock_here {s : State} (h : refSrc s ≠ 8) : newLock s = { s with clock := { s.clock with
    lockPoint := true, lockPhase := s.clock.refPhase, phaseErr := 0 } } := by
  rw [newLock, if_neg h]
  simp [lockAt, modClock, foldPhase_zero]

/-- A loss is counted, and the root goes on at the word of the last edge (R369). -/
def lossCounted (s : State) : State :=
  modClock (addCount s .rootCount 7 0 1) (fun c => { c with
    losses := bump 0xFFFF s.clock.losses, refQual := false, coastAt := s.bsn, coastCyc := s.cycle,
    coastPull := s.clock.state == .pullin, word := lossWord s, ofs := 0 })

/-- The root, on PLL_ROOT's frequency, loses its reference. -/
theorem refLost_coasts {s : State} (h : s.clock.state = .pullin ∨ s.clock.state = .track ∨ s.clock.state = .reacquire)
    (hx : s.clock.xtalFault = false) : refLost s = raise (raise { addCount s .rootCount 7 0 1 with clock := { s.clock with
      state := .coast, changed := s.bsn, losses := bump 0xFFFF s.clock.losses, refQual := false, coastAt := s.bsn,
      coastCyc := s.cycle, coastPull := s.clock.state == .pullin, word := lossWord s, ofs := 0 } } 96
      (5 + rootCode s.clock.state * 16)) 97 (refSrc s) := by
  have hne : (lossCounted s).clock.state ≠ .coast := by
    rw [lossCounted, modClock, addCount_clock]
    rcases h with h | h | h <;> simp [h]
  have hstate : (lossCounted s).clock.state = s.clock.state := by rw [lossCounted, modClock, addCount_clock]
  have hlost : refLost s = raise (setRoot (lossCounted s) .coast) 97 (refSrc s) := by
    rw [refLost]
    dsimp only
    rw [if_neg (by simp [hx])]
    split
    · rfl
    · rfl
    · rfl
    · next hco => simp [hco] at h
    · next h1 h2 h3 h4 => rcases h with h | h | h <;> contradiction
  rw [hlost, setRoot_enters hne, hstate]
  simp only [lossCounted, modClock, addCount_clock, addCount_bsn]
  rfl

theorem execRefQualify_passed {s t : State} {f : Int} (hsrc : refSrc s ≠ 0) (hok : refPortOk s (refSrc s) = true)
    (hx : s.clock.xtalFault = false) (h1 : -100000 ≤ f) (h2 : f ≤ 100000)
    (ht : t = { s with clock := { s.clock with refQual := true, refPpm := f } }) :
    execRefQualify f s = match s.clock.state with
      | .restart => .next t
      | .freerun => .next (setRoot (newLock t) .pullin)
      | .coast =>
        if s.clock.coastPull then .next (setRoot (newLock t) .pullin)
        else if bit (rd s .rootCfg) 6 && refSrc s != 8 then
          if s.clock.realign.isSome then .next t
          else .next (modClock t (fun c => { c with realign := some (bsnNext s), realignOn := false }))
        else .next (setRoot (oldLock t) .reacquire)
      | _ => .next s := by
  subst ht
  rw [execRefQualify, if_neg (by simp [hsrc, hok, hx, h1, h2])]
  rfl

/-- Settles O38: the rows enter the root's states, and the lock points follow from rounding to a whole number of periods. -/
theorem rootRowsAct : Obligations.RootRowsAct := by
  intro s
  refine ⟨fun freq value hc hr => ?_, fun freq value hc => ?_, fun h => if_pos h, fun h1 h2 hx => ?_, fun h hp hx => ?_,
    fun h hp hx => ?_, fun p o pull t u h hp hx hpull hj ht hu => ?_, newLock_here, fun point e he => ?_,
    fun p e h1 h2 => foldPhase_near p e h1 h2, fun f t hsrc hok hx h1 h2 ht =>
      ⟨fun h => ?_, fun h => ?_, fun h hc hb => ?_, fun h hc hb h8 hr => ?_⟩,
    fun f h => ?_, fun h hx => ?_, fun h hx => congrArg _ (refLost_coasts h hx), fun hx => ?_, fun h ht hr hx hus => ?_,
    fun r hr h0 hon hb hst hx => ?_,
    fun hx => ?_, fun period v u hc hv hu => ?_, fun u hx hon hu => ?_, ⟨rfl, rfl, rfl⟩, fun u v w hx hu hv hw => ?_⟩
  · change execRootConfigWrite freq value s = _
    simp only [execRootConfigWrite, hr, fieldStep, hc, if_true]
  · change execRootConfigWrite freq value s = _
    simp [execRootConfigWrite, fieldStep, hc]
  · rw [restartRoot, if_neg h1]
    refine (setRoot_enters (by simpa [modClock, addCount_clock] using h2)).trans ?_
    simp [modClock, addCount_clock, addCount_bsn, hx]
    rfl
  · change execPllSafeLock s = _
    rw [execPllSafeLock, if_pos ⟨h, hp, hx⟩, setRoot_enters (by simp [modClock, addCount_clock, h])]
    simp [modClock, addCount_clock, addCount_bsn, h]
    rfl
  · change execPllRootLock s = _
    rw [execPllRootLock, if_pos ⟨h, hp, hx⟩]
    rfl
  · change execRootSwitchBack s = _
    have hmod : modClock s (fun c => { c with word := c.safeWord, ofs := 0, onSafe := false, phase := .none }) = t := ht ▸ rfl
    have hst : u.clock.state = .restart := by
      rw [hu, ht]
      split <;> exact h
    have hbsn : u.bsn = s.bsn := by
      rw [hu, ht]
      split <;> rfl
    have hju : findJobs u isRestart = [(p, o)] := by
      rw [hu, ht]
      split <;> exact hj
    rw [execRootSwitchBack, if_pos ⟨h, hp, hx⟩, switchBack]
    simp only [hmod, ← hpull, ← hu]
    rw [setRoot_enters (by rw [hst]; split <;> decide), completeJobs_one (by rw [findJobs_raise]; exact hju), hst, hbsn]
    rfl
  · rw [he]
    rfl
  · change execRefQualify f s = _
    rw [execRefQualify_passed hsrc hok hx h1 h2 ht]
    rcases h with h | ⟨h, hc⟩
    · simp only [h, ht]
      rfl
    · simp only [h, hc, if_true, ht]
      rfl
  · change execRefQualify f s = _
    rw [execRefQualify_passed hsrc hok hx h1 h2 ht, h]
  · change execRefQualify f s = _
    have hst : (oldLock t).clock.state = .coast := by
      rw [ht]
      exact h
    have hbit : (bit (rd s .rootCfg) 6 && refSrc s != 8) = false := by
      rcases hb with hb | hb <;> simp [hb]
    rw [execRefQualify_passed hsrc hok hx h1 h2 ht]
    simp only [h, hc, hbit]
    refine congrArg Host.Outcome.next ((setRoot_enters (by simp [hst])).trans ?_)
    rw [hst, ht]
    rfl
  · change execRefQualify f s = _
    rw [execRefQualify_passed hsrc hok hx h1 h2 ht]
    simp [modClock, h, hc, hb, h8, hr, bsnNext]
  · change execRefQualify f s = _
    rw [execRefQualify, if_pos (by right; right; right; omega)]
  · change execTrackLock s = _
    rw [execTrackLock, if_pos ⟨h, hx⟩]
    refine congrArg Host.Outcome.next ((setRoot_enters ?_).trans rfl)
    rcases h with h | h <;> simp [modClock, h]
  · change Host.Outcome.next (refLost s) = _
    simp [refLost, hx, modClock]
  · change execCoastTimeout s = _
    rw [execCoastTimeout, if_pos ⟨h, ht, hr, hx, hus⟩]
    refine congrArg Host.Outcome.next ((setRoot_enters (by simp [modClock, h])).trans ?_)
    simp only [modClock, h]
    rfl
  · change execRealignBlock s = _
    rw [execRealignBlock, hr]
    exact if_pos ⟨h0, hon, hb, hst, hx⟩
  · change execRealignBlock s = _
    cases hr : s.clock.realign with
    | none => simp [execRealignBlock, hr]
    | some r => simp [execRealignBlock, hr, hx]
  · change execSyncPeriodWrite period s = _
    rw [execSyncPeriodWrite, applySync, ← hv]
    simp only [← hu, fieldStep, hc, if_true]
    split <;> rfl
  · change execXtalFaultSet s = _
    rw [execXtalFaultSet, if_neg (by simp [hx, hon])]
    have hmod : modClock s (fun c => { c with
        xtalFault := true, phase := if c.phase = .locked then .onSafe else c.phase }) = u := hu ▸ rfl
    simp only [hmod]
    rw [show modeLow u = modeLow s by rw [hu]; rfl]
  · change execXtalFaultClear s = _
    have hpow : v.power = s.power := by
      rw [hv, hu]
      split
      · exact refLost_power _
      · rfl
    rw [execXtalFaultClear, if_neg (by simp [hx])]
    have hmod : modClock s (fun c => { c with
        xtalFault := false, phase := if c.phase = .waitXtal then .onSafe else c.phase,
        onSafe := c.onSafe || c.phase == .waitXtal, lossHeld := false }) = u := hu ▸ rfl
    simp only [hmod, ← hv, hpow, ← hw]
    cases w.power.change <;> rfl

end Sys2Proof.Machine

namespace Sys2Proof.Machine

open Sys2Proof

/-! ## Synthesizers (R374 to R378, R382, R389) -/

theorem portPins_hold (s : State) (q p : Nat) : (dport (portPins s q) p).hold = (dport s p).hold := by
  refine modDport_keeps (g := DPort.hold) ?_ s q p
  exact fun _ => rfl

/-- A clock pin does not depend on the others. -/
theorem clockPinOf_portPins (s : State) (q p : Nat) (l : LockState) : clockPinOf (portPins s q) p l = clockPinOf s p l := by
  simp only [clockPinOf, portDrives, sourceRuns, portSource, portWord, portPins_hold]
  rfl

theorem foldl_portPins_frame (l : List Nat) (s : State) : l.foldl portPins s = { s with dports := (l.foldl portPins s).dports } :=
  List.foldlRecOn l portPins (motive := fun t : State => t = { s with dports := t.dports }) rfl
    (fun _ ht _ _ => dportsOnly_trans ht rfl)

/-- Every port of a list takes the pin that its lock state asks for. -/
theorem dport_foldl_portPins (l : List Nat) (s : State) {p : Nat} (hp : p < s.dports.length) :
    dport (l.foldl portPins s) p = if l.contains p then
      { dport s p with clkPin := clockPinOf s p (dport s p).state } else dport s p := by
  induction l generalizing s with
  | nil => rfl
  | cons q l ih =>
    rw [List.foldl_cons, ih (portPins s q) (by rw [portPins, modDport_length]; exact hp)]
    by_cases h : p = q
    · subst h
      have hd : dport (portPins s p) p = { dport s p with clkPin := clockPinOf s p (dport s p).state } :=
        dport_modDport_self hp _
      rw [clockPinOf_portPins, hd]
      simp
    · have hd : dport (portPins s q) p = dport s p := dport_modDport_ne _ h _
      rw [clockPinOf_portPins, hd]
      simp [h]

/-- MCLK_EN alone changes: EN stands. -/
theorem applyAuxCfg_mclk (s : State) (a v : Nat) : applyAuxCfg s a (withBits (rd s (.auxCfg a)) 2 v) =
    modAux (wr s (.auxCfg a) (withBits (rd s (.auxCfg a)) 2 v)) a (fun x => { x with mclkOn := x.locked && bit v 1 }) := by
  have h0 : bit (withBits (rd s (.auxCfg a)) 2 v) 0 = bit (rd s (.auxCfg a)) 0 := by
    rw [bit_withBits _ _ _ _ (by decide) (by decide)]
    rfl
  have h1 : bit (withBits (rd s (.auxCfg a)) 2 v) 1 = bit v 1 := by
    rw [bit_withBits _ _ _ _ (by decide) (by decide)]
    rfl
  simp only [applyAuxCfg, h0, h1, bne_self_eq_false]
  rfl

/-- Settles O39: the rows change the synthesizer's entry, and its ports follow. -/
theorem synthesizerRowsAct : Obligations.SynthesizerRowsAct := by
  intro s a
  refine ⟨fun hen hst => ?_, ⟨foldl_portPins_frame _ s, fun p hp => dport_foldl_portPins _ s hp⟩, fun hen => ?_,
    fun t hc ht => ?_, fun t hc ht => ?_, fun int num den hc => ⟨?_, ?_, ?_⟩, fun int num den t hc hen hi hd hn ht hok => ?_,
    fun int num den t u hc hen hi hd hn ht hne hu hok => ?_, fun on od ms b hr hus hs => ?_, fun hr hs hus => ?_,
    fun k hp hh hus hk => ?_, fun hp hh hus hn hb => ?_⟩
  · change execAuxLock a s = _
    rw [execAuxLock, if_pos (by simp [hen, hst])]
    rfl
  · change execAuxLock a s = _
    rw [execAuxLock, if_neg (by simp [hen])]
  · change execMclkEnable a s = _
    have hx : applyAuxCfg s a (withBits (rd s (.auxCfg a)) 2 2) = t := by
      rw [applyAuxCfg_mclk, ht, show bit 2 1 = true from rfl]
      simp only [modAux, modClock, Bool.and_true]
      rfl
    simp only [execMclkEnable, mclkCommit, hx, fieldStep, hc, if_true]
  · change execMclkDisable a s = _
    have hx : applyAuxCfg s a (withBits (rd s (.auxCfg a)) 2 0) = t := by
      rw [applyAuxCfg_mclk, ht, show bit 0 1 = false from rfl]
      simp only [modAux, modClock, Bool.and_false]
      rfl
    simp only [execMclkDisable, mclkCommit, hx, fieldStep, hc, if_true]
  · change execMclkEnable a s = _
    simp [execMclkEnable, fieldStep, hc]
  · change execMclkDisable a s = _
    simp [execMclkDisable, fieldStep, hc]
  · change execAuxRatioChange a int num den s = _
    simp [execAuxRatioChange, fieldStep, hc]
  · change execAuxRatioChange a int num den s = _
    have hx : applyAuxRatio s a int.toNat num.toNat den.toNat = t := by
      simp only [applyAuxRatio, hen, ← ht]
      rfl
    rw [execAuxRatioChange, hx]
    simp [hi, hd, hn, hok, fieldStep, hc]
  · change execAuxRatioChange a int num den s = _
    have hx : applyAuxRatio s a int.toNat num.toNat den.toNat = u := by
      simp only [applyAuxRatio, hen, ← ht]
      rw [if_neg (by simp [hne]), hu]
      rfl
    rw [execAuxRatioChange, hx]
    simp [hi, hd, hn, hok, fieldStep, hc]
  · change execAuxRampEnd a s = _
    simp only [execAuxRampEnd, hr, hus, hs]
    rfl
  · change execAuxRampEnd a s = _
    simp only [execAuxRampEnd, hr, hus, hs]
    rfl
  · change execAuxSegmentEnd a s = _
    simp only [execAuxSegmentEnd, hp, hh, hus]
    rcases hk with ⟨h1, h2, rfl⟩ | ⟨h1, h2, h3, rfl⟩
    · rw [if_neg (by decide), if_pos ⟨by omega, h2⟩]
      rfl
    · rw [if_neg (by decide), if_neg (by omega), if_pos (by simp [h2, h3])]
      rfl
  · change execAuxSegmentEnd a s = _
    simp only [execAuxSegmentEnd, hp, hh, hus]
    rw [if_neg (by decide), if_neg (by omega), if_neg (by simp [hb])]
    rfl

end Sys2Proof.Machine

namespace Sys2Proof.Machine

open Sys2Proof

/-! ## ADC_UNMUTE where the register file lists a word twice (R201, R261) -/

/-- A device in ACTIVE whose register file lists AIN0_CFG twice, muted: a state of the model that is not sound (R201), as a store
of the reset value takes one entry off the list and leaves the other. AIN0 is muted. -/
def ainListedTwice : State :=
  { State.reset with
    regs := [((Reg.ainCfg 0).addr, 14#32), ((Reg.ainCfg 0).addr, 14#32)]
    power := { State.reset.power with boot := .complete, mode := .active }
    analog := { State.reset.analog with adc := [{ stage := .muted }] } }

/-- Refutes O40: the statement speaks of every state, and where the register file lists a muted source's word twice, the word
that ADC_UNMUTE stores reads as muted still, so that the source does not ramp in. -/
theorem not_converterRowsAct : ¬ Obligations.ConverterRowsAct := by
  intro h
  obtain ⟨hadc, -⟩ := h ainListedTwice
  obtain ⟨-, -, -, hunmute, -⟩ := hadc 0 _ rfl
  have hstate := Host.Outcome.next.inj (hunmute (by decide +kernel))
  have hstage := congrArg (fun t : State => t.analog.adc.map Adc.stage) hstate
  exact absurd hstage (by decide +kernel)

end Sys2Proof.Machine

namespace Sys2Proof.Machine

open Sys2Proof

/-! ## Words that change in EN or MUTE alone -/

theorem bit_succ_high {w i : Nat} (h : bit w 0 = false) (hi : 1 ≤ i) : bit (w + 1) i = bit w i := by
  obtain ⟨j, rfl⟩ := Nat.exists_eq_add_of_le hi
  have hodd : (w + 1) / 2 = w / 2 := by
    simp [bit] at h
    omega
  have hdiv (v : Nat) : v / 2 ^ (1 + j) = v / 2 / 2 ^ j := by rw [pow_add, Nat.div_div_eq_div_mul, pow_one]
  simp only [bit, hdiv, hodd]

theorem outN_congr {v w : Nat} (h : ∀ i, 2 ≤ i → i ≤ 7 → bit v i = bit w i) : outN v = outN w := by
  rw [outN, outN, bits_congr _ _ _ _ h]

theorem outN_succ {w : Nat} (h : bit w 0 = false) : outN (w + 1) = outN w :=
  outN_congr fun _ h2 _ => bit_succ_high h (by omega)

theorem bit_withBits_en (w v : Nat) {i : Nat} (h0 : 1 ≤ i) (hi : i < 32) : bit (withBits w 1 v) i = bit w i := by
  rw [bit_withBits _ _ _ _ (by decide) hi, Nat.testBit_two_pow_of_ne (n := 0) (by omega)]
  rfl

theorem bit_withBits_enSelf (w v : Nat) : bit (withBits w 1 v) 0 = bit v 0 := by
  rw [bit_withBits _ _ _ _ (by decide) (by decide)]
  rfl

theorem bit_withBits_mute (w v : Nat) {i : Nat} (h1 : i ≠ 1) (hi : i < 32) : bit (withBits w 2 v) i = bit w i := by
  rw [bit_withBits _ _ _ _ (by decide) hi, Nat.testBit_two_pow_of_ne (n := 1) (Ne.symm h1)]
  rfl

theorem bit_withBits_muteSelf (w : Nat) (m : Bool) : bit (withBits w 2 (b2n m * 2)) 1 = m := by
  rw [bit_withBits _ _ _ _ (by decide) (by decide)]
  cases m <;> rfl

theorem outN_withBits_en (w v : Nat) : outN (withBits w 1 v) = outN w :=
  outN_congr fun _ h2 h7 => bit_withBits_en w v (by omega) (by omega)

theorem outN_withBits_mute (w v : Nat) : outN (withBits w 2 v) = outN w :=
  outN_congr fun _ h2 h7 => bit_withBits_mute w v (by omega) (by omega)

/-! ## Headphone and line outputs (R265 to R272) -/

theorem fieldStep_on {s : State} (h : coreOn s = true) (t : State) : fieldStep s t = .next t := by
  rw [fieldStep, if_pos h]

theorem fieldStep_off {s : State} (h : coreOn s = false) (t : State) : fieldStep s t = .next s := by
  simp [fieldStep, h]

theorem modHp_modHp (s : State) (f g : Output → Output) : modHp (modHp s f) g = modHp s (fun z => g (f z)) := rfl

theorem modLo_modLo (s : State) (f g : Output → Output) : modLo (modLo s f) g = modLo s (fun z => g (f z)) := rfl

theorem modHp_congr {s : State} {f g : Output → Output} (h : f s.analog.hp = g s.analog.hp) : modHp s f = modHp s g := by
  rw [modHp, modHp, h]

theorem modLo_congr {s : State} {f g : Output → Output} (h : f s.analog.lo = g s.analog.lo) : modLo s f = modLo s g := by
  rw [modLo, modLo, h]

theorem outMuteRamp_sounding {s : State} {lead : Nat} {o : Output} (h : outSounds s lead o = true) (up : Bool) (n : Nat) :
    outMuteRamp s lead up n o = { o with ramp := rampFrom o.ramp up n s.bsn (frameOf s) } :=
  if_pos h

theorem outMuteRamp_beside (s : State) (r : Reg) (v : Nat) (f : Output → Output) :
    outMuteRamp (modHp (wr s r v) f) = outMuteRamp s := rfl

/-- The headphone may power up once its word says so. -/
theorem hpMayUp_wr {s : State} {v : Nat} (hv : rd (wr s .hpCfg v) .hpCfg = v) (hb : bit v 0 = true) (f : Output → Output)
    (hst : (f s.analog.hp).state = .off) (hm : s.power.mode = .active) (hf : s.power.fabricOn = true)
    (hl : leavingActive s = false)
    (hj : bit v 8 = true → s.analog.jack.inserted = true ∧ s.analog.jack.kind ≠ .pending ∧ s.analog.jack.kind ≠ .none) :
    hpMayUp (modHp (wr s .hpCfg v) f) = true := by
  have hrd : rd (modHp (wr s .hpCfg v) f) .hpCfg = v := hv
  have hl' : leavingActive (modHp (wr s .hpCfg v) f) = false := hl
  simp only [hpMayUp, hrd, hb, hl']
  cases h8 : bit v 8 with
  | false => simp [modHp, hst, hm, hf]
  | true =>
    obtain ⟨h1, h2, h3⟩ := hj h8
    simp [modHp, hst, hm, hf, h1, h2, h3]

/-- Settles O41: each write of EN or MUTE starts its sequence, and the faults and rails follow their fields. -/
theorem outputRowsAct : Obligations.OutputRowsAct := by
  rintro s w l o rfl rfl rfl
  have hlt : rd s .hpCfg < 2 ^ 32 := rd_lt s .hpCfg (by decide)
  refine ⟨fun hc h0 hj hm hf hl ho => ?_, fun hc h0 ho => ?_, fun h0 hu hcy hup => ?_, fun hc h0 ho => ?_, fun hc h0 ho => ?_,
    fun n h => ?_, fun n h => ?_, fun mute hc h0 hne ho hjm => ?_, fun mute hc h0 hne ho => ?_, fun hc h0 hm hf hl ho => ?_,
    fun hc h0 ho => ?_, fun mute hc => ⟨?_, ?_, ?_, ?_, ?_⟩, fun hc h0 ho => ?_, fun hc h0 ho => ?_, fun n => ⟨rfl, rfl, rfl, rfl, rfl, rfl, rfl, rfl⟩,
    fun h9 hp hs => ?_, fun h9 hr hb => ?_, fun hb => ?_, fun left right latched hlr hs hla ho => ?_,
    fun left right latched hlr hs hla ho hn => ?_, fun ho hla hb hm => ⟨?_, fun h0 h8 hf hl => ?_⟩, fun ho hla => ?_⟩
  · change execHpPowerUp s = _
    have h1 := bit_succ h0
    have hv : rd (wr s .hpCfg (rd s .hpCfg + 1)) .hpCfg = rd s .hpCfg + 1 := by
      refine rd_wr_set _ _ _ (fun he => ?_) ?_
      · rw [he] at h1
        exact absurd h1 (by decide)
      · simp [bit] at h0
        omega
    have hup := hpMayUp_wr (s := s) hv h1 (fun z => outAsked { z with faults := 0 }) ho hm hf hl
      (fun h => hj (by rwa [bit_succ_high h0 (by omega)] at h))
    have hag : ((s.analog.hp.state == OutState.powerDown) : Bool) = false := by simp [ho]
    simp only [execHpPowerUp, h0, fieldStep, hc, applyHpCfg, h1, if_true]
    refine congrArg Host.Outcome.next (((if_pos hup).trans ?_) : hpTryUp _ = _)
    rw [show rd (modHp (wr s .hpCfg (rd s .hpCfg + 1)) (fun z => outAsked { z with faults := 0 })) .hpCfg = rd s .hpCfg + 1 from hv,
      outN_succ h0]
    simp only [modHp, outAsked, wr_analog, hag]
    rfl
  · change execHpPowerUp s = _
    have h1 := bit_succ h0
    have hag : ((s.analog.hp.state == OutState.powerDown) : Bool) = true := by simp [ho]
    simp only [execHpPowerUp, h0, fieldStep, hc, applyHpCfg, h1, if_true]
    refine congrArg Host.Outcome.next ((if_neg ?_ : hpTryUp _ = _).trans ?_)
    · simp [hpMayUp, modHp, outAsked, ho]
    · simp only [modHp, outAsked, wr_analog, hag]
  · change execHpPowerUp s = _
    rw [execHpPowerUp, if_pos h0, if_pos (by simp [hu, hcy]), hpTryUp, if_pos hup]
    rfl
  · change execHpPowerDown s = _
    have hnf : s.analog.hp.state ≠ .fault := by
      intro h
      simp [outLive, h] at ho
    have hlive : outLive { s.analog.hp with faults := 0, latched := false, again := false } = true := ho
    simp only [execHpPowerDown, fieldStep, hc, applyHpCfg, bit_withBits_enSelf, outN_withBits_en]
    simp only [modHp, wr_analog, hnf, hlive]
    rfl
  · change execHpPowerDown s = _
    simp only [execHpPowerDown, fieldStep, hc, applyHpCfg, bit_withBits_enSelf]
    simp only [modHp, wr_analog, ho]
    rfl
  · exact if_neg (by simp [h])
  · exact if_pos h
  · change execHpMute false mute s = _
    have hen := bit_withBits_mute (rd s .hpCfg) (b2n mute * 2) (i := 0) (by decide) (by decide)
    have h9 := bit_withBits_mute (rd s .hpCfg) (b2n mute * 2) (i := 9) (by decide) (by decide)
    rw [execHpMute, if_neg (by decide), fieldStep_on hc]
    refine congrArg Host.Outcome.next ?_
    simp only [applyHpCfg, hen, h9, h0, outN_withBits_mute, bit_withBits_muteSelf]
    rw [if_neg (by decide), if_neg (by decide), if_pos ⟨hne.symm, hjm⟩, modHp_modHp, modHp_modHp]
    refine modHp_congr ?_
    have hramp := outMuteRamp_sounding (show outSounds s hpLead { s.analog.hp with faults := 0 } = true from ho)
    simp only [wr_analog, outMuteRamp_beside, hramp]
    by_cases hon : s.analog.hp.state = .on
    · cases bit (rd s .hpCfg) 9 <;> simp [hon]
    · simp [hon]
  · change execHpMute true mute s = _
    have hen := bit_withBits_mute (rd s .loCfg) (b2n mute * 2) (i := 0) (by decide) (by decide)
    rw [execHpMute, if_pos rfl, fieldStep_on hc]
    refine congrArg Host.Outcome.next ?_
    simp only [applyLoCfg, hen, h0, outN_withBits_mute, bit_withBits_muteSelf]
    rw [if_neg (by decide), if_neg (by decide), if_pos hne.symm]
    refine modLo_congr ?_
    rw [outMuteRamp, if_pos (by exact ho)]
    rfl
  · change execLoPowerUp s = _
    have h1 : bit (withBits (rd s .loCfg) 1 1) 0 = true := bit_withBits_enSelf _ _
    have hv : rd (wr s .loCfg (withBits (rd s .loCfg) 1 1)) .loCfg = withBits (rd s .loCfg) 1 1 := by
      refine rd_wr_set _ _ _ (fun he => ?_) (withBits_lt _ _ _ (by decide))
      rw [he] at h1
      exact absurd h1 (by decide)
    have hv' : rd (modLo (wr s .loCfg (withBits (rd s .loCfg) 1 1)) outAsked) .loCfg = withBits (rd s .loCfg) 1 1 := hv
    have hl' : leavingActive (modLo (wr s .loCfg (withBits (rd s .loCfg) 1 1)) outAsked) = false := hl
    simp only [execLoPowerUp, fieldStep, hc, applyLoCfg, h1, h0, if_true]
    refine congrArg Host.Outcome.next ((if_pos ?_ : loTryUp _ = _).trans ?_)
    · rw [hv', hl']
      simp [h1, modLo, outAsked, hm, hf, ho]
    · rw [hv', outN_withBits_en, modLo_modLo]
      refine modLo_congr ?_
      simp only [wr_analog, outAsked, ho]
      rfl
  · change execLoPowerUp s = _
    have h1 : bit (withBits (rd s .loCfg) 1 1) 0 = true := bit_withBits_enSelf _ _
    simp only [execLoPowerUp, fieldStep, hc, applyLoCfg, h1, h0, if_true]
    refine congrArg Host.Outcome.next ((if_neg ?_ : loTryUp _ = _).trans (modLo_congr ?_))
    · simp [modLo, outAsked, ho]
    · simp [outAsked, ho]
  · change execHpPowerDown s = _
    simp [execHpPowerDown, fieldStep, hc]
  · change execHpMute false mute s = _
    simp [execHpMute, fieldStep, hc]
  · change execHpMute true mute s = _
    simp [execHpMute, fieldStep, hc]
  · change execLoPowerUp s = _
    simp [execLoPowerUp, fieldStep, hc]
  · change execLoPowerDown s = _
    simp [execLoPowerDown, fieldStep, hc]
  · change execLoPowerDown s = _
    rw [execLoPowerDown, fieldStep_on hc]
    simp only [applyLoCfg, bit_withBits_enSelf, outN_withBits_en]
    rw [if_neg (by exact Bool.false_ne_true), if_pos (by rfl)]
    refine congrArg Host.Outcome.next (modLo_congr ?_)
    refine (if_pos (by simp [outLive, ho])).trans (if_neg ?_)
    simp [ho]
  · change execLoPowerDown s = _
    rw [execLoPowerDown, fieldStep_on hc]
    simp only [applyLoCfg, bit_withBits_enSelf, outN_withBits_en]
    rw [if_neg (by exact Bool.false_ne_true), if_pos (by rfl)]
    refine congrArg Host.Outcome.next (modLo_congr ?_)
    exact if_pos (by simp [outLive, ho])
  · change execClassGHigh s = _
    exact if_pos (by simp [h9, hp, hs])
  · change execClassGLow s = _
    exact if_pos (by simp [h9, hr, hb])
  · change execClassGLow s = _
    exact if_neg (by simp; omega)
  · change execHpOvercurrent left right s = _
    have hd : hpDrives s.analog.hp = true := by
      rcases ho with h | ⟨h, -⟩ <;> simp [hpDrives, h, hs]
    have hcut : hpFaultCut s s.analog.hp = { outBegin s s.analog.hp .fault (outN (rd s .hpCfg)) (outN (rd s .hpCfg)) with
        ramp := rampCut s.analog.hp.ramp s.bsn (frameOf s) } := by
      rw [hpFaultCut, if_neg, hpCut, if_neg (by simp [hs])]
      rintro ⟨hst, hn⟩
      rcases ho with h | ⟨-, h⟩
      · simp [outLive, hst] at h
      · omega
    rw [execHpOvercurrent, if_neg (by simp [hd, hlr]), hcut, ← hla]
    rfl
  · change execHpOvercurrent left right s = _
    have hd : hpDrives s.analog.hp = true := by simp [hpDrives, ho, hs]
    rw [execHpOvercurrent, if_neg (by simp [hd, hlr]), hpFaultCut, if_pos ⟨ho, hn⟩, ← hla]
    rfl
  · change execHpFaultRetry s = _
    exact if_pos ⟨ho, hla, hb, hm⟩
  · change execHpFaultRetry s = _
    have hl' : leavingActive (modHp s (fun z => { z with state := .off })) = false := hl
    rw [execHpFaultRetry, if_pos ⟨ho, hla, hb, hm⟩, hpTryUp, if_pos]
    · rfl
    · rw [hpMayUp, hl', show rd (modHp s (fun z => { z with state := .off })) .hpCfg = rd s .hpCfg from rfl]
      simp [modHp, h0, h8, hm, hf]
  · change execHpFaultRetry s = _
    exact if_neg (by simp [hla])

end Sys2Proof.Machine

namespace Sys2Proof.Machine

open Sys2Proof

/-! ## Jacks (R273 to R281) -/

/-- Events do not see the converters. -/
theorem raise_setAnalog (s : State) (a : Analog) (n p : Nat) :
    raise { s with analog := a } n p = { raise s n p with analog := a } := by
  have he : (raise { s with analog := a } n p).events = (raise s n p).events := by
    simp only [raise, raiseAt_events, evEnter_events, evQueue_events]
    rfl
  rw [raise_frame, he, raise_frame s]

theorem rd_addCount_other {s : State} {r q : Reg} (h : q.addr ≠ r.addr) (hi lo k : Nat) :
    rd (addCount s r hi lo k) q = rd s q := by
  rw [addCount, rcUpdate, rd_wr_other _ _ _ _ h]
  rfl

theorem analogOnly_trans {s t u : State} (h : t = { s with analog := t.analog }) (h' : u = { t with analog := u.analog }) :
    u = { s with analog := u.analog } := by
  rw [h] at h'
  exact h'

theorem modHp_eq {s : State} {f : Output → Output} {z : Output} (h : f s.analog.hp = z) :
    modHp s f = { s with analog := { s.analog with hp := z } } := by
  rw [modHp, h]

/-! MICBIAS writes the converters alone, and of them neither the outputs nor the jack logic. -/

theorem biasUpdate_frame (s : State) : biasUpdate s = { s with analog := (biasUpdate s).analog } := by
  unfold biasUpdate
  split <;> rfl

@[simp] theorem biasUpdate_jack (s : State) : (biasUpdate s).analog.jack = s.analog.jack := by
  unfold biasUpdate
  split <;> rfl

@[simp] theorem biasUpdate_hp (s : State) : (biasUpdate s).analog.hp = s.analog.hp := by
  unfold biasUpdate
  split <;> rfl

@[simp] theorem biasUpdate_lo (s : State) : (biasUpdate s).analog.lo = s.analog.lo := by
  unfold biasUpdate
  split <;> rfl

/-- A kind that stands writes the converters alone. -/
theorem standKind_frame (s : State) (k : PlugKind) (a b : Nat) :
    standKind s k a b = { s with analog := (standKind s k a b).analog } :=
  analogOnly_trans rfl (biasUpdate_frame _)

/-- What a kind that stands leaves. -/
theorem standKind_jack (s : State) (k : PlugKind) (a b : Nat) :
    (standKind s k a b).analog.jack.kind = k ∧ (standKind s k a b).analog.jack.inserted = s.analog.jack.inserted ∧
      (standKind s k a b).analog.jack.measuring = false ∧ (standKind s k a b).analog.jack.ringGnd = (k != .omtp) ∧
      (standKind s k a b).analog.jack.sleeveGnd = (k != .ctia) ∧
      (standKind s k a b).analog.jack.repeats = (if k == .threePole && bit (rd s .hpjCfg) 14 then some 0 else none) ∧
      (standKind s k a b).analog.lo = s.analog.lo := by
  simp only [standKind, biasUpdate_jack, biasUpdate_lo]
  exact ⟨rfl, rfl, rfl, rfl, rfl, rfl, rfl⟩

/-- The classification begins: the contacts are switched for measurement A. -/
theorem classifyStart_begins {s : State} (h1 : s.analog.jack.inserted = true) (h2 : s.analog.jack.kind = .pending)
    (h3 : s.power.pwrEn1 = true) : classifyStart s = { s with analog := (classifyStart s).analog } ∧
      (classifyStart s).analog.jack = { s.analog.jack with
        measuring := true, measA := none, retryAt := none, ringGnd := true, sleeveGnd := false } ∧
      (classifyStart s).analog.hp = s.analog.hp ∧ (classifyStart s).analog.lo = s.analog.lo := by
  have hg : (s.analog.jack.inserted && s.analog.jack.kind == .pending && s.power.pwrEn1) = true := by simp [h1, h2, h3]
  refine ⟨?_, ?_, ?_, ?_⟩
  · rw [classifyStart, if_pos hg]
    exact analogOnly_trans rfl (biasUpdate_frame _)
  · rw [classifyStart, if_pos hg, biasUpdate_jack]
    rfl
  · rw [classifyStart, if_pos hg, biasUpdate_hp]
    rfl
  · rw [classifyStart, if_pos hg, biasUpdate_lo]
    rfl

/-- A headphone jack from which the plug is drawn, without what MICBIAS does (R277, R279). -/
def removed (s : State) : State :=
  modJack (modHp s (fun o =>
    let o := { o with upDue := false }
    if bit (rd s .hpCfg) 8 && o.state == .powerUp then hpReverse s (outN (rd s .hpCfg)) o
    else if bit (rd s .hpCfg) 8 && hpPlays s o then hpCut s (outN (rd s .hpCfg)) .powerDown o
    else o)) (fun j => { j with
      inserted := false, level := false, kind := .none, button := 0, ringGnd := true, sleeveGnd := true,
      measuring := false, measA := none, retryAt := none, repeats := none, invalids := 0, micDue := j.micOnJack })

theorem removed_upDue (s : State) : (removed s).analog.hp.upDue = false := by
  simp only [removed, modJack, modHp, hpCut]
  split
  · rfl
  · split
    · split <;> rfl
    · rfl

/-- Both measurements of a repeat are over (R276). -/
theorem repeat_falls {s : State} {n k : Nat} (hi : s.analog.jack.inserted = true) (hk : s.analog.jack.kind = .threePole)
    (hpw : s.power.pwrEn1 = true) (hkk : k = bsnSince s.bsn s.analog.jack.repeatAt / 2000) (hn : n < k) (hten : k ≤ 10)
    (hd : 80 ≤ bsnSince s.bsn s.analog.jack.repeatAt % 2000) :
    ¬ (!(s.analog.jack.inserted && s.analog.jack.kind == .threePole && s.power.pwrEn1 &&
        decide (n < (repeatAge s).1 ∧ (repeatAge s).1 ≤ repeatCount ∧ 2 * measureBlocks ≤ (repeatAge s).2))) = true := by
  have hall : n < (repeatAge s).1 ∧ (repeatAge s).1 ≤ repeatCount ∧ 2 * measureBlocks ≤ (repeatAge s).2 := by
    subst hkk
    exact ⟨hn, hten, hd⟩
  simp [hi, hk, hpw, hall]

theorem adcMuteTo_congr {s t : State} (hb : t.bsn = s.bsn) (hc : t.cycle = s.cycle) : adcMuteTo t = adcMuteTo s := by
  funext mute x
  simp only [adcMuteTo, frameOf, hb, hc]

/-- Settles O42: each row is read off the jack's entry, and the kinds that stand write it through one operation. -/
theorem jackRowsAct : Obligations.JackRowsAct := by
  rintro s j rfl
  refine ⟨fun h0 hl hi hp => ?_, fun h0 hl hi hm hb ho => ?_, fun level hl => ?_, fun h0 hi => ?_, fun h0 hi => ?_,
    fun u h0 h14 hi hpw hu => ?_, fun h0 h14 hi => ?_, fun h0 hi => ?_, fun mv hm hi hpw ha => ?_,
    fun a mv hm hi hpw ha hk hn => ?_, fun a mv hm hi hpw ha hk => ?_, fun b hr hb hi hk hpw => ?_, fun b hr hb => ?_,
    fun n k a b hr hi hk hpw hkk hn hten hd ha hb => ?_, fun n k a b hr hi hk hpw hkk hn hten hd ha hb => ?_, fun n a b hr hn => ?_,
    fun on hd hc hon => ?_, fun x hx => ?_, fun hc => ?_, fun mv b u h15 hm hi hb hpw hw hu => ?_,
    fun u hb h15 hpw hu => ?_, fun h => ?_⟩
  · change execJackLevelChange false s = _
    rw [execJackLevelChange, if_neg (by simp [hl, h0])]
    dsimp only
    rw [if_neg (by simp [hi]), if_neg (by decide)]
    refine congrArg Host.Outcome.next (modHp_eq ?_)
    exact if_pos hp
  · change execJackLevelChange true s = _
    rw [execJackLevelChange, if_neg (by simp [hl, h0])]
    have hg : (!bit (rd s .hpCfg) 1 && outSounds s hpLead { s.analog.hp with jackMute := false }) = true := by
      rw [hb]
      exact ho
    dsimp only
    rw [if_neg (by simp [hi]), if_pos rfl]
    refine congrArg Host.Outcome.next (modHp_eq ?_)
    exact (if_pos hm).trans (if_pos hg)
  · change execJackLevelChange level s = _
    exact if_pos (.inl hl.symm)
  · change execJackInsert true s = _
    simp [execJackInsert, h0, hi]
  · change execJackRemove true s = _
    simp [execJackRemove, h0, hi]
  · obtain ⟨h1, h2, h3, h4⟩ := classifyStart_begins (s := { u with analog := { s.analog with jack := { s.analog.jack with
        inserted := true, level := true, invalids := 0, kind := .pending } } }) rfl rfl (by rw [hu, raise_power, addCount_frame]; exact hpw)
    refine ⟨classifyStart { u with analog := { s.analog with jack := { s.analog.jack with
        inserted := true, level := true, invalids := 0, kind := .pending } } }, ?_, ?_, h2, h3, h4⟩
    · change execJackInsert false s = _
      rw [execJackInsert, if_neg (by decide)]
      simp only [h0, h14, hi]
      refine congrArg (fun t => Host.Outcome.next (classifyStart t)) ?_
      rw [hu, ← raise_setAnalog, addCount_frame]
      rfl
    · exact analogOnly_trans rfl h1
  · obtain ⟨hkind, hins, -, hring, hsleeve, hrep, hlo⟩ := standKind_jack
      (modJack (addCount s .hpjCount 15 0 1) (fun j => { j with inserted := true, level := true, invalids := 0 })) .threePole 0 0
    refine ⟨standKind (modJack (addCount s .hpjCount 15 0 1) (fun j => { j with inserted := true, level := true, invalids := 0 }))
      .threePole 0 0, ?_, ?_⟩
    · change execJackInsert false s = _
      rw [execJackInsert, if_neg (by decide)]
      simp only [h0, h14, hi]
      rw [if_neg (by decide), if_neg (by decide), jackEvent, hkind, hins]
      rfl
    · refine ⟨?_, hkind, hins, hring, hsleeve, ?_, hlo.trans ?_⟩
      · exact analogOnly_trans rfl (standKind_frame _ _ _ _)
      · rw [hrep, show rd (modJack (addCount s .hpjCount 15 0 1) (fun j => { j with
          inserted := true, level := true, invalids := 0 })) .hpjCfg = rd (addCount s .hpjCount 15 0 1) .hpjCfg from rfl,
          rd_addCount_other (by decide), h14]
        rfl
      · rw [addCount_frame]
        rfl
  · refine ⟨biasUpdate { removed s with analog := { (removed s).analog with jackBias := false } }, _, ?_, rfl, ?_, ?_, ?_, ?_⟩
    · change execJackRemove false s = _
      rw [execJackRemove, if_neg (by decide), if_neg (by simp [h0, hi])]
      dsimp only
      rw [jackEvent, biasUpdate_jack]
      rfl
    · exact analogOnly_trans rfl (biasUpdate_frame _)
    · rw [biasUpdate_jack]
      rfl
    · rw [biasUpdate_lo]
      rfl
    · rw [biasUpdate_hp]
      exact removed_upDue s
  · change execClassifyMeasure mv s = _
    rw [execClassifyMeasure, if_neg (by simp [hm, hi, hpw]), ha]
    rfl
  · change execClassifyMeasure mv s = _
    rw [execClassifyMeasure, if_neg (by simp [hm, hi, hpw]), ha]
    exact if_pos ⟨hk, hn⟩
  · obtain ⟨h1, h2, h3, h4, h5, -, h7⟩ := standKind_jack s (plugKind a mv) a mv
    refine ⟨standKind s (plugKind a mv) a mv, ?_, standKind_frame _ _ _ _, h1, h2.trans hi, h3, h4, h5, h7⟩
    change execClassifyMeasure mv s = _
    have hev : jackEvent (standKind s (plugKind a mv) a mv) =
        raise (standKind s (plugKind a mv) a mv) 84 (1 + kindCode (plugKind a mv) * 2) := by
      rw [jackEvent, h1, h2, hi]
      rfl
    rw [execClassifyMeasure, if_neg (by simp [hm, hi, hpw]), ha, ← hev]
    exact if_neg (fun h => absurd (hk h.1) (by omega))
  · obtain ⟨h1, h2, h3, -⟩ := classifyStart_begins hi hk hpw
    refine ⟨classifyStart s, ?_, h1, h2, h3⟩
    change execClassifyRetry s = _
    rw [execClassifyRetry, hr]
    exact if_pos hb
  · change execClassifyRetry s = _
    rw [execClassifyRetry, hr]
    exact if_neg (by omega)
  · change execThreePoleRepeat a b s = _
    rw [execThreePoleRepeat, hr]
    dsimp only
    rw [if_neg (repeat_falls hi hk hpw hkk hn (by omega) hd), if_neg (by simp [ha, hb])]
    refine (if_pos ?_).trans ?_
    · exact lt_of_eq_of_lt hkk.symm hten
    · rw [hkk]
      rfl
  · obtain ⟨h1, h2, -, -, -, h6, -⟩ := standKind_jack s (plugKind a b) a b
    have hpk : plugKind a b = .ctia := by simp [plugKind, ha, hb]
    rw [hpk] at h1 h2 h6
    refine ⟨standKind s .ctia a b, ?_, standKind_frame _ _ _ _, h1, h6⟩
    change execThreePoleRepeat a b s = _
    have hev : jackEvent (standKind s .ctia a b) = raise (standKind s .ctia a b) 84 7 := by
      rw [jackEvent, h1, h2, hi]
      rfl
    rw [execThreePoleRepeat, hr, ← hev, ← hpk]
    dsimp only
    rw [if_neg (repeat_falls hi hk hpw hkk hn hten hd)]
    exact if_pos (by simp [ha, hb])
  · change execThreePoleRepeat a b s = _
    rw [execThreePoleRepeat, hr]
    refine if_pos ?_
    have : ¬ n < (repeatAge s).1 := Nat.not_lt.mpr hn
    simp [this]
  · change execHeadsetMicSwitch s = _
    rw [execHeadsetMicSwitch, if_neg (by simp [hd, hc]), hon]
    rfl
  · rcases hx with h | h | h <;> simp [adcResettle, h]
  · change execHeadsetMicSwitch s = _
    exact if_pos (by simp [hc])
  · change execHsButtonPress mv s = _
    rw [execHsButtonPress, if_neg (by simp [h15, hm, hi, hb, hpw]), hw]
    dsimp only
    rw [← hu, adcMuteTo_congr (s := s) (t := u) (by rw [hu, raise_bsn, addCount_frame]; rfl)
      (by rw [hu, raise_cycle, addCount_frame]; rfl)]
  · change execHsButtonRelease s = _
    rw [execHsButtonRelease, if_neg (by simp [h15, hb, hpw])]
    have hrd : rd u (.micCfg 1) = rd s (.micCfg 1) := by
      rw [hu, rd, regGet, raise_regs]
      rfl
    dsimp only
    rw [← hu, hrd, adcMuteTo_congr (s := s) (t := u) (by rw [hu, raise_bsn]; rfl) (by rw [hu, raise_cycle]; rfl)]
  · change execHsButtonRelease s = _
    refine if_pos ?_
    rcases h with h | h | h <;> simp [h]

end Sys2Proof.Machine

namespace Sys2Proof.Machine

open Sys2Proof

/-! ## PDM clocks (R293 to R295) -/

theorem bridgeMics_wake (s : State) (ms : List Nat) : bridgeMics s ms = { s with wake := (bridgeMics s ms).wake } ∧
    (bridgeMics s ms).wake.clocks = s.wake.clocks ∧ (bridgeMics s ms).wake.srcs = s.wake.srcs ∧
    (bridgeMics s ms).wake.beams = s.wake.beams := by
  unfold bridgeMics
  dsimp only
  split <;> exact ⟨rfl, rfl, rfl, rfl⟩

/-- A clock has taken its rate, and the changes that were due are off its list. -/
def clockStored (s : State) (c : Nat) (listen : Bool) (rate : Nat) : State :=
  modWake (modWake s (fun w => { w with clocks := modAt w.clocks c (fun k =>
    { k with change := k.change.filter (fun e => !bsnReached s.bsn e.1) }) })) (fun w => { w with
      clocks := modAt w.clocks c (fun k => { k with rate := rate, listen := listen, doneAt := some (changeDone s) }) })

/-- A microphone whose clock changes settles. -/
def micSettles (s : State) (a : Adc) : Adc :=
  if a.stage = .off then a else { a with stage := .settling, since := s.bsn, frame := frameOf s, ramp := Ramp.zero }

/-- The clock takes its rate, its feeds are bridged and its microphones settle. -/
def clockTaken (s : State) (c : Nat) (listen : Bool) (rate : Nat) : State :=
  modSrcs (abandonSwaps (bridgeMics (clockStored s c listen rate) ((List.range 16).filter (fun m =>
    micClock m == c && hasFeed (clockStored s c listen rate) m))) c) c (micSettles s)

theorem clockTaken_frame (s : State) (c : Nat) (listen : Bool) (rate : Nat) :
    clockTaken s c listen rate =
      { s with wake := (clockTaken s c listen rate).wake, health := (clockTaken s c listen rate).health } := by
  unfold clockTaken
  rw [(bridgeMics_wake _ _).1]
  rfl

theorem clockTaken_clocks {s : State} {c : Nat} (listen : Bool) (rate : Nat) (hc : c < s.wake.clocks.length) :
    (clockTaken s c listen rate).wake.clocks = s.wake.clocks.set c { s.wake.clocks.getD c {} with
      rate := rate, listen := listen, doneAt := some (changeDone s),
      change := (s.wake.clocks.getD c {}).change.filter (fun e => !bsnReached s.bsn e.1) } := by
  have hk : s.wake.clocks[c]? = some (s.wake.clocks.getD c {}) := by simp [hc]
  refine (bridgeMics_wake _ _).2.1.trans ?_
  simp only [clockStored, modWake, modAt, List.modify_modify_eq]
  exact modAt_set _ _ _ _ hk

theorem clockTaken_beams (s : State) (c : Nat) (listen : Bool) (rate : Nat) :
    (clockTaken s c listen rate).wake.beams = s.wake.beams :=
  (bridgeMics_wake _ _).2.2.2

theorem clockTaken_srcs (s : State) (c : Nat) (listen : Bool) (rate : Nat) :
    (clockTaken s c listen rate).wake.srcs = (List.zip (List.range 16) s.wake.srcs).map (fun x =>
      if micClock x.1 = c ∧ micEn s x.1 = true then micSettles s x.2 else x.2) := by
  have hsrcs := (bridgeMics_wake (clockStored s c listen rate) ((List.range 16).filter (fun m =>
    micClock m == c && hasFeed (clockStored s c listen rate) m))).2.2.1
  have hregs (m : Nat) : micEn (bridgeMics (clockStored s c listen rate) ((List.range 16).filter (fun m =>
      micClock m == c && hasFeed (clockStored s c listen rate) m))) m = micEn s m := by
    rw [(bridgeMics_wake _ _).1]
    rfl
  have hswap (t : State) (m : Nat) : micEn (abandonSwaps t c) m = micEn t m := rfl
  simp only [clockTaken, modSrcs, modWake, hswap, hregs]
  rw [show (abandonSwaps (bridgeMics (clockStored s c listen rate) ((List.range 16).filter (fun m =>
    micClock m == c && hasFeed (clockStored s c listen rate) m))) c).wake.srcs = s.wake.srcs from hsrcs]

theorem clockTaken_src {s : State} {c : Nat} (listen : Bool) (rate : Nat) (h : s.wake.srcs.length = 16) (m : Fin 16) :
    (clockTaken s c listen rate).wake.srcs.getD m {} =
      if micClock m = c ∧ micEn s m = true then micSettles s (s.wake.srcs.getD m {}) else s.wake.srcs.getD m {} := by
  have hm : m.val < s.wake.srcs.length := by omega
  rw [clockTaken_srcs]
  simp [hm]

theorem modAt_agree {α : Type} {l : List α} {i : Nat} {f g : α → α} {d : α} (h : f (l.getD i d) = g (l.getD i d)) :
    modAt l i f = modAt l i g := by
  by_cases hi : i < l.length
  · exact modAt_congr l i f g (l.getD i d) (by simp [hi]) h
  · rw [modAt, modAt, List.modify_eq_self (not_lt.mp hi), List.modify_eq_self (not_lt.mp hi)]

/-- The beams move between their sets, and nothing else of the wake path but the note of a bridge. -/
theorem beamsMoved (t s : State) (listen moves : Bool) :
    modWake (if moves then noteBridge t else t) (fun w => { w with beams := w.beams.map (beamMove s listen) }) =
      { t with wake := (modWake (if moves then noteBridge t else t) (fun w => { w with
        beams := w.beams.map (beamMove s listen) })).wake } ∧
    (modWake (if moves then noteBridge t else t) (fun w => { w with
      beams := w.beams.map (beamMove s listen) })).wake.clocks = t.wake.clocks ∧
    (modWake (if moves then noteBridge t else t) (fun w => { w with
      beams := w.beams.map (beamMove s listen) })).wake.srcs = t.wake.srcs ∧
    (modWake (if moves then noteBridge t else t) (fun w => { w with
      beams := w.beams.map (beamMove s listen) })).wake.beams = t.wake.beams.map (beamMove s listen) := by
  cases moves <;> exact ⟨rfl, rfl, rfl, rfl⟩

/-- The row at its boundary, where a change to the source of the mode is due. -/
theorem execPdmClockChange_taken {s : State} {c : Fin 2} {e : Bsn × Bool × Nat} (h0 : s.cycle = 0)
    (hdue : (s.wake.clocks.getD c {}).change.filter (fun e => bsnReached s.bsn e.1) ≠ [])
    (hx : (s.power.mode == .listen && s.clock.xtalFault) = false)
    (he : (((s.wake.clocks.getD c {}).change.filter (fun e => bsnReached s.bsn e.1)).filter
      (fun e => e.2.1 == (s.power.mode == .listen))).getLast? = some e) :
    ∃ t, execPdmClockChange c s = .next t ∧ t = { clockTaken s c (s.power.mode == .listen) e.2.2 with wake := t.wake } ∧
      t.wake.clocks = (clockTaken s c (s.power.mode == .listen) e.2.2).wake.clocks ∧
      t.wake.srcs = (clockTaken s c (s.power.mode == .listen) e.2.2).wake.srcs ∧
      t.wake.beams = if (s.wake.clocks.getD c {}).listen = (s.power.mode == .listen) then s.wake.beams
        else s.wake.beams.map (beamMove s (s.power.mode == .listen)) := by
  have hg : ¬ (s.cycle ≠ 0 ∨ ((s.wake.clocks.getD c {}).change.filter (fun e => bsnReached s.bsn e.1)).isEmpty ∨
      (s.power.mode == .listen && s.clock.xtalFault) = true) := by
    simp only [h0, hx, List.isEmpty_iff, hdue]
    simp
  have hb := clockTaken_beams s c (s.power.mode == .listen) e.2.2
  by_cases hk : (s.wake.clocks.getD c {}).listen = (s.power.mode == .listen)
  · refine ⟨clockTaken s c (s.power.mode == .listen) e.2.2, ?_, rfl, rfl, rfl, ?_⟩
    · unfold execPdmClockChange
      dsimp only
      rw [if_neg hg, he]
      exact if_pos hk
    · rw [if_pos hk, hb]
  · have hmoved := beamsMoved (clockTaken s c (s.power.mode == .listen) e.2.2) s (s.power.mode == .listen)
      ((List.zip (List.range 4) (clockTaken s c (s.power.mode == .listen) e.2.2).wake.beams).any (fun x =>
        s.power.mode == .listen && bit (rd (clockTaken s c (s.power.mode == .listen) e.2.2) (.beamCfg x.1)) 0 &&
          (x.2.segs.head?.getD (0#42, .setA)).2 != .setL))
    obtain ⟨h1, h2, h3, h4⟩ := hmoved
    refine ⟨_, ?_, h1, h2, h3, ?_⟩
    · unfold execPdmClockChange
      dsimp only
      rw [if_neg hg, he]
      exact if_neg hk
    · rw [if_neg hk, h4, hb]

/-! ## Detectors (R296 to R298) -/

theorem detectionEvent_frame (s : State) (w : Csn) : detectionEvent s w =
    { s with wake := (detectionEvent s w).wake, events := (detectionEvent s w).events } ∧
    (detectionEvent s w).wake.dets = s.wake.dets := by
  unfold detectionEvent
  dsimp only
  split
  · exact ⟨rfl, rfl⟩
  · split
    · exact ⟨rfl, rfl⟩
    · rw [raise_frame]
      exact ⟨rfl, rfl⟩

/-- Where no running detector has hit in the window, nothing is reported. -/
theorem detectionEvent_quiet {s : State} {w : Csn}
    (h : ∀ (i : Nat) x, s.wake.dets[i]? = some x → x.on = true → x.win = w → x.hit = false) : detectionEvent s w = s := by
  have hnone : (List.zip (List.range 4) s.wake.dets).filter (fun x => x.2.on && x.2.win == w && x.2.hit) = [] := by
    refine List.filter_eq_nil_iff.mpr fun x hx => ?_
    obtain ⟨i, hi⟩ := List.getElem?_of_mem (List.of_mem_zip hx).2
    intro hc
    simp only [Bool.and_eq_true, beq_iff_eq] at hc
    obtain ⟨⟨h1, h2⟩, h3⟩ := hc
    simp [h i x.2 hi h1 h2] at h3
  unfold detectionEvent
  rw [hnone]
  dsimp only
  split <;> rfl

/-- What a detector that fires in a window holds (R298). -/
theorem detWindow_hit {s : State} {b : Nat} {w : Csn} {d : Detector} (h : (detWindow s b w d).hit = true) :
    d.fired = false ∧ (detWindow s b w d).run = rd s (.detOn b) ∧ (detWindow s b w d).fired = true ∧
      (detWindow s b w d).flag = true ∧ (detWindow s b w d).onset = (detWindow s b w d).runCsn ∧
      (detWindow s b w d).count = bump 0xFFFFFFFF d.count := by
  have hh : (!d.fired && (detWindow s b w d).run == rd s (.detOn b)) = true := h
  have hcond := hh
  simp only [Bool.and_eq_true, Bool.not_eq_true', beq_iff_eq] at hh
  refine ⟨hh.1, hh.2, if_pos hcond, ?_, if_pos hcond, if_pos hcond⟩
  exact (congrArg (d.flag || ·) hcond).trans (Bool.or_true _)

/-- Settles O43: each clause is read off what its row writes of the wake path. -/
theorem wakeRowsAct : Obligations.WakeRowsAct := by
  intro s
  refine ⟨?_, fun c hc => ?_, fun b x h hb hh h0 hr => ?_, fun b h0 => ?_, fun b d w lvl hd hw h0 hbuf hp hon hwin hl => ?_,
    fun b hw => ?_⟩
  · rintro c k due rest mine listen rfl rfl rfl rfl rfl h0 hdue hx
    refine ⟨fun hm => ?_, fun e he hc hs => ?_⟩
    · change execPdmClockChange c s = _
      unfold execPdmClockChange
      dsimp only
      rw [if_neg, hm]
      · refine congrArg (fun l => Host.Outcome.next { s with wake := { s.wake with clocks := l } }) ?_
        exact modAt_agree (d := {}) rfl
      · simp only [h0, hx, List.isEmpty_iff, hdue]
        simp
    · obtain ⟨t, ht, hframe, hclocks, hsrcs, hbeams⟩ := execPdmClockChange_taken h0 hdue hx he
      refine ⟨t, ht, ?_, ?_, fun m hm hen hst => ?_, fun m hm => ?_, fun hk => ?_, fun hk hl b x hb hset => ?_,
        fun hk hl b x hb hset => ?_⟩
      · rw [hframe, clockTaken_frame]
      · rw [hclocks, clockTaken_clocks _ _ hc]
        rfl
      · rw [hsrcs, clockTaken_src _ _ hs, if_pos ⟨hm, hen⟩, micSettles, if_neg hst]
        simp [frameOf, h0]
      · rw [hsrcs, clockTaken_src _ _ hs, if_neg]
        rintro ⟨h1, h2⟩
        rcases hm with h | h
        · exact h h1
        · simp [h2] at h
      · rw [hbeams, if_pos hk]
      · rw [hbeams, if_neg (by rw [hk, hl]; decide), List.getElem?_map, hb, hl]
        simp [beamMove, hset]
      · rw [hbeams, if_neg (by rw [hk, hl]; decide), List.getElem?_map, hb, hl]
        simp [beamMove, hset]
  · change execPdmClockChange c s = _
    exact if_pos (.inr (.inl (by rw [hc]; rfl)))
  · change execSetACrossfade b s = _
    have hx : s.wake.beams.getD b {} = x := by simp [hb]
    rw [execSetACrossfade, hx, hh]
    refine (if_neg (by simp [h0, hr])).trans ?_
    refine congrArg (fun l => Host.Outcome.next { s with wake := { s.wake with beams := l } }) ?_
    exact modAt_set _ _ _ _ hb
  · change execSetACrossfade b s = _
    rw [execSetACrossfade]
    split
    · rfl
    · exact if_pos (.inl h0)
  · have hgd : s.wake.dets.getD b {} = d := by simp [hd]
    have hexec : execRoosterWindow b () s = .next (detectionEvent (modWake s (fun k => { k with
        dets := modAt k.dets b (detWindow s b w) })) w) := by
      rw [execRoosterWindow, hw, hgd]
      refine if_neg ?_
      rcases hwin with h | h <;> simp [hon, h0, hp, hbuf, h]
    have hset : modAt s.wake.dets b (detWindow s b w) = s.wake.dets.set b (detWindow s b w d) := modAt_set _ _ _ _ hd
    simp only [modWake, hset] at hexec
    obtain ⟨hframe, hdets⟩ := detectionEvent_frame { s with wake := { s.wake with
      dets := s.wake.dets.set b (detWindow s b w d) } } w
    refine ⟨_, detWindow s b w d, hexec, ?_, hdets, hl.symm, rfl, rfl, ?_, fun h => ?_, fun h1 h2 => ?_, fun h => ?_, fun h ho => ?_⟩
    · rw [hframe]
    · rw [hl]
      rfl
    · exact if_neg (by simp; omega)
    · rw [hl] at h2
      exact if_pos (by simp [h1, h2])
    · exact detWindow_hit h
    · rw [detectionEvent_quiet]
      intro i x hx hxon hxw
      simp only [List.getElem?_set] at hx
      split at hx
      · next hi =>
        split at hx
        · cases hx
          exact h
        · cases hx
      · next hi => exact (ho i x (Ne.symm hi) hx hxon).resolve_right (not_not.mpr hxw)
  · change execRoosterWindow b () s = _
    rw [execRoosterWindow, hw]

end Sys2Proof.Machine

namespace Sys2Proof.Machine

open Sys2Proof

/-! ## CHANNEL_STOP where the register file lists a word twice (R201, R323) -/

/-- A device in ACTIVE whose register file lists HB0_CFG twice, with EN = 1 and with another STOP_MS: a state of the model that is
not sound (R201), as a store of the reset value takes one entry off the list and leaves the other. Channel 0 is STARTING. -/
def hbListedTwice : State :=
  { State.reset with
    regs := [((Reg.hbCfg 0).addr, BitVec.ofNat 32 ((Reg.hbCfg 0).reset + 1)), ((Reg.hbCfg 0).addr, 0#32)]
    power := { State.reset.power with boot := .complete, mode := .active }
    stage := { State.reset.stage with chans := [{ state := .starting }] } }

/-- Refutes O44: the statement speaks of every state, and where the register file lists the word of a starting channel twice, its
stop sequence takes STOP_MS from the entry that CHANNEL_STOP leaves. -/
theorem not_channelSequenceRowsAct : ¬ Obligations.ChannelSequenceRowsAct := by
  intro h
  obtain ⟨-, -, -, hstarting, -⟩ := h hbListedTwice 0 _ rfl
  have hstate := Host.Outcome.next.inj (hstarting (by decide +kernel) (by decide +kernel) (by decide +kernel) (by decide +kernel))
  have hms := congrArg (fun t : State => t.stage.chans.map Chan.seqMs) hstate
  exact absurd hms (by decide +kernel)

end Sys2Proof.Machine

namespace Sys2Proof.Machine

open Sys2Proof

/-! ## One channel of the stage -/

@[simp] theorem modChan_length (s : State) (c : Nat) (f : Chan → Chan) :
    (modChan s c f).stage.chans.length = s.stage.chans.length := by
  simp [modChan, modAt]

theorem chan_modChan_self {s : State} {c : Nat} (h : c < s.stage.chans.length) (f : Chan → Chan) :
    chan (modChan s c f) c = f (chan s c) := by
  simp [chan, modChan, modAt, h]

theorem chan_modChan_ne (s : State) {c r : Nat} (h : r ≠ c) (f : Chan → Chan) : chan (modChan s c f) r = chan s r := by
  simp [chan, modChan, modAt, h.symm]

theorem chan_of_chans {s t : State} (h : t.stage.chans = s.stage.chans) (c : Nat) : chan t c = chan s c := by
  simp only [chan, h]

theorem modChan_modChan (s : State) (c : Nat) (f g : Chan → Chan) :
    modChan (modChan s c f) c g = modChan s c (fun x => g (f x)) := by
  simp only [modChan, modAt, List.modify_modify_eq]
  rfl

/-- A channel that is not in OFF is one of the list. -/
theorem lt_length_of_state {s : State} {c : Nat} (h : (chan s c).state ≠ .off) : c < s.stage.chans.length := by
  by_contra hc
  exact h (by simp [chan, not_lt.mp hc])

theorem lt_length_of_running {s : State} {c : Nat} (h : running (chan s c) = true) : c < s.stage.chans.length :=
  lt_length_of_state (fun ho => by simp [running, ho] at h)

theorem addCount_modChan (s : State) (c : Nat) (f : Chan → Chan) (r : Reg) (hi lo k : Nat) :
    addCount (modChan s c f) r hi lo k = modChan (addCount s r hi lo k) c f := rfl

theorem hbCount_ne_retryCfg (c : Nat) : Reg.retryCfg.addr ≠ (Reg.hbCount c).addr := by
  simp [Reg.addr]
  omega

theorem xpCount_ne_retryCfg (c : Nat) : Reg.retryCfg.addr ≠ (Reg.xpCount c).addr := by
  simp [Reg.addr]
  omega

/-! ## Shutdowns (R325, R326) -/

/-- A channel after its shutdown with a cause. -/
def shutChan (s : State) (cause : Nat) (x : Chan) : Chan :=
  { hiZ (if cause == 3 || cause == 6 || decide (retryMax s ≤ x.retries) then .latched else .faultWait) x with
    cause := cause, downCause := cause, downBsn := s.bsn, downCyc := s.cycle }

/-- Channels, counts and events have changed, but not the number of retries. -/
structure Shuts (s t : State) : Prop where
  frame : t = { s with
    stage := { s.stage with chans := t.stage.chans }, regs := t.regs, rcNow := t.rcNow, events := t.events }
  retries : retryMax t = retryMax s
  length : t.stage.chans.length = s.stage.chans.length

theorem Shuts.refl (s : State) : Shuts s s := ⟨rfl, rfl, rfl⟩

theorem Shuts.trans {s t u : State} (h : Shuts s t) (h' : Shuts t u) : Shuts s u where
  frame := by
    have hu := h'.frame
    rw [h.frame] at hu
    exact hu
  retries := h'.retries.trans h.retries
  length := h'.length.trans h.length

theorem Shuts.bsn {s t : State} (h : Shuts s t) : t.bsn = s.bsn := by rw [h.frame]

theorem Shuts.cycle {s t : State} (h : Shuts s t) : t.cycle = s.cycle := by rw [h.frame]

theorem Shuts.shutChan {s t : State} (h : Shuts s t) (cause : Nat) (x : Chan) : shutChan t cause x = shutChan s cause x := by
  simp only [Machine.shutChan, h.retries, h.bsn, h.cycle]

theorem shuts_modChan (s : State) (c : Nat) (f : Chan → Chan) : Shuts s (modChan s c f) :=
  ⟨rfl, rfl, modChan_length s c f⟩

theorem shuts_addCount {r : Reg} (hr : Reg.retryCfg.addr ≠ r.addr) (s : State) (hi lo k : Nat) : Shuts s (addCount s r hi lo k) := by
  refine ⟨?_, ?_, ?_⟩
  · rw [addCount_frame]
  · rw [retryMax, retryMax, rd_addCount_other hr]
  · rw [addCount_frame]

theorem shuts_raise (s : State) (n p : Nat) : Shuts s (raise s n p) := by
  refine ⟨?_, ?_, ?_⟩
  · rw [raise_frame]
  · rw [raise_frame]
    rfl
  · rw [raise_frame]

theorem shutdown_eq (s : State) (c cause : Nat) : shutdown s c cause =
    if c < 16 then raise (addCount (modChan s c (shutChan s cause)) (.hbCount c) 23 16 1) (52 + 2 * c)
      (cause + b2n (cause == 3 || cause == 6 || decide (retryMax s ≤ (chan s c).retries)) * 16 + (chan s c).retries * 256)
    else addCount (modChan s c (shutChan s cause)) (.xpCount (c - 16)) 7 0 (b2n (cause == 7)) := by
  have hmod : modChan s c (fun x => { hiZ (if cause == 3 || cause == 6 || decide (retryMax s ≤ (chan s c).retries) then
      .latched else .faultWait) x with
      cause := cause, downCause := cause, downBsn := s.bsn, downCyc := s.cycle }) = modChan s c (shutChan s cause) := by
    refine congrArg (fun l => { s with stage := { s.stage with chans := l } }) ?_
    exact modAt_agree (d := {}) rfl
  simp only [shutdown, hmod]

theorem shutdown_shuts (s : State) (c cause : Nat) : Shuts s (shutdown s c cause) := by
  rw [shutdown_eq]
  split
  · exact ((shuts_modChan s c _).trans (shuts_addCount (hbCount_ne_retryCfg c) _ _ _ _)).trans (shuts_raise _ _ _)
  · exact (shuts_modChan s c _).trans (shuts_addCount (xpCount_ne_retryCfg _) _ _ _ _)

theorem shutdown_chans (s : State) (c cause : Nat) :
    (shutdown s c cause).stage.chans = (modChan s c (shutChan s cause)).stage.chans := by
  rw [shutdown_eq]
  split
  · rw [raise_stage, addCount_frame]
  · rw [addCount_frame]

theorem chan_shutdown_self {s : State} {c : Nat} (h : c < s.stage.chans.length) (cause : Nat) :
    chan (shutdown s c cause) c = shutChan s cause (chan s c) := by
  rw [chan_of_chans (shutdown_chans s c cause), chan_modChan_self h]

theorem chan_shutdown_ne (s : State) {c r : Nat} (h : r ≠ c) (cause : Nat) : chan (shutdown s c cause) r = chan s r := by
  rw [chan_of_chans (shutdown_chans s c cause), chan_modChan_ne _ h]

/-- One step per channel of a list without repetition changes each channel of it once. -/
theorem chan_foldl {g : State → Nat → State} {F : Nat → Chan → Chan} {s : State}
    (hg : ∀ t c, Shuts s t → Shuts s (g t c))
    (hself : ∀ t c, Shuts s t → c < s.stage.chans.length → chan (g t c) c = F c (chan t c))
    (hother : ∀ t c r, r ≠ c → chan (g t c) r = chan t r) (l : List Nat) (hl : ∀ c ∈ l, c < s.stage.chans.length)
    (hnd : l.Nodup) (t : State) (ht : Shuts s t) :
    Shuts s (l.foldl g t) ∧ ∀ r, chan (l.foldl g t) r = if r ∈ l then F r (chan t r) else chan t r := by
  induction l generalizing t with
  | nil => exact ⟨ht, fun r => rfl⟩
  | cons c l ih =>
    obtain ⟨hc, hnd⟩ := List.nodup_cons.mp hnd
    obtain ⟨h1, h2⟩ := ih (fun c hc => hl c (List.mem_cons_of_mem _ hc)) hnd (g t c) (hg t c ht)
    refine ⟨h1, fun r => (h2 r).trans ?_⟩
    by_cases hr : r = c
    · subst hr
      rw [if_neg hc, if_pos List.mem_cons_self, hself t r ht (hl r List.mem_cons_self)]
    · rw [hother t c r hr]
      simp [hr]

/-- One step per half-bridge channel. -/
theorem chan_foldl_bridges {g : State → Nat → State} {F : Nat → Chan → Chan} {s : State} (h32 : s.stage.chans.length = 32)
    (hg : ∀ t c, Shuts s t → Shuts s (g t c))
    (hself : ∀ t c, Shuts s t → c < s.stage.chans.length → chan (g t c) c = F c (chan t c))
    (hother : ∀ t c r, r ≠ c → chan (g t c) r = chan t r) :
    Shuts s ((List.range 16).foldl g s) ∧
      ∀ r, chan ((List.range 16).foldl g s) r = if r < 16 then F r (chan s r) else chan s r := by
  obtain ⟨h1, h2⟩ := chan_foldl hg hself hother (List.range 16)
    (fun c hc => by have := List.mem_range.mp hc; omega) List.nodup_range s (Shuts.refl s)
  exact ⟨h1, fun r => by simp only [h2 r, List.mem_range]⟩

/-! ## The die link (R19, R321, R325) -/

theorem sweepFail_stage (s : State) : (sweepFail s).stage = s.stage := by
  unfold sweepFail
  split
  · rfl
  · rw [sweepDrop]
    obtain ⟨a, b, c, h⟩ := completeJob_portsOnly (modDiag s (fun d => { d with state := .idle })) isDiag .fault
      (diagReply 0#40 0#40 s.diag.mask 0)
    rw [h]
    rfl
  · rw [sweepCut]
    split <;> rfl

theorem sweepFail_idle {s : State} (h : s.diag.state = .idle) : sweepFail s = s := by
  simp [sweepFail, h]

theorem sweepFail_ends {s : State} (h1 : s.diag.state ≠ .idle) (h2 : s.diag.state ≠ .waiting) :
    (sweepFail s).diag.failed = true ∧ (sweepFail s).diag.since = s.bsn + 1#40 := by
  unfold sweepFail
  split
  · contradiction
  · contradiction
  · exact ⟨rfl, rfl⟩

/-- A half-bridge channel that switches shuts down with cause 5. -/
def linkShut (s : State) (x : Chan) : Chan := if running x then shutChan s 5 x else x

/-- A half-bridge channel in OFF is UNAVAILABLE while the link is down. -/
def linkOff (x : Chan) : Chan := if x.state = .off then hiZ .unavailable x else x

/-- The channels shut down, before the link is down for those in OFF. -/
def linkShutAll (s : State) : State :=
  (List.range 16).foldl (fun t c => if running (chan t c) then shutdown t c 5 else t)
    { s with stage := { s.stage with linkBad := some (s.bsn, s.cycle) } }

theorem linkShutAll_chans {s : State} (h : s.stage.chans.length = 32) :
    Shuts { s with stage := { s.stage with linkBad := some (s.bsn, s.cycle) } } (linkShutAll s) ∧
      ∀ c, chan (linkShutAll s) c = if c < 16 then linkShut s (chan s c) else chan s c := by
  refine chan_foldl_bridges (F := fun _ => linkShut s) h (fun t c ht => ?_) (fun t c ht hc => ?_) (fun t c r hr => ?_)
  · split
    · exact ht.trans (shutdown_shuts t c 5)
    · exact ht
  · rw [linkShut]
    split
    · rw [chan_shutdown_self (by rw [ht.length]; exact hc), ht.shutChan]
      rfl
    · rfl
  · split
    · exact chan_shutdown_ne t hr 5
    · rfl

theorem linkTo_down {s : State} (h : s.stage.chans.length = 32) :
    Shuts { s with stage := { s.stage with linkDown := true } } (linkTo s true) ∧
      ∀ c, chan (linkTo s true) c = if c < 16 then linkOff (chan s c) else chan s c := by
  obtain ⟨h1, h2⟩ := chan_foldl_bridges (s := { s with stage := { s.stage with linkDown := true } })
    (g := fun t c => if (chan t c).state = .off then modChan t c (hiZ .unavailable) else t) (F := fun _ => linkOff) h
    (fun t c ht => by
      split
      · exact ht.trans (shuts_modChan t c _)
      · exact ht)
    (fun t c ht hc => by
      rw [linkOff]
      split
      · rw [chan_modChan_self (by rw [ht.length]; exact hc)]
      · rfl)
    (fun t c r hr => by
      split
      · exact chan_modChan_ne t hr _
      · rfl)
  exact ⟨h1, h2⟩

theorem linkFail_eq (s : State) : linkFail s = sweepFail (linkTo (linkShutAll s) true) := rfl

theorem linkFail_chan {s : State} (h : s.stage.chans.length = 32) (c : Nat) :
    chan (linkFail s) c = if c < 16 then linkOff (linkShut s (chan s c)) else chan s c := by
  obtain ⟨h1, h2⟩ := linkShutAll_chans h
  rw [linkFail_eq, chan_of_chans (congrArg PStage.chans (sweepFail_stage _)), (linkTo_down (h1.length.trans h)).2, h2]
  split <;> rfl

/-- What the failed link leaves of the rest of the device. -/
theorem linkFail_frame {s : State} (h : s.stage.chans.length = 32) :
    linkTo (linkShutAll s) true = { s with
      stage := (linkTo (linkShutAll s) true).stage, regs := (linkTo (linkShutAll s) true).regs,
      rcNow := (linkTo (linkShutAll s) true).rcNow, events := (linkTo (linkShutAll s) true).events } ∧
    (linkTo (linkShutAll s) true).stage.linkBad = some (s.bsn, s.cycle) ∧ (linkTo (linkShutAll s) true).stage.linkDown = true ∧
    (linkTo (linkShutAll s) true).diag = s.diag ∧ (linkTo (linkShutAll s) true).bsn = s.bsn := by
  obtain ⟨h1, -⟩ := linkShutAll_chans h
  obtain ⟨h2, -⟩ := linkTo_down (h1.length.trans h)
  have hs := h1.frame
  have hf := h2.frame
  generalize linkTo (linkShutAll s) true = u at *
  generalize linkShutAll s = t at *
  rw [hs] at hf
  have hstage := congrArg State.stage hf
  refine ⟨?_, ?_, ?_, ?_, ?_⟩
  · rw [hstage]
    exact hf
  · rw [hstage]
  · rw [hstage]
  · rw [hf]
  · rw [hf]

/-! ## Limits and warnings (R324, R335) -/

theorem chanLimits_diag {s : State} {c : Nat} (h : (chan s c).state = .diag) : (chanLimits s c).1 = 1500000 := by
  rw [chanLimits, if_pos h]

/-- A fresh warning is told once a block. -/
theorem warnNow_fresh {s : State} {c w : Nat} (h1 : (chan s c).warned = false)
    (h2 : bit (chan s c).warn w = false) : warnNow s c w = raise (modChan s c (fun x => { x with
      warnNow := Nat.lor (chan s c).warnNow (2 ^ w), warned := true })) (53 + 2 * c)
      (Nat.lor (chan s c).warnNow (2 ^ w) +
        Nat.land (Nat.lor (chan s c).warnNow (2 ^ w)) (7 - (chan s c).warn % 8) * 16) := by
  simp [warnNow, h1, h2]

/-- A warning that holds already, or of a block that has told of one, is only marked. -/
theorem warnNow_told {s : State} {c w : Nat} (h : (chan s c).warned = true ∨ bit (chan s c).warn w = true) :
    warnNow s c w = modChan s c (fun x => { x with warnNow := Nat.lor (chan s c).warnNow (2 ^ w) }) := by
  have hf : (!bit (chan s c).warn w && !(chan s c).warned) = false := by
    rcases h with h | h <;> simp [h]
  simp only [warnNow, hf, Bool.or_false]
  rfl

theorem sweepCutOff_other {s : State} {c : Nat} (h : s.diag.cur ≠ some c) :
    sweepCutOff s c = { s with diag := { s.diag with hiZ := Nat.lor s.diag.hiZ (2 ^ c) } } :=
  if_neg h

/-- The channel under test is cut off with code 9. -/
theorem sweepCutOff_tested {s : State} {c : Nat} (h : s.diag.cur = some c) :
    sweepCutOff s c = { s with diag := { s.diag with
      hiZ := Nat.lor s.diag.hiZ (2 ^ c), recs := s.diag.recs.set c (codeRec s c 9) } } :=
  if_pos h

theorem execChannelShutdown_plays {s : State} {c : Fin 32} (hc : c.val < 16) (hl : leads s c = true)
    (hr : running (chan s c) = true) (why : ShutdownCause) : execChannelShutdown c why s = match why with
      | .short => if 32 ≤ (chan s c).limRun then .next (shutdown s c 1) else .next s
      | .overcurrent ua => if (chanLimits s c).2 < ua then .next (shutdown s c 2) else .next s
      | .bootstrap => .next (shutdown s c 4)
      | .link => .next (linkFail s) := by
  have hd : (chan s c).state ≠ .diag := fun hd => by simp [running, hd] at hr
  rw [execChannelShutdown.eq_def, if_neg (by simp [hd]), if_neg (by simp [hc, hl, hr])] <;> rfl

/-- A half-bridge channel of a sweep. -/
theorem execChannelShutdown_diag {s : State} {c : Fin 32} (hc : c.val < 16) (hl : leads s c = true)
    (hd : (chan s c).state = .diag) (why : ShutdownCause) : execChannelShutdown c why s = match why with
      | .overcurrent ua => if (chanLimits s c).2 < ua then .next (sweepCutOff s c) else .next s
      | .link => .next (linkFail s)
      | _ => .next s := by
  rw [execChannelShutdown.eq_def, if_pos (by simp [hc, hl, hd])] <;> rfl

/-- A limited cycle of a channel that switches, in a period not yet counted. -/
theorem execLimitedCycle_counts {s : State} {h : Fin 16} {r : LimitedPeriod} {c : Nat} {sp : LimitSpan} (hc : c = leaderOf s h)
    (hsp : sp = limitSpan s h c r) (hlim : (chanLimits s c).1 ≤ r.ua.natAbs) (hr : running (chan s c) = true)
    (hcnt : limitCounted (chan s c) sp = false) : execLimitedCycle h r s =
      .next (warnNow (modChan (addCount s (.hbCount c) 15 0 1) c (fun x => { x with
        spans := x.spans ++ [sp], limRun := if r.again then x.limRun + 1 else 1, limNow := bump 0xFFFF x.limNow })) c 0) := by
  have hcount : limitCount s c sp = modChan (addCount s (.hbCount c) 15 0 1) c (fun x => { x with spans := x.spans ++ [sp] }) := by
    rw [limitCount, if_neg (by rw [hcnt]; decide), addCount_modChan]
  have hd : (chan s c).state ≠ .diag := fun hd => by simp [running, hd] at hr
  rw [execLimitedCycle.eq_def]
  simp only [← hc, ← hsp]
  rw [if_neg (by omega), if_neg hd, if_neg (by simp [hr]), if_neg (by simp [hcnt]), hcount, modChan_modChan]

theorem addCount_diag (s : State) (r : Reg) (hi lo k : Nat) : (addCount s r hi lo k).diag = s.diag := by
  rw [addCount_frame]

/-- A limited cycle of a channel of a sweep, in a period not yet counted. -/
theorem execLimitedCycle_diag {s : State} {h : Fin 16} {r : LimitedPeriod} {c : Nat} {sp : LimitSpan} (hc : c = leaderOf s h)
    (hsp : sp = limitSpan s h c r) (hd : (chan s c).state = .diag) (hlim : 1500000 ≤ r.ua.natAbs)
    (hcnt : limitCounted (chan s c) sp = false) : execLimitedCycle h r s =
      .next (diagLimited (addCount (modChan s c (fun x => { x with spans := x.spans ++ [sp] })) (.hbCount c) 15 0 1) c r) := by
  rw [execLimitedCycle.eq_def]
  simp only [← hc, ← hsp, limitCount, hcnt]
  rw [if_neg (by rw [chanLimits_diag hd]; omega), if_pos hd]
  rfl

/-! ## XFAULT (R333) -/

/-- The channels of a quad that XFAULT shuts down, counted from its first. -/
def xfaultHit (s : State) (q : Fin 4) : List Nat :=
  (List.range 4).filter (fun i => running (chan s (16 + 4 * q.val + i)) && leads s (16 + 4 * q.val + i))

/-- The channels of a quad have shut down. -/
def xfaultShut (s : State) (q : Fin 4) : State :=
  (xfaultHit s q).foldl (fun t i => shutdown t (16 + 4 * q.val + i) 7)
    { s with stage := { s.stage with xBad := s.stage.xBad.set q (some (s.bsn, s.cycle)) } }

theorem mem_xfaultHit {s : State} {q : Fin 4} {r : Nat} : r ∈ (xfaultHit s q).map (fun i => 16 + 4 * q.val + i) ↔
    r / 4 = 4 + q.val ∧ running (chan s r) = true ∧ leads s r = true := by
  simp only [xfaultHit, List.mem_map, List.mem_filter, List.mem_range, Bool.and_eq_true]
  constructor
  · rintro ⟨i, ⟨hi, hr, hl⟩, rfl⟩
    exact ⟨by omega, hr, hl⟩
  · rintro ⟨hq, hr, hl⟩
    have hri : 16 + 4 * q.val + (r - 16 - 4 * q.val) = r := by omega
    exact ⟨r - 16 - 4 * q.val, ⟨by omega, by rwa [hri], by rwa [hri]⟩, hri⟩

theorem xfaultShut_chans (s : State) (q : Fin 4) :
    Shuts { s with stage := { s.stage with xBad := s.stage.xBad.set q (some (s.bsn, s.cycle)) } } (xfaultShut s q) ∧
      ∀ r, chan (xfaultShut s q) r = if r / 4 = 4 + q.val ∧ running (chan s r) = true ∧ leads s r = true then
        shutChan s 7 (chan s r) else chan s r := by
  obtain ⟨h1, h2⟩ := chan_foldl (s := { s with stage := { s.stage with xBad := s.stage.xBad.set q (some (s.bsn, s.cycle)) } })
    (g := fun t c => shutdown t c 7) (F := fun _ => shutChan s 7)
    (fun t c ht => ht.trans (shutdown_shuts t c 7))
    (fun t c ht hc => (chan_shutdown_self (by rw [ht.length]; exact hc) 7).trans (ht.shutChan 7 _))
    (fun t c r hr => chan_shutdown_ne t hr 7) ((xfaultHit s q).map (fun i => 16 + 4 * q.val + i))
    (fun c hc => lt_length_of_running (mem_xfaultHit.mp hc).2.1)
    ((List.nodup_range.filter _).map (fun a b h => by omega)) _ (Shuts.refl _)
  rw [List.foldl_map] at h1 h2
  simp only [mem_xfaultHit] at h2
  exact ⟨h1, h2⟩

/-- The event tells of the channels that were hit. -/
def xfaultTold (s : State) (q : Fin 4) : State :=
  if (xfaultHit s q).isEmpty then xfaultShut s q
  else raise (xfaultShut s q) 126 (q.val + ((xfaultHit s q).foldl (fun m i => m + 2 ^ i) 0) * 16)

theorem xfaultTold_stage (s : State) (q : Fin 4) : (xfaultTold s q).stage = (xfaultShut s q).stage := by
  rw [xfaultTold]
  split
  · rfl
  · rw [raise_stage]

/-- Settles O45: each fault is one shutdown or warning of the channel, and the failed link one for every channel. -/
theorem channelFaultRowsAct : Obligations.ChannelFaultRowsAct := by
  intro s
  refine ⟨fun c cause x latch hc hx hl => ?_, fun c hc hl hr => ⟨fun ua h => ?_, fun ua h => ?_, ?_, fun h => ?_, fun h => ?_⟩,
    fun c hc hl hr => ?_, fun c why h => ?_, fun c hc hl hd => ⟨fun ua h hcur => ?_, fun ua h hcur => ?_, fun ua h => ?_, ?_, ?_, ?_⟩,
    fun h hst hen hl hd => ?_, fun h hd => ?_, fun h hen => ?_, fun h r c x sp now hc hx hsp hlim hr hcnt hw hb hnow => ?_,
    fun h r c x sp hc hx hsp hlim hr hcnt hw => ?_, fun h r c x sp hc hx hsp hlim hr hcnt => ?_,
    fun h r c sp hc hsp hd hlim hcnt => ⟨fun hp htodo => ?_, fun hp => ?_⟩, fun h r hn => ?_,
    fun h l x now hx hl hfar hw hb hnow => ?_, fun h l hn => ?_, fun n => ?_, fun hc => ?_, fun hc => ?_,
    fun h32 => ?_, fun q hq => ?_, fun q hc hpw => ?_⟩
  · subst hx hl
    rw [shutdown, if_pos hc]
  · exact (execChannelShutdown_plays hc hl hr (.overcurrent ua)).trans (if_pos h)
  · exact (execChannelShutdown_plays hc hl hr (.overcurrent ua)).trans (if_neg (Nat.not_lt.mpr h))
  · exact execChannelShutdown_plays hc hl hr .bootstrap
  · exact (execChannelShutdown_plays hc hl hr .short).trans (if_pos h)
  · exact (execChannelShutdown_plays hc hl hr .short).trans (if_neg (Nat.not_le.mpr h))
  · exact execChannelShutdown_plays hc hl hr .link
  · change execChannelShutdown c why s = _
    rw [execChannelShutdown.eq_def, if_neg, if_pos]
    · rcases h with h | h | ⟨h, -⟩
      · simp [not_lt.mpr h]
      · simp [h]
      · simp [h]
    · rcases h with h | h | ⟨-, h⟩
      · simp [not_lt.mpr h]
      · simp [h]
      · simp [h]
  · exact (execChannelShutdown_diag hc hl hd (.overcurrent ua)).trans
      ((if_pos h).trans (congrArg Host.Outcome.next (sweepCutOff_other hcur)))
  · exact (execChannelShutdown_diag hc hl hd (.overcurrent ua)).trans
      ((if_pos h).trans (congrArg Host.Outcome.next (sweepCutOff_tested hcur)))
  · exact (execChannelShutdown_diag hc hl hd (.overcurrent ua)).trans (if_neg (Nat.not_lt.mpr h))
  · exact execChannelShutdown_diag hc hl hd .short
  · exact execChannelShutdown_diag hc hl hd .bootstrap
  · exact execChannelShutdown_diag hc hl hd .link
  · change execDcDetect h s = _
    rw [execDcDetect]
    refine if_pos ?_
    rcases hst with hst | ⟨hst, hage⟩
    · simp [hst, dcLong, hd, hen, hl]
    · simp [hst, hage, dcLong, hd, hen, hl]
  · change execDcDetect h s = _
    rw [execDcDetect]
    refine if_neg ?_
    have : dcLong s (chan s h) = false := by simp [dcLong, hd]
    simp [this]
  · change execDcDetect h s = _
    rw [execDcDetect]
    exact if_neg (by simp [hen])
  · have hlen : c < s.stage.chans.length := lt_length_of_running (by rw [← hx]; exact hr)
    have hlen' : c < (addCount s (.hbCount c) 15 0 1).stage.chans.length := by rw [addCount_frame]; exact hlen
    have hchan : chan (addCount s (.hbCount c) 15 0 1) c = x := by
      rw [hx, addCount_frame]
      rfl
    refine (execLimitedCycle_counts hc hsp hlim (hx ▸ hr) (hx ▸ hcnt)).trans (congrArg Host.Outcome.next ?_)
    rw [warnNow_fresh (by rw [chan_modChan_self hlen', hchan]; exact hw)
      (by rw [chan_modChan_self hlen', hchan]; exact hb), modChan_modChan, chan_modChan_self hlen', hchan]
    simp only [hnow]
    rfl
  · have hlen : c < s.stage.chans.length := lt_length_of_running (by rw [← hx]; exact hr)
    have hlen' : c < (addCount s (.hbCount c) 15 0 1).stage.chans.length := by rw [addCount_frame]; exact hlen
    have hchan : chan (addCount s (.hbCount c) 15 0 1) c = x := by
      rw [hx, addCount_frame]
      rfl
    refine (execLimitedCycle_counts hc hsp hlim (hx ▸ hr) (hx ▸ hcnt)).trans (congrArg Host.Outcome.next ?_)
    rw [warnNow_told (by rw [chan_modChan_self hlen', hchan]; exact hw), modChan_modChan, chan_modChan_self hlen', hchan]
    refine congrArg (fun l => { (addCount s (.hbCount c) 15 0 1) with stage := { (addCount s (.hbCount c) 15 0 1).stage with chans := l } }) ?_
    refine modAt_agree (d := {}) ?_
    rw [show (addCount s (.hbCount c) 15 0 1).stage.chans.getD c {} = x from hchan]
    rfl
  · have hd : x.state ≠ .diag := fun hd => by simp [running, hd] at hr
    change execLimitedCycle h r s = _
    rw [execLimitedCycle.eq_def]
    simp only [← hc, ← hx, ← hsp, limitCount, hcnt]
    rw [if_neg (by omega), if_neg hd, if_neg (by simp [hr]), if_pos trivial, if_pos trivial]
  · change execLimitedCycle h r s = _
    rw [execLimitedCycle_diag hc hsp hd hlim hcnt, diagLimited, addCount_diag]
    exact congrArg Host.Outcome.next (if_pos ⟨hp, htodo⟩)
  · change execLimitedCycle h r s = _
    rw [execLimitedCycle_diag hc hsp hd hlim hcnt, diagLimited, addCount_diag]
    refine congrArg Host.Outcome.next ((if_neg ?_).trans (if_neg ?_))
    · simp [modChan, hp]
    · simp [modChan, hp]
  · change execLimitedCycle h r s = _
    rw [execLimitedCycle.eq_def]
    dsimp only
    rcases hn with hn | hn
    · exact if_pos hn
    · have hd : (chan s (leaderOf s h)).state ≠ .diag := by rw [hn]; decide
      rw [if_neg hd, if_pos (show (!running (chan s (leaderOf s h))) = true by simp [running, hn])]
      exact ite_self _
  · have hlen : h.val < s.stage.chans.length := (List.getElem?_eq_some_iff.mp hx).1
    have hchan : chan s h = x := by rw [chan, List.getD_eq_getElem?_getD, hx]; rfl
    change execLoopOpen ⟨h, l⟩ s = _
    rw [execLoopOpen, if_pos (by rw [hchan, hl]; exact hfar), warnNow_fresh
      (by rw [chan_modChan_self hlen, hchan]; exact hw) (by rw [chan_modChan_self hlen, hchan]; exact hb), modChan_modChan,
      chan_modChan_self hlen, hchan]
    simp only [hnow]
    rfl
  · change execLoopOpen ⟨h, l⟩ s = _
    rw [execLoopOpen]
    refine if_neg ?_
    rcases hn with hn | hn <;> simp [hn]
  · rw [fingerLimits]
  · change execDieLinkFail s = _
    exact if_pos hc
  · change execDieLinkFail s = _
    exact if_neg (by simp [hc])
  · obtain ⟨hf, hbad, hdown, hdiag, hbsn⟩ := linkFail_frame h32
    have hstage : (linkFail s).stage = (linkTo (linkShutAll s) true).stage := sweepFail_stage _
    refine ⟨linkFail s, rfl, ?_, ?_, fun hd => ?_, fun h1 h2 => ?_, fun c hc => ?_, fun c hc => ?_, fun c hc => ?_⟩
    · rw [hstage, hbad]
    · rw [hstage, hdown]
    · rw [linkFail_eq, sweepFail_idle]
      · exact hf
      · exact (congrArg Diag.state hdiag).trans hd
    · have hends := sweepFail_ends (s := linkTo (linkShutAll s) true) (ne_of_eq_of_ne (congrArg Diag.state hdiag) h1)
        (ne_of_eq_of_ne (congrArg Diag.state hdiag) h2)
      rw [hbsn] at hends
      rw [linkFail_eq]
      exact hends
    · rw [linkFail_chan h32, if_pos hc.1, linkShut, if_pos hc.2, linkOff, if_neg]
      · simp [shutChan]
      · simp only [shutChan, hiZ]
        split <;> decide
    · have hr : running (chan s c) = false := by simp [running, hc.2]
      rw [linkFail_chan h32, if_pos hc.1, linkShut, if_neg (by simp [hr]), linkOff, if_pos hc.2]
    · rw [linkFail_chan h32]
      by_cases h16 : c.val < 16
      · obtain ⟨hr, ho⟩ := not_or.mp (fun h => hc ⟨h16, h⟩)
        rw [if_pos h16, linkShut, if_neg hr, linkOff, if_neg ho]
      · exact if_neg h16
  · change execXfault q s = _
    rw [execXfault]
    refine if_pos ?_
    rcases hq with h | h <;> simp [h]
  · obtain ⟨hsh, hch⟩ := xfaultShut_chans s q
    have hf := hsh.frame
    refine ⟨xfaultTold s q, ?_, ?_, ?_, fun c hc => ?_,
      fun c hc => ?_, fun hn => ?_⟩
    · change execXfault q s = _
      rw [execXfault, if_neg (by simp [hc, hpw])]
      exact (apply_ite Host.Outcome.next _ _ _).symm
    · rw [xfaultTold]
      generalize xfaultShut s q = u at hf ⊢
      have hstage := congrArg State.stage hf
      split
      · rw [hstage]
        exact hf
      · rw [raise_frame, hstage, hf]
    · rw [xfaultTold_stage, hf]
    · rw [chan_of_chans (congrArg PStage.chans (xfaultTold_stage s q)), hch, if_pos hc]
      simp [shutChan]
    · rw [chan_of_chans (congrArg PStage.chans (xfaultTold_stage s q)), hch, if_neg hc]
    · have hnone : xfaultHit s q = [] := by
        refine List.filter_eq_nil_iff.mpr fun i hi => ?_
        have hi4 := List.mem_range.mp hi
        have := hn ⟨16 + 4 * q.val + i, by omega⟩ (by change (16 + 4 * q.val + i) / 4 = _; omega)
        simp [this]
      rw [xfaultTold, if_pos (by rw [hnone]; rfl), xfaultShut, hnone]
      rfl

end Sys2Proof.Machine

namespace Sys2Proof.Machine

open Sys2Proof

/-! ## The stage's availability (R328, R331) -/

/-- Events do not see the power stage. -/
theorem raise_setStage (s : State) (a : PStage) (n p : Nat) :
    raise { s with stage := a } n p = { raise s n p with stage := a } := by
  have he : (raise { s with stage := a } n p).events = (raise s n p).events := by
    simp only [raise, raiseAt_events, evEnter_events, evQueue_events]
    rfl
  rw [raise_frame, he, raise_frame s]

/-- STAGE with its PVDD part and the thermal shutdown. -/
def staged (s : State) (pv : Stage) (thermal : Bool) : State :=
  { s with stage := { s.stage with pv := pv, thermal := thermal, stage := stageOf pv thermal } }

theorem setStage_stays {s : State} {pv : Stage} {thermal : Bool} (h : s.stage.stage = stageOf pv thermal) (mv : Nat) :
    setStage s pv thermal mv = staged s pv thermal :=
  if_pos h

theorem setStage_moves {s : State} {pv : Stage} {thermal : Bool} (h : s.stage.stage ≠ stageOf pv thermal) (mv : Nat) :
    setStage s pv thermal mv =
      if s.stage.stage = .available then
        sweepFail (raise (staged s pv thermal) 124 (stageCode (stageOf pv thermal) + mv % 65536 * 65536))
      else raise (staged s pv thermal) 124 (stageCode (stageOf pv thermal) + mv % 65536 * 65536) :=
  if_neg h

theorem setStage_stage (s : State) (pv : Stage) (thermal : Bool) (mv : Nat) :
    (setStage s pv thermal mv).stage = (staged s pv thermal).stage := by
  by_cases h : s.stage.stage = stageOf pv thermal
  · rw [setStage_stays h]
  · rw [setStage_moves h]
    split
    · rw [sweepFail_stage, raise_stage]
    · rw [raise_stage]

/-- Without a sweep only STAGE and its event change. -/
theorem setStage_idle {s : State} (hd : s.diag.state = .idle) (pv : Stage) (thermal : Bool) (mv : Nat) :
    setStage s pv thermal mv = { (if s.stage.stage = stageOf pv thermal then s
      else raise s 124 (stageCode (stageOf pv thermal) + mv % 65536 * 65536)) with stage := (staged s pv thermal).stage } := by
  by_cases h : s.stage.stage = stageOf pv thermal
  · rw [setStage_stays h, if_pos h]
    rfl
  · have hr : raise (staged s pv thermal) 124 (stageCode (stageOf pv thermal) + mv % 65536 * 65536) =
        { raise s 124 (stageCode (stageOf pv thermal) + mv % 65536 * 65536) with stage := (staged s pv thermal).stage } :=
      raise_setStage s _ _ _
    rw [setStage_moves h, if_neg h, sweepFail_idle (by rw [raise_diag]; exact hd), ite_self, hr]

theorem sweepFail_latched (s : State) : (sweepFail s).diag.latched = s.diag.latched := by
  unfold sweepFail
  split
  · rfl
  · rw [sweepDrop]
    obtain ⟨a, b, c, h⟩ := completeJob_portsOnly (modDiag s (fun d => { d with state := .idle })) isDiag .fault
      (diagReply 0#40 0#40 s.diag.mask 0)
    rw [h]
    rfl
  · rw [sweepCut]
    split <;> rfl

theorem setStage_latched (s : State) (pv : Stage) (thermal : Bool) (mv : Nat) :
    (setStage s pv thermal mv).diag.latched = s.diag.latched := by
  by_cases h : s.stage.stage = stageOf pv thermal
  · rw [setStage_stays h]
    rfl
  · rw [setStage_moves h]
    split
    · rw [sweepFail_latched, raise_diag]
      rfl
    · rw [raise_diag]
      rfl

/-- A channel that leaves UNAVAILABLE. -/
def released (x : Chan) : Chan :=
  if x.state = .unavailable then
    if x.held then { x with state := .latched, held := false }
    else { x with state := if x.waiting then .faultWait else .off, waiting := false }
  else x

theorem releaseChan_shuts (s : State) (c : Nat) : Shuts s (releaseChan s c) := by
  unfold releaseChan
  dsimp only
  split
  · exact Shuts.refl s
  · split
    · exact (shuts_modChan s c _).trans (shuts_raise _ _ _)
    · exact shuts_modChan s c _

theorem releaseChan_other (s : State) {c r : Nat} (h : r ≠ c) : chan (releaseChan s c) r = chan s r := by
  unfold releaseChan latchEvent
  dsimp only
  split
  · rfl
  · split
    · rw [chan_of_chans (congrArg PStage.chans (raise_stage _ _ _)), chan_modChan_ne _ h]
    · rw [chan_modChan_ne _ h]

theorem releaseChan_self {s : State} {c : Nat} (hc : c < s.stage.chans.length) :
    chan (releaseChan s c) c = released (chan s c) := by
  unfold releaseChan latchEvent released
  dsimp only
  by_cases h : (chan s c).state = .unavailable
  · rw [if_neg (not_not.mpr h), if_pos h]
    split
    · rw [chan_of_chans (congrArg PStage.chans (raise_stage _ _ _)), chan_modChan_self hc]
    · rw [chan_modChan_self hc]
  · rw [if_pos h, if_neg h]

/-- The half-bridge channels are released, once the stage is available and the die link up. -/
theorem releaseChans_up {s : State} (h32 : s.stage.chans.length = 32) (h1 : s.stage.stage = .available)
    (h2 : s.stage.linkDown = false) : Shuts s (releaseChans s) ∧
      (∀ c, chan (releaseChans s) c = if c < 16 then released (chan s c) else chan s c) := by
  rw [releaseChans, if_pos ⟨h1, h2⟩]
  exact chan_foldl_bridges (F := fun _ => released) h32 (fun t c ht => ht.trans (releaseChan_shuts t c))
    (fun t c ht hc => releaseChan_self (by rw [ht.length]; exact hc)) (fun t c r hr => releaseChan_other t hr)

theorem releaseChans_away {s : State} (h : s.stage.stage ≠ .available) : releaseChans s = s :=
  if_neg (fun hc => h hc.1)

/-- Only the channels and the event controller have changed. -/
def ChanTells (s t : State) : Prop :=
  t = { s with stage := { s.stage with chans := t.stage.chans }, events := t.events }

theorem ChanTells.trans {s t u : State} (h : ChanTells s t) (h' : ChanTells t u) : ChanTells s u := by
  unfold ChanTells at h' ⊢
  rw [h] at h'
  exact h'

theorem releaseChan_tells (s : State) (c : Nat) : ChanTells s (releaseChan s c) := by
  unfold releaseChan latchEvent
  dsimp only
  split
  · rfl
  · split
    · refine ChanTells.trans (t := modChan s c (fun x => { x with state := .latched, held := false })) rfl ?_
      unfold ChanTells
      rw [raise_stage]
      exact raise_frame _ _ _
    · rfl

theorem releaseChans_tells (s : State) : ChanTells s (releaseChans s) := by
  unfold releaseChans
  split
  · exact List.foldlRecOn (motive := ChanTells s) _ releaseChan rfl
      (fun t ht c _ => ht.trans (releaseChan_tells t c))
  · rfl

theorem releaseChans_stage (s : State) : (releaseChans s).stage = { s.stage with chans := (releaseChans s).stage.chans } :=
  congrArg State.stage (releaseChans_tells s)

/-- A channel that is not to be latched is released without an event. -/
theorem releaseChan_quiet {s : State} {c : Nat} (h : (chan s c).held = false) :
    (releaseChan s c).events = s.events := by
  unfold releaseChan
  dsimp only
  split
  · rfl
  · rw [if_neg (by simp [h])]
    rfl

theorem released_held {x : Chan} (h : x.held = false) : (released x).held = false := by
  unfold released
  split
  · rw [if_neg (by simp [h])]
    exact h
  · exact h

theorem releaseChan_held {s : State} {r : Nat} (h : (chan s r).held = false) (c : Nat) :
    (chan (releaseChan s c) r).held = false := by
  by_cases hr : r = c
  · subst hr
    by_cases hlen : r < s.stage.chans.length
    · rw [releaseChan_self hlen]
      exact released_held h
    · have : chan s r = {} := List.getD_eq_default _ _ (Nat.le_of_not_lt hlen)
      rw [releaseChan, if_pos (by rw [this]; decide)]
      exact h
  · rw [releaseChan_other s hr]
    exact h

/-- The release of channels none of which is to be latched raises no event. -/
theorem releaseChans_quiet {s : State} (h : ∀ c, c < 16 → (chan s c).held = false) :
    (releaseChans s).events = s.events := by
  unfold releaseChans
  split
  · refine (List.foldlRecOn (motive := fun t => t.events = s.events ∧ ∀ c, c < 16 → (chan t c).held = false) _ releaseChan
      ⟨rfl, h⟩ ?_).1
    rintro t ⟨ht, hq⟩ c hc
    exact ⟨(releaseChan_quiet (hq c (List.mem_range.mp hc))).trans ht, fun r hr => releaseChan_held (hq r hr) c⟩
  · rfl

/-- STAGE moves to AVAILABLE with an event, and the half-bridge channels are released. -/
theorem releaseChans_raise {s : State} {a : PStage} (hch : a.chans = s.stage.chans) (h32 : s.stage.chans.length = 32)
    (h1 : a.stage = .available) (h2 : a.linkDown = false) (n p : Nat) {t : State}
    (ht : t = releaseChans (raise { s with stage := a } n p)) :
    t = { raise s n p with stage := t.stage, events := t.events } ∧ t.stage = { a with chans := t.stage.chans } ∧
      ((∀ c, c < 16 → (chan s c).held = false) → t.events = (raise s n p).events) ∧
      ∀ c, chan t c = if c < 16 then released (chan s c) else chan s c := by
  rw [raise_setStage] at ht
  set u : State := { raise s n p with stage := a } with hu
  have hchan : ∀ c, chan u c = chan s c := fun c => chan_of_chans (t := u) hch c
  have hrel := releaseChans_stage u
  have htells := releaseChans_tells u
  rw [ChanTells, ← hrel] at htells
  rw [← ht] at hrel htells
  refine ⟨htells, hrel, fun hq => ?_, fun c => ?_⟩
  · rw [ht]
    exact releaseChans_quiet (fun c hc => by rw [hchan]; exact hq c hc)
  · rw [ht, (releaseChans_up (s := u) (hch ▸ h32) h1 h2).2 c, hchan]

/-! ## The thermal stop (R331) -/

/-- A running channel begins the stop of a thermal shutdown. -/
def thermalStop (t : State) (c : Nat) : State :=
  if (chan t c).state = .starting ∨ (chan t c).state = .play then
    modChan (beginStop t c 1 0 .unavailable) c (fun x => { x with cause := 8 })
  else t

theorem thermalStop_tells (t : State) (c : Nat) : ChanTells t (thermalStop t c) := by
  unfold thermalStop
  split <;> rfl

theorem thermalStop_other (t : State) {c r : Nat} (h : r ≠ c) : chan (thermalStop t c) r = chan t r := by
  unfold thermalStop
  split
  · rw [chan_modChan_ne _ h, beginStop, chan_modChan_ne _ h]
  · rfl

/-- What a channel is after the thermal stop. -/
def ThermalStopped (x y : Chan) : Prop :=
  if x.state = .starting ∨ x.state = .play then
    y.state = .stopping ∧ y.seqMs = 1 ∧ y.stopTo = .unavailable ∧ y.cause = 8
  else y = x

theorem thermalStop_self {t : State} {c : Nat} (hc : c < t.stage.chans.length) :
    ThermalStopped (chan t c) (chan (thermalStop t c) c) := by
  unfold thermalStop ThermalStopped
  split
  · rw [chan_modChan_self (by rw [beginStop, modChan_length]; exact hc), beginStop, chan_modChan_self hc]
    exact ⟨rfl, rfl, rfl, rfl⟩
  · rfl

theorem thermalStop_length (t : State) (c : Nat) : (thermalStop t c).stage.chans.length = t.stage.chans.length := by
  unfold thermalStop
  split
  · rw [modChan_length, beginStop, modChan_length]
  · rfl

/-- The thermal stop of a list of channels. -/
theorem thermalStops (l : List Nat) (hnd : l.Nodup) (t : State) (hl : ∀ c ∈ l, c < t.stage.chans.length) :
    ∀ r, if r ∈ l then ThermalStopped (chan t r) (chan (l.foldl thermalStop t) r)
      else chan (l.foldl thermalStop t) r = chan t r := by
  induction l generalizing t with
  | nil => exact fun r => rfl
  | cons c l ih =>
    obtain ⟨hc, hnd⟩ := List.nodup_cons.mp hnd
    intro r
    have h := ih hnd (thermalStop t c) (fun d hd => by
      rw [thermalStop_length]; exact hl d (List.mem_cons_of_mem _ hd)) r
    rw [List.foldl_cons]
    by_cases hr : r = c
    · subst hr
      rw [if_neg hc] at h
      rw [if_pos List.mem_cons_self, h]
      exact thermalStop_self (hl r List.mem_cons_self)
    · rw [thermalStop_other t hr] at h
      simpa [hr] using h

theorem thermalStops_tells (l : List Nat) (t : State) : ChanTells t (l.foldl thermalStop t) :=
  List.foldlRecOn (motive := ChanTells t) l thermalStop rfl (fun u hu c _ => hu.trans (thermalStop_tells u c))

theorem thermalStops_events (l : List Nat) (t : State) : (l.foldl thermalStop t).events = t.events :=
  List.foldlRecOn (motive := fun u => u.events = t.events) l thermalStop rfl (fun u hu c _ => by
    refine Eq.trans ?_ hu
    unfold thermalStop
    split <;> rfl)

theorem execThermalShutdown_stops {s : State} (h1 : 1650 ≤ bridgeT s) (h2 : s.stage.thermal = false) (h3 : bridgeOn s = true) :
    exec .thermalShutdown s = .next (raise ((List.range 16).foldl thermalStop (setStage s s.stage.pv true s.stage.pvdd)) 125
      (2 + ofSigned 16 (bridgeT s) * 65536)) := by
  change execThermalShutdown s = _
  rw [execThermalShutdown, if_neg (by simp [h1, h2, h3])]
  rfl

/-! ## PVDD (R328) -/

/-- The state after a PVDD fault. -/
def pvddLost (t : State) (mv : Nat) : State :=
  { t with stage := { t.stage with
    pvdd := mv
    chans := (List.zip (List.range 32) t.stage.chans).map (fun p =>
      if p.1 < 16 then makeUnavailable 9 (sweepLatched t p.1) p.2 else p.2) } }

theorem chan_pvddLost {t : State} (h32 : t.stage.chans.length = 32) (mv : Nat) {c : Nat} (hc : c < 32) :
    chan (pvddLost t mv) c = if 16 ≤ c then chan t c else makeUnavailable 9 (sweepLatched t c) (chan t c) := by
  have hlen : c < (pvddLost t mv).stage.chans.length := by
    simp [pvddLost, h32, hc]
  have h : chan (pvddLost t mv) c = (pvddLost t mv).stage.chans[c] := (List.getElem_eq_getD (h := hlen) ({} : Chan)).symm
  have h' : chan t c = t.stage.chans[c]'(by rw [h32]; exact hc) := (List.getElem_eq_getD (h := by rw [h32]; exact hc) ({} : Chan)).symm
  rw [h, h']
  simp only [pvddLost, List.getElem_map, List.getElem_zip, List.getElem_range]
  by_cases h16 : c < 16
  · rw [if_pos h16, if_neg (Nat.not_le.mpr h16)]
  · rw [if_neg h16, if_pos (Nat.not_lt.mp h16)]

theorem stageOf_lost {pv : Stage} (h : pv ≠ .available) (thermal : Bool) : stageOf pv thermal = pv :=
  if_neg (fun hc => h hc.1)

theorem execPvddFault_lost {s : State} {mv : Nat} {pv : Stage} (hc : coreOn s = true)
    (h : (mv < 4200 ∧ pv = .unavailable) ∨ (27500 < mv ∧ pv = .overvoltage)) :
    exec (.pvddFault mv) s = .next (pvddLost (setStage s pv s.stage.thermal mv) mv) := by
  have hpart : (if coreOn s then
      (if mv < 4200 then some Stage.unavailable else if 27500 < mv then some .overvoltage else none) else none) = some pv := by
    rw [if_pos hc]
    rcases h with ⟨hm, rfl⟩ | ⟨hm, rfl⟩
    · rw [if_pos hm]
    · rw [if_neg (by omega), if_pos hm]
  change execPvddFault mv s = _
  rw [execPvddFault]
  simp only [hpart]
  rfl

theorem makeUnavailable_shuts (cause : Nat) (held : Bool) {x : Chan} (h : x.state ≠ .member) :
    (makeUnavailable cause held x).state = .unavailable ∧ (makeUnavailable cause held x).cause = cause := by
  unfold makeUnavailable
  split
  · next hm => exact absurd hm h
  · next hu => exact ⟨hu, rfl⟩
  all_goals exact ⟨rfl, rfl⟩

theorem execPvddAvailable_back {s : State} {mv : Nat} (h1 : 4500 ≤ mv) (h2 : mv ≤ 27000) (hc : coreOn s = true)
    (hpv : s.stage.pv ≠ .available) (hst : s.stage.stage ≠ .available) (hth : stageOf .available s.stage.thermal ≠ s.stage.stage) :
    exec (.pvddAvailable mv) s = .next (releaseChans (raise
      (staged { s with stage := { s.stage with pvdd := mv } } .available s.stage.thermal) 124
      (stageCode (stageOf .available s.stage.thermal) + mv % 65536 * 65536))) := by
  change execPvddAvailable mv s = _
  rw [execPvddAvailable, if_neg (by simp [hc, hpv, within, h1, h2])]
  refine congrArg (fun t => Host.Outcome.next (releaseChans t)) ?_
  rw [setStage_moves (by exact hth.symm), if_neg hst]

/-- Settles O46: the rows that move STAGE, by `setStage` and the release of the half-bridge channels. -/
theorem stageRowsAct : Obligations.StageRowsAct := by
  unfold Obligations.StageRowsAct
  intro s h32
  refine ⟨fun mv pv code hc h => ?_, fun cause held x => makeUnavailable_shuts cause held, fun mv h1 h2 => ?_,
    fun mv h1 h2 hc hpv hst hth hl => ?_, fun mv h1 h2 hc hpv hst hnt hth => ?_, fun mv h => ?_, fun ht hth hb => ?_,
    fun h => ?_, fun ht hth hpv hst hb hl hheld => ?_, fun ht hth hpv hst hb => ?_, fun h => ?_⟩
  · have hpv : pv ≠ .available := by rcases h with ⟨_, rfl, _⟩ | ⟨_, rfl, _⟩ <;> decide
    have hcode : stageCode pv = code := by rcases h with ⟨_, rfl, rfl⟩ | ⟨_, rfl, rfl⟩ <;> rfl
    have hstage := setStage_stage s pv s.stage.thermal mv
    refine ⟨_, execPvddFault_lost hc (h.imp (fun h => ⟨h.1, h.2.1⟩) (fun h => ⟨h.1, h.2.1⟩)), ?_, ?_, rfl, ?_, fun c => ?_, fun hd => ?_⟩
    · exact (congrArg PStage.stage hstage).trans (stageOf_lost hpv _)
    · exact congrArg PStage.pv hstage
    · change (setStage s pv s.stage.thermal mv).stage.thermal = _
      rw [hstage]
      rfl
    · have hchan : chan (setStage s pv s.stage.thermal mv) c = chan s c :=
        chan_of_chans (by rw [hstage]; rfl) c
      rw [chan_pvddLost (by rw [hstage]; exact h32) mv c.isLt, sweepLatched, setStage_latched, hchan]
    · rw [pvddLost, setStage_idle hd, stageOf_lost hpv, hcode]
  · change execPvddFault mv s = _
    rw [execPvddFault, if_neg (by omega : ¬ mv < 4200), if_neg (by omega : ¬ 27500 < mv), ite_self]
  · have hof : stageOf .available s.stage.thermal = .available := by rw [hth]; rfl
    have hrow := execPvddAvailable_back h1 h2 hc hpv hst (by rw [hof]; exact hst.symm)
    rw [hof] at hrow
    obtain ⟨hframe, hstage, hquiet, hchan⟩ := releaseChans_raise
      (s := s) (a := (staged { s with stage := { s.stage with pvdd := mv } } .available s.stage.thermal).stage) rfl h32 hof hl 124
      (1 + mv % 65536 * 65536) rfl
    refine ⟨_, hrow, hframe, ?_, ?_, ?_, fun hq => hquiet (fun c hc => hq ⟨c, hc⟩), fun c => (hchan c).trans ?_⟩
    · exact (congrArg PStage.stage hstage).trans hof
    · exact congrArg PStage.pv hstage
    · exact congrArg PStage.pvdd hstage
    · by_cases h16 : c.val < 16
      · simp only [h16, if_true, true_and, released]
      · simp only [h16, if_false, false_and]
  · have hof : stageOf .available s.stage.thermal = .thermal := by rw [hth]; rfl
    have hrow := execPvddAvailable_back h1 h2 hc hpv hst (by rw [hof]; exact hnt.symm)
    rw [hof, releaseChans_away (by rw [raise_stage]; exact ne_of_eq_of_ne hof (by decide))] at hrow
    refine hrow.trans (congrArg (fun t => Host.Outcome.next (raise t 124 (3 + mv % 65536 * 65536))) ?_)
    rw [staged, hof]
  · change execPvddAvailable mv s = _
    refine if_pos ?_
    simp only [within, Bool.or_eq_true, Bool.not_eq_true', decide_eq_false_iff_not]
    omega
  · set u := setStage s s.stage.pv true s.stage.pvdd with hu
    have hstage : u.stage = (staged s s.stage.pv true).stage := setStage_stage _ _ _ _
    have hchans : u.stage.chans = s.stage.chans := by rw [hstage]; rfl
    have hchan : ∀ c, chan u c = chan s c := fun c => chan_of_chans hchans c
    have htells : ChanTells u ((List.range 16).foldl thermalStop u) := thermalStops_tells _ u
    have hevents : ((List.range 16).foldl thermalStop u).events = u.events := thermalStops_events _ u
    have hst : ∀ r, chan (raise ((List.range 16).foldl thermalStop u) 125 (2 + ofSigned 16 (bridgeT s) * 65536)) r =
        chan ((List.range 16).foldl thermalStop u) r := fun r => chan_of_chans (congrArg PStage.chans (raise_stage _ _ _)) r
    have hstops := thermalStops (List.range 16) List.nodup_range u
      (fun c hc => by rw [hchans, h32]; exact lt_trans (List.mem_range.mp hc) (by decide))
    simp only [List.mem_range, hchan] at hstops
    have hrow := execThermalShutdown_stops ht hth hb
    rw [← hu] at hrow
    generalize (List.range 16).foldl thermalStop u = v at htells hevents hst hstops hrow
    have hkept : (raise v 125 (2 + ofSigned 16 (bridgeT s) * 65536)).stage =
        { (staged s s.stage.pv true).stage with chans := v.stage.chans } := by
      rw [raise_stage, ← hstage]
      exact congrArg State.stage htells
    refine ⟨_, hrow, ?_, ?_, fun hd hpv hav => ?_, fun c hc hr => ?_, fun c hc => ?_⟩
    · rw [hkept]
      rfl
    · refine (congrArg PStage.stage hkept).trans ?_
      change stageOf s.stage.pv true = _
      simp only [stageOf, and_true]
    · have hu' : u = { raise s 124 (3 + s.stage.pvdd % 65536 * 65536) with stage := u.stage } := by
        rw [hu, setStage_idle hd, if_neg (by rw [hav, hpv]; decide), hpv]
        rfl
      rw [ChanTells, hevents] at htells
      rw [raise_stage]
      have hv : v = { raise s 124 (3 + s.stage.pvdd % 65536 * 65536) with stage := v.stage } := by
        have := congrArg State.stage htells
        rw [htells, hu']
      rw [hv, raise_setStage]
    · have h := hstops c
      rw [if_pos hc, ThermalStopped, if_pos hr] at h
      rw [hst]
      exact h
    · have h := hstops c
      rw [hst]
      split at h
      · next h16 =>
        have hn := hc.resolve_left (by omega)
        rwa [ThermalStopped, if_neg (not_or.mpr hn)] at h
      · exact h
  · change execThermalShutdown s = _
    refine if_pos ?_
    tauto
  · have hrow : exec .thermalRecover s = .next (releaseChans (setStage s s.stage.pv false s.stage.pvdd)) := by
      change execThermalRecover s = _
      rw [execThermalRecover, if_neg (by simp [hb, hth, ht])]
    rw [setStage_moves (by rw [hst, hpv]; decide), if_neg (by rw [hst]; decide)] at hrow
    have hof : stageOf s.stage.pv false = .available := by rw [hpv]; rfl
    rw [hof] at hrow
    obtain ⟨hframe, hstage, hquiet, hchan⟩ := releaseChans_raise (s := s) (a := (staged s s.stage.pv false).stage) rfl h32 hof hl 124
      (1 + s.stage.pvdd % 65536 * 65536) rfl
    rw [hquiet (fun c hc => hheld ⟨c, hc⟩)] at hframe
    refine ⟨_, hrow, hframe, ?_, ?_, fun c => (hchan c).trans ?_⟩
    · exact (congrArg PStage.stage hstage).trans hof
    · exact congrArg PStage.thermal hstage
    · by_cases h16 : c.val < 16
      · have := hheld ⟨c, h16⟩
        simp only [h16, if_true, true_and, released, this, Bool.false_eq_true, if_false]
      · simp only [h16, if_false, false_and]
  · have hof : stageOf s.stage.pv false = s.stage.pv := by simp [stageOf]
    change execThermalRecover s = _
    rw [execThermalRecover, if_neg (by simp [hb, hth, ht]), setStage_stays (by rw [hof, hst]),
      releaseChans_away (by rw [staged, hof]; exact hpv), staged, hof]
    exact congrArg (fun x => Host.Outcome.next { s with stage := { s.stage with thermal := false, stage := x } }) hst.symm
  · change execThermalRecover s = _
    refine if_pos ?_
    tauto

end Sys2Proof.Machine

namespace Sys2Proof.Machine

open Sys2Proof

/-! ## The sweep of the load diagnostics (R344 to R354) -/

/-- Some channels change. -/
def modEach (l : List Nat) (F : Nat → Chan → Chan) (s : State) : State := l.foldl (fun t h => modChan t h (F h)) s

theorem modEach_frame (l : List Nat) (F : Nat → Chan → Chan) (s : State) :
    modEach l F s = { s with stage := { s.stage with chans := (modEach l F s).stage.chans } } := by
  unfold modEach
  induction l generalizing s with
  | nil => rfl
  | cons h l ih => exact ih (modChan s h (F h))

theorem chan_modEach {s : State} {l : List Nat} (hl : ∀ c ∈ l, c < s.stage.chans.length) (hnd : l.Nodup)
    (F : Nat → Chan → Chan) (r : Nat) : chan (modEach l F s) r = if r ∈ l then F r (chan s r) else chan s r :=
  (chan_foldl (g := fun t h => modChan t h (F h)) (F := F) (s := s) (fun t c ht => ht.trans (shuts_modChan t c (F c)))
    (fun t c ht hc => chan_modChan_self (by rw [ht.length]; exact hc) (F c))
    (fun t c r hr => chan_modChan_ne _ hr (F c)) l hl hnd s (Shuts.refl s)).2 r

theorem modEach_diag (l : List Nat) (F : Nat → Chan → Chan) (s : State) : (modEach l F s).diag = s.diag := by
  rw [modEach_frame]

theorem mem_maskList {m h : Nat} : h ∈ maskList m ↔ h < 16 ∧ bit m h = true := by
  simp [maskList]

theorem maskList_nodup (m : Nat) : (maskList m).Nodup := List.nodup_range.filter _

theorem maskList_lt {m n h : Nat} (hn : 16 ≤ n) (hh : h ∈ maskList m) : h < n :=
  lt_of_lt_of_le (mem_maskList.mp hh).1 hn

/-- The mask of the channels below n with a property. -/
theorem maskSum_bits (p : Nat → Bool) (n : Nat) :
    ((List.range n).filter p).foldl (fun m h => m + 2 ^ h) 0 < 2 ^ n ∧
      ∀ h, (((List.range n).filter p).foldl (fun m h => m + 2 ^ h) 0).testBit h = (decide (h < n) && p h) := by
  induction n with
  | zero => simp
  | succ n ih =>
    obtain ⟨hlt, hbit⟩ := ih
    rw [List.range_succ, List.filter_append, List.foldl_append]
    generalize ((List.range n).filter p).foldl (fun m h => m + 2 ^ h) 0 = m at hlt hbit
    have hpow : 2 ^ (n + 1) = 2 ^ n + 2 ^ n := by rw [pow_succ]; omega
    cases hp : p n with
    | false =>
      have : List.foldl (fun m h => m + 2 ^ h) m ([n].filter p) = m := by simp [hp]
      rw [this]
      refine ⟨by omega, fun h => (hbit h).trans ?_⟩
      by_cases hn : h = n
      · subst hn
        simp [hp]
      · simp [show h < n + 1 ↔ h < n by omega]
    | true =>
      have : List.foldl (fun m h => m + 2 ^ h) m ([n].filter p) = 2 ^ n + m := by simp [hp, add_comm]
      rw [this]
      refine ⟨by omega, fun h => ?_⟩
      by_cases hn : h = n
      · subst hn
        rw [Nat.testBit_two_pow_add_eq, Nat.testBit_lt_two_pow hlt]
        simp [hp]
      · by_cases hlt' : h < n
        · rw [Nat.testBit_two_pow_add_gt hlt', hbit]
          simp [show h < n + 1 ↔ h < n by omega]
        · rw [Nat.testBit_lt_two_pow (lt_of_lt_of_le (by omega : 2 ^ n + m < 2 ^ (n + 1)) (Nat.pow_le_pow_right (by omega) (by omega)))]
          simp [show ¬ h < n + 1 by omega]

theorem maskSum_bit (p : Nat → Bool) (n h : Nat) :
    bit (((List.range n).filter p).foldl (fun m h => m + 2 ^ h) 0) h = (decide (h < n) && p h) := by
  rw [bit_testBit, (maskSum_bits p n).2]

/-- A sweep starts on the channels of a mask. -/
theorem sweepStart_frame (s : State) (mask : Nat) :
    sweepStart s mask = { s with stage := (modEach (maskList mask) (fun _ => hiZ .diag) s).stage, diag := (sweepStart s mask).diag } := by
  have h := modEach_frame (maskList mask) (fun _ => hiZ .diag) s
  have he : sweepStart s mask = { modEach (maskList mask) (fun _ => hiZ .diag) s with diag := (sweepStart s mask).diag } := rfl
  generalize (sweepStart s mask).diag = d at he ⊢
  rw [he]
  generalize modEach (maskList mask) (fun _ => hiZ .diag) s = t at h ⊢
  rw [h]

/-- A channel after the sweep that took it. -/
def sweptChan (latched h : Nat) (x : Chan) : Chan :=
  if x.state = .diag then { x with state := if bit latched h then .latched else .off } else x

/-- Only events have been raised. -/
def EventsOnly (s t : State) : Prop := t = { s with events := t.events }

theorem EventsOnly.trans {s t u : State} (h : EventsOnly s t) (h' : EventsOnly t u) : EventsOnly s u := by
  unfold EventsOnly at h' ⊢
  rw [h] at h'
  exact h'

/-- The channels and the sweep's registers after a sweep that ends at `b`. -/
def sweepChans (s : State) (b : Bsn) : State :=
  modDiag (modEach (maskList s.diag.mask) (sweptChan s.diag.latched) s)
    (fun d => { d with state := .idle, cur := none, todo := [], ended := b })

/-- The channels that are LATCHED again say so. -/
def sweepTold (s t : State) : State :=
  (maskList s.diag.mask).foldl (fun t h =>
    if (chan s h).state = .diag ∧ bit s.diag.latched h = true then latchEvent t h else t) t

theorem sweepFinish_eq (s : State) (b : Bsn) : sweepFinish s b =
    completeJob (raise (sweepTold s (sweepChans s b)) 95 (s.diag.mask + okMask s.diag * 65536)) isDiag
      (if s.diag.failed then .fault else if s.diag.aborted then .aborted else .ok)
      (diagReply s.diag.start b s.diag.mask (okMask s.diag)) := rfl

theorem sweepTold_events (s t : State) : EventsOnly t (sweepTold s t) :=
  List.foldlRecOn (motive := EventsOnly t) _ _ rfl (fun u hu h _ => by
    split
    · exact hu.trans (raise_frame u _ _)
    · exact hu)

theorem sweepTold_none {s : State} (h : s.diag.latched = 0) (t : State) : sweepTold s t = t :=
  List.foldlRecOn (motive := fun u => u = t) _ _ rfl (fun u hu c _ => by
    rw [h, if_neg (by simp [bit])]
    exact hu)

theorem sweepChans_frame (s : State) (b : Bsn) : sweepChans s b = { s with
    stage := (sweepChans s b).stage, diag := { s.diag with state := .idle, cur := none, todo := [], ended := b } } := by
  have h := modEach_frame (maskList s.diag.mask) (sweptChan s.diag.latched) s
  unfold sweepChans
  generalize modEach (maskList s.diag.mask) (sweptChan s.diag.latched) s = t at h ⊢
  rw [h]
  rfl

theorem chan_sweepChans {s : State} (h32 : s.stage.chans.length = 32) (b : Bsn) (r : Nat) :
    chan (sweepChans s b) r = if r ∈ maskList s.diag.mask then sweptChan s.diag.latched r (chan s r) else chan s r :=
  chan_modEach (fun c hc => by rw [h32]; exact maskList_lt (by decide) hc) (maskList_nodup _) _ r

theorem slotEnd_none {s : State} (h : slotOver s = none) : slotEnd s = s := by
  simp only [slotEnd, h]

theorem slotEnd_some {s : State} {h : Nat} (hs : slotOver s = some h) :
    slotEnd s = nextSlot (modDiag s (fun d => setRec d h (slotRecord s h d.sums))) (s.diag.since + 825#40) := by
  simp only [slotEnd, hs]

theorem slotOver_due {s : State} {h : Nat} (hcur : s.diag.cur = some h) (hst : s.diag.state = .testing) (hc : s.cycle = 0)
    (hb : bsnReached s.bsn (s.diag.since + 825#40) = true) : slotOver s = some h := by
  rw [slotOver, if_pos ⟨hst, hc, hb⟩, hcur]

theorem slotOver_idle {s : State} (hcur : s.diag.cur = none) : slotOver s = none := by
  rw [slotOver]
  split
  · exact hcur
  · rfl

theorem slotOver_untested {s : State} (h : s.diag.state ≠ .testing) : slotOver s = none :=
  if_neg (fun hc => h hc.1)

theorem nextSlot_takes {s : State} {h : Nat} {rest : List Nat} (ht : s.diag.todo = h :: rest) (b : Bsn) :
    nextSlot s b = { s with diag := { s.diag with cur := some h, todo := rest, sums := {}, since := b, state := .testing } } := by
  simp only [nextSlot, ht, modDiag]

theorem nextSlot_last {s : State} (ht : s.diag.todo = []) (b : Bsn) :
    nextSlot s b = { s with diag := { s.diag with
      cur := none, since := b, state := if sweepSe s then .phase3 else .testing } } := by
  simp only [nextSlot, ht, modDiag]

theorem sweepStart_tests (s : State) (mask : Nat) : (sweepStart s mask).diag.tests = s.diag.tests := by
  have h := congrArg Diag.tests (modEach_diag (maskList mask) (fun _ => hiZ .diag) s)
  exact h

theorem chan_sweepStart {s : State} (h32 : s.stage.chans.length = 32) (mask r : Nat) :
    chan (sweepStart s mask) r = if r < 16 ∧ bit mask r = true then hiZ .diag (chan s r) else chan s r := by
  have h := chan_modEach (s := s) (l := maskList mask) (fun c hc => by rw [h32]; exact maskList_lt (by decide) hc)
    (maskList_nodup _) (fun _ => hiZ .diag) r
  simp only [mem_maskList] at h
  exact h

theorem execDiagSweepStart_due {s : State} (h0 : s.cycle = 0) (h1 : s.power.mode = .active) (h2 : leavingActive s = false)
    (h3 : s.stage.stage = .available) (h4 : testMode s = false) : execDiagSweepStart s =
      if s.diag.state = .waiting then
        if bsnReached s.bsn s.diag.since && (maskList s.diag.mask).all (fun h => atRest (chan s h).state) then
          .next (sweepStart s s.diag.mask)
        else .next s
      else if s.diag.state = .idle ∧ s.diag.bootDue = true then
        .next (modDiag (sweepStart s (((List.range 16).filter (leads s)).foldl (fun m h => m + 2 ^ h) 0))
          (fun d => { d with tests := 3, aborted := false, failed := false }))
      else .next s :=
  if_neg (by simp [h0, h1, h2, h3, h4])

theorem sweepEndDue_untimed {s : State} (h0 : s.cycle = 0) (hs : slotOver s = none) :
    sweepEndDue s = match s.diag.state with
      | .phase3 => bsnReached s.bsn (s.diag.since + 400#40)
      | .testing => s.diag.cur.isNone && s.diag.todo.isEmpty && bsnReached s.bsn s.diag.since
      | _ => false := by
  simp only [sweepEndDue, slotEnd_none hs, h0, BEq.rfl, Bool.true_and] <;> rfl

/-- A sweep ends: its reply goes to the first DIAG_RUN that waits. -/
theorem sweepFinish_replies {s : State} {p : PortId} {o : Outstanding} (h : (findJobs s isDiag).head? = some (p, o)) (b : Bsn) :
    sweepFinish s b = finalReply (raise (sweepTold s (sweepChans s b)) 95 (s.diag.mask + okMask s.diag * 65536)) p o.tag o.op
      (if s.diag.failed then .fault else if s.diag.aborted then .aborted else .ok)
      (diagReply s.diag.start b s.diag.mask (okMask s.diag)) := by
  have hj : findJobs (raise (sweepTold s (sweepChans s b)) 95 (s.diag.mask + okMask s.diag * 65536)) isDiag =
      findJobs s isDiag := by
    rw [findJobs_raise, sweepTold_events, sweepChans_frame]
    rfl
  rw [sweepFinish_eq, completeJob, hj, h]

theorem sweepFinish_alone {s : State} (h : findJobs s isDiag = []) (b : Bsn) :
    sweepFinish s b = raise (sweepTold s (sweepChans s b)) 95 (s.diag.mask + okMask s.diag * 65536) := by
  have hj : findJobs (raise (sweepTold s (sweepChans s b)) 95 (s.diag.mask + okMask s.diag * 65536)) isDiag =
      findJobs s isDiag := by
    rw [findJobs_raise, sweepTold_events, sweepChans_frame]
    rfl
  rw [sweepFinish_eq, completeJob, hj, h]
  rfl

/-- Settles O47: the rows of a sweep, by what its start and its end do to the channels of its mask. -/
theorem diagnosticRowsAct : Obligations.DiagnosticRowsAct := by
  unfold Obligations.DiagnosticRowsAct
  rintro s d rfl h32
  refine ⟨fun h0 h1 h2 h3 h4 hw hb hrest => ?_, fun h0 h1 h2 h3 h4 hi hboot => ?_, fun h => ?_, fun hp h0 hb => ?_,
    fun b h rest ht => nextSlot_takes ht b, fun b ht => nextSlot_last ht b, fun hp => ?_,
    fun h k rest hcur hst h0 hb ht => ?_, fun h hcur hst h0 hb ht => ?_, fun hcur => ?_, fun h0 hst hb => ?_,
    fun h0 hst hcur ht hb => ?_, fun h h0 hst hcur ht hb hse => ?_, fun p o hdue hs hj => ?_, fun hdue hs hl hj => ?_,
    fun h hdue hs => ?_, fun hdue => ?_⟩
  · have hrow : exec .diagSweepStart s = .next (sweepStart s s.diag.mask) := by
      refine (execDiagSweepStart_due h0 h1 h2 h3 h4).trans ((if_pos hw).trans (if_pos ?_))
      rw [hb, Bool.true_and, List.all_eq_true]
      exact fun h hh => hrest ⟨h, (mem_maskList.mp hh).1⟩ (mem_maskList.mp hh).2
    refine ⟨_, hrow, ?_, rfl, rfl, rfl, rfl, sweepStart_tests s _, rfl, rfl, fun h => chan_sweepStart h32 _ h⟩
    exact sweepStart_frame s s.diag.mask
  · have hrow := execDiagSweepStart_due h0 h1 h2 h3 h4
    rw [if_neg (by rw [hi]; decide), if_pos ⟨hi, hboot⟩] at hrow
    refine ⟨_, hrow, ?_, rfl, rfl, rfl, fun h => (chan_sweepStart h32 _ h).trans ?_⟩
    · rw [sweepStart_frame]
      rfl
    · simp only [maskSum_bit]
      by_cases h16 : h.val < 16
      · simp [h16]
      · simp [h16]
  · change execDiagSweepStart s = _
    refine if_pos ?_
    tauto
  · change execDiagBiasRiseEnd () s = _
    rw [execDiagBiasRiseEnd, if_neg (by simp [hp, h0, hb])]
  · change execDiagBiasRiseEnd () s = _
    exact if_pos (Or.inl hp)
  · change Host.Outcome.next (slotEnd s) = _
    rw [slotEnd_some (slotOver_due hcur hst h0 hb), nextSlot_takes (s := modDiag s (fun d => setRec d h (slotRecord s h d.sums))) ht]
    exact congrArg (fun x => Host.Outcome.next { s with diag := { s.diag with
      recs := s.diag.recs.set h (slotRecord s h s.diag.sums), cur := some k, todo := rest, sums := {},
      since := s.diag.since + 825#40, state := x } }) hst.symm
  · change Host.Outcome.next (slotEnd s) = _
    rw [slotEnd_some (slotOver_due hcur hst h0 hb), nextSlot_last (s := modDiag s (fun d => setRec d h (slotRecord s h d.sums))) ht]
    rfl
  · change Host.Outcome.next (slotEnd s) = _
    rw [slotEnd_none (slotOver_idle hcur)]
  · rw [sweepEndDue_untimed h0 (slotOver_untested (by rw [hst]; decide)), hst]
    exact hb
  · rw [sweepEndDue_untimed h0 (slotOver_idle hcur), hst]
    simp [hcur, ht, hb]
  · have hover : slotOver s = some h := slotOver_due hcur hst h0 (by rw [hb]; simp [bsnReached])
    rw [sweepEndDue, slotEnd_some hover, nextSlot_last (s := modDiag s (fun d => setRec d h (slotRecord s h d.sums))) ht]
    have hse' : sweepSe (modDiag s (fun d => setRec d h (slotRecord s h d.sums))) = false := hse
    simp only [hse', Bool.false_eq_true, if_false]
    simp [h0, ht, hb, bsnReached, modDiag, setRec]
  · have hev := sweepTold_events s (sweepChans s s.bsn)
    have hfr := sweepChans_frame s s.bsn
    refine ⟨sweepTold s (sweepChans s s.bsn), ?_, ?_, fun hl => ?_, fun h => ?_⟩
    · change execDiagSweepEnd s = _
      rw [execDiagSweepEnd, if_pos hdue, slotEnd_none hs, sweepFinish_replies hj]
      rfl
    · generalize sweepTold s (sweepChans s s.bsn) = v at hev ⊢
      rw [hev, hfr]
    · rw [sweepTold_none hl, hfr]
    · rw [hev]
      refine (chan_sweepChans h32 s.bsn h).trans ?_
      simp only [mem_maskList, sweptChan]
      by_cases hm : h.val < 16 ∧ bit s.diag.mask h = true
      · simp [hm]
      · rw [if_neg hm, if_neg (fun hc => hm ⟨hc.1, hc.2.1⟩)]
  · refine ⟨sweepChans s s.bsn, ?_, sweepChans_frame s s.bsn⟩
    change execDiagSweepEnd s = _
    rw [execDiagSweepEnd, if_pos hdue, slotEnd_none hs, sweepFinish_alone hj, sweepTold_none hl]
  · change execDiagSweepEnd s = _
    rw [execDiagSweepEnd, if_pos hdue, slotEnd_some hs]
    rfl
  · change execDiagSweepEnd s = _
    rw [execDiagSweepEnd, if_neg (by simp [hdue])]

end Sys2Proof.Machine

namespace Sys2Proof.Machine

open Sys2Proof

/-! ## Electrodes (R507 to R510) -/

theorem elAt_modEl_self {s : State} {n : Nat} (h : n < s.touch.els.length) (f : Electrode → Electrode) :
    elAt (modEl s n f) n = f (elAt s n) := by
  simp [elAt, modEl, modAt, List.getD_eq_getElem?_getD, h]

theorem elAt_modEl_ne (s : State) {n r : Nat} (h : r ≠ n) (f : Electrode → Electrode) : elAt (modEl s n f) r = elAt s r := by
  simp [elAt, modEl, modAt, List.getD_eq_getElem?_getD, h.symm]

theorem elAt_raise (s : State) (a b n : Nat) : elAt (raise s a b) n = elAt s n := by
  rw [elAt, raise_touch]
  rfl

theorem modEl_modEl (s : State) (n : Nat) (f g : Electrode → Electrode) :
    modEl (modEl s n f) n g = modEl s n (fun e => g (f e)) := by
  simp only [modEl, modAt, List.modify_modify_eq]
  rfl

/-- An electrode that is not OFF exists. -/
theorem lt_length_of_touched {s : State} {n : Nat} (h : (elAt s n).state = .touched) : n < s.touch.els.length := by
  by_contra hn
  have hd : elAt s n = {} := List.getD_eq_default _ _ (Nat.le_of_not_lt hn)
  rw [hd] at h
  exact absurd h (by decide)

/-- Only electrode `n` and the event controller have changed. -/
def ElOnly (n : Nat) (s t : State) : Prop :=
  ∃ els ev, els.length = s.touch.els.length ∧ (∀ r, r ≠ n → els.getD r {} = elAt s r) ∧
    t = { s with touch := { s.touch with els := els }, events := ev }

theorem ElOnly.refl (n : Nat) (s : State) : ElOnly n s s := ⟨s.touch.els, s.events, rfl, fun _ _ => rfl, rfl⟩

theorem ElOnly.trans {n : Nat} {s t u : State} (h : ElOnly n s t) (h' : ElOnly n t u) : ElOnly n s u := by
  obtain ⟨els, ev, hl, ho, rfl⟩ := h
  obtain ⟨els', ev', hl', ho', rfl⟩ := h'
  exact ⟨els', ev', hl'.trans hl, fun r hr => (ho' r hr).trans (ho r hr), rfl⟩

theorem elOnly_modEl (s : State) (n : Nat) (f : Electrode → Electrode) : ElOnly n s (modEl s n f) :=
  ⟨_, s.events, List.length_modify _ _ _, fun _ hr => elAt_modEl_ne s hr f, rfl⟩

theorem elOnly_of_events {s t : State} (n : Nat) (h : EventsOnly s t) : ElOnly n s t :=
  ⟨s.touch.els, t.events, rfl, fun _ _ => rfl, h⟩

theorem elOnly_raise (n : Nat) (s : State) (a b : Nat) : ElOnly n s (raise s a b) := elOnly_of_events n (raise_frame s a b)

theorem EventsOnly.ite {s t u : State} (c : Prop) [Decidable c] (h : EventsOnly s t) (h' : EventsOnly s u) :
    EventsOnly s (if c then t else u) := by
  split
  · exact h
  · exact h'

theorem eventsOnly_raise (s : State) (n p : Nat) : EventsOnly s (raise s n p) := raise_frame s n p

theorem ElOnly.ite {n : Nat} {s t u : State} (c : Prop) [Decidable c] (h : ElOnly n s t) (h' : ElOnly n s u) :
    ElOnly n s (if c then t else u) := by
  split
  · exact h
  · exact h'

theorem touchEnd_events (s : State) (c : Nat) (swiped : Bool) (pos : Nat) (b : Bsn) (cyc : Nat) :
    EventsOnly s (touchEnd s c swiped pos b cyc) :=
  .ite _ ((eventsOnly_raise s _ _).trans (eventsOnly_raise _ _ _)) (eventsOnly_raise s _ _)

theorem elRelease_events (s : State) (n : Nat) : EventsOnly s (elRelease s n) :=
  .ite _ (touchEnd_events s n false 0 _ _) rfl

theorem scanTakes_elOnly (s : State) (n : Nat) : ElOnly n s (scanTakes s n) :=
  have h := (elOnly_of_events n (elRelease_events s n)).trans (elOnly_modEl _ n elCalibrate)
  .ite _ (elOnly_modEl s n _) (.ite _ (.ite _ (h.trans (elOnly_raise n _ _ _)) h) (.refl n s))

theorem scanIdle_elOnly (s : State) (n : Nat) : ElOnly n s (scanIdle s n) :=
  .ite _ (.ite _ (elOnly_modEl s n _) ((elOnly_modEl s n _).trans (elOnly_raise n _ _ _)))
    (.ite _ ((elOnly_modEl s n _).trans (elOnly_raise n _ _ _)) (elOnly_modEl s n _))

theorem scanTouched_elOnly (s : State) (n : Nat) : ElOnly n s (scanTouched s n) :=
  .ite _ ((elOnly_of_events n (elRelease_events s n)).trans (elOnly_modEl _ n _)) (elOnly_modEl s n _)

/-- What an electrode has measured is in place. -/
def scanRaw (raw : Nat) (e : Electrode) : Electrode :=
  { e with raw := raw, ffRun := if raw = 0xFFFF then e.ffRun + 1 else 0, okRun := if raw = 0xFFFF then 0 else e.okRun + 1 }

/-- An electrode that is not at fault after its measurement. -/
def scanState (s : State) (n : Nat) : State :=
  match (elAt s n).state with
  | .calibrating => scanCal s n
  | .idle => scanIdle s n
  | .touched => scanTouched s n
  | _ => s

theorem scanRead_eq (s : State) (n raw : Nat) : scanRead s n raw =
    if (elAt (modEl s n (scanRaw raw)) n).state = .fault then
      if 4 ≤ (elAt (modEl s n (scanRaw raw)) n).okRun then modEl (modEl s n (scanRaw raw)) n elCalibrate
      else modEl s n (scanRaw raw)
    else if 4 ≤ (elAt (modEl s n (scanRaw raw)) n).ffRun then
      raise (modEl (modEl s n (scanRaw raw)) n (fun e => { e with state := .fault, okRun := 0 })) 115 n
    else scanState (modEl s n (scanRaw raw)) n := rfl

theorem scanState_elOnly (s : State) (n : Nat) : ElOnly n s (scanState s n) := by
  unfold scanState
  split
  · exact elOnly_modEl _ n _
  · exact scanIdle_elOnly _ n
  · exact scanTouched_elOnly _ n
  · exact ElOnly.refl n _

theorem scanRead_elOnly (s : State) (n raw : Nat) : ElOnly n s (scanRead s n raw) := by
  refine (elOnly_modEl s n (scanRaw raw)).trans ?_
  rw [scanRead_eq]
  exact .ite _ (.ite _ (elOnly_modEl _ n _) (.refl n _))
    (.ite _ ((elOnly_modEl _ n _).trans (elOnly_raise n _ _ _)) (scanState_elOnly _ n))

theorem scanEl_elOnly (s : State) (n raw : Nat) : ElOnly n s (scanEl s n raw) :=
  .ite _ (scanTakes_elOnly s n) ((scanTakes_elOnly s n).trans (scanRead_elOnly _ n raw))

/-- Electrodes and the event controller have changed. -/
def ElsOnly (s t : State) : Prop :=
  ∃ els ev, els.length = s.touch.els.length ∧ t = { s with touch := { s.touch with els := els }, events := ev }

theorem ElOnly.els {n : Nat} {s t : State} (h : ElOnly n s t) : ElsOnly s t := by
  obtain ⟨els, ev, hl, -, ht⟩ := h
  exact ⟨els, ev, hl, ht⟩

theorem ElOnly.other {n r : Nat} {s t : State} (h : ElOnly n s t) (hr : r ≠ n) : elAt t r = elAt s r := by
  obtain ⟨els, ev, -, ho, rfl⟩ := h
  exact ho r hr

theorem ElsOnly.trans {s t u : State} (h : ElsOnly s t) (h' : ElsOnly t u) : ElsOnly s u := by
  obtain ⟨els, ev, hl, rfl⟩ := h
  obtain ⟨els', ev', hl', rfl⟩ := h'
  exact ⟨els', ev', hl'.trans hl, rfl⟩

/-- The electrodes of a list are scanned. -/
def scanEls (raws : List Nat) (l : List Nat) (s : State) : State :=
  l.foldl (fun t n => scanEl t n (min 0xFFFF (raws.getD n 0))) s

theorem scanEls_elsOnly (raws l : List Nat) (s : State) : ElsOnly s (scanEls raws l s) :=
  List.foldlRecOn (motive := ElsOnly s) l _ ⟨s.touch.els, s.events, rfl, rfl⟩
    (fun _ ht n _ => ht.trans (scanEl_elOnly _ n _).els)

theorem elAt_scanEls_not {raws l : List Nat} {n : Nat} (hn : n ∉ l) (s : State) : elAt (scanEls raws l s) n = elAt s n :=
  List.foldlRecOn (motive := fun t => elAt t n = elAt s n) l _ rfl
    (fun t ht r hr => ((scanEl_elOnly t r _).other (fun h => hn (by rw [h]; exact hr))).trans ht)

/-- An electrode of the list is scanned once, as it stood before. -/
theorem elAt_scanEls {raws l : List Nat} (hnd : l.Nodup) {n : Nat} (hn : n ∈ l) (s : State) :
    ∃ u, ElsOnly s u ∧ elAt u n = elAt s n ∧
      elAt (scanEls raws l s) n = elAt (scanEl u n (min 0xFFFF (raws.getD n 0))) n := by
  obtain ⟨a, b, rfl⟩ := List.append_of_mem hn
  have hd := List.nodup_append.mp hnd
  obtain ⟨-, hcons, hab⟩ := hd
  refine ⟨scanEls raws a s, scanEls_elsOnly raws a s, elAt_scanEls_not (fun h => hab n h n List.mem_cons_self rfl) s, ?_⟩
  rw [scanEls, List.foldl_append, List.foldl_cons]
  exact elAt_scanEls_not (List.nodup_cons.mp hcons).1 _

/-! ## The slider and the replies to TOUCH_RECAL (R511, R518) -/

/-- The slider and the event controller have changed. -/
def SliderOnly (s t : State) : Prop := ∃ k ev, t = { s with touch := { s.touch with slider := k }, events := ev }

theorem SliderOnly.trans {s t u : State} (h : SliderOnly s t) (h' : SliderOnly t u) : SliderOnly s u := by
  obtain ⟨k, ev, rfl⟩ := h
  obtain ⟨k', ev', rfl⟩ := h'
  exact ⟨k', ev', rfl⟩

theorem SliderOnly.ite {s t u : State} (c : Prop) [Decidable c] (h : SliderOnly s t) (h' : SliderOnly s u) :
    SliderOnly s (if c then t else u) := by
  split
  · exact h
  · exact h'

theorem SliderOnly.refl (s : State) : SliderOnly s s := ⟨s.touch.slider, s.events, rfl⟩

theorem sliderOnly_of_events {s t : State} (h : EventsOnly s t) : SliderOnly s t := ⟨s.touch.slider, t.events, h⟩

theorem sliderOnly_slider (s : State) (k : Slider) : SliderOnly s { s with touch := { s.touch with slider := k } } :=
  ⟨k, s.events, rfl⟩

theorem sliderRelease_only (s : State) : SliderOnly s (sliderRelease s) :=
  .ite _ ((sliderOnly_slider s _).trans (sliderOnly_of_events (touchEnd_events _ _ _ _ _ _))) (.refl s)

theorem swipe_only (s : State) (up : Bool) : SliderOnly s (swipe s up) :=
  (sliderOnly_slider s _).trans (sliderOnly_of_events (eventsOnly_raise _ _ _))

theorem scanSlider_only (s : State) : SliderOnly s (scanSlider s) := by
  unfold scanSlider
  refine .ite _ (sliderOnly_slider s _) (.ite _ (sliderRelease_only s) (.ite _ ?_ ?_))
  · exact (sliderOnly_slider s _).trans (sliderOnly_of_events (eventsOnly_raise _ _ _))
  · exact SliderOnly.trans (.ite _ ((sliderOnly_slider s _).trans (swipe_only _ true)) (sliderOnly_slider s _))
      (.ite _ (swipe_only _ false) (.refl _))

theorem sliderLeft_only (s : State) : SliderOnly s (sliderLeft s) := .ite _ (.refl s) (sliderRelease_only s)

theorem recalDone_portsOnly (s : State) : PortsOnly s (recalDone s) :=
  List.foldlRecOn (motive := PortsOnly s) _ _ (PortsOnly.refl s) (fun t ht po _ => by
    split
    · split
      · exact ht.trans (modPort_portsOnly t _ _)
      · exact ht
    · exact ht)

/-! ## One electrode at the end of a scan -/

theorem elAt_scanEl_late {s : State} {n : Nat} (hn : n < s.touch.els.length) (h1 : (elAt s n).late = true)
    (h2 : (elAt s n).recal = false) (h3 : (elAt s n).fresh = false) (raw : Nat) :
    elAt (scanEl s n raw) n = { elAt s n with late := false } := by
  have htake : scanTakes s n = modEl s n (fun e => { e with late := false }) := if_pos h1
  rw [scanEl, if_pos (by simp [h1, h2, h3]), htake]
  exact elAt_modEl_self hn _

/-- Nothing was asked of an electrode that reads a value and is not at fault. -/
theorem scanEl_measures {s : State} {n raw : Nat} (hn : n < s.touch.els.length) (h1 : (elAt s n).late = false)
    (h2 : (elAt s n).recal = false) (h3 : (elAt s n).fresh = false) (hr : raw ≠ 0xFFFF) (hf : (elAt s n).state ≠ .fault) :
    scanEl s n raw = scanState (modEl s n (scanRaw raw)) n := by
  have htake : scanTakes s n = s := by
    simp [scanTakes, h1, h2, h3]
  have hel : elAt (modEl s n (scanRaw raw)) n = scanRaw raw (elAt s n) := elAt_modEl_self hn _
  have hstate : (scanRaw raw (elAt s n)).state = (elAt s n).state := rfl
  have hrun : (scanRaw raw (elAt s n)).ffRun = 0 := if_neg hr
  rw [scanEl, h1, htake, scanRead_eq, hel, hstate, hrun, if_neg hf]
  rfl

theorem scanRaw_measured {raw : Nat} (hr : raw ≠ 0xFFFF) (e : Electrode) :
    scanRaw raw e = { e with raw := raw, ffRun := 0, okRun := e.okRun + 1 } := by
  rw [scanRaw, if_neg hr, if_neg hr]

theorem elAt_scanState_calibrating {s : State} {n : Nat} (hn : n < s.touch.els.length) (hs : (elAt s n).state = .calibrating) :
    elAt (scanState s n) n = if 15 ≤ (elAt s n).calN then
        { elAt s n with
          state := .idle, calN := 0, calSum := 0,
          base := (roundHalfEven ((elAt s n).calSum + (elAt s n).raw : Nat) 16).toNat * 256 }
      else { elAt s n with calN := (elAt s n).calN + 1, calSum := (elAt s n).calSum + (elAt s n).raw } := by
  have hcal : scanState s n = scanCal s n := by simp only [scanState, hs]
  rw [hcal, scanCal, elAt_modEl_self hn]
  simp only [show (16 ≤ (elAt s n).calN + 1) = (15 ≤ (elAt s n).calN) by simp]

theorem elAt_scanState_touches {s : State} {n : Nat} (hn : n < s.touch.els.length) (hs : (elAt s n).state = .idle)
    (hd : (tOn s n : Int) * 256 ≤ elDelta (elAt s n)) (hon : onCnt s ≤ (elAt s n).onRun + 1) :
    elAt (scanState s n) n = { elAt s n with
      state := .touched, at_ := s.bsn, cyc := s.cycle, held := false, onRun := 0, offRun := 0, negRun := 0 } := by
  simp only [scanState, hs, scanIdle, hd, if_true, hon]
  split
  · exact elAt_modEl_self hn _
  · rw [elAt_raise]
    exact elAt_modEl_self hn _

theorem elAt_scanState_negative {s : State} {n : Nat} (hn : n < s.touch.els.length) (hs : (elAt s n).state = .idle)
    (hd : elDelta (elAt s n) ≤ -((tOn s n : Int) * 256)) (hon : 1 ≤ onCnt s) (ht : 1 ≤ tOn s n) (hneg : 7 ≤ (elAt s n).negRun) :
    elAt (scanState s n) n = { elCalibrate (elAt s n) with base := (elAt s n).raw * 256 } := by
  have hp : ¬ (tOn s n : Int) * 256 ≤ elDelta (elAt s n) := by omega
  have h0 : ¬ onCnt s ≤ 0 := by omega
  have h8 : 8 ≤ (elAt s n).negRun + 1 := by omega
  simp only [scanState, hs, scanIdle, hd, hp, h0, h8, if_true, if_false]
  rw [elAt_raise]
  exact elAt_modEl_self hn _

/-- The state after the scan's electrodes, up to the slider and the replies. -/
def scanned (raws : List Nat) (s : State) : State :=
  let t := scanSlider (scanEls raws (enabledEls s) s)
  recalDone { t with touch := { t.touch with next := t.touch.next + BitVec.ofNat 40 (4 * scanMs s) } }

theorem scanned_frame (raws : List Nat) (s : State) : ∃ els k ev a b c,
    els = (scanEls raws (enabledEls s) s).touch.els ∧ scanned raws s = { s with
      touch := { s.touch with els := els, slider := k, next := s.touch.next + BitVec.ofNat 40 (4 * scanMs s) },
      events := ev, spi := a, addrA := b, addrB := c } := by
  obtain ⟨els, ev, -, h⟩ := scanEls_elsOnly raws (enabledEls s) s
  obtain ⟨k, ev', h'⟩ := scanSlider_only (scanEls raws (enabledEls s) s)
  obtain ⟨a, b, c, h''⟩ := recalDone_portsOnly { scanSlider (scanEls raws (enabledEls s) s) with
    touch := { (scanSlider (scanEls raws (enabledEls s) s)).touch with
      next := (scanSlider (scanEls raws (enabledEls s) s)).touch.next + BitVec.ofNat 40 (4 * scanMs s) } }
  refine ⟨_, k, ev', a, b, c, rfl, ?_⟩
  rw [scanned, h'', h', h]

theorem execTouchScan_ends {s : State} (h1 : s.touch.scanning = true) (h2 : bsnReached s.bsn s.touch.next = true)
    (h3 : usPassed s (100 * (enabledEls s).length) s.touch.next 0 = true) (raws : List Nat) :
    execTouchScan raws s = .next (scanned raws s) := by
  have hms : scanMs (scanSlider (scanEls raws (enabledEls s) s)) = scanMs s := by
    obtain ⟨els, ev, -, h⟩ := scanEls_elsOnly raws (enabledEls s) s
    obtain ⟨k, ev', h'⟩ := scanSlider_only (scanEls raws (enabledEls s) s)
    rw [h', h]
    rfl
  rw [execTouchScan, if_neg (by simp [h1, h2, h3]), scanned, ← hms]
  rfl

theorem elAt_scanned (raws : List Nat) (s : State) (n : Nat) :
    elAt (scanned raws s) n = elAt (scanEls raws (enabledEls s) s) n := by
  obtain ⟨els, k, ev, a, b, c, he, h⟩ := scanned_frame raws s
  rw [h, elAt, he]
  rfl

theorem elAt_scanned_off {s : State} {n : Nat} (h : tchEn s n = false) (raws : List Nat) :
    elAt (scanned raws s) n = elAt s n := by
  rw [elAt_scanned, elAt_scanEls_not]
  simp [enabledEls, h]

/-- An enabled electrode is scanned as it stood, with the fields of its registers and the time of the scan. -/
theorem elAt_scanned_on {s : State} {n : Nat} (h12 : n < 12) (hen : tchEn s n = true) (raws : List Nat) :
    ∃ u, ElsOnly s u ∧ elAt u n = elAt s n ∧ elAt (scanned raws s) n = elAt (scanEl u n (min 0xFFFF (raws.getD n 0))) n := by
  rw [elAt_scanned]
  exact elAt_scanEls (List.nodup_range.filter _) (by simp [h12, hen]) s

/-- An enabled electrode of which nothing was asked and that reads a value. -/
theorem elAt_scanned_measures {s : State} {n : Nat} (h12 : n < 12) (hlen : s.touch.els.length = 12) (hen : tchEn s n = true)
    (h1 : (elAt s n).late = false) (h2 : (elAt s n).recal = false) (h3 : (elAt s n).fresh = false) {raws : List Nat} {raw : Nat}
    (hraw : raw = min 0xFFFF (raws.getD n 0)) (hr : raw ≠ 0xFFFF) (hf : (elAt s n).state ≠ .fault) :
    ∃ u, ElsOnly s u ∧ elAt u n = { elAt s n with raw := raw, ffRun := 0, okRun := (elAt s n).okRun + 1 } ∧
      n < u.touch.els.length ∧ elAt (scanned raws s) n = elAt (scanState u n) n := by
  obtain ⟨u, hu, hel, hscan⟩ := elAt_scanned_on h12 hen raws
  have hn : n < u.touch.els.length := by
    obtain ⟨els, ev, hl, rfl⟩ := hu
    exact lt_of_lt_of_eq h12 (hl.trans hlen).symm
  rw [← hel] at h1 h2 h3 hf
  rw [← hraw, scanEl_measures hn h1 h2 h3 hr hf] at hscan
  refine ⟨_, hu.trans (elOnly_modEl u n (scanRaw raw)).els, ?_, ?_, hscan⟩
  · rw [elAt_modEl_self hn, scanRaw_measured hr, hel]
  · exact lt_of_lt_of_eq hn (List.length_modify _ _ _).symm

/-! ## The rows -/

theorem execTouchMaxOn_over {s : State} {e : Fin 12} (h1 : (elAt s e).state = .touched) (h2 : maxOn s ≠ 0)
    (h3 : usPassed s (maxOn s * 1000000) (elAt s e).at_ (elAt s e).cyc = true) :
    execTouchMaxOn e s = .next (raise (if inSlider s e then sliderLeft (modEl (elRelease s e) e elCalibrate)
      else modEl (elRelease s e) e elCalibrate) 114 (e.val + 16)) :=
  if_pos ⟨h1, h2, h3⟩

theorem elAt_of_sliderOnly {s t : State} (h : SliderOnly s t) (n : Nat) : elAt t n = elAt s n := by
  obtain ⟨k, ev, rfl⟩ := h
  rfl

/-- The slider releases where the electrode was one of its own. -/
theorem sliderOnly_left (s t : State) (n : Nat) : SliderOnly t (if inSlider s n then sliderLeft t else t) :=
  .ite _ (sliderLeft_only t) (.refl t)

theorem execTouchConfigChange_writes {s : State} {e : Fin 12} {value : Word}
    (hr : (Reg.tchCfg e).rangeOk s (Nat.land value.toNat (Reg.tchCfg e).mask) = true) (hc : coreOn s = true) :
    execTouchConfigChange e value s = .next (applyTchCfg s e (Nat.land value.toNat (Reg.tchCfg e).mask)) := by
  rw [execTouchConfigChange]
  exact (if_pos hr).trans (fieldStep_on hc _)

theorem execSliderConfigChange_writes {s : State} {value : Word}
    (hr : Reg.sldCfg.rangeOk s (Nat.land value.toNat Reg.sldCfg.mask) = true) :
    execSliderConfigChange value s = fieldStep s (applySldCfg s (Nat.land value.toNat Reg.sldCfg.mask)) := if_pos hr

/-- A word that enables its electrode and one that does not differ. -/
theorem ne_of_bit_ne {a b i : Nat} {x y : Bool} (ha : bit a i = x) (hb : bit b i = y) (h : x ≠ y) : a ≠ b :=
  fun he => h (by rw [← ha, ← hb, he])

theorem elAt_modEl_off (s : State) (n : Nat) : elAt (modEl s n (fun _ => {})) n = {} := by
  by_cases h : n < s.touch.els.length
  · exact elAt_modEl_self h _
  · exact List.getD_eq_default _ _ (by simpa [modEl, modAt] using h)

/-- An electrode whose EN becomes 0 is OFF. -/
def tchOff (s : State) (n v : Nat) : State :=
  recalDone (if inSlider s n then sliderLeft (modEl (elRelease (wr s (.tchCfg n) v) n) n (fun _ => {}))
    else modEl (elRelease (wr s (.tchCfg n) v) n) n (fun _ => {}))

theorem applyTchCfg_off {s : State} {n v : Nat} (hs : s.touch.scanning = true) (hw : bit (rd s (.tchCfg n)) 0 = true)
    (hv : bit v 0 = false) : applyTchCfg s n v = tchOff s n v := by
  rw [applyTchCfg, if_neg, if_pos (by simp [hv]), tchOff]
  simp [hs, ne_of_bit_ne hw hv (by decide)]

theorem tchOff_frame (s : State) (n v : Nat) : elAt (tchOff s n v) n = {} ∧
    tchOff s n v = { wr s (.tchCfg n) v with
      touch := (tchOff s n v).touch, events := (tchOff s n v).events, spi := (tchOff s n v).spi
      addrA := (tchOff s n v).addrA, addrB := (tchOff s n v).addrB } ∧
    ∀ r, r ≠ n → elAt (tchOff s n v) r = elAt s r := by
  have hrel := elRelease_events (wr s (.tchCfg n) v) n
  unfold tchOff
  generalize elRelease (wr s (.tchCfg n) v) n = w at hrel ⊢
  obtain ⟨k, ev, hleft⟩ := sliderOnly_left s (modEl w n (fun _ => {})) n
  obtain ⟨a, b, c, hdone⟩ := recalDone_portsOnly (if inSlider s n then sliderLeft (modEl w n (fun _ => {}))
    else modEl w n (fun _ => {}))
  rw [hdone, hleft]
  refine ⟨elAt_modEl_off w n, ?_, fun r hr => ?_⟩
  · rw [hrel]
    rfl
  · refine (elAt_modEl_ne w hr _).trans ?_
    rw [hrel, elAt, elAt]
    exact congrArg (fun l => List.getD l r {}) (congrArg Touch.els (wr_touch s (.tchCfg n) v))

/-- Settles O48: the rows of the electrodes and the slider, where a scan takes one electrode after another. -/
theorem touchRowsAct : Obligations.TouchRowsAct := by
  unfold Obligations.TouchRowsAct
  intro s
  refine ⟨fun raws h1 h2 h3 hlen => ?_, fun raws h => ?_, fun e x he hx hst hsl hh hus => ?_, fun ht hh hus => ?_,
    fun hh => ?_, fun e x hx hst hm hus => ?_, fun e hm => ?_, fun e value v w hv hw hr hc => ?_, fun e value hr => ?_,
    fun value v u hc hv hr hne hu => ?_, fun value hr heq => ?_, fun value hr => ?_⟩
  · obtain ⟨els, k, ev, a, b, c, -, hframe⟩ := scanned_frame raws s
    refine ⟨scanned raws s, execTouchScan_ends h1 h2 h3 raws, ?_, ?_, ?_, fun n hen => elAt_scanned_off hen raws,
      fun n e hen he h1 h2 h3 => ?_, fun n e raw hen he hraw h1 h2 h3 hr hst hn => ?_,
      fun n e raw hen he hraw h1 h2 h3 hr hst hn => ?_, fun n e raw hen he hraw h1 h2 h3 hr hst hon hcnt => ?_,
      fun n e raw hen he hraw h1 h2 h3 hr hst hneg hcnt hton hrun => ?_⟩
    · rw [hframe]
    · rw [hframe]
    · rw [hframe]
    · subst he
      obtain ⟨u, hu, hel, hscan⟩ := elAt_scanned_on n.isLt hen raws
      have hn : n.val < u.touch.els.length := by
        obtain ⟨els, ev, hl, rfl⟩ := hu
        exact lt_of_lt_of_eq n.isLt (hl.trans hlen).symm
      rw [hscan, elAt_scanEl_late hn (by rw [hel]; exact h1) (by rw [hel]; exact h2) (by rw [hel]; exact h3), hel]
    · subst he
      obtain ⟨u, hu, hel, hn', hscan⟩ := elAt_scanned_measures n.isLt hlen hen h3 h1 h2 hraw hr (by rw [hst]; decide)
      rw [hscan, elAt_scanState_calibrating hn' (by rw [hel]; exact hst), hel, if_neg (by simpa using hn)]
    · subst he
      obtain ⟨u, hu, hel, hn', hscan⟩ := elAt_scanned_measures n.isLt hlen hen h3 h1 h2 hraw hr (by rw [hst]; decide)
      rw [hscan, elAt_scanState_calibrating hn' (by rw [hel]; exact hst), hel, if_pos (by simp [hn])]
    · subst he
      obtain ⟨u, hu, hel, hn', hscan⟩ := elAt_scanned_measures n.isLt hlen hen h3 h1 h2 hraw hr (by rw [hst]; decide)
      obtain ⟨els, ev, -, rfl⟩ := hu
      rw [hscan, elAt_scanState_touches hn' (by rw [hel]; exact hst) _ (by rw [hel]; exact hcnt), hel]
      rw [hel]
      change (tOn s n : Int) * 256 ≤ (raw : Int) * 256 - (elAt s n).base
      omega
    · subst he
      obtain ⟨u, hu, hel, hn', hscan⟩ := elAt_scanned_measures n.isLt hlen hen h3 h1 h2 hraw hr (by rw [hst]; decide)
      obtain ⟨els, ev, -, rfl⟩ := hu
      rw [hscan, elAt_scanState_negative hn' (by rw [hel]; exact hst) _ hcnt hton (by rw [hel]; exact hrun), hel]
      · rfl
      · rw [hel]
        change (raw : Int) * 256 - (elAt s n).base ≤ -((tOn s n : Int) * 256)
        omega
  · change execTouchScan raws s = _
    exact if_pos (by simp [h])
  · subst hx
    change execGestureHold e s = _
    rw [execGestureHold, if_neg he, if_pos (by simp [hst, hsl, hh, hus])]
  · change execGestureHold 12 s = _
    rw [execGestureHold, if_pos (show ((12 : Fin 13) : Nat) = 12 from rfl), if_pos (by simp [ht, hh, hus])]
  · change execGestureHold 12 s = _
    rw [execGestureHold, if_pos (show ((12 : Fin 13) : Nat) = 12 from rfl), if_neg (by simp [hh])]
  · subst hx
    have hlen := lt_length_of_touched hst
    have hrel := elRelease_events s e
    have hleft := sliderOnly_left s (modEl (elRelease s e) e elCalibrate) e
    refine ⟨_, execTouchMaxOn_over hst hm hus, ?_, ?_, fun n hn => ?_, fun hsl => ?_⟩
    · rw [elAt_of_sliderOnly hleft, elAt_modEl_self (by rw [hrel]; exact hlen), hrel]
      rfl
    · obtain ⟨k, ev, h⟩ := hleft
      rw [h, hrel]
      rfl
    · rw [elAt_of_sliderOnly hleft, elAt_modEl_ne _ hn, hrel]
      rfl
    · rw [hsl, hrel]
      rfl
  · change execTouchMaxOn e s = _
    exact if_neg (fun h => h.2.1 hm)
  · subst hw
    have hrow : exec (.touchConfigChange e value) s = .next (applyTchCfg s e v) := by
      rw [hv] at hr ⊢
      exact execTouchConfigChange_writes hr hc
    refine ⟨fun hs => ?_, fun hs h1 h2 => ?_, fun hs h1 h2 hne => ?_, fun hs h1 h2 => ?_⟩
    · refine hrow.trans (congrArg Host.Outcome.next ?_)
      rw [applyTchCfg, if_pos (Or.inr hs)]
    · refine hrow.trans (congrArg Host.Outcome.next ?_)
      rw [applyTchCfg, if_neg (by simp [hs, ne_of_bit_ne h1 h2 (by decide)]), if_neg (by simp [h2]), if_pos (by simp [h1])]
    · refine hrow.trans (congrArg Host.Outcome.next ?_)
      rw [applyTchCfg, if_neg (by simp [hs, hne]), if_neg (by simp [h2]), if_neg (by simp [h1])]
      rfl
    · refine ⟨_, hrow.trans (congrArg Host.Outcome.next (applyTchCfg_off hs h1 h2)), (tchOff_frame s e _).1, (tchOff_frame s e _).2⟩
  · change execTouchConfigChange e value s = _
    exact if_neg (by rw [hr]; decide)
  · subst hv hu
    refine (execSliderConfigChange_writes hr).trans ((fieldStep_on hc _).trans (congrArg Host.Outcome.next ?_))
    have hrel : (if s.touch.slider.touched then sliderRelease s else s) = sliderRelease s := by
      rw [sliderRelease]
      exact ite_congr rfl (fun h => if_pos h) (fun _ => rfl)
    rw [applySldCfg, if_neg hne, hrel]
  · refine (execSliderConfigChange_writes hr).trans ?_
    rw [applySldCfg, if_pos heq, fieldStep, ite_self]
  · change execSliderConfigChange value s = _
    exact if_neg (by rw [hr]; decide)

/-! ## Keys (R513, R514) -/

theorem keysWatched_ship {s : State} (h1 : s.power.mode = .ship) (h2 : s.power.boot ≠ .released) : keysWatched s = false := by
  simp [keysWatched, h1, h2]

/-- Settles O49: the rows of a key. -/
theorem keyRowsAct : Obligations.KeyRowsAct := by
  unfold Obligations.KeyRowsAct
  rintro s k x rfl
  refine ⟨fun hp hw hen => ?_, fun hp hw hen => ?_, fun h1 h2 => ?_, fun hp hw hen => ?_, fun hp hw hen hl h0 hb hn => ?_,
    fun hl => ?_⟩
  · change execKeyPress k s = _
    rw [execKeyPress, if_neg (by simp [hp, hw])]
    exact if_pos hen
  · change execKeyPress k s = _
    rw [execKeyPress, if_neg (by simp [hp, hw])]
    exact if_neg (by simp [hen])
  · have hw := keysWatched_ship h1 h2
    refine ⟨?_, ?_, ?_⟩
    · change execKeyPress k s = _
      exact if_pos (by simp [hw])
    · change execKeyRelease k s = _
      exact if_pos (by simp [hw])
    · change execKeyLong k s = _
      exact if_neg (by simp [hw])
  · change execKeyRelease k s = _
    rw [execKeyRelease, if_neg (by simp [hp, hw])]
    exact if_pos hen
  · have hover : keyLongOver s k = true := by
      rw [keyLongOver]
      by_cases hboot : (keyAt s k).bootHeld = true
      · rw [if_pos hboot]
        by_cases h5 : s.record.last = 5
        · simp [h5]
        · simp [hb hboot h5]
      · rw [if_neg hboot]
        exact hn (by simpa using hboot)
    change execKeyLong k s = _
    exact if_pos (by simp [hp, hl, hen, h0, hover, hw])
  · change execKeyLong k s = _
    exact if_neg (by simp [hl])

end Sys2Proof.Machine

namespace Sys2Proof.Machine

open Sys2Proof

/-! ## A detector's check (R158 to R165) -/

theorem trueSuspect_same {s : State} {r : FaultReport} (h : r.cls ≠ .tag ∨ ∀ b, r.word ≠ .signal b) : trueSuspect s r = r := by
  unfold trueSuspect
  split
  · next b hc hw => exact absurd hc (h.resolve_right (fun h => h b hw))
  · rfl

theorem detect_stranger {s : State} {r : FaultReport} (h : (suspectKinds (trueSuspect s (ownEngine r)).cls).contains
      (trueSuspect s (ownEngine r)).suspect.kind = false ∨ unitOk (trueSuspect s (ownEngine r)).suspect = false ∨
      unitOk (trueSuspect s (ownEngine r)).reporter = false) : detect s r = s := by
  refine if_pos ?_
  rcases h with h | h | h <;> rw [h] <;> simp

/-- The check of a report whose suspect may meet its class. -/
theorem detect_checks {s : State} {r q : FaultReport} (hq : q = trueSuspect s (ownEngine r))
    (h1 : (suspectKinds q.cls).contains q.suspect.kind = true) (h2 : unitOk q.suspect = true) (h3 : unitOk q.reporter = true) :
    detect s r = match foundClass s q, injectionFor s q with
      | some c, _ => faultFound s (reportOf s q c) false
      | none, some x => faultFound (injectSpent s x) q true
      | none, none => s := by
  subst hq
  rw [detect, if_neg (by rw [h1, h2, h3]; decide)] <;> rfl

theorem detect_found {s : State} {r q : FaultReport} (hq : q = trueSuspect s (ownEngine r))
    (h1 : (suspectKinds q.cls).contains q.suspect.kind = true) (h2 : unitOk q.suspect = true) (h3 : unitOk q.reporter = true)
    {c : FaultClass} (hc : foundClass s q = some c) : detect s r = faultFound s (reportOf s q c) false := by
  rw [detect_checks hq h1 h2 h3, hc]

/-- A detector that finds nothing spends an armed injection. -/
theorem detect_injected {s : State} {r q : FaultReport} (hq : q = trueSuspect s (ownEngine r))
    (h1 : (suspectKinds q.cls).contains q.suspect.kind = true) (h2 : unitOk q.suspect = true) (h3 : unitOk q.reporter = true)
    (hc : foundClass s q = none) : detect s r = match injectionFor s q with
      | some x => faultFound (injectSpent s x) q true
      | none => s := by
  rw [detect_checks hq h1 h2 h3, hc]
  cases injectionFor s q <;> rfl

theorem option_of_ite (b : Bool) (c : FaultClass) (p : Prop) [Decidable p] (h : b = true ↔ p) :
    (if b then some c else none) = if p then some c else none := by
  by_cases hb : b = true
  · rw [if_pos hb, if_pos (h.mp hb)]
  · rw [if_neg hb, if_neg (fun hp => hb (h.mpr hp))]

theorem foundClass_word {s : State} {r : FaultReport} {bank addr i tag : Nat} {flips : List Nat}
    (hc : r.cls = .bankUe ∨ r.cls = .tag) (hf : r.found = .bankWord bank addr flips i tag) (hb : bank < 18) :
    foundClass s r = wordClass s r.word r.engine bank addr flips i tag := by
  rcases hc with hc | hc
  · simp only [foundClass, hc, hf, hb, if_true]
  · simp only [foundClass, hc, hf, hb, if_true]

/-! ## What a fault does (R162, R173, R174) -/

theorem readLeaves_other {s : State} {r : FaultReport} {cls : FaultClass} (h1 : cls ≠ .bankUe) (h2 : cls ≠ .tag) :
    readLeaves s r cls = s := by
  unfold readLeaves
  split
  · rw [if_neg h1, if_neg h2]
  · rfl

theorem ne_of_replays {c d : FaultClass} (h : replays c = true) (hd : replays d = false) : c ≠ d := by
  rintro rfl
  rw [h] at hd
  exact absurd hd (by decide)

theorem faultFound_replays {s : State} {r : FaultReport} (inj : Bool) (h : replays r.cls = true)
    (h1 : r.cls ≠ .portParity) (h2 : r.cls ≠ .bankWait) :
    faultFound s r inj = sendReport (stopTask s r.engine true).1 r inj (stopTask s r.engine true).2 := by
  have hue := ne_of_replays h (d := .bankUe) rfl
  have htag := ne_of_replays h (d := .tag) rfl
  have hdec := ne_of_replays h (d := .decResidue) rfl
  simp only [faultFound, readLeaves_other hue htag, h, if_true, if_neg hue, if_neg hdec]
  split
  · next hc _ => exact absurd hc h1
  · next hc _ => exact absurd hc h2
  · rfl

/-- A fault of a bank's port holds the task of the engine back from that bank. -/
theorem faultFound_port {s : State} {r : FaultReport} (inj : Bool) (h : r.cls = .portParity ∨ r.cls = .bankWait) {x : Task}
    (hx : (stopTask s r.engine true).2 = some x) :
    faultFound s r inj = sendReport { (stopTask s r.engine true).1 with
      drover := { (stopTask s r.engine true).1.drover with
        bankHold := (stopTask s r.engine true).1.drover.bankHold ++ [(x, r.suspect.index)] } } r inj (some x) := by
  rcases h with h | h
  · simp only [faultFound, h, hx, readLeaves_other (cls := .portParity) (by decide) (by decide), replays, if_true, reduceCtorEq,
      if_false]
  · simp only [faultFound, h, hx, readLeaves_other (cls := .bankWait) (by decide) (by decide), replays, if_true, reduceCtorEq,
      if_false]

/-- What the read of a bad bank word leaves, with its count. -/
def wordLeft (s : State) (r : FaultReport) : State :=
  if r.cls = .bankUe then ueOutcome (readLeaves s r r.cls) r.suspect.index else readLeaves s r r.cls

theorem faultFound_word {s : State} {r : FaultReport} (inj : Bool) (h : r.cls = .bankUe ∨ r.cls = .tag) :
    faultFound s r inj = sendReport (wordFault (wordLeft s r) r.engine r.word).1 r inj
      (wordFault (wordLeft s r) r.engine r.word).2 := by
  rcases h with h | h
  · simp only [faultFound, wordLeft, h, replays, if_true, reduceCtorEq, if_false, Bool.false_eq_true, true_or]
  · simp only [faultFound, wordLeft, h, replays, if_true, reduceCtorEq, if_false, Bool.false_eq_true, or_true]

theorem wordFault_signal (s : State) (u : Option UnitRef) (b : Nat) : wordFault s u (.signal b) = stopTask s u false := by
  unfold wordFault
  rfl

theorem wordFault_state {s : State} {u : Option UnitRef} {i : Nat} (h : runningInst s u = some i) :
    wordFault s u .state = stopTask { s with graph := { s.graph with reload := i :: s.graph.reload } } u false := by
  simp only [wordFault, h]

theorem wordFault_line {s : State} {u : Option UnitRef} {i : Nat} (h : runningInst s u = some i) :
    wordFault s u .line = (blankLine s i, none) := by
  simp only [wordFault, h]

theorem injectSpent_replies {s : State} {x : Injection} {p : PortId} {o : Outstanding}
    (h : (findJobs s (isInject x.id)).head? = some (p, o)) :
    injectSpent s x = finalReply { s with health := { s.health with
      inject := s.health.inject.filter (fun y => y.id != x.id) } } p o.tag o.op .ok (bsn8 s.bsn ++ leBytes 4 s.cycle) := by
  have hj : (findJobs (modHealth s (fun h => { h with inject := h.inject.filter (fun y => y.id != x.id) })) (isInject x.id)).head? =
      some (p, o) := h
  rw [injectSpent, completeJob, hj]
  rfl

theorem stopTask_running {s : State} {u : Option UnitRef} {me : Bool} {i : Nat} {x : Ready} {w : State}
    (hu : u.bind engineOf = some (me, i)) (hp : (engineAt s.drover me i).phase = .busy) (hr : (engineAt s.drover me i).run = some x)
    (hw : w = countCycles (strayWrites s (activeImage s) (s.drover.block.getD 0#40) x.task
      (ranOut s (engineAt s.drover me i) x.task) true) x (engineAt s.drover me i).since) (rep : Bool) :
    stopTask s u rep = ({ w with
      drover := { modEngine w.drover me i (fun e => { e with phase := .stop, run := none, since := s.cycle }) with
        waiting := (modEngine w.drover me i (fun e => { e with phase := .stop, run := none, since := s.cycle })).waiting ++
          [({ x with tried := x.tried ++ [i] }, rep && decide (x.attempt < 2))] } }, some x.task) := by
  subst hw
  simp only [stopTask, hu, hp, hr]

/-! ## Fingers, the watchdog and the ports (R161, R187) -/

theorem fingerFailed_again {s : State} {hb f : Nat} (h : (s.health.fingerDue.filter (fun d => d.hb == hb)).any
      (fun d => d.finger == f) = true) :
    fingerFailed s hb f = sendReport s ⟨.finger, ⟨.finger, hb, f⟩, ⟨.finger, 0, 0⟩, none, .none, .none⟩ false none :=
  if_pos (by simp only [h, Bool.or_true])

/-- A finger in service fails for the first time. -/
theorem fingerFailed_first {s : State} {hb f : Nat} (ho : (s.health.fingers.getD hb []).contains f = false)
    (h : (s.health.fingerDue.filter (fun d => d.hb == hb)).any (fun d => d.finger == f) = false) {t u : State}
    (ht : t = sendReport s ⟨.finger, ⟨.finger, hb, f⟩, ⟨.finger, 0, 0⟩, none, .none, .none⟩ false none)
    (hu : u = { t with health := { t.health with fingerDue := s.health.fingerDue ++ [⟨hb, f, none, false⟩] } }) :
    fingerFailed s hb f = if (s.health.fingers.getD hb []).length +
      (s.health.fingerDue.filter (fun d => d.hb == hb)).length = 2 then fingerLatch u hb else u := by
  subst ht hu
  rw [fingerFailed, if_neg (by simp only [ho, h, Bool.or_false, Bool.false_eq_true, not_false_eq_true])]
  rfl

theorem execFingerFail_fails {s : State} {hb : Fin 16} {rep : FingerReport} (h1 : unitPowered s .finger = true)
    (h2 : fingerChecks s hb rep.finger rep.gate rep.cycles = true) :
    execFingerFail hb rep s = .next (fingerFailed s hb rep.finger) :=
  if_pos (by rw [h1, h2]; rfl)

theorem not_contains_of_fingerChecks {s : State} {hb f : Nat} {gate : Bool} {cycles : List (List Nat)}
    (h : fingerChecks s hb f gate cycles = true) : (s.health.fingers.getD hb []).contains f = false := by
  simp only [fingerChecks, Bool.and_eq_true, Bool.not_eq_true'] at h
  exact h.1

/-- The report of a watchdog. -/
def watchdogReport (oe : Nat) : FaultReport :=
  ⟨.watchdog, ⟨.oe, oe, 0⟩, ⟨.oe, oe, 0⟩, some ⟨.oe, oe, 0⟩, .none, .none⟩

theorem foundClass_watchdog (s : State) (oe : Nat) : foundClass s (watchdogReport oe) =
    if (engineAt s.drover false oe).phase = .busy ∧
      (engineAt s.drover false oe).since + 17 + 16384 + (engineAt s.drover false oe).waits = s.cycle then some .watchdog
    else none :=
  option_of_ite _ _ _ (by simp [watchdogReport])

/-- The report of a bank's port. -/
def bankWaitReport (bank : Nat) (u : UnitRef) (n : Nat) : FaultReport :=
  ⟨.bankWait, ⟨.bank, bank, 0⟩, ⟨.bank, bank, 0⟩, some u, .none, .waited n⟩

theorem foundClass_bankWait (s : State) (bank : Nat) (u : UnitRef) (n : Nat) :
    foundClass s (bankWaitReport bank u n) = if 1024 < n then some .bankWait else none :=
  option_of_ite _ _ _ (by simp)

theorem execWatchdogExpire_eq (s : State) (oe : Fin 56) : execWatchdogExpire oe s =
    if (foundClass s (watchdogReport oe)).isSome then .next (faultFound s (watchdogReport oe) false)
    else if (engineAt s.drover false oe).phase = .busy ∧ (engineAt s.drover false oe).since + 17 = s.cycle then
      .next (detect s (watchdogReport oe))
    else .next s := rfl

/-- Settles O50: the rows of the detectors, by what a check finds and what a fault then does. -/
theorem faultRowsAct : Obligations.FaultRowsAct := by
  unfold Obligations.FaultRowsAct
  intro s
  refine ⟨fun r h => ?_, fun r h h1 h2 => ?_, fun r h h1 => ?_, fun r h => trueSuspect_same h, fun r q hq => ⟨fun h => ?_,
      fun h1 h2 h3 => ⟨fun c hc => detect_found hq h1 h2 h3 hc, fun x hc hx => ?_, fun hc hx => ?_⟩⟩,
    fun r => ⟨fun l h hf => ?_, fun a b h hf => ?_, fun a v h hf => ?_, fun ws n h hf => ?_, fun ws n h hf => ?_,
      fun n h hf => ?_, fun bytes h hf => ?_, fun bank addr flips i tag h hf hb => ⟨fun hw => ?_, fun b hw hword => ?_⟩⟩,
    fun u me i x rep w hu hp hr hw => stopTask_running hu hp hr hw rep,
    fun r inj h => ⟨faultFound_replays inj h, fun x h' hx => faultFound_port inj h' hx⟩,
    fun r inj u i h hu => ?_, fun r bank addr flips i tag h => ?_, fun r inj h => ?_,
    fun x p o h => injectSpent_replies h, fun hb f rep e w gate cycles => ?_, fun hb rep h => ?_, fun hb f gate cycles h => ?_,
    fun hb rep out due t u h1 h2 ho hd ht hu => ?_, fun oe u r e hu hr he => ?_, fun bank u r me i e hm he hr => ?_,
    fun bank u h => ?_⟩
  · change execFaultDetect r s = _
    exact if_pos (by rw [h]; rfl)
  · change execFaultDetect r s = _
    rw [execFaultDetect, if_neg (by rw [h]; decide), if_neg h1, if_neg h2]
  · change execFaultDetect r s = _
    rw [execFaultDetect, if_neg (by rw [h]; decide), if_neg (by rw [h1]; decide), if_pos h1, testReport]
    simp only [Bool.and_eq_true]
  · subst hq
    exact detect_stranger h
  · rw [detect_injected hq h1 h2 h3 hc, hx]
  · rw [detect_injected hq h1 h2 h3 hc, hx]
  · rcases h with h | h
    · simp only [foundClass, h, hf]
    · simp only [foundClass, h, hf]
  · simp only [foundClass, h, hf]
    exact option_of_ite _ _ _ (by simp)
  · simp only [foundClass, h, hf]
    exact option_of_ite _ _ _ (by simp)
  · simp only [foundClass, h, hf]
    exact option_of_ite _ _ _ (by simp)
  · simp only [foundClass, h, hf]
  · simp only [foundClass, h, hf]
    exact option_of_ite _ _ _ (by simp)
  · simp only [foundClass, h, hf]
    exact option_of_ite _ _ _ (by simp)
  · rw [foundClass_word h hf hb]
    simp only [wordClass, hw, if_true]
  · rw [foundClass_word h hf hb, hword]
    exact if_neg (by rw [hw]; decide)
  · have hleft : u = wordLeft s r := by
      rw [hu, wordLeft]
      rfl
    subst hleft
    refine ⟨fun b hw => ?_, fun hw hi => ?_, fun hw hi => ?_⟩
    · rw [faultFound_word inj h, hw, wordFault_signal]
    · rw [faultFound_word inj h, hw, wordFault_state hi]
    · rw [faultFound_word inj h, hw, wordFault_line hi]
  · simp only [readLeaves, h, if_true]
  · simp only [faultFound, h, readLeaves_other (cls := .decResidue) (by decide) (by decide), replays, Bool.false_eq_true,
      reduceCtorEq, or_self, if_false, if_true]
    rfl
  · change execFaultDetect _ s = execFingerFail hb ⟨f, gate, cycles⟩ s
    have hunit : unitOk ⟨.finger, hb, f⟩ = true := by
      simp [unitOk, unitCount]
    cases hp : unitPowered s .finger with
    | false => simp [execFaultDetect, execFingerFail, hp]
    | true => simp [execFaultDetect, execFingerFail, hp, hunit]
  · change execFingerFail hb rep s = _
    refine if_neg ?_
    rcases h with h | h <;> simp [h]
  · rw [fingerChecks, h]
    exact Bool.true_and _
  · subst hd ho
    have hrow : exec (.fingerFail hb rep) s = _ := execFingerFail_fails h1 h2
    refine ⟨fun h => ?_, fun h => ?_⟩
    · rw [hrow, fingerFailed_again h, ht]
      rfl
    · rw [hrow, fingerFailed_first (not_contains_of_fingerChecks h2) h ht hu]
  · subst hu he
    have hr' : r = watchdogReport oe := hr
    subst hr'
    have hrow : exec (.watchdogExpire oe) s = _ := execWatchdogExpire_eq s oe
    have hfound := foundClass_watchdog s oe
    refine ⟨fun hp ht => ?_, fun hp ht => ?_, fun h => ?_⟩
    · rw [if_pos ⟨hp, ht⟩] at hfound
      rw [hrow, hfound]
      rfl
    · rw [if_neg (fun h => by have := h.2; omega)] at hfound
      rw [hrow, hfound, if_neg (by decide), if_pos ⟨hp, ht⟩]
      refine congrArg Host.Outcome.next (detect_injected (q := watchdogReport oe) ?_ rfl ?_ ?_ hfound)
      · exact (trueSuspect_same (Or.inl (show FaultClass.watchdog ≠ .tag by decide))).symm
      · simp [watchdogReport, unitOk, unitCount]
      · simp [watchdogReport, unitOk, unitCount]
    · have h1 : ¬ ((engineAt s.drover false oe).phase = .busy ∧
          (engineAt s.drover false oe).since + 17 + 16384 + (engineAt s.drover false oe).waits = s.cycle) := by tauto
      have h2 : ¬ ((engineAt s.drover false oe).phase = .busy ∧ (engineAt s.drover false oe).since + 17 = s.cycle) := by tauto
      rw [if_neg h1] at hfound
      rw [hrow, hfound, if_neg (by decide), if_neg h2]
  · subst he
    have hr' : r = bankWaitReport bank u (s.cycle - (engineAt s.drover me i).since) := hr
    subst hr'
    have hsame : bankWaitReport bank u (s.cycle - (engineAt s.drover me i).since) =
        trueSuspect s (ownEngine (bankWaitReport bank u (s.cycle - (engineAt s.drover me i).since))) :=
      (trueSuspect_same (Or.inl (show FaultClass.bankWait ≠ .tag by decide))).symm
    have hunit : unitOk ⟨.bank, bank, 0⟩ = true := by simp [unitOk, unitCount]
    have hfound := foundClass_bankWait s bank u (s.cycle - (engineAt s.drover me i).since)
    have hrow : exec (.bankWaitTimeout bank u) s = if (engineAt s.drover me i).phase = .busy then
        .next (detect s (bankWaitReport bank u (s.cycle - (engineAt s.drover me i).since))) else .next s := by
      change execBankWaitTimeout bank u s = _
      simp only [execBankWaitTimeout, hm]
      rfl
    refine ⟨fun hp ht => ?_, fun hp ht => ?_, fun hp => ?_⟩
    · rw [if_pos (by omega)] at hfound
      rw [hrow, if_pos hp, detect_found hsame rfl hunit hunit hfound, reportOf,
        if_neg (fun h => absurd h.1 (by decide))]
      exact congrArg (fun q => Host.Outcome.next (faultFound s q false))
        (trueSuspect_same (Or.inl (show FaultClass.bankWait ≠ .tag by decide)))
    · rw [if_neg (by omega)] at hfound
      rw [hrow, if_pos hp]
      exact congrArg Host.Outcome.next (detect_injected hsame rfl hunit hunit hfound)
    · rw [hrow, if_neg hp]
  · change execBankWaitTimeout bank u s = _
    simp only [execBankWaitTimeout, h]

end Sys2Proof.Machine

namespace Sys2Proof.Machine

open Sys2Proof

/-! ## The fault table (R167 to R171) -/

/-- An entry of the table is of a report's class and suspect. -/
def entryOf (r : Report) : Option FaultEntry → Bool
  | some e => e.cls == r.rep.cls && e.suspect == r.rep.suspect
  | none => false

theorem enterTable_known {s : State} {r : Report} {i : Nat} (h : s.health.table.findIdx? (entryOf r) = some i)
    (rs : List Report) : enterTable s r rs = { s with health := { s.health with table := modAt s.health.table i (fun x =>
        x.map (fun e => { e with count := min 65535 (e.count + (rs.length + 1)), last := r.bsn })) } } := by
  unfold enterTable
  dsimp only
  split
  · next j hj =>
    have hij : some j = some i := hj.symm.trans h
    rw [Option.some.inj hij]
    rfl
  · next hn => exact absurd (hn.symm.trans h) (by simp)

theorem enterTable_new {s : State} {r : Report} {i : Nat} (h : s.health.table.findIdx? (entryOf r) = none)
    (hi : s.health.table.findIdx? Option.isNone = some i) (rs : List Report) : ∃ ovf, enterTable s r rs =
      raiseAt { s with health := { s.health with
          table := s.health.table.set i (some {
            cls := r.rep.cls, suspect := r.rep.suspect, injected := (firstReport r rs).injected
            count := min 65535 (rs.length + 1), first := (firstReport r rs).rep.reporter, bsn := r.bsn, cycle := r.cycle
            last := r.bsn, replays := 0 })
          ovfRaised := ovf } } 19
        (i + faultCode r.rep.cls * 256 + unitCode r.rep.suspect.kind * 4096 + r.rep.suspect.index * 65536 +
          r.rep.suspect.finger * 16777216 + b2n (firstReport r rs).injected * 134217728) r.bsn r.cycle := by
  unfold enterTable
  dsimp only
  split
  · next j hj => exact absurd (hj.symm.trans h) (by simp)
  · split
    · next j hj =>
      have hij : some j = some i := hj.symm.trans hi
      rw [Option.some.inj hij]
      exact ⟨_, rfl⟩
    · next hn => exact absurd (hn.symm.trans hi) (by simp)

theorem enterTable_full {s : State} {r : Report} (h : s.health.table.findIdx? (entryOf r) = none)
    (hi : s.health.table.findIdx? Option.isNone = none) (rs : List Report) {t : State}
    (ht : t = { s with health := { s.health with overflow := bump 0xFFFF s.health.overflow, ovfRaised := true } }) :
    enterTable s r rs = if s.health.ovfRaised then t else raiseAt t 20
      (faultCode r.rep.cls + unitCode r.rep.suspect.kind * 16 + r.rep.suspect.index * 256) r.bsn r.cycle := by
  subst ht
  unfold enterTable
  dsimp only
  split
  · next j hj => exact absurd (hj.symm.trans h) (by simp)
  · split
    · next j hj => exact absurd (hj.symm.trans hi) (by simp)
    · rfl

/-- The table takes reports in without an incident or a strike. -/
theorem enterTable_keeps (s : State) (r : Report) (rs : List Report) :
    (enterTable s r rs).health.strikes = s.health.strikes ∧ (enterTable s r rs).health.incidents = s.health.incidents := by
  cases h : s.health.table.findIdx? (entryOf r) with
  | some i =>
    rw [enterTable_known h]
    exact ⟨rfl, rfl⟩
  | none =>
    cases hi : s.health.table.findIdx? Option.isNone with
    | some i =>
      obtain ⟨ovf, he⟩ := enterTable_new h hi rs
      rw [he, raiseAt_frame]
      exact ⟨rfl, rfl⟩
    | none =>
      rw [enterTable_full h hi rs rfl]
      split
      · exact ⟨rfl, rfl⟩
      · rw [raiseAt_frame]
        exact ⟨rfl, rfl⟩

/-! ## Port resets (R175) -/

theorem portReset_runs {s : State} {b : Nat} (h : (bankAt s b).reset.isSome = true) : portReset s b = s := if_pos h

theorem portReset_starts {s : State} {b : Nat} (h : (bankAt s b).reset = none) :
    portReset s b = modBank s b (fun k => { k with reset := some (s.bsn, s.cycle) }) := by
  rw [portReset, if_neg (by rw [h]; decide)]

theorem portReset_keeps (s : State) (b : Nat) :
    (portReset s b).health.strikes = s.health.strikes ∧ (portReset s b).health.incidents = s.health.incidents := by
  unfold portReset
  split
  · exact ⟨rfl, rfl⟩
  · exact ⟨rfl, rfl⟩

/-- Injected reports make no incident and no strike (R171). -/
theorem enterKey_injected {s : State} {r : Report} {rs : List Report} (h : (r :: rs).any (fun x => !x.injected) = false)
    (ts : List Task) : (enterKey s r rs ts).health.strikes = s.health.strikes ∧
      (enterKey s r rs ts).health.incidents = s.health.incidents := by
  obtain ⟨h1, h2⟩ := enterTable_keeps s r rs
  obtain ⟨h3, h4⟩ := portReset_keeps (enterTable s r rs) r.rep.suspect.index
  have hport : portAction (enterTable s r rs) r.rep.suspect.index false = portReset (enterTable s r rs) r.rep.suspect.index := rfl
  simp only [enterKey, h, Bool.false_eq_true, if_false, and_false, hport]
  split
  · exact ⟨h3.trans h1, h4.trans h2⟩
  · exact ⟨h1, h2⟩

/-! ## Incidents and strikes (R171) -/

/-- A unit has no incident, or only one that is over. -/
def incidentNew (s : State) (u : UnitRef) (b : Bsn) : Bool :=
  match (s.health.incidents.find? (fun x => x.1 == u)).map (fun x => x.2) with
  | some l => decide (64 < bsnSince b l)
  | none => true

theorem incidentNew_open {s : State} {u v : UnitRef} {b l : Bsn} (h : s.health.incidents.find? (fun x => x.1 == u) = some (v, l))
    (hl : bsnSince b l ≤ 64) : incidentNew s u b = false := by
  simp only [incidentNew, h, Option.map_some, decide_eq_false_iff_not]
  omega

theorem incidentNew_over {s : State} {u : UnitRef} {b : Bsn}
    (h : ∀ x, s.health.incidents.find? (fun x => x.1 == u) = some x → 64 < bsnSince b x.2) : incidentNew s u b = true := by
  unfold incidentNew
  cases hf : s.health.incidents.find? (fun x => x.1 == u) with
  | none => rfl
  | some x => exact decide_eq_true (h x hf)

/-- A new incident is noted. -/
def incidentNoted (s : State) (u : UnitRef) (b : Bsn) : State :=
  { s with health := { s.health with incidents := (u, b) :: s.health.incidents.filter (fun x => x.1 != u) } }

/-- A new incident is a strike. -/
def struck (s : State) (u : UnitRef) (b : Bsn) : State :=
  let t := incidentNoted s u b
  if u.kind = .bank then
    modBank { t with health := { t.health with strikes := s.health.strikes ++ [(u, b)] } } u.index
      (fun k => { k with fired := false, resetDone := false })
  else { t with health := { t.health with strikes := s.health.strikes ++ [(u, b)] } }

theorem incident_eq (s : State) (u : UnitRef) (cls : FaultClass) (b : Bsn) : incident s u cls b =
    if !incidentNew s u b || u.kind == .finger then incidentNoted s u b
    else if s.health.cfg.strikeLimit ≤ strikesOf (struck s u b) u then limitReached (struck s u b) u cls
    else struck s u b := rfl

/-! ## Scrub reads (R164, R166) -/

theorem modBank_agree {s : State} {b : Nat} {f g : Bank → Bank} (h : f (bankAt s b) = g (bankAt s b)) :
    modBank s b f = modBank s b g :=
  congrArg (fun l => { s with health := { s.health with banks := l } }) (modAt_agree (d := {}) h)

theorem execScrubRead_due {s : State} {b : Fin 18} {due : Bsn × Nat} (h1 : ckSys s = true) (h2 : bankBusy s b = false)
    (h3 : scrubDue s b = some due) (l : List Nat) : execScrubRead b l s = match bankInjection s .portParity b with
      | some x => .next (scrubParity s b x)
      | none => .next (scrubOutcome (modBank s b (fun k => { k with scrubAt := some due })) b (bankAt s b).next
          (toggled (flipsOf (modBank s b (fun k => { k with scrubAt := some due })) b (bankAt s b).next) l)) := by
  simp only [execScrubRead, h1, h2, h3, Bool.not_false, Bool.and_self, if_true] <;> rfl

theorem execScrubRead_wait {s : State} {b : Fin 18} (h : ckSys s = false ∨ bankBusy s b = true ∨ scrubDue s b = none)
    (l : List Nat) : execScrubRead b l s = .next s := by
  have hn : (if ckSys s && !bankBusy s b then scrubDue s b else none) = none := by
    rcases h with h | h | h <;> simp [h]
  simp only [execScrubRead, hn]

/-- A word whose errors the code corrects or misses. -/
theorem scrubOutcome_reads {s : State} {b w : Nat} {l : List Nat} (h1 : wordFails s b w l = false)
    (h2 : bankInjection s .bankUe b = none) (hl : l.length ≤ 2) : scrubOutcome s b w l =
      if l.length = 2 then ce2Outcome (scrubNext (setFlips s b w []) b l.length) b
      else scrubNext (setFlips s b w []) b l.length := by
  simp only [scrubOutcome, h1, h2, hl, if_true, Bool.false_eq_true, if_false, Option.isSome_none, Bool.or_self]

theorem scrubOutcome_fails {s : State} {b w : Nat} {l : List Nat} (h1 : wordFails s b w l = true) : scrubOutcome s b w l =
    sendReport (ueOutcome (scrubNext (poison s b w) b 0) b) ⟨.bankUe, ⟨.bank, b, 0⟩, ⟨.bank, b, 0⟩, none, .none, .none⟩
      false none := by
  simp only [scrubOutcome, h1, if_true, Option.isSome_none, Bool.true_or]

theorem scrubOutcome_injected {s : State} {b w : Nat} {l : List Nat} (h1 : wordFails s b w l = false) {x : Injection}
    (h2 : bankInjection s .bankUe b = some x) : scrubOutcome s b w l =
      sendReport (ueOutcome (injectSpent (scrubNext (poison s b w) b 0) x) b)
        ⟨.bankUe, ⟨.bank, b, 0⟩, ⟨.bank, b, 0⟩, none, .none, .none⟩ true none := by
  simp only [scrubOutcome, h1, h2, if_true, Bool.false_eq_true, if_false, Option.isSome_some, Bool.or_true]

/-- The bank after one more word of a pass. -/
def scrubBank (errors limit : Nat) (k : Bank) : Bank :=
  let cur := if errors = 1 then k.curCe + 1 else k.curCe
  let passEnd := decide (49152 ≤ k.next + 1)
  let hit := errors = 1 ∧ limit ≤ cur ∧ k.passDone = false
  { k with
    ce1 := if errors = 1 then bump 0xFFFFFFFF k.ce1 else k.ce1
    curCe := if passEnd then 0 else cur
    passCe := if passEnd then min 0xFFFF cur else k.passCe
    passDone := !passEnd && (k.passDone || decide hit)
    next := if passEnd then 0 else k.next + 1 }

theorem scrubNext_eq (s : State) (b errors : Nat) : scrubNext s b errors =
    if errors = 1 ∧ s.health.cfg.passLimit ≤ (if errors = 1 then (bankAt s b).curCe + 1 else (bankAt s b).curCe) ∧
        (bankAt s b).passDone = false then
      triggerOnce (nextFree (modBank s b (scrubBank errors s.health.cfg.passLimit))) b .pass (1 + Config.freeNat s.free % 13)
    else modBank s b (scrubBank errors s.health.cfg.passLimit) := by
  have hbank := modBank_agree (s := s) (b := b) (f := scrubBank errors s.health.cfg.passLimit) (g := fun k => { k with
    ce1 := if errors = 1 then bump 0xFFFFFFFF k.ce1 else k.ce1
    curCe := if decide (49152 ≤ (bankAt s b).next + 1) then 0
      else if errors = 1 then (bankAt s b).curCe + 1 else (bankAt s b).curCe
    passCe := if decide (49152 ≤ (bankAt s b).next + 1) then
        min 0xFFFF (if errors = 1 then (bankAt s b).curCe + 1 else (bankAt s b).curCe)
      else k.passCe
    passDone := !decide (49152 ≤ (bankAt s b).next + 1) && (k.passDone || decide (errors = 1 ∧
      s.health.cfg.passLimit ≤ (if errors = 1 then (bankAt s b).curCe + 1 else (bankAt s b).curCe) ∧
        (bankAt s b).passDone = false))
    next := if decide (49152 ≤ (bankAt s b).next + 1) then 0 else k.next + 1 }) rfl
  rw [hbank]
  rfl

theorem scrubNext_counts {s : State} {b errors : Nat} (h : ¬ (errors = 1 ∧ s.health.cfg.passLimit ≤ (bankAt s b).curCe + 1 ∧
    (bankAt s b).passDone = false)) : scrubNext s b errors = modBank s b (scrubBank errors s.health.cfg.passLimit) := by
  rw [scrubNext_eq, if_neg]
  rintro ⟨h1, h2, h3⟩
  rw [if_pos h1] at h2
  exact h ⟨h1, h2, h3⟩

theorem ce2Outcome_below {s : State} {b : Nat} (h : (liveCe2 s b ++ [s.bsn]).length < s.health.cfg.ce2Limit) :
    ce2Outcome s b = modBank s b (fun k => { k with
      ce2 := bump 0xFFFFFFFF k.ce2, ce2At := liveCe2 s b ++ [s.bsn]
      ce2Done := decide (s.health.cfg.ce2Limit ≤ (liveCe2 s b ++ [s.bsn]).length) }) := by
  have hn : decide (s.health.cfg.ce2Limit ≤ (liveCe2 s b ++ [s.bsn]).length) = false := decide_eq_false (by omega)
  simp only [ce2Outcome, hn, Bool.false_and, Bool.false_eq_true, if_false]

theorem ce2Outcome_triggers {s : State} {b : Nat} (h : s.health.cfg.ce2Limit ≤ (liveCe2 s b ++ [s.bsn]).length)
    (ha : (bankAt s b).ce2Done = false ∨ (liveCe2 s b ++ [s.bsn]).length = s.health.cfg.ce2Limit) :
    ce2Outcome s b = triggerOnce (nextFree (modBank s b (fun k => { k with
      ce2 := bump 0xFFFFFFFF k.ce2, ce2At := liveCe2 s b ++ [s.bsn]
      ce2Done := decide (s.health.cfg.ce2Limit ≤ (liveCe2 s b ++ [s.bsn]).length) }))) b .ce2
        (1 + Config.freeNat s.free % 13) := by
  have hag : ((bankAt s b).ce2Done && decide (s.health.cfg.ce2Limit < (liveCe2 s b ++ [s.bsn]).length)) = false := by
    rcases ha with ha | ha
    · rw [ha, Bool.false_and]
    · rw [decide_eq_false (by omega : ¬ s.health.cfg.ce2Limit < (liveCe2 s b ++ [s.bsn]).length), Bool.and_false]
  rw [ce2Outcome]
  refine (if_pos ?_).trans rfl
  rw [hag, decide_eq_true h]
  rfl

/-! ## Triggers of a bank (R183) -/

/-- A bank in service with a spare waits for its migration. -/
theorem bankTrigger_migrates {s : State} {b x : Nat} (h1 : (bankAt s b).inSvc = true) (h2 : spareBank s = some x)
    (h3 : autoFlag s 1 = true) (h4 : s.health.migQueue.any (fun m => m.src == b) = false)
    (h5 : s.health.migration.map (fun m => m.src) ≠ some b) (trig : BankTrigger) (c : Nat) : bankTrigger s b trig c =
      modHealth (raise s 42 (b + triggerCode trig * 256 + 0 * 65536)) (fun h => { h with
        migQueue := h.migQueue ++ [⟨b, c, none, false⟩] }) := by
  rw [bankTrigger, if_pos h1, h2]
  exact if_neg (by simp [h3, h4, h5])

theorem bankTrigger_alone {s : State} {b : Nat} (h1 : (bankAt s b).inSvc = true) (h2 : spareBank s = none)
    (trig : BankTrigger) (c : Nat) :
    bankTrigger s b trig c = raise s 42 (b + triggerCode trig * 256 + 1 * 65536) := by
  rw [bankTrigger, if_pos h1, h2]
  exact if_pos (by simp)

theorem bankTrigger_spare {s : State} {b : Nat} (h1 : (bankAt s b).inSvc = false) (h2 : (bankAt s b).failed = false)
    (h3 : s.health.migration = none) {t : State} (ht : t = modBank s b (fun k => { k with failed := true }))
    (trig : BankTrigger) (c : Nat) : bankTrigger s b trig c =
      logRepair (raise t 42 (b + triggerCode trig * 256 + b2n (spareBank t).isNone * 65536)) 2 true b 0 c 0x3F
        (autoFlag s 3) := by
  subst ht
  simp only [bankTrigger, h1, h2, h3, Bool.false_eq_true, if_false]

theorem execFaultTableEntry_first {s : State} {r : Report} {rest : List Report} (h : s.health.reports = r :: rest) :
    execFaultTableEntry s = .next (enterKeys 8
      { s with health := { s.health with
        reports := s.health.reports.filter (fun x => !(x.bsn == r.bsn && x.cycle == r.cycle)) } }
      (s.health.reports.filter (fun x => x.bsn == r.bsn && x.cycle == r.cycle)) []) := by
  rw [execFaultTableEntry]
  simp only [h]
  rfl

theorem enterKeys_one (t : State) (r : Report) :
    enterKeys 8 t [r] [] = joinReplays (enterKey t r [] (keyTasks t [r] [])) (keyTasks t [r] []) := rfl

/-- Settles O51: the rows of the fault table, of scrub reads and of strikes. -/
theorem faultTableRowsAct : Obligations.FaultTableRowsAct := by
  unfold Obligations.FaultTableRowsAct
  intro s
  refine ⟨fun h => ?_, fun r rest h => ?_, fun r t h ht => ?_, fun r rs i h => enterTable_known h rs,
    fun r rs i f h hi hf => ?_, fun r rs t h hi ht => enterTable_full h hi rs ht,
    fun u cls b t ht => ⟨fun l hf hl => ?_, fun ho hk => ?_, fun v ho hk hv => ?_⟩,
    fun r rs ts h => enterKey_injected h ts, fun b h => portReset_runs h, fun b h => portReset_starts h,
    fun b => ⟨rfl, fun h => ?_, fun h hr => ?_, fun h hr => ?_⟩, fun b n c h => ⟨fun hc => ?_, fun hc => ?_⟩, fun b h => ?_,
    fun b l h => execScrubRead_wait h l, fun b => rfl,
    fun b l due h1 h2 h3 => ⟨fun x hx => ?_, fun w t n f hx hw ht hf hn => ⟨fun hfail hinj h2 => ?_, fun hfail hinj h2 => ?_,
      fun hfail => ?_, fun x hfail hinj => ?_⟩⟩,
    fun b k hk => ⟨fun n hn hnext => ?_, fun hnext h => ?_, fun n hn hnext => ?_, fun hnext hlim hdone => ?_⟩,
    fun b live t hl ht => ⟨fun h => ?_, fun h ha => ?_⟩, fun b trig c h1 h2 => ?_,
    fun b trig c x h1 h2 h3 h4 h5 => bankTrigger_migrates h1 h2 h3 h4 h5 trig c,
    fun b trig c t h1 h2 h3 ht => bankTrigger_spare h1 h2 h3 ht trig c,
    fun b trig c h1 h2 => bankTrigger_alone h1 h2 trig c, rfl⟩
  · change execFaultTableEntry s = _
    simp only [execFaultTableEntry, h]
  · exact execFaultTableEntry_first h
  · refine (execFaultTableEntry_first h).trans (congrArg Host.Outcome.next ?_)
    have hlater : [r].filter (fun x => !(x.bsn == r.bsn && x.cycle == r.cycle)) = [] := by simp
    have hnow : [r].filter (fun x => x.bsn == r.bsn && x.cycle == r.cycle) = [r] := by simp
    rw [h, hlater, hnow, ht]
    exact enterKeys_one _ r
  · subst hf
    obtain ⟨ovf, he⟩ := enterTable_new h hi rs
    exact ⟨_, he, rfl⟩
  · subst ht
    rw [incident_eq, incidentNew_open hf hl]
    rfl
  · subst ht
    rw [incident_eq, if_pos (by simp [hk])]
    rfl
  · subst ht
    have hv' : v = struck s u b := hv
    rw [incident_eq, if_neg (by simp [hk, incidentNew_over ho]), hv']
  · rw [portAction, if_neg (by decide), if_pos (by rw [h]; rfl)]
  · rw [portAction, if_neg (by decide), if_neg (by rw [h]; decide), if_pos hr]
  · rw [portAction, if_neg (by decide), if_neg (by rw [h]; decide), if_neg (by rw [hr]; decide)]
  · change execPortResetDone b s = _
    simp only [execPortResetDone, h, hc, if_true]
  · change execPortResetDone b s = _
    simp only [execPortResetDone, h, Nat.not_le.mpr hc, if_false]
  · change execPortResetDone b s = _
    simp only [execPortResetDone, h]
  · refine (execScrubRead_due h1 h2 h3 l).trans ?_
    rw [hx]
    rfl
  · subst hw ht hf hn
    refine (execScrubRead_due h1 ‹_› h3 l).trans ?_
    rw [hx]
    exact congrArg Host.Outcome.next ((scrubOutcome_reads hfail hinj (by omega)).trans (if_pos h2))
  · subst hw ht hf hn
    refine (execScrubRead_due h1 ‹_› h3 l).trans ?_
    rw [hx]
    exact congrArg Host.Outcome.next ((scrubOutcome_reads hfail hinj (by omega)).trans (if_neg (by omega)))
  · subst hw ht hf
    refine (execScrubRead_due h1 h2 h3 l).trans ?_
    rw [hx]
    exact congrArg Host.Outcome.next (scrubOutcome_fails hfail)
  · subst hw ht hf
    refine (execScrubRead_due h1 h2 h3 l).trans ?_
    rw [hx]
    exact congrArg Host.Outcome.next (scrubOutcome_injected hfail hinj)
  · subst hk
    rw [scrubNext_counts (fun h => hn h.1)]
    refine modBank_agree ?_
    simp [scrubBank, hn, Nat.not_le.mpr hnext]
  · subst hk
    rw [scrubNext_counts]
    · refine modBank_agree ?_
      have hhit : ¬ (s.health.cfg.passLimit ≤ (bankAt s b).curCe + 1 ∧ (bankAt s b).passDone = false) := by
        rintro ⟨h1, h2⟩
        rcases h with h | h
        · omega
        · rw [h2] at h
          exact absurd h (by decide)
      simp [scrubBank, Nat.not_le.mpr hnext, hhit]
    · rintro ⟨-, h1, h2⟩
      rcases h with h | h
      · omega
      · rw [h2] at h
        exact absurd h (by decide)
  · subst hk
    rw [scrubNext_counts (fun h => hn h.1)]
    refine modBank_agree ?_
    simp [scrubBank, hn, hnext]
  · subst hk
    rw [scrubNext_eq, if_pos ⟨rfl, by simpa using hlim, hdone⟩]
    have hbank : modBank s b (scrubBank 1 s.health.cfg.passLimit) = modBank s b (fun k => { k with
        ce1 := bump 0xFFFFFFFF k.ce1, curCe := k.curCe + 1, passDone := true, next := k.next + 1 }) := by
      refine modBank_agree ?_
      simp [scrubBank, Nat.not_le.mpr hnext, hlim, hdone]
    rw [hbank]
    rfl
  · subst hl ht
    exact ce2Outcome_below h
  · subst hl ht
    exact ce2Outcome_triggers h ha
  · exact if_pos (by rw [h1, h2]; rfl)

end Sys2Proof.Machine

namespace Sys2Proof.Machine

open Sys2Proof

/-! ## Engines -/

/-- The engines of a kind. -/
def enginesOf (d : Drover) (me : Bool) : List Engine := if me then d.mes else d.oes

theorem engineAt_modEngine_self {d : Drover} {me : Bool} {i : Nat} (h : i < (enginesOf d me).length) (f : Engine → Engine) :
    engineAt (modEngine d me i f) me i = f (engineAt d me i) := by
  cases me
  · simp only [enginesOf, Bool.false_eq_true, if_false] at h
    simp [engineAt, modEngine, modAt, List.getD_eq_getElem?_getD, h]
  · simp only [enginesOf, if_true] at h
    simp [engineAt, modEngine, modAt, List.getD_eq_getElem?_getD, h]

theorem engineAt_modEngine_ne (d : Drover) (me : Bool) {i k : Nat} (h : k ≠ i) (f : Engine → Engine) (me' : Bool) :
    engineAt (modEngine d me i f) me' k = engineAt d me' k := by
  cases me <;> cases me' <;> simp [engineAt, modEngine, modAt, List.getD_eq_getElem?_getD, h.symm]

theorem engineAt_modEngine_kind (d : Drover) (i k : Nat) (f : Engine → Engine) {me me' : Bool} (h : me' ≠ me) :
    engineAt (modEngine d me i f) me' k = engineAt d me' k := by
  cases me
  · cases me'
    · exact absurd rfl h
    · rfl
  · cases me'
    · rfl
    · exact absurd rfl h

theorem modEngine_length (d : Drover) (me : Bool) (i : Nat) (f : Engine → Engine) (me' : Bool) :
    (enginesOf (modEngine d me i f) me').length = (enginesOf d me').length := by
  cases me <;> cases me' <;> simp [enginesOf, modEngine, modAt]

/-- An engine beyond those of its kind has the values of one that is out of service. -/
theorem engineAt_none {d : Drover} {me : Bool} {i : Nat} (h : (enginesOf d me).length ≤ i) :
    engineAt d me i = { phase := .out } :=
  List.getD_eq_default _ _ h

theorem lt_of_leaves {d : Drover} {me : Bool} {i : Nat} {c : FaultClass} (h : (engineAt d me i).leaves = some c) :
    i < (enginesOf d me).length := by
  by_contra hn
  rw [engineAt_none (Nat.not_lt.mp hn)] at h
  exact absurd h (by simp)

theorem lt_of_spare {d : Drover} {me : Bool} {i : Nat} (h : (engineAt d me i).spare = true) : i < (enginesOf d me).length := by
  by_contra hn
  rw [engineAt_none (Nat.not_lt.mp hn)] at h
  exact absurd h (by decide)

theorem inSvc_modEngine {d : Drover} {me : Bool} {i : Nat} {f : Engine → Engine} (hf : ∀ e, (f e).inSvc = e.inSvc)
    (me' : Bool) (k : Nat) : (engineAt (modEngine d me i f) me' k).inSvc = (engineAt d me' k).inSvc := by
  by_cases hk : k = i
  · subst hk
    by_cases hm : me' = me
    · subst hm
      by_cases hl : k < (enginesOf d me').length
      · rw [engineAt_modEngine_self hl, hf]
      · rw [engineAt_none (Nat.not_lt.mp hl), engineAt_none (by rw [modEngine_length]; exact Nat.not_lt.mp hl)]
    · rw [engineAt_modEngine_kind _ _ _ _ hm]
  · rw [engineAt_modEngine_ne _ _ hk]

/-! ## Repairs and their records (R190, R191) -/

theorem logRepair_frame (s : State) (kind : Nat) (spare : Bool) (unit finger cause promoted : Nat) (want : Bool) :
    ∃ q full ev, logRepair s kind spare unit finger cause promoted want =
      { s with health := { s.health with logQueue := q, logFull := full }, events := ev } := by
  have hq : ∃ q, ∀ p, raise (if want && !logIsFull s && decide (s.health.logQueue.length < 8) then
      modHealth s (fun h => { h with logQueue := h.logQueue ++ [BitVec.ofNat 32 (logWord kind spare unit finger cause)] })
      else s) 21 p = { s with
        health := { s.health with logQueue := q }
        events := (raise (if want && !logIsFull s && decide (s.health.logQueue.length < 8) then
          modHealth s (fun h => { h with logQueue := h.logQueue ++ [BitVec.ofNat 32 (logWord kind spare unit finger cause)] })
          else s) 21 p).events } := by
    split
    · exact ⟨_, fun p => raise_frame _ _ _⟩
    · exact ⟨s.health.logQueue, fun p => raise_frame _ _ _⟩
  obtain ⟨q, hq⟩ := hq
  unfold logRepair
  dsimp only
  split
  · rw [raise_frame (modHealth _ _), hq]
    exact ⟨_, _, _, rfl⟩
  · rw [hq]
    exact ⟨_, _, _, rfl⟩

theorem forcedDone_portsOnly (s : State) (f : Option Nat) : PortsOnly s (forcedDone s f) := by
  unfold forcedDone
  split
  · exact completeJob_portsOnly _ _ _ _
  · exact PortsOnly.refl s

/-! ## Engines leave service (R182, R199) -/

/-- One engine of `retireStruck`. -/
def retireStep (me : Bool) (t : State) (i : Nat) : State :=
  match (engineAt t.drover me i).leaves with
  | some cls =>
    let r := if !autoFlag t 0 then (t, false)
      else if me then retireMe t i (faultCode cls) 12 (autoFlag t 3) else retireOe t i (faultCode cls) 40 (autoFlag t 3)
    { r.1 with drover := modEngine r.1.drover me i (fun e => { e with leaves := none }) }
  | none => t

theorem retireStruck_eq (s : State) (me : Bool) :
    retireStruck s me = (List.range (if me then 16 else 56)).foldl (retireStep me) s := rfl

theorem retireStep_stays {me : Bool} {t : State} {i : Nat} (h : (engineAt t.drover me i).leaves = none) :
    retireStep me t i = t := by
  simp only [retireStep, h]

theorem retireStep_kept {me : Bool} {t : State} {i : Nat} {cls : FaultClass} (h : (engineAt t.drover me i).leaves = some cls)
    (ha : autoFlag t 0 = false) :
    retireStep me t i = { t with drover := modEngine t.drover me i (fun e => { e with leaves := none }) } := by
  simp only [retireStep, h, ha, Bool.not_false, if_true]

theorem retireStep_oe {t : State} {i : Nat} {cls : FaultClass} (h : (engineAt t.drover false i).leaves = some cls)
    (ha : autoFlag t 0 = true) : retireStep false t i =
      { (retireOe t i (faultCode cls) 40 (autoFlag t 3)).1 with
        drover := modEngine (retireOe t i (faultCode cls) 40 (autoFlag t 3)).1.drover false i
          (fun e => { e with leaves := none }) } := by
  simp only [retireStep, h, ha, Bool.not_true, Bool.false_eq_true, if_false]

/-- Engines stay, and only the notes that they are to leave have gone. -/
def EnginesStay (s t : State) : Prop :=
  t.health = s.health ∧ t.events = s.events ∧ ∀ me k, (engineAt t.drover me k).inSvc = (engineAt s.drover me k).inSvc

theorem retireStruck_stays {s t : State} (ht : EnginesStay s t) (ha : autoFlag s 0 = false) (me : Bool) :
    EnginesStay s (retireStruck t me) := by
  rw [retireStruck_eq]
  refine List.foldlRecOn (motive := EnginesStay s) _ _ ht (fun u hu i _ => ?_)
  obtain ⟨h1, h2, h3⟩ := hu
  have hu0 : autoFlag u 0 = false := by rw [autoFlag, h1]; exact ha
  cases hl : (engineAt u.drover me i).leaves with
  | none =>
    rw [retireStep_stays hl]
    exact ⟨h1, h2, h3⟩
  | some cls =>
    rw [retireStep_kept hl hu0]
    exact ⟨h1, h2, fun me' k => (inSvc_modEngine (f := fun e => { e with leaves := none }) (fun _ => rfl) me' k).trans (h3 me' k)⟩

theorem retireForced_none {s : State} (h : s.health.forced = []) : retireForced s = s := by
  rw [retireForced, h, List.foldl_nil]
  change { s with health := { s.health with forced := [] } } = s
  exact congrArg (fun f => { s with health := { s.health with forced := f } }) h.symm

theorem foldl_stays {α : Type} {g : State → α → State} {l : List α} {s : State} (h : ∀ x ∈ l, g s x = s) : l.foldl g s = s :=
  List.foldlRecOn (motive := fun t => t = s) l g rfl (fun t ht x hx => by rw [ht]; exact h x hx)

theorem retireStruck_stay {s : State} {me : Bool} (h : ∀ k, (engineAt s.drover me k).leaves = none) : retireStruck s me = s :=
  foldl_stays (fun k _ => retireStep_stays (h k))

/-- One operator engine leaves service. -/
theorem retireStruck_one {s : State} {i : Nat} (hi : i < 56) (h : ∀ k, k ≠ i → (engineAt s.drover false k).leaves = none)
    (h' : ∀ k, k ≠ i → (engineAt (retireStep false s i).drover false k).leaves = none) :
    retireStruck s false = retireStep false s i := by
  obtain ⟨a, b, hab⟩ := List.append_of_mem (List.mem_range.mpr hi)
  have hnd : (a ++ i :: b).Nodup := hab ▸ List.nodup_range
  obtain ⟨-, hcons, hne⟩ := List.nodup_append.mp hnd
  rw [retireStruck_eq]
  simp only [Bool.false_eq_true, if_false, hab, List.foldl_append, List.foldl_cons]
  rw [foldl_stays (fun k hk => retireStep_stays (h k (hne k hk i List.mem_cons_self)))]
  refine foldl_stays (fun k hk => retireStep_stays (h' k ?_))
  rintro rfl
  exact (List.nodup_cons.mp hcons).1 hk

/-- The drover after an operator engine has left service for a spare. -/
def oeSwapped (d : Drover) (i j : Nat) : Drover :=
  modEngine (modEngine d false i engineLeave) false j (fun e => { e with phase := .wait, spare := false, run := none })

theorem retireOe_spare {s : State} {j : Nat} (h : spareOe s = some j) (i cause floor : Nat) (log : Bool) :
    ∃ hl ev, (retireOe s i cause floor log).1 = { s with drover := oeSwapped s.drover i j, health := hl, events := ev } ∧
      hl.forced = s.health.forced := by
  obtain ⟨q, full, ev, hlog⟩ := logRepair_frame (modHealth { s with drover := oeSwapped s.drover i j } (fun h => { h with
    tests := h.tests.filter (fun x => !(x.unit.kind == .oe && x.unit.index == j))
    oePassed := h.oePassed.filter (fun k => k != j) })) 1 false i 0 cause j log
  have he : (retireOe s i cause floor log).1 = logRepair (modHealth { s with drover := oeSwapped s.drover i j } (fun h => { h with
      tests := h.tests.filter (fun x => !(x.unit.kind == .oe && x.unit.index == j))
      oePassed := h.oePassed.filter (fun k => k != j) })) 1 false i 0 cause j log := by
    simp only [retireOe, h]
    rfl
  rw [he, hlog]
  exact ⟨_, _, rfl, rfl⟩

theorem spareOe_spare {s : State} {j : Nat} (h : spareOe s = some j) : (engineAt s.drover false j).spare = true := by
  have := List.find?_some h
  simp only [Bool.and_eq_true] at this
  exact this.1

/-- What an engine that leaves service is then. -/
def engineLeft (e : Engine) : Engine :=
  { e with
    phase := if e.phase = .stop then .stop else .out, gone := e.phase == .stop, run := none, waits := 0, leaves := none }

/-- The drover after an engine has left for a spare and its note has gone. -/
theorem oeSwapped_engines {d : Drover} {i j : Nat} (hi : i < (enginesOf d false).length) (hj : j < (enginesOf d false).length)
    (hij : i ≠ j) : engineAt (modEngine (oeSwapped d i j) false i (fun e => { e with leaves := none })) false i =
        engineLeft (engineAt d false i) ∧
      engineAt (modEngine (oeSwapped d i j) false i (fun e => { e with leaves := none })) false j =
        { engineAt d false j with phase := .wait, spare := false, run := none } ∧
      ∀ me k, (me = false → k ≠ i ∧ k ≠ j) →
        engineAt (modEngine (oeSwapped d i j) false i (fun e => { e with leaves := none })) me k = engineAt d me k := by
  refine ⟨?_, ?_, fun me k hk => ?_⟩
  · rw [engineAt_modEngine_self (by rw [oeSwapped, modEngine_length, modEngine_length]; exact hi), oeSwapped,
      engineAt_modEngine_ne _ _ hij, engineAt_modEngine_self hi]
    rfl
  · rw [engineAt_modEngine_ne _ _ hij.symm, oeSwapped, engineAt_modEngine_self (by rw [modEngine_length]; exact hj),
      engineAt_modEngine_ne _ _ hij.symm]
  · cases me with
    | false =>
      obtain ⟨h1, h2⟩ := hk rfl
      rw [engineAt_modEngine_ne _ _ h1, oeSwapped, engineAt_modEngine_ne _ _ h2, engineAt_modEngine_ne _ _ h1]
    | true =>
      rw [engineAt_modEngine_kind _ _ _ _ (by decide), oeSwapped, engineAt_modEngine_kind _ _ _ _ (by decide),
        engineAt_modEngine_kind _ _ _ _ (by decide)]

/-- One operator engine has reached its limit, and a spare is ready. -/
theorem retire_one {s : State} {i j : Nat} {cls : FaultClass} (hf : s.health.forced = []) (ha : autoFlag s 0 = true) (hi : i < 56)
    (hij : i ≠ j) (hl : (engineAt s.drover false i).leaves = some cls)
    (ho : ∀ k, k ≠ i → (engineAt s.drover false k).leaves = none) (hm : ∀ k, (engineAt s.drover true k).leaves = none)
    (hs : spareOe s = some j) : ∃ h ev, retireForced (retireStruck (retireStruck s false) true) = { s with
      drover := modEngine (oeSwapped s.drover i j) false i (fun e => { e with leaves := none }), health := h, events := ev } := by
  obtain ⟨h, ev, he, hforced⟩ := retireOe_spare hs i (faultCode cls) 40 (autoFlag s 3)
  have hstep := retireStep_oe hl ha
  rw [he] at hstep
  obtain ⟨-, hej, hother⟩ := oeSwapped_engines (lt_of_leaves hl) (lt_of_spare (spareOe_spare hs)) hij
  have hone : retireStruck s false = retireStep false s i := by
    refine retireStruck_one hi ho (fun k hk => ?_)
    rw [hstep]
    by_cases hkj : k = j
    · subst hkj
      exact (congrArg Engine.leaves hej).trans (ho k hk)
    · exact (congrArg Engine.leaves (hother false k (fun _ => ⟨hk, hkj⟩))).trans (ho k hk)
  refine ⟨h, ev, ?_⟩
  rw [hone, hstep, retireStruck_stay (fun k => (congrArg Engine.leaves (hother true k (fun h => absurd h (by decide)))).trans (hm k)),
    retireForced_none (hforced.trans hf)]

/-! ## Decimators and fingers (R186, R188) -/

theorem decAt_modDec_self {s : State} {d : Nat} (h : d < s.health.decs.length) (f : Decimator → Decimator) :
    decAt (modDec s d f) d = f (decAt s d) := by
  simp [decAt, modDec, modHealth, modAt, List.getD_eq_getElem?_getD, h]

theorem decAt_modDec_ne (s : State) {d r : Nat} (h : r ≠ d) (f : Decimator → Decimator) : decAt (modDec s d f) r = decAt s r := by
  simp [decAt, modDec, modHealth, modAt, List.getD_eq_getElem?_getD, h.symm]

theorem decAt_of_decs {s t : State} (h : t.health.decs = s.health.decs) (d : Nat) : decAt t d = decAt s d := by
  rw [decAt, h]
  rfl

theorem modDec_length (s : State) (d : Nat) (f : Decimator → Decimator) :
    (modDec s d f).health.decs.length = s.health.decs.length :=
  List.length_modify _ _ _

theorem swapEnd_early {s : State} {x : DecSwap} {b : Bsn} (hb : x.begun = some b) (h : bsnReached s.bsn (b + 4#40) = false) :
    swapEnd s x = s := by
  unfold swapEnd
  cases hn : x.new with
  | none => rw [hb]
  | some n =>
    rw [hb]
    exact if_neg (by simp [h])

theorem swapEnd_failed {s : State} {x : DecSwap} {n : Nat} (hn : x.new = some n) (h : (decAt s n).failed = true) :
    swapEnd s x = s := by
  unfold swapEnd
  cases hb : x.begun with
  | none => rfl
  | some b =>
    rw [hn]
    exact if_neg (by simp [h])

/-- The decimators after a replacement is over. -/
def swapped (s : State) (x : DecSwap) (n : Nat) : State :=
  modHealth (modDec (modDec s n (fun d => { d with inSvc := true })) x.old (fun d => { d with inSvc := false, failed := true }))
    (fun h => { h with
      swaps := h.swaps.filter (fun y => y.old != x.old), decMap := h.decMap.map (fun d => if d = x.old then n else d)
      decFades := h.decFades ++
        (List.range 22).filterMap (fun k => if h.decMap.getD k k = x.old then some ⟨k, s.bsn, x.old, x.last⟩ else none)
      tests := h.tests.filter (fun y => !(y.unit.kind == .dec && y.unit.index == n)) })

theorem swapEnd_over {s : State} {x : DecSwap} {b : Bsn} {n : Nat} (hb : x.begun = some b) (hn : x.new = some n)
    (hr : bsnReached s.bsn (b + 4#40) = true) (hf : (decAt s n).failed = false) :
    swapEnd s x = forcedDone (logRepair (swapped s x n) 3 false x.old 0 x.cause n (wantLog s x.forced x.log)) x.forced := by
  unfold swapEnd
  rw [hb, hn]
  exact if_pos (by rw [hr, hf]; rfl)

/-- A replacement that no one forced ends with its record. -/
theorem swapEnd_logged {s : State} {x : DecSwap} {b : Bsn} {n : Nat} (hb : x.begun = some b) (hn : x.new = some n)
    (hr : bsnReached s.bsn (b + 4#40) = true) (hf : (decAt s n).failed = false) (hfo : x.forced = none) : ∃ q full ev,
      swapEnd s x = { s with
        health := { (swapped s x n).health with logQueue := q, logFull := full }, events := ev } := by
  obtain ⟨q, full, ev, hlog⟩ := logRepair_frame (swapped s x n) 3 false x.old 0 x.cause n (wantLog s x.forced x.log)
  have he := swapEnd_over hb hn hr hf
  have hframe : swapped s x n = { s with health := (swapped s x n).health } := rfl
  rw [hfo, forcedDone, ← hfo, hlog] at he
  generalize swapped s x n = t at he hframe ⊢
  rw [he, hframe]
  exact ⟨q, full, ev, rfl⟩

theorem swapped_decs {s : State} {x : DecSwap} {n : Nat} (hne : n ≠ x.old) (hn : n < s.health.decs.length)
    (ho : x.old < s.health.decs.length) : (decAt (swapped s x n) n).inSvc = true ∧
      (decAt (swapped s x n) x.old).inSvc = false ∧ (decAt (swapped s x n) x.old).failed = true := by
  have h (r : Nat) : decAt (swapped s x n) r = decAt (modDec (modDec s n (fun d => { d with inSvc := true })) x.old
    (fun d => { d with inSvc := false, failed := true })) r := rfl
  have hold := decAt_modDec_self (s := modDec s n (fun d => { d with inSvc := true })) (d := x.old)
    (by rw [modDec_length]; exact ho) (fun d => { d with inSvc := false, failed := true })
  refine ⟨?_, ?_, ?_⟩
  · rw [h, decAt_modDec_ne _ hne, decAt_modDec_self hn]
  · rw [h, hold]
  · rw [h, hold]

/-- One finger of the next carrier period leaves service. -/
def fingerStep (t : State) (d : FingerDue) : State :=
  let t := modHealth t (fun h => { h with fingers := modAt h.fingers d.hb (fun l => l ++ [d.finger]) })
  forcedDone (logRepair t 4 false d.hb d.finger (if d.forced.isSome then 0 else 12) 0x3F (wantLog t d.forced d.log)) d.forced

theorem fingerStep_health (t : State) (d : FingerDue) :
    (fingerStep t d).health.fingerDue = t.health.fingerDue ∧
      (fingerStep t d).health.fingers = modAt t.health.fingers d.hb (fun l => l ++ [d.finger]) := by
  unfold fingerStep
  obtain ⟨a, b, c, hp⟩ := forcedDone_portsOnly (logRepair (modHealth t (fun h => { h with
    fingers := modAt h.fingers d.hb (fun l => l ++ [d.finger]) })) 4 false d.hb d.finger (if d.forced.isSome then 0 else 12) 0x3F
      (wantLog (modHealth t (fun h => { h with fingers := modAt h.fingers d.hb (fun l => l ++ [d.finger]) })) d.forced d.log))
    d.forced
  rw [hp]
  obtain ⟨q, full, ev, hlog⟩ := logRepair_frame (modHealth t (fun h => { h with
    fingers := modAt h.fingers d.hb (fun l => l ++ [d.finger]) })) 4 false d.hb d.finger (if d.forced.isSome then 0 else 12) 0x3F
      (wantLog (modHealth t (fun h => { h with fingers := modAt h.fingers d.hb (fun l => l ++ [d.finger]) })) d.forced d.log)
  rw [hlog]
  exact ⟨rfl, rfl⟩

theorem fingerSteps_health (l : List FingerDue) (t : State) :
    (l.foldl fingerStep t).health.fingerDue = t.health.fingerDue ∧
      (l.foldl fingerStep t).health.fingers = l.foldl (fun m d => modAt m d.hb (fun x => x ++ [d.finger])) t.health.fingers := by
  induction l generalizing t with
  | nil => exact ⟨rfl, rfl⟩
  | cons d l ih =>
    obtain ⟨h1, h2⟩ := fingerStep_health t d
    obtain ⟨h3, h4⟩ := ih (fingerStep t d)
    rw [List.foldl_cons, List.foldl_cons, h3, h4, h1, h2]
    exact ⟨rfl, rfl⟩

/-! ## Self-tests (R181, R419) -/

theorem testOver_last {s : State} {x : SelfTest} (h : s.health.tests = [x]) :
    testOver s x = { s with health := { s.health with tests := [] } } := by
  simp only [testOver, h, List.erase_cons_head, List.find?_nil, Option.toList_none, List.map_nil, modHealth]

/-- The next test of the unit begins as the first one ends. -/
theorem testOver_next {s : State} {x y : SelfTest} (h : s.health.tests = [x, y]) (hu : x.unit = y.unit) :
    testOver s x = { s with health := { s.health with tests := [{ y with from_ := (s.bsn, s.cycle) }] } } := by
  have hy : (y.unit == x.unit) = true := by rw [hu]; exact beq_self_eq_true _
  have hmap : ([y].map (fun z => if [y].contains z then { z with from_ := (s.bsn, s.cycle) } else z)) =
      [{ y with from_ := (s.bsn, s.cycle) }] := by simp
  have hfind : [y].find? (fun z => z.unit == x.unit) = some y := List.find?_cons_of_pos hy
  simp only [testOver, h, List.erase_cons_head, hfind, Option.toList_some, hmap, modHealth]

/-- A spare engine that fails is marked failed. -/
theorem spareFails_oe {s : State} {u : UnitRef} (h : u.kind = .oe) : ∃ q full ev, spareFails s u = { s with
    drover := modEngine s.drover false u.index (fun e => { e with spare := false })
    health := { s.health with
      reports := s.health.reports ++ [⟨⟨.selfTest, u, u, none, .none, .none⟩, false, s.bsn, s.cycle, none⟩]
      oePassed := s.health.oePassed.filter (fun k => k != u.index), oeFailed := u.index :: s.health.oeFailed
      logQueue := q, logFull := full }
    events := ev } := by
  obtain ⟨q, full, ev, hlog⟩ := logRepair_frame { s with
    drover := modEngine s.drover false u.index (fun e => { e with spare := false })
    health := { s.health with
      reports := s.health.reports ++ [⟨⟨.selfTest, u, u, none, .none, .none⟩, false, s.bsn, s.cycle, none⟩]
      oePassed := s.health.oePassed.filter (fun k => k != u.index)
      oeFailed := u.index :: s.health.oeFailed } } 1 true u.index 0 13 0x3F (autoFlag s 3)
  refine ⟨q, full, ev, Eq.trans ?_ hlog⟩
  simp only [spareFails, h, if_true]
  rfl

/-- A spare decimator that fails is marked failed, and a replacement starts again with another. -/
theorem spareFails_dec {s : State} {u : UnitRef} (h : u.kind = .dec) : ∃ q full ev, spareFails s u = { s with
    health := { s.health with
      reports := s.health.reports ++ [⟨⟨.selfTest, u, u, none, .none, .none⟩, false, s.bsn, s.cycle, none⟩]
      decs := modAt s.health.decs u.index (fun d => { d with failed := true, passed := false })
      swaps := s.health.swaps.map (fun x => if x.new = some u.index then { x with new := none, begun := none } else x)
      logQueue := q, logFull := full }
    events := ev } := by
  obtain ⟨q, full, ev, hlog⟩ := logRepair_frame { s with
    health := { s.health with
      reports := s.health.reports ++ [⟨⟨.selfTest, u, u, none, .none, .none⟩, false, s.bsn, s.cycle, none⟩]
      decs := modAt s.health.decs u.index (fun d => { d with failed := true, passed := false })
      swaps := s.health.swaps.map (fun x => if x.new = some u.index then { x with new := none, begun := none } else x) } } 3 true
    u.index 0 13 0x3F (autoFlag s 3)
  refine ⟨q, full, ev, Eq.trans ?_ hlog⟩
  simp only [spareFails, h, reduceCtorEq, if_false]
  rfl

theorem execSelfTestEnd_over {s : State} {u : UnitRef} {x : SelfTest} {v : State} {pass : Bool}
    (hx : s.health.tests.find? (fun y => y.unit == u) = some x) (hs : isSpare s u = true)
    (hc : 16384 ≤ cyclesSince s x.from_.1 x.from_.2)
    (hv : v = if pass = false then spareFails (testOver s x) u
      else if u.kind = .oe then { testOver s x with health := { (testOver s x).health with
        oePassed := u.index :: (testOver s x).health.oePassed.filter (fun k => k != u.index) } }
      else modDec (testOver s x) u.index (fun d => { d with passed := true })) :
    execSelfTestEnd u pass s = match x.svc with
      | some n => .next (completeSeq v n .ok (u8 (b2n (!pass)) ++ zeros 7 ++ bsn8 x.from_.1))
      | none => .next v := by
  have hd : (!isSpare s u || decide (cyclesSince s x.from_.1 x.from_.2 < 16384)) = false := by
    rw [hs, decide_eq_false (Nat.not_lt.mpr hc)]
    rfl
  subst hv
  cases pass with
  | false =>
    simp only [execSelfTestEnd, hx, hd, Bool.false_eq_true, if_false, Bool.not_false, if_true] <;> rfl
  | true =>
    simp only [execSelfTestEnd, hx, hd, Bool.false_eq_true, if_false, Bool.not_true, reduceCtorEq] <;> rfl

theorem execEngineRetire_boundary {s t : State} (h : s.cycle = 0)
    (ht : retireForced (retireStruck (retireStruck s false) true) = t) : exec .engineRetire s =
      .next { t with graph := { t.graph with meter := { t.graph.meter with e := enginesE t.drover } } } := by
  change execEngineRetire s = _
  rw [execEngineRetire, if_neg (not_not.mpr h), ht]

/-- Settles O52: the rows by which units leave service, by what a repair, a migration, a replacement and a self-test do. -/
theorem repairRowsAct : Obligations.RepairRowsAct := by
  unfold Obligations.RepairRowsAct
  intro s
  refine ⟨fun h => if_pos h, fun t h ht => ?_, fun h hf ha => ?_, fun i j cls h0 hf ha h56 hi hij hl ho hm hs => ?_,
    fun i cause floor log h => ?_, fun i cause floor log => rfl, fun f t r hf ht => ⟨fun h => ?_, fun h hr => ?_⟩, fun h => ?_,
    rfl, fun hm h0 hc => ?_, fun d rest hm h0 hmig hc => ⟨fun x hsvc hx => ?_, fun h => ?_⟩,
    fun m hm => ⟨fun hc hcop hd => ?_, fun h => ?_, fun h => ?_, fun t hcop h0 hc ht => ?_⟩, fun hm => ⟨?_, ?_⟩, fun h => ?_,
    fun h => if_pos h, fun h0 hc => ?_, fun h0 => if_neg (not_not.mpr h0),
    fun x => ⟨fun h => ?_, fun hb hw hf ha => ?_, fun n hb hw hf hn => ?_, fun hb hw hf hn => ?_⟩,
    fun x b hb h => swapEnd_early hb h, fun x n hn h => swapEnd_failed hn h,
    fun x b n hb hn hr hne hfl hlen hlen' hfo => ?_, ?_, fun d hd => ?_, fun u x t v pass hx hs hc ht hv => ?_, fun x hx => ?_,
    fun x y hxy hne hu => ?_, fun u hk hd => ?_, fun u pass h => ?_⟩
  · exact execEngineRetire_boundary h ht.symm
  · have hstay := retireStruck_stays (retireStruck_stays (s := s) ⟨rfl, rfl, fun _ _ => rfl⟩ ha false) ha true
    have hrow := execEngineRetire_boundary h (retireForced_none (by rw [hstay.1]; exact hf))
    generalize retireStruck (retireStruck s false) true = t at hstay hrow
    exact ⟨_, hrow, hstay⟩
  · obtain ⟨hl', ev, he⟩ := retire_one hf ha hi hij hl ho hm hs
    have hrow := execEngineRetire_boundary h0 he
    obtain ⟨hei, hej, hother⟩ := oeSwapped_engines (lt_of_leaves hl) (lt_of_spare (spareOe_spare hs)) hij
    exact ⟨_, hrow, rfl, hei, congrArg Engine.phase hej, congrArg Engine.spare hej,
      fun k h1 h2 => hother false k (fun _ => ⟨h1, h2⟩), rfl⟩
  · simp only [retireOe, h]
  · subst ht
    simp only [retireForced, hf, List.foldl_cons, List.foldl_nil, modHealth, h, if_true, Bool.false_eq_true, if_false]
  · subst ht hr
    simp only [retireForced, hf, List.foldl_cons, List.foldl_nil, modHealth, h, Bool.true_eq_false, if_false]
  · change execMigrationBegin s = _
    unfold execMigrationBegin
    split
    · next hm =>
      refine if_pos ?_
      rcases h with h | h | ⟨-, h⟩
      · exact Or.inl h
      · exact Or.inr (by rw [h]; rfl)
      · exact absurd hm h
    · refine if_pos ?_
      rcases h with h | h | ⟨h, -⟩
      · exact Or.inl h
      · exact Or.inr (Or.inr (by rw [h]; rfl))
      · exact Or.inr (Or.inl h)
  · change execMigrationBegin s = _
    simp only [execMigrationBegin, hm]
    exact if_neg (by simp [h0, hc])
  · change execMigrationBegin s = _
    simp only [execMigrationBegin, hm, hsvc, hx]
    exact if_neg (by simp [h0, hc, hmig])
  · change execMigrationBegin s = _
    simp only [execMigrationBegin, hm]
    refine (if_neg (by simp [h0, hc, hmig])).trans ?_
    rcases h with h | h
    · exact if_pos (by rw [h]; rfl)
    · rw [h]
      exact ite_self _
  · change execMigrationCopyEnd s = _
    simp only [execMigrationCopyEnd, hm]
    have hd' : copyCycles ≤ m.before * Config.blockCycles + cyclesSince s m.begun 0 := hd
    exact if_pos (by simp [hc, hcop, hd'])
  · change execMigrationCopyEnd s = _
    simp only [execMigrationCopyEnd, hm]
    refine if_neg ?_
    rcases h with h | h | h
    · simp [h]
    · simp [h]
    · have : ¬ copyCycles ≤ m.before * Config.blockCycles + cyclesSince s m.begun 0 := Nat.not_le.mpr h
      simp [this]
  · change execMigrationSwitch s = _
    simp only [execMigrationSwitch, hm]
    refine if_pos ?_
    rcases h with h | h | h
    · exact Or.inr (Or.inl h)
    · exact Or.inl h
    · exact Or.inr (Or.inr (by rw [h]; rfl))
  · subst ht
    change execMigrationSwitch s = _
    simp only [execMigrationSwitch, hm]
    exact if_neg (by simp [h0, hc, hcop])
  · change execMigrationCopyEnd s = _
    simp only [execMigrationCopyEnd, hm]
  · change execMigrationSwitch s = _
    simp only [execMigrationSwitch, hm]
  · change execDecimatorParallelStart s = _
    refine if_pos ?_
    rcases h with h | h
    · exact Or.inl h
    · exact Or.inr (by rw [h]; rfl)
  · change execDecimatorParallelStart s = _
    exact if_neg (by simp [h0, hc])
  · refine if_pos ?_
    rcases h with h | h <;> simp [h]
  · rw [swapStart, if_neg (by simp [hb, hw])]
    exact if_pos (by simp [hf, ha])
  · rw [swapStart, if_neg (by simp [hb, hw]), if_neg, hn]
    · rfl
    · rcases hf with hf | hf
      · rw [Option.isSome_iff_ne_none] at hf
        simp [hf]
      · simp [hf]
  · rw [swapStart, if_neg (by simp [hb, hw]), if_neg, hn]
    · rfl
    · rcases hf with hf | hf
      · rw [Option.isSome_iff_ne_none] at hf
        simp [hf]
      · simp [hf]
  · obtain ⟨q, full, ev, he⟩ := swapEnd_logged hb hn hr hfl hfo
    obtain ⟨h1, h2, h3⟩ := swapped_decs hne hlen hlen'
    exact ⟨_, he, rfl, rfl, h1, h2, h3, rfl, rfl⟩
  · obtain ⟨h1, h2⟩ := fingerSteps_health s.health.fingerDue (modHealth s (fun h => { h with fingerDue := [] }))
    exact ⟨_, rfl, h1, h2⟩
  · have hrow : exec .fingerRetire s = .next (s.health.fingerDue.foldl fingerStep
      (modHealth s (fun h => { h with fingerDue := [] }))) := rfl
    rw [hrow, hd]
    rfl
  · subst ht
    have hrow : exec (.selfTestEnd u pass) s = _ := execSelfTestEnd_over hx hs hc hv
    refine ⟨fun hn => ?_, fun n p o hn hf => ?_⟩
    · rw [hrow, hn]
    · rw [hrow, hn]
      simp only [completeSeq, hf]
  · exact testOver_last hx
  · exact testOver_next hxy hu
  · rcases hk with hk | hk
    · obtain ⟨q, full, ev, he⟩ := spareFails_oe (s := s) hk
      exact ⟨_, he, rfl, rfl, fun _ => ⟨rfl, rfl⟩, fun h => absurd (hk.symm.trans h) (by decide)⟩
    · obtain ⟨q, full, ev, he⟩ := spareFails_dec (s := s) hk
      have hdec : decAt (spareFails s u) u.index = { decAt s u.index with failed := true, passed := false } := by
        refine Eq.trans ?_ (decAt_modDec_self (s := s) (hd hk) (fun d => { d with failed := true, passed := false }))
        rw [he]
        rfl
      refine ⟨_, rfl, ?_, ?_, fun h => absurd (hk.symm.trans h) (by decide), fun _ => ⟨?_, ?_, ?_, ?_⟩⟩
      · rw [he]
      · rw [he]
      · rw [he]
      · rw [hdec]
      · rw [hdec]
      · rw [he]
  · change execSelfTestEnd u pass s = _
    unfold execSelfTestEnd
    split
    · rfl
    · next x hx =>
      refine if_pos ?_
      rcases h with h | h | h
      · exact absurd (hx.symm.trans h) (by simp)
      · rw [h]
        rfl
      · rw [decide_eq_true (h x hx), Bool.or_true]

end Sys2Proof.Machine

namespace Sys2Proof.Machine

open Sys2Proof

/-! ## Grants (R137 to R142) -/

/-- A port's grant. -/
def granted (s : State) (p : Nat) : Grant → State
  | .op i src => grantOp s p i src
  | .move i r => grantMe s p i r

theorem execTaskGrant_turn {s : State} {p : Fin 4} {g : Grant} (h1 : portTurn s p = true)
    (h2 : portGrant s.drover s.cycle p = some g) (h3 : lowerFirst s p g.list = false) :
    exec (.taskGrant p) s = .next (granted s p g) := by
  change execTaskGrant p s = _
  rw [execTaskGrant, if_neg (by rw [h1]; decide), h2]
  refine (if_neg (by rw [h3]; decide)).trans ?_
  cases g <;> rfl

theorem grantOp_pen {s : State} {p i n : Nat} {r : Ready} {rest : List Ready} (h : s.drover.pens.getD n [] = r :: rest) :
    grantOp s p i (.pen n) = raisePeak { s with
      free := s.free + 1
      drover := { modEngine s.drover false i (engineTake r s.cycle s.free) with
        pens := modAt s.drover.pens n (fun l => l.drop 1)
        ports := modAt s.drover.ports p (fun q => { q with lastOe := i, kind := .op, at_ := some s.cycle }) } }
      .maxWait (s.cycle - r.ready) := by
  have hr : (s.drover.pens.getD n []).head? = some r := by rw [h]; rfl
  simp only [grantOp, takeGrant, hr]
  rfl

theorem grantOp_replay {s : State} {p i n : Nat} {r : Ready} (h : s.drover.replays[n]? = some r) :
    grantOp s p i (.replay n) = { s with
      free := s.free + 1
      health := { s.health with replays := bump 0xFFFFFFFF s.health.replays }
      drover := { modEngine s.drover false i (engineTake r s.cycle s.free) with
        replays := s.drover.replays.eraseIdx n
        flowRep := flowAdd (taskFlow (activeImage s) r.task) s.drover.flowRep
        ports := modAt s.drover.ports p (fun q => { q with lastOe := i, kind := .op, at_ := some s.cycle }) } } := by
  simp only [grantOp, takeGrant, h]
  rfl

theorem grantMe_eq (s : State) (p i : Nat) (r : Ready) : grantMe s p i r = raisePeak { s with
    free := s.free + 1
    health := { s.health with replays := if r.attempt = 0 then s.health.replays else bump 0xFFFFFFFF s.health.replays }
    drover := { modEngine s.drover true i (engineTake r s.cycle s.free) with
      moves := s.drover.moves.drop 1
      ports := modAt s.drover.ports p (fun q => { q with lastMe := i, kind := .move, at_ := some s.cycle }) } }
    .maxWait (s.cycle - r.ready) := by
  by_cases h : r.attempt = 0
  · simp only [grantMe, h, if_true]
    rfl
  · simp only [grantMe, h, if_false]
    rfl

/-- An operator engine takes the grant unless a move engine could and the last grant was an operator's. -/
theorem portGrant_op {d : Drover} {c p i : Nat} {src : GrantFrom} (h : portOpGrant d c p = some (i, src))
    (h' : portMeGrant d c p = none ∨ (d.ports.getD p ⟨0, 0, .none, none⟩).kind ≠ .op) :
    portGrant d c p = some (.op i src) := by
  cases hm : portMeGrant d c p with
  | none => simp only [portGrant, h, hm]
  | some x =>
    have hk := h'.resolve_left (by rw [hm]; simp)
    simp only [portGrant, h, hm, hk, if_false]

theorem portGrant_move {d : Drover} {c p i : Nat} {r : Ready} (h : portMeGrant d c p = some (i, r))
    (h' : portOpGrant d c p = none ∨ (d.ports.getD p ⟨0, 0, .none, none⟩).kind = .op) :
    portGrant d c p = some (.move i r) := by
  cases ho : portOpGrant d c p with
  | none => simp only [portGrant, h, ho]
  | some x =>
    have hk := h'.resolve_left (by rw [ho]; simp)
    simp only [portGrant, h, ho, hk, if_true]

/-! ## Retirement (R143, R144) -/

/-- The graph and the event controller have changed. -/
def GraphTells (s t : State) : Prop := t = { s with graph := t.graph, events := t.events }

theorem commitTask_tells (s : State) (m : Memory) (k : Bsn) (t : Task) : GraphTells s (commitTask s m k t) := by
  unfold commitTask
  split
  · rfl
  · rfl
  · refine List.foldlRecOn (motive := GraphTells s) _ _ rfl (fun u hu c _ => ?_)
    unfold GraphTells at hu ⊢
    rw [raise_graph]
    generalize u.graph = g at hu ⊢
    refine (raise_frame u _ _).trans ?_
    generalize (raise u 23 _).events = ev
    rw [hu]

theorem countCycles_frame (s : State) (r : Ready) (since : Nat) :
    countCycles s r since = { s with graph := (countCycles s r since).graph, health := (countCycles s r since).health } := by
  unfold countCycles
  split
  · split
    · rfl
    · rfl
  · rfl

/-- The graph memory and the counts after a task has retired. -/
def taskCounted (s : State) (k : Bsn) (r : Ready) (since : Nat) : State :=
  commitTask (countCycles s r since) (activeImage s) k r.task

theorem taskCounted_frame (s : State) (k : Bsn) (r : Ready) (since : Nat) :
    taskCounted s k r since = { s with
      graph := (taskCounted s k r since).graph, health := (taskCounted s k r since).health
      events := (taskCounted s k r since).events } := by
  have h1 := countCycles_frame s r since
  have h2 := commitTask_tells (countCycles s r since) (activeImage s) k r.task
  unfold GraphTells at h2
  unfold taskCounted
  generalize commitTask (countCycles s r since) (activeImage s) k r.task = u at h2 ⊢
  generalize countCycles s r since = v at h1 h2
  rw [h2, h1]

/-- The drover after a task of an engine has retired. -/
def droverRetired (m : Memory) (d : Drover) (me : Bool) (i : Nat) (t : Task) : Drover :=
  let d := modEngine d me i engineFree
  let d := { d with retired := d.retired ++ [t], byUnit := (t, ⟨if me then .me else .oe, i, 0⟩) :: d.byUnit }
  { d with coming := d.coming ++ readied m d t }

theorem retireTask_eq (s : State) (k : Bsn) (me : Bool) (i : Nat) (r : Ready) (since : Nat) : retireTask s k me i r since =
    addCount { taskCounted s k r since with
      drover := droverRetired (activeImage s) (taskCounted s k r since).drover me i r.task } .retiredTotal 31 0 1 := rfl

theorem modEngine_keeps (d : Drover) (me : Bool) (i : Nat) (f : Engine → Engine) :
    modEngine d me i f = { d with oes := (modEngine d me i f).oes, mes := (modEngine d me i f).mes } := by
  cases me <;> rfl

theorem droverRetired_keeps (m : Memory) (d : Drover) (me : Bool) (i : Nat) (t : Task) :
    (droverRetired m d me i t).retired = d.retired ++ [t] ∧ (droverRetired m d me i t).pens = d.pens ∧
      (droverRetired m d me i t).moves = d.moves ∧ (droverRetired m d me i t).replays = d.replays := by
  cases me <;> exact ⟨rfl, rfl, rfl, rfl⟩

theorem droverRetired_engine {m : Memory} {d : Drover} {me : Bool} {i : Nat} (h : i < (enginesOf d me).length) (t : Task) :
    engineAt (droverRetired m d me i t) me i = engineFree (engineAt d me i) :=
  engineAt_modEngine_self h engineFree

theorem execTaskRetire_running {s : State} {u : UnitRef} {me : Bool} {i : Nat} {k : Bsn} {r : Ready}
    (hu : engineOf u = some (me, i)) (hk : s.drover.block = some k) (hp : (engineAt s.drover me i).phase = .busy)
    (hr : (engineAt s.drover me i).run = some r) : execTaskRetire u s =
      if s.cycle = (engineAt s.drover me i).since + 24 + taskCost s (activeImage s) r.task + (engineAt s.drover me i).waits then
        match taskInjection s me i with
        | some (x, f) => .next (retireRunning (faultFound (injectSpent (nextFree s) x) f true) k me i r
            (engineAt s.drover me i).since)
        | none => .next (retireTask s k me i r (engineAt s.drover me i).since)
      else .next s := by
  simp only [execTaskRetire, hu, hk, hp, hr] <;> rfl

/-- Settles O53: the rows of the ports, the engines and the Pens. -/
theorem schedulerRowsAct : Obligations.SchedulerRowsAct := by
  unfold Obligations.SchedulerRowsAct
  intro s
  refine ⟨fun p h => ?_, fun p g hg hl => ?_, fun p => ⟨fun i src h h' => portGrant_op h h', fun i r h h' => portGrant_move h h'⟩,
    fun p i n r rest h1 h2 h3 h4 => ?_, fun p i n r h1 h2 h3 h4 => ?_, fun p i r h1 h2 h3 => ?_,
    fun u me i k r hu hk hp hr hc => ⟨fun x f v hx hv => ?_, fun hx => ?_⟩, fun k me i r since => ?_,
    fun u me i r hu hr hc => ?_, fun u me i hu h => ?_, fun h rec p d x ha hn hp hd hx => ?_, fun h => ?_,
    fun p bad n hn hring hlen => ?_, fun bad i b hb hinj => ?_, fun p bad h => ?_, fun u me i hu => ⟨fun hp => ?_, fun hp => ?_⟩,
    fun u hu => ⟨?_, ?_⟩⟩
  · change execTaskGrant p s = _
    rcases h with h | h
    · exact if_pos (by rw [h]; rfl)
    · rw [execTaskGrant, h]
      exact ite_self _
  · change execTaskGrant p s = _
    rw [execTaskGrant, hg]
    by_cases ht : portTurn s p = true
    · rw [if_neg (by rw [ht]; decide)]
      exact if_pos hl
    · exact if_pos (by simp [ht])
  · rw [execTaskGrant_turn h1 h2 h3]
    exact congrArg Host.Outcome.next (grantOp_pen h4)
  · rw [execTaskGrant_turn h1 h2 h3]
    exact congrArg Host.Outcome.next (grantOp_replay h4)
  · rw [execTaskGrant_turn h1 h2 h3]
    exact congrArg Host.Outcome.next (grantMe_eq s p i r)
  · subst hv
    change execTaskRetire u s = _
    rw [execTaskRetire_running hu hk hp hr, if_pos hc, hx]
    rfl
  · change execTaskRetire u s = _
    rw [execTaskRetire_running hu hk hp hr, if_pos hc, hx]
  · have hcount := taskCounted_frame s k r since
    have hdrover : (taskCounted s k r since).drover = s.drover := by rw [hcount]
    obtain ⟨h1, h2, h3, h4⟩ := droverRetired_keeps (activeImage s) s.drover me i r.task
    have he := retireTask_eq s k me i r since
    rw [hdrover, addCount_frame] at he
    refine ⟨_, he, ?_, h1, h2, h3, h4, fun hi => ?_⟩
    · generalize taskCounted s k r since = u at hcount
      rw [hcount]
    · refine droverRetired_engine ?_ r.task
      cases me
      · exact hi
      · exact hi
  · change execTaskRetire u s = _
    cases hk : s.drover.block with
    | none => simp only [execTaskRetire, hu, hk]
    | some k =>
      cases hp : (engineAt s.drover me i).phase with
      | busy => rw [execTaskRetire_running hu hk hp hr, if_neg hc]
      | out => simp only [execTaskRetire, hu, hk, hp]
      | wait => simp only [execTaskRetire, hu, hk, hp]
      | stop => simp only [execTaskRetire, hu, hk, hp]
  · change execTaskRetire u s = _
    cases hk : s.drover.block with
    | none => simp only [execTaskRetire, hu, hk]
    | some k =>
      have hp := h.resolve_right (by rw [hk]; simp)
      rw [execTaskRetire, hu, hk]
      dsimp only
      split
      · next hb _ => exact absurd hb hp
      · rfl
  · subst hp hd hx
    change execHeldAdmit s = _
    rw [execHeldAdmit, if_neg ha, hn]
    rfl
  · change execHeldAdmit s = _
    have hnone : (if s.drover.admitAt = some s.cycle then none else nextHeld s) = none := by
      rcases h with h | h
      · rw [h, ite_self]
      · rw [if_pos h]
    rw [execHeldAdmit, hnone]
  · subst hn
    change execPenRefill p bad s = _
    rw [execPenRefill, if_neg (by simpa using ⟨hring, hlen⟩)]
  · subst hb
    rw [refillOne, hinj]
    rfl
  · change execPenRefill p bad s = _
    refine if_pos ?_
    rcases h with h | h
    · rw [h]
      rfl
    · rw [decide_eq_true h, Bool.or_true]
  · change execEngineStopEnd u s = _
    rw [execEngineStopEnd, hu]
    exact if_pos hp
  · change execEngineStopEnd u s = _
    rw [execEngineStopEnd, hu]
    exact if_neg hp
  · change execEngineStopEnd u s = _
    rw [execEngineStopEnd, hu]
  · change execTaskRetire u s = _
    simp only [execTaskRetire, hu]

end Sys2Proof.Machine


/-! # The modes: resets, boots and the steps of a change -/

namespace Sys2Proof.Machine

open Sys2Proof

/-! ## A reset (R488, R489) -/

/-- Settles O54: a reset is one update of the reset state, and each row either is in SHIP, names no rail, or makes it. -/
theorem resetRowsAct : Obligations.ResetRowsAct := by
  unfold Obligations.ResetRowsAct
  intro s
  refine ⟨fun _ => rfl, fun code hc => ?_, rfl, rfl, fun hs => ?_, fun hs => ?_, fun rails m ages u hm h0 hs hages hu => ?_,
    fun rails h0 => ?_, fun hs => ⟨?_, ?_, fun rails => ?_⟩⟩
  · rw [resetRecord, if_neg hc]
    exact ⟨rfl, rfl⟩
  · change execPinReset s = _
    simp [execPinReset, hs]
  · change execThermalReset s = _
    simp [execThermalReset, hs]
  · change execSupplyReset rails s = _
    unfold execSupplyReset
    dsimp only
    rw [← hm, ← hages, if_neg (by simp [hs, h0])]
    subst hu
    rfl
  · change execSupplyReset rails s = _
    unfold execSupplyReset
    rw [h0]
    exact if_pos (by simp)
  · change execPinReset s = _
    simp [execPinReset, hs]
  · change execThermalReset s = _
    simp [execThermalReset, hs]
  · change execSupplyReset rails s = _
    simp [execSupplyReset, hs]

/-! ## Operations that leave the power state as it is -/

@[simp] theorem ite_power (c : Prop) [Decidable c] (a b : State) :
    (if c then a else b).power = if c then a.power else b.power := by
  split <;> rfl

@[simp] theorem foldl_power {α : Type} (f : State → α → State) (h : ∀ s x, (f s x).power = s.power) (l : List α)
    (s : State) : (l.foldl f s).power = s.power := by
  induction l generalizing s with
  | nil => rfl
  | cons x l ih => rw [List.foldl_cons, ih, h]

theorem PortsOnly.power {s t : State} (h : PortsOnly s t) : t.power = s.power := by
  obtain ⟨a, b, c, rfl⟩ := h
  rfl

@[simp] theorem completeJobs_power (s : State) (f : Job → Bool) (reply : Job → Status × List Byte) :
    (completeJobs s f reply).power = s.power := (completeJobs_portsOnly s f reply).power

@[simp] theorem completeJob_power (s : State) (f : Job → Bool) (st : Status) (payload : List Byte) :
    (completeJob s f st payload).power = s.power := (completeJob_portsOnly s f st payload).power

@[simp] theorem rcUpdate_power (s : State) (r : Reg) (f : Nat → Nat) : (rcUpdate s r f).power = s.power := by
  simp [rcUpdate, rcNote]

@[simp] theorem addCount_power (s : State) (r : Reg) (hi lo k : Nat) : (addCount s r hi lo k).power = s.power := by
  simp [addCount]

@[simp] theorem raisePeak_power (s : State) (r : Reg) (v : Nat) : (raisePeak s r v).power = s.power := by
  simp [raisePeak]

@[simp] theorem setRoot_power (s : State) (r : RootState) : (setRoot s r).power = s.power := by simp [setRoot]

@[simp] theorem enterLock_power (s : State) (p : Nat) (l : LockState) : (enterLock s p l).power = s.power := by
  simp [enterLock, dropHold]

@[simp] theorem portsTo_power (s : State) (l : LockState) : (portsTo s l).power = s.power := by simp [portsTo]

@[simp] theorem rootStop_power (s : State) : (rootStop s).power = s.power := by simp [rootStop]

@[simp] theorem rootStart_power (s : State) : (rootStart s).power = s.power := by simp [rootStart]

theorem EventsOnly.power {s t : State} (h : EventsOnly s t) : t.power = s.power := by rw [h]

@[simp] theorem elRelease_power (s : State) (n : Nat) : (elRelease s n).power = s.power := (elRelease_events s n).power

@[simp] theorem sliderRelease_power (s : State) : (sliderRelease s).power = s.power := by
  obtain ⟨k, ev, h⟩ := sliderRelease_only s
  rw [h]

@[simp] theorem scanStop_power (s : State) : (scanStop s).power = s.power := by simp [scanStop]

@[simp] theorem slotGone_power (s : State) (i : Nat) : (slotGone s i).power = s.power := rfl

@[simp] theorem endFetches_power (s : State) : (endFetches s).power = s.power := by simp [endFetches]

@[simp] theorem detectionEvent_power (s : State) (w : Csn) : (detectionEvent s w).power = s.power := by
  unfold detectionEvent
  dsimp only
  (repeat' split) <;> simp

@[simp] theorem detectionLeft_power (s t : State) : (detectionLeft s t).power = t.power := by
  unfold detectionLeft
  split <;> simp

@[simp] theorem detUpdate_power (s : State) (again : Bool) : (detUpdate s again).power = s.power := by simp [detUpdate]

@[simp] theorem captureUpdate_power (s : State) : (captureUpdate s).power = s.power := by
  unfold captureUpdate
  split <;> simp

@[simp] theorem pathStart_power (s : State) : (pathStart s).power = s.power := by simp [pathStart]

@[simp] theorem pathStop_power (s : State) : (pathStop s).power = s.power := by simp [pathStop]

@[simp] theorem clockTo_power (s : State) (c : Nat) (listen : Bool) : (clockTo s c listen).power = s.power := rfl

@[simp] theorem clockDue_power (s : State) (c : Nat) (listen : Bool) (b : Bsn) : (clockDue s c listen b).power = s.power := rfl

@[simp] theorem clocksStop_power (s : State) : (clocksStop s).power = s.power := rfl

@[simp] theorem modSrcs_power (s : State) (c : Nat) (f : Adc → Adc) : (modSrcs s c f).power = s.power := rfl

@[simp] theorem clocksStart_power (s : State) (listen : Bool) : (clocksStart s listen).power = s.power := by
  simp [clocksStart]

@[simp] theorem strayWrites_power (s : State) (m : Memory) (k : Bsn) (t : Task) (done fault : Bool) :
    (strayWrites s m k t done fault).power = s.power := by
  simp [strayWrites]

@[simp] theorem strayAll_power (s : State) (m : Memory) (k : Bsn) : (strayAll s m k).power = s.power := by
  unfold strayAll
  exact foldl_power _ (fun t e => by split <;> simp) _ _

@[simp] theorem cancelBlock_power (s : State) : (cancelBlock s).power = s.power := by
  unfold cancelBlock
  split <;> simp

@[simp] theorem biasUpdate_power (s : State) : (biasUpdate s).power = s.power := by rw [biasUpdate_frame]

@[simp] theorem countPlaced_power (s : State) (p : Nat) (spilled : Bool) : (countPlaced s p spilled).power = s.power := by
  simp [countPlaced]

@[simp] theorem makeReady_power (m : Memory) (c : Nat) (s : State) (t : Task) : (makeReady m c s t).power = s.power := by
  unfold makeReady
  dsimp only
  (repeat' split) <;> simp

@[simp] theorem computeStart_power (s : State) (k : Bsn) : (computeStart s k).power = s.power := by simp [computeStart]

@[simp] theorem enChange_power (s : State) (c lag : Nat) (a b : Bool) : (enChange s c lag a b).power = s.power := by
  unfold enChange
  (repeat' split) <;> simp [beginStop]

@[simp] theorem applyChanCfg_power (s : State) (c v : Nat) : (applyChanCfg s c v).power = s.power := by
  simp [applyChanCfg]

@[simp] theorem bootPlay_power (s : State) : (bootPlay s).power = s.power := by simp [bootPlay]

@[simp] theorem hpTryUp_power (s : State) : (hpTryUp s).power = s.power := by simp [hpTryUp]

@[simp] theorem loTryUp_power (s : State) : (loTryUp s).power = s.power := by simp [loTryUp]

@[simp] theorem serviceTests_power (s : State) : (serviceTests s).power = s.power := by
  unfold serviceTests
  exact foldl_power _ (fun t x => by split <;> simp) _ _

@[simp] theorem routingLost_power (s : State) : (routingLost s).power = s.power := by
  unfold routingLost
  dsimp only
  rw [foldl_power _ (fun _ _ => wr_power _ _ _)]
  rfl

@[simp] theorem powerEvent_power (s : State) (new prev : Mode) (reason source : Nat) :
    (powerEvent s new prev reason source).power = s.power := by simp [powerEvent]

end Sys2Proof.Machine


/-! # The steps of a change of mode -/

namespace Sys2Proof.Machine

open Sys2Proof

/-! ## How a step ends (R482, R484, R496) -/

/-- The change after its first step, of which the next may act at BSN `b`. -/
def changeAfter (c : Change) (b : Bsn) : Change := { c with steps := c.steps.tail, begun := true, notBefore := b }

/-- Where steps are left and the next is not D3, they wait. -/
theorem stepDone_more {s : State} {c : Change} {x y : ModeStep} {rest : List ModeStep} (h : c.steps = x :: y :: rest)
    (hy : y ≠ .d3) (b : Bsn) : stepDone s c b = { s with
      power := { s.power with change := some { c with steps := y :: rest, begun := true, notBefore := b } } } := by
  simp only [stepDone, h, List.tail_cons]
  exact if_neg hy

theorem stepDone_last {s : State} {c : Change} {x : ModeStep} (h : c.steps = [x]) (b : Bsn) :
    stepDone s c b = completeChange s (changeAfter c b) := by
  simp only [stepDone, changeAfter, h, List.tail_cons]

/-- The state with the change noted as over, before its reply. -/
def changeNoted (s : State) (c : Change) : State :=
  modPower (powerEvent s s.power.mode c.start c.reason c.source) (fun p => { p with lastChange := s.bsn, change := none })

theorem completeChange_eq (s : State) (c : Change) : completeChange s c =
    actHeld (completeJob (changeNoted s c) isPowerMode .ok (modeReply (changeNoted s c) (changeNoted s c).power.mode)) := rfl

theorem actHeld_none {s : State} (h : s.power.heldWake = none) : actHeld s = s := by
  rw [actHeld, h]

theorem changeNoted_power (s : State) (c : Change) :
    (changeNoted s c).power = { s.power with lastChange := s.bsn, change := none } := by
  rw [changeNoted, modPower]
  simp only [powerEvent_power]

/-- With no wake held, the end of a change tells of it and notes it. -/
theorem completeChange_alone {s : State} (h : s.power.heldWake = none) (c : Change) :
    ∃ a b d e, completeChange s c = { s with
      spi := a, addrA := b, addrB := d, events := e, power := { s.power with lastChange := s.bsn, change := none } } := by
  obtain ⟨a, b, d, hj⟩ := completeJob_portsOnly (changeNoted s c) isPowerMode .ok
    (modeReply (changeNoted s c) (changeNoted s c).power.mode)
  have hn : changeNoted s c = { s with
      events := (changeNoted s c).events, power := { s.power with lastChange := s.bsn, change := none } } := by
    rw [← changeNoted_power s c, changeNoted, powerEvent, raise_frame]
    rfl
  refine ⟨a, b, d, (changeNoted s c).events, ?_⟩
  rw [completeChange_eq, actHeld_none (by rw [hj, changeNoted_power]; exact h), hj]
  generalize changeNoted s c = t at hn ⊢
  rw [hn]

theorem changeAfter_frame (c : Change) (b : Bsn) : (changeAfter c b).target = c.target := rfl

/-! ## What the parts of a step leave unchanged -/

/-- Only ports, events and the wake path have changed. -/
def WakeTells (s t : State) : Prop :=
  ∃ a b d e w, t = { s with spi := a, addrA := b, addrB := d, events := e, wake := w }

theorem WakeTells.refl (s : State) : WakeTells s s := ⟨_, _, _, _, _, rfl⟩

theorem WakeTells.trans {s t u : State} (h : WakeTells s t) (h' : WakeTells t u) : WakeTells s u := by
  obtain ⟨_, _, _, _, _, rfl⟩ := h
  obtain ⟨a, b, d, e, w, rfl⟩ := h'
  exact ⟨a, b, d, e, w, rfl⟩

theorem modWake_wakeTells (s : State) (f : Wake → Wake) : WakeTells s (modWake s f) := ⟨_, _, _, _, _, rfl⟩

theorem raise_wakeTells (s : State) (n p : Nat) : WakeTells s (raise s n p) := ⟨_, _, _, _, _, raise_frame s n p⟩

theorem endFetches_portsOnly (s : State) : PortsOnly s (endFetches s) := completeJobs_portsOnly _ _ _

theorem endFetches_wakeTells (s : State) : WakeTells s (endFetches s) := by
  obtain ⟨a, b, c, h⟩ := endFetches_portsOnly s
  exact ⟨a, b, c, _, _, h⟩

theorem detectionEvent_wakeTells (s : State) (w : Csn) : WakeTells s (detectionEvent s w) := by
  unfold detectionEvent
  dsimp only
  split
  · exact .refl s
  · split
    · exact .refl s
    · exact (modWake_wakeTells s _).trans (raise_wakeTells _ _ _)

theorem detectionLeft_wakeTells (s t : State) : WakeTells t (detectionLeft s t) := by
  unfold detectionLeft
  split
  · split
    · exact detectionEvent_wakeTells t _
    · exact .refl t
  · exact .refl t

theorem detUpdate_wakeTells (s : State) (again : Bool) : WakeTells s (detUpdate s again) :=
  (modWake_wakeTells s _).trans (detectionLeft_wakeTells s _)

theorem captureUpdate_wakeTells (s : State) : WakeTells s (captureUpdate s) := by
  unfold captureUpdate
  split
  · exact (modWake_wakeTells s _).trans (detUpdate_wakeTells _ _)
  · exact (modWake_wakeTells s _).trans (endFetches_wakeTells _)
  · exact .refl s

theorem pathStart_wakeTells (s : State) : WakeTells s (pathStart s) :=
  ((modWake_wakeTells s _).trans (detUpdate_wakeTells _ _)).trans (captureUpdate_wakeTells _)

theorem pathStop_wakeTells (s : State) : WakeTells s (pathStop s) :=
  ((modWake_wakeTells s _).trans (captureUpdate_wakeTells _)).trans (detUpdate_wakeTells _ _)

theorem clocksStart_wakeTells (s : State) (listen : Bool) : WakeTells s (clocksStart s listen) := by
  unfold clocksStart
  dsimp only
  exact (modWake_wakeTells _ _ |>.trans (modWake_wakeTells _ _) |>.trans (modWake_wakeTells _ _) |>.trans
    (modWake_wakeTells _ _) |>.trans (modWake_wakeTells _ _)).trans (pathStart_wakeTells _)

theorem clocksStop_wakeTells (s : State) : WakeTells s (clocksStop (pathStop s)) :=
  (pathStop_wakeTells s).trans (modWake_wakeTells _ _)

theorem clockDues_wakeTells (s : State) (listen : Bool) (b : Bsn) :
    WakeTells s (clockDue (clockDue (endFetches s) 0 listen b) 1 listen b) :=
  ((endFetches_wakeTells s).trans (modWake_wakeTells _ _)).trans (modWake_wakeTells _ _)

/-- Only ports, events and the digital ports have changed. -/
def LockTells (s t : State) : Prop :=
  ∃ a b d e p, t = { s with spi := a, addrA := b, addrB := d, events := e, dports := p }

theorem LockTells.refl (s : State) : LockTells s s := ⟨_, _, _, _, _, rfl⟩

theorem LockTells.trans {s t u : State} (h : LockTells s t) (h' : LockTells t u) : LockTells s u := by
  obtain ⟨_, _, _, _, _, rfl⟩ := h
  obtain ⟨a, b, d, e, p, rfl⟩ := h'
  exact ⟨a, b, d, e, p, rfl⟩

theorem PortsOnly.lockTells {s t : State} (h : PortsOnly s t) : LockTells s t := by
  obtain ⟨a, b, c, rfl⟩ := h
  exact ⟨a, b, c, _, _, rfl⟩

theorem enterLock_lockTells (s : State) (p : Nat) (l : LockState) : LockTells s (enterLock s p l) := by
  have hr : LockTells s (lockRaised s p l) := by
    unfold lockRaised
    dsimp only
    split
    · exact ⟨_, _, _, _, _, raise_frame _ _ _⟩
    · exact ⟨_, _, _, _, _, rfl⟩
  rw [enterLock_eq]
  split
  · exact ⟨_, _, _, _, _, rfl⟩
  split
  · exact hr.trans (completeJobs_portsOnly _ _ _).lockTells
  split
  · exact hr.trans (completeJobs_portsOnly _ _ _).lockTells
  · exact hr

theorem portsTo_lockTells (s : State) (l : LockState) : LockTells s (portsTo s l) :=
  List.foldlRecOn (motive := LockTells s) _ _ (LockTells.refl s) (fun t ht p _ => ht.trans (by
    split
    · refine LockTells.trans ?_ (enterLock_lockTells _ p l)
      split
      · exact ⟨_, _, _, _, _, rfl⟩
      · exact .refl t
    · exact .refl t))

theorem setRoot_frame (s : State) (r : RootState) :
    setRoot s r = { s with clock := (setRoot s r).clock, events := (setRoot s r).events } := by
  unfold setRoot
  dsimp only
  split
  · rfl
  · rw [raise_frame]
    rfl

theorem rootStop_frame (s : State) : rootStop s = { s with clock := (rootStop s).clock, events := (rootStop s).events } := by
  unfold rootStop
  rw [setRoot_frame]
  rfl

theorem rootStop_state (s : State) : (rootStop s).clock.state = .off := by
  rw [rootStop, setRoot_state]

theorem scanStop_frame (s : State) : scanStop s = { s with touch := (scanStop s).touch, events := (scanStop s).events } := by
  have hf : EventsOnly s ((List.range 12).foldl elRelease s) :=
    List.foldlRecOn (motive := EventsOnly s) _ _ rfl (fun t ht n _ => ht.trans (elRelease_events t n))
  unfold scanStop
  split
  · rfl
  · dsimp only
    obtain ⟨k, ev, hk⟩ := sliderRelease_only ((List.range 12).foldl elRelease s)
    rw [hk]
    generalize (List.range 12).foldl elRelease s = t at hf ⊢
    rw [hf]

theorem scanStop_scanning (s : State) : (scanStop s).touch.scanning = false := by
  unfold scanStop
  split
  · rename_i h
    simpa using h
  · rfl

/-- What SRAM loses with its supply, besides the replies to those that wait for it. -/
theorem sramLost_frame (s : State) : ∃ a b d g h p, sramLost s = { s with
    spi := a, addrA := b, addrB := d, graph := g, health := h, params := p, sramClean := false,
    power := { s.power with sramOn := false } } := by
  obtain ⟨a, b, d, hj⟩ := completeJobs_portsOnly s (slotJob s.graph.act) (fun _ => (.state, []))
  unfold sramLost
  dsimp only
  rw [hj]
  exact ⟨_, _, _, _, _, _, rfl⟩

@[simp] theorem sramLost_power (s : State) : (sramLost s).power = { s.power with sramOn := false } := by
  obtain ⟨_, _, _, _, _, _, h⟩ := sramLost_frame s
  rw [h]

theorem crystalStop_power (s : State) : (crystalStop s).power = s.power := by simp [crystalStop]

theorem classifyStart_frame (s : State) : classifyStart s = { s with analog := (classifyStart s).analog } := by
  unfold classifyStart
  split
  · rw [biasUpdate_frame]
    rfl
  · rfl

/-! ## Going down (R476, R478, R481) -/

/-- A channel that starts or plays begins its stop. -/
def d1Chan (u : State) (c : Nat) (x : Chan) : Chan :=
  if x.state = .starting ∨ x.state = .play then
    let early := x.state == .starting && decide (seqAge u x < seqS (isSe u c))
    { x with
      state := .stopping, seqBsn := u.bsn, seqFrame := frameOf u + 0,
      seqSkip := if early then seqE (isSe u c) (stopMs u c) else 0, seqMs := stopMs u c,
      ramp := if early then Ramp.zero else rampDown x.ramp (96 * stopMs u c) u.bsn (frameOf u + 0), stopTo := .off,
      dcLp := 0, dcRun := 0 }
  else x

/-- What D1 does to one channel. -/
def d1Stop (u : State) (c : Nat) : State :=
  match (chan u c).state with
  | .starting | .play => beginStop u c (stopMs u c) 0 .off
  | _ => u

theorem modChan_chan_self (u : State) (c : Nat) (f : Chan → Chan) (h : f (chan u c) = chan u c) : modChan u c f = u := by
  have ha : modAt u.stage.chans c f = u.stage.chans := by
    rw [modAt_agree (d := {}) (g := id) (by exact h)]
    simp [modAt]
  rw [modChan, ha]

theorem d1Stop_eq {u t : State} (h : t = { u with stage := t.stage }) (c : Nat) :
    d1Stop t c = modChan t c (d1Chan u c) := by
  generalize t.stage = st at h
  subst h
  by_cases hr : (chan { u with stage := st } c).state = .starting ∨ (chan { u with stage := st } c).state = .play
  · have hd : d1Stop { u with stage := st } c = beginStop { u with stage := st } c (stopMs u c) 0 .off := by
      rcases hr with hr | hr <;> simp only [d1Stop, hr] <;> rfl
    rw [hd]
    refine congrArg (fun l => { u with stage := { st with chans := l } }) (modAt_agree (d := {}) ?_)
    exact (if_pos hr).symm
  · rw [modChan_chan_self _ c (d1Chan u c) (if_neg hr), d1Stop]
    obtain ⟨h1, h2⟩ := not_or.mp hr
    split
    · contradiction
    · contradiction
    · rfl

theorem d1Stops_eq (u : State) (l : List Nat) :
    ∀ t : State, t = { u with stage := t.stage } → l.foldl d1Stop t = modEach l (d1Chan u) t := by
  induction l with
  | nil => exact fun t _ => rfl
  | cons c l ih =>
    intro t h
    rw [List.foldl_cons, d1Stop_eq h]
    exact ih _ (by rw [modChan]; generalize t.stage = st at h ⊢; rw [h])

/-- The outputs that are live power down. -/
def d1Outputs (t : State) : State :=
  let t := modHp t (fun o => if outLive o then hpDown t (outN (rd t .hpCfg)) o else { o with again := false })
  modLo t (fun o => if outLive o then loDown t (outN (rd t .loCfg)) o else { o with again := false })

theorem d1Act_eq (s : State) : d1Act s = d1Outputs ((List.range 32).foldl d1Stop (sweepLeave s)) := rfl

theorem d1Outputs_hp {t : State} (h : outLive t.analog.hp = true) : (d1Outputs t).analog.hp.state = .powerDown := by
  have hp : (d1Outputs t).analog.hp = hpDown t (outN (rd t .hpCfg)) t.analog.hp := if_pos h
  rw [hp, hpDown]
  split <;> rfl

theorem d1Outputs_lo {t : State} (h : outLive t.analog.lo = true) : (d1Outputs t).analog.lo.state = .powerDown := by
  have hp : (d1Outputs t).analog.lo = loDown (modHp t (fun o => if outLive o then hpDown t (outN (rd t .hpCfg)) o
      else { o with again := false })) (outN (rd t .loCfg)) t.analog.lo := if_pos h
  rw [hp, loDown]
  split <;> rfl

theorem completeJob_analog (s : State) (f : Job → Bool) (st : Status) (payload : List Byte) :
    (completeJob s f st payload).analog = s.analog := by
  obtain ⟨a, b, d, h⟩ := completeJob_portsOnly s f st payload
  rw [h]

theorem sweepFinish_analog (s : State) (b : Bsn) : (sweepFinish s b).analog = s.analog := by
  rw [sweepFinish_eq, completeJob_analog, raise_analog, sweepTold_events s (sweepChans s b), sweepChans_frame]

theorem sweepCut_analog (s : State) (code : Nat) : (sweepCut s code).analog = s.analog := by
  unfold sweepCut
  split <;> rfl

theorem sweepLeave_analog (s : State) : (sweepLeave s).analog = s.analog := by
  unfold sweepLeave
  split
  · rfl
  · rw [sweepDrop, completeJob_analog]
    rfl
  · rw [sweepFinish_analog]
    exact sweepCut_analog s 8

theorem modeD1_more {s u : State} {c : Change} {x : ModeStep} {rest : List ModeStep} (h : changeDue s .d1 = some c)
    (hc : c.steps = .d1 :: x :: rest) (hx : x ≠ .d3) (hu : u = sweepLeave s) (h32 : u.stage.chans.length = 32) :
    ∃ t, exec .modeD1 s = .next t ∧ t = { u with
        stage := t.stage, analog := t.analog,
        power := { u.power with change := some { c with steps := x :: rest, begun := true, notBefore := s.bsn } } } ∧
      (∀ k : Fin 32, ((chan u k).state = .starting ∨ (chan u k).state = .play) →
        (chan t k).state = .stopping ∧ (chan t k).stopTo = .off ∧ (chan t k).seqMs = stopMs u k) ∧
      (∀ k : Fin 32, (chan u k).state ≠ .starting → (chan u k).state ≠ .play → chan t k = chan u k) ∧
      (outLive s.analog.hp = true → t.analog.hp.state = .powerDown) ∧
      (outLive s.analog.lo = true → t.analog.lo.state = .powerDown) := by
  have hf := modEach_frame (List.range 32) (d1Chan u) u
  have ht : d1Act s = d1Outputs (modEach (List.range 32) (d1Chan u) u) := by
    rw [d1Act_eq, ← hu, d1Stops_eq u _ u rfl]
  have hchan (k : Fin 32) : chan (modEach (List.range 32) (d1Chan u) u) k = d1Chan u k (chan u k) := by
    rw [chan_modEach (fun c hc => by rw [h32]; exact List.mem_range.mp hc) List.nodup_range,
      if_pos (List.mem_range.mpr k.isLt)]
  have ha : u.analog = s.analog := by rw [hu, sweepLeave_analog]
  generalize modEach (List.range 32) (d1Chan u) u = w at hf ht hchan
  have hw : w.analog = s.analog := by rw [hf, ← ha]
  have hhp := d1Outputs_hp (t := w)
  have hlo := d1Outputs_lo (t := w)
  rw [hw] at hhp hlo
  have hstage (k : Nat) : chan (d1Outputs w) k = chan w k := rfl
  have hframe : d1Outputs w = { u with stage := w.stage, analog := (d1Outputs w).analog } := by
    have h1 : d1Outputs w = { w with analog := (d1Outputs w).analog } := rfl
    rw [h1, hf]
  generalize d1Outputs w = v at ht hhp hlo hstage hframe
  refine ⟨{ v with power := { v.power with change := some { c with steps := x :: rest, begun := true, notBefore := s.bsn } } },
    ?_, ?_, fun k hk => ?_, fun k h1 h2 => ?_, hhp, hlo⟩
  · change execModeD1 s = _
    rw [execModeD1, h]
    dsimp only
    rw [ht, stepDone_more hc hx]
  · rw [hframe]
  · have hk' : chan v k = d1Chan u k (chan u k) := (hstage k).trans (hchan k)
    rw [d1Chan, if_pos hk] at hk'
    change (chan v k).state = _ ∧ (chan v k).stopTo = _ ∧ (chan v k).seqMs = _
    rw [hk']
    exact ⟨rfl, rfl, rfl⟩
  · have hk' : chan v k = d1Chan u k (chan u k) := (hstage k).trans (hchan k)
    rw [d1Chan, if_neg (by simp [h1, h2])] at hk'
    exact hk'

end Sys2Proof.Machine


/-! # Each step of a change of mode -/

namespace Sys2Proof.Machine

open Sys2Proof

theorem WakeTells.power {s t : State} (h : WakeTells s t) : t.power = s.power := by
  obtain ⟨_, _, _, _, _, rfl⟩ := h
  rfl

/-! ## The gate (R476, R153) -/

/-- The state with the fabric gated. -/
def gated (s : State) : State :=
  { testsGated (cancelBlock s) with
    power := { (testsGated (cancelBlock s)).power with fabricOn := false, mode := .idle } }

theorem gated_power (s : State) : (gated s).power = { s.power with fabricOn := false, mode := .idle } := by
  have h : (testsGated (cancelBlock s)).power = s.power := cancelBlock_power s
  rw [gated, h]

theorem gated_bsn (s : State) : (gated s).bsn = s.bsn := by
  change (cancelBlock s).bsn = s.bsn
  exact bsn_of_stamp (cancelBlock_stamp s)

theorem gated_block (s : State) : (gated s).drover.block = none := by
  change (cancelBlock s).drover.block = none
  unfold cancelBlock
  split
  · assumption
  · rfl

theorem execFabricGate_due {s : State} {c : Change} (h : changeDue s .gate = some c) :
    exec .fabricGate s = .next (stepDone (gated s) c (bsnNext s)) := by
  change execFabricGate s = _
  rw [execFabricGate, h]
  have hb : bsnNext (gated s) = bsnNext s := by rw [bsnNext, bsnNext, gated_bsn]
  exact congrArg (fun b => Host.Outcome.next (stepDone (gated s) c b)) hb

theorem fabricGate_last {s : State} {c : Change} (h : changeDue s .gate = some c) (hc : c.steps = [.gate])
    (hw : s.power.heldWake = none) :
    ∃ t, exec .fabricGate s = .next t ∧ t.drover.block = none ∧ t.power = { s.power with
      fabricOn := false, mode := .idle, change := none, lastChange := s.bsn } := by
  have hw' : (gated s).power.heldWake = none := by rw [gated_power]; exact hw
  obtain ⟨a, b, d, e, ht⟩ := completeChange_alone hw' (changeAfter c (bsnNext s))
  refine ⟨_, (execFabricGate_due h).trans (congrArg _ ((stepDone_last hc _).trans ht)), gated_block s, ?_⟩
  change ({ (gated s).power with lastChange := (gated s).bsn, change := none } : Power) = _
  rw [gated_power, gated_bsn]

theorem fabricGate_more {s : State} {c : Change} {rest : List ModeStep} (h : changeDue s .gate = some c)
    (hc : c.steps = .gate :: .d2 :: rest) :
    ∃ t, exec .fabricGate s = .next t ∧ t.drover.block = none ∧ t.power = { s.power with
      fabricOn := false, mode := .idle, change := some { c with
        steps := .d2 :: rest, begun := true, notBefore := s.bsn + 1#40 } } := by
  refine ⟨_, (execFabricGate_due h).trans (congrArg _ (stepDone_more hc (by decide) _)), gated_block s, ?_⟩
  change ({ (gated s).power with change := _ } : Power) = _
  rw [gated_power]
  rfl

/-! ## D2 and the swap (R478, R480) -/

theorem memStop_frame (s : State) : memStop s = { s with health := (memStop s).health } := rfl

/-- The supplies of ANA and the migration's clock go with CK_SYS at D2. -/
def d2Off (t : State) (listen : Bool) : State :=
  anaOff (modPower (memStop t) (fun p => { p with pwrEn1 := false, mode := if listen then .listen else .retain }))

theorem d2Off_frame (t : State) (listen : Bool) : d2Off t listen = { t with
    health := (memStop t).health, analog := (anaOff t).analog,
    power := { t.power with pwrEn1 := false, mode := if listen then .listen else .retain } } := rfl

/-- The state at D2 once the clocks and the scans have stopped. -/
def d2Stopped (s : State) (listen : Bool) : State := d2Off (scanStop (rootStop (portsTo s .noClock))) listen

theorem d2Stopped_tells (s : State) (listen : Bool) :
    (d2Stopped s listen).power = { s.power with pwrEn1 := false, mode := if listen then .listen else .retain } ∧
    (d2Stopped s listen).clock.state = .off ∧ (d2Stopped s listen).touch.scanning = false ∧
    (d2Stopped s listen).bsn = s.bsn := by
  have hp : (scanStop (rootStop (portsTo s .noClock))).power = s.power := by
    rw [scanStop_power, rootStop_power, portsTo_power]
  have hs := scanStop_scanning (rootStop (portsTo s .noClock))
  have hr : (scanStop (rootStop (portsTo s .noClock))).clock.state = .off := by
    rw [scanStop_frame]
    exact rootStop_state _
  have hb : (scanStop (rootStop (portsTo s .noClock))).bsn = s.bsn := by
    rw [bsn_of_stamp (scanStop_stamp _), bsn_of_stamp (rootStop_stamp _), bsn_of_stamp (portsTo_stamp _ _)]
  rw [d2Stopped, d2Off_frame]
  exact ⟨by rw [hp], hr, hs, hb⟩

/-- What the rest of D2 changes: it leaves the power state, the root's state, the scan and the BSN. -/
structure D2Tells (s t : State) : Prop where
  power : t.power = s.power
  root : t.clock.state = s.clock.state
  scanning : t.touch.scanning = s.touch.scanning
  bsn : t.bsn = s.bsn

theorem WakeTells.d2Tells {s t : State} (h : WakeTells s t) : D2Tells s t := by
  obtain ⟨_, _, _, _, _, rfl⟩ := h
  exact ⟨rfl, rfl, rfl, rfl⟩

theorem crystalStop_d2Tells (s : State) : D2Tells s (crystalStop s) := by
  obtain ⟨_, _, _, _, _, h⟩ := clocksStop_wakeTells s
  unfold crystalStop
  rw [h]
  exact ⟨rfl, rfl, rfl, rfl⟩

/-- The rest of D2: the crystal is gone, or the wake path changes clocks or stops. -/
def d2Tail (u : State) (listen : Bool) : State :=
  if u.clock.xtalFault then crystalStop u
  else if listen then clockDue (clockDue (endFetches u) 0 true (bsnNext u)) 1 true (bsnNext u) else clocksStop (pathStop u)

theorem d2Tail_tells (u : State) (listen : Bool) : D2Tells u (d2Tail u listen) := by
  unfold d2Tail
  split
  · exact crystalStop_d2Tells _
  split
  · exact (clockDues_wakeTells _ _ _).d2Tells
  · exact (clocksStop_wakeTells _).d2Tells

theorem d2Act_eq (s : State) (c : Change) : d2Act s c = d2Tail
    (if c.keepSram then d2Stopped s (c.target == .listen) else sramLost (d2Stopped s (c.target == .listen)))
    (c.target == .listen) := rfl

/-- SRAM is cut where it is not kept. -/
theorem sramKept_d2 (u : State) (keep : Bool) : (if keep then u else sramLost u).power =
    { u.power with sramOn := u.power.sramOn && keep } ∧
    (if keep then u else sramLost u).clock = u.clock ∧ (if keep then u else sramLost u).touch = u.touch ∧
    (if keep then u else sramLost u).bsn = u.bsn := by
  cases keep with
  | true => simp
  | false =>
    obtain ⟨_, _, _, _, _, _, h⟩ := sramLost_frame u
    simp [h]

theorem d2Act_tells (s : State) (c : Change) : (d2Act s c).power = { s.power with
      pwrEn1 := false, mode := if c.target = .listen then .listen else .retain, sramOn := s.power.sramOn && c.keepSram } ∧
    (d2Act s c).clock.state = .off ∧ (d2Act s c).touch.scanning = false ∧ (d2Act s c).bsn = s.bsn := by
  obtain ⟨k1, k2, k3, k4⟩ := sramKept_d2 (d2Stopped s (c.target == .listen)) c.keepSram
  obtain ⟨p, r, sc, b⟩ := d2Stopped_tells s (c.target == .listen)
  rw [d2Act_eq]
  generalize (if c.keepSram then d2Stopped s (c.target == .listen) else sramLost (d2Stopped s (c.target == .listen))) = u
    at k1 k2 k3 k4 ⊢
  obtain ⟨h1, h2, h3, h4⟩ := d2Tail_tells u (c.target == .listen)
  refine ⟨?_, by rw [h2, k2, r], by rw [h3, k3, sc], by rw [h4, k4, b]⟩
  rw [h1, k1, p]
  simp

theorem execModeD2_due {s : State} {c : Change} (h : changeDue s .d2 = some c) (hc : c.steps = [.d2]) :
    exec .modeD2 s = .next (completeChange (d2Act s c) (changeAfter c (bsnNext s))) := by
  change execModeD2 s = _
  rw [execModeD2, h]
  exact congrArg _ (stepDone_last hc _)

theorem modeD2_last {s : State} {c : Change} (h : changeDue s .d2 = some c) (hc : c.steps = [.d2])
    (hw : s.power.heldWake = none) :
    ∃ t, exec .modeD2 s = .next t ∧ t.clock.state = .off ∧ t.touch.scanning = false ∧ t.power = { s.power with
      pwrEn1 := false, mode := if c.target = .listen then .listen else .retain,
      sramOn := s.power.sramOn && c.keepSram, change := none, lastChange := s.bsn } := by
  obtain ⟨hp, hr, hs, hb⟩ := d2Act_tells s c
  obtain ⟨a, b, d, e, ht⟩ := completeChange_alone (s := d2Act s c) (by rw [hp]; exact hw) (changeAfter c (bsnNext s))
  refine ⟨_, (execModeD2_due h hc).trans (congrArg _ ht), hr, hs, ?_⟩
  change ({ (d2Act s c).power with lastChange := (d2Act s c).bsn, change := none } : Power) = _
  rw [hp, hb]

/-- The wake path after the swap. -/
def swapTail (u : State) (c : Change) : State :=
  if c.target = .listen && !u.clock.xtalFault then clocksStart u true else clocksStop (pathStop u)

theorem swapTail_wakeTells (u : State) (c : Change) : WakeTells u (swapTail u c) := by
  unfold swapTail
  split
  · exact clocksStart_wakeTells u true
  · exact clocksStop_wakeTells u

/-- The state at the swap with SRAM kept or cut. -/
def swapKept (s : State) (c : Change) : State :=
  if c.keepSram || !s.power.sramOn then modPower s (fun p => { p with mode := c.target })
  else sramLost (modPower s (fun p => { p with mode := c.target }))

theorem swapKept_tells (s : State) (c : Change) : (swapKept s c).power = { s.power with
      mode := c.target, sramOn := s.power.sramOn && c.keepSram } ∧ (swapKept s c).bsn = s.bsn := by
  unfold swapKept
  cases hk : c.keepSram with
  | true => simp [modPower]
  | false =>
    cases hs : s.power.sramOn with
    | true =>
      refine ⟨by simp [modPower], ?_⟩
      rw [if_neg (by decide)]
      exact (bsn_of_stamp (sramLost_stamp _)).trans rfl
    | false => simp [modPower, ← hs]

theorem swapAct_tells (s : State) (c : Change) : (swapAct s c).power = { s.power with
      mode := c.target, sramOn := s.power.sramOn && c.keepSram } ∧ (swapAct s c).bsn = s.bsn := by
  have h : swapAct s c = swapTail (swapKept s c) c := rfl
  obtain ⟨hp, hb⟩ := swapKept_tells s c
  have hw := (swapTail_wakeTells (swapKept s c) c).d2Tells
  rw [h, hw.power, hw.bsn]
  exact ⟨hp, hb⟩

theorem execListenRetainSwitch_due {s : State} {c : Change} (h : changeDue s .swap = some c) (hc : c.steps = [.swap]) :
    exec .listenRetainSwitch s = .next (completeChange (swapAct s c) (changeAfter c (bsnNext s))) := by
  change execListenRetainSwitch s = _
  rw [execListenRetainSwitch, h]
  exact congrArg _ (stepDone_last hc _)

theorem listenRetainSwitch_last {s : State} {c : Change} (h : changeDue s .swap = some c) (hc : c.steps = [.swap])
    (hw : s.power.heldWake = none) :
    ∃ t, exec .listenRetainSwitch s = .next t ∧ t.power = { s.power with
      mode := c.target, sramOn := s.power.sramOn && c.keepSram, change := none, lastChange := s.bsn } := by
  obtain ⟨hp, hb⟩ := swapAct_tells s c
  obtain ⟨a, b, d, e, ht⟩ := completeChange_alone (s := swapAct s c) (by rw [hp]; exact hw) (changeAfter c (bsnNext s))
  refine ⟨_, (execListenRetainSwitch_due h hc).trans (congrArg _ ht), ?_⟩
  change ({ (swapAct s c).power with lastChange := (swapAct s c).bsn, change := none } : Power) = _
  rw [hp, hb]

/-! ## D3 (R481, R484) -/

theorem shipEnter_power (s : State) : (shipEnter s).power = { s.power with
    mode := .ship, pwrEn0 := false, pwrEn1 := false, isoGate := false, sramOn := false, fabricOn := false,
    accepting := false } := by
  have h : (routingLost (sramLost (rootStop (clocksStop (pathStop s))))).power = { s.power with sramOn := false } := by
    rw [routingLost_power, sramLost_power, rootStop_power, clocksStop_power, pathStop_power]
  change ({ (routingLost (sramLost (rootStop (clocksStop (pathStop s))))).power with
    mode := .ship, pwrEn0 := false, pwrEn1 := false, isoGate := false, sramOn := false, fabricOn := false,
    accepting := false } : Power) = _
  rw [h]

theorem execModeD3_due {s : State} {c : Change} (h : changeDue s .d3 = some c) (hc : c.steps = [.d3]) :
    exec .modeD3 s = .next (completeChange (shipEnter s) (changeAfter c s.bsn)) := by
  change execModeD3 s = _
  rw [execModeD3, h]
  exact congrArg _ (stepDone_last hc _)

theorem findJobs_none {s : State} (h0 : s.spi.outstanding = []) (h1 : s.addrA.outstanding = [])
    (h2 : s.addrB.outstanding = []) (f : Job → Bool) : findJobs s f = [] := by
  simp [findJobs, allPorts, getPort, h0, h1, h2]

theorem modeD3_last {s : State} {c : Change} (h : changeDue s .d3 = some c) (hc : c.steps = [.d3])
    (hw : s.power.heldWake = none) :
    ∃ t, exec .modeD3 s = .next t ∧ t.power = { s.power with
        mode := .ship, pwrEn0 := false, pwrEn1 := false, isoGate := false, sramOn := false, fabricOn := false,
        accepting := false, change := none, lastChange := s.bsn } ∧
      t.bus.ctrlClk = false ∧ t.spi.outstanding = [] ∧ t.addrA.outstanding = [] ∧ t.addrB.outstanding = [] ∧
      t.clock.xtalOn = false ∧ t.wake.cooler = [] ∧ t.params = {} := by
  refine ⟨_, execModeD3_due h hc, ?_⟩
  have hp := shipEnter_power s
  have hb := shipEnter_bsn s
  have hbus : (shipEnter s).bus.ctrlClk = false := rfl
  have h0 : (shipEnter s).spi.outstanding = [] := rfl
  have h1 : (shipEnter s).addrA.outstanding = [] := rfl
  have h2 : (shipEnter s).addrB.outstanding = [] := rfl
  have hx : (shipEnter s).clock.xtalOn = false := rfl
  have hco : (shipEnter s).wake.cooler = [] := rfl
  have hpa : (shipEnter s).params = {} := rfl
  generalize shipEnter s = u at hp hb hbus h0 h1 h2 hx hco hpa ⊢
  have hn : completeJob (changeNoted u (changeAfter c s.bsn)) isPowerMode .ok
      (modeReply (changeNoted u (changeAfter c s.bsn)) (changeNoted u (changeAfter c s.bsn)).power.mode) =
      changeNoted u (changeAfter c s.bsn) := by
    have hf : findJobs (changeNoted u (changeAfter c s.bsn)) isPowerMode = [] := by
      refine findJobs_none ?_ ?_ ?_ _ <;> simp [changeNoted, modPower, powerEvent, h0, h1, h2]
    simp [completeJob, hf]
  rw [completeChange_eq, hn, actHeld_none (by rw [changeNoted_power, hp]; exact hw)]
  refine ⟨by rw [changeNoted_power, hp, hb], ?_⟩
  rw [changeNoted, powerEvent, raise_frame]
  exact ⟨hbus, h0, h1, h2, hx, hco, hpa⟩

theorem modeD3_woken {s : State} {c : Change} {w : Nat} (h : changeDue s .d3 = some c) (hc : c.steps = [.d3])
    (hw : s.power.heldWake = some w) (hboot : s.power.boot = .complete) (hm : bit s.power.wake.ship (w - 1) = true) :
    ∃ t, exec .modeD3 s = .next t ∧ t.record.last = 6 ∧ t.record.wakeSrc = w ∧ t.bsn = 0 ∧ t.power.boot = .held ∧
      t.power.change = none := by
  refine ⟨_, execModeD3_due h hc, ?_⟩
  have hp := shipEnter_power s
  generalize shipEnter s = u at hp ⊢
  have hj := completeJob_power (changeNoted u (changeAfter c s.bsn)) isPowerMode .ok
    (modeReply (changeNoted u (changeAfter c s.bsn)) (changeNoted u (changeAfter c s.bsn)).power.mode)
  rw [completeChange_eq]
  generalize completeJob (changeNoted u (changeAfter c s.bsn)) isPowerMode .ok
    (modeReply (changeNoted u (changeAfter c s.bsn)) (changeNoted u (changeAfter c s.bsn)).power.mode) = v at hj ⊢
  rw [changeNoted_power, hp] at hj
  have hv : actHeld v = shipExit w (modPower v (fun p => { p with heldWake := none })) := by
    have h1 : v.power.heldWake = some w := by rw [hj]; exact hw
    have h2 : modeLow v = false := by rw [modeLow, hj]; rfl
    have h3 : inShip (modPower v (fun p => { p with heldWake := none })) = true := by
      simp [inShip, shipMode, modPower, hj, hboot]
    have h4 : bit (modPower v (fun p => { p with heldWake := none })).power.wake.ship (w - 1) = true := by
      rw [modPower, hj]
      exact hm
    simp only [actHeld, h1, h2, h3, h4, Bool.false_and, Bool.false_eq_true, if_false, if_true]
  rw [hv]
  exact ⟨rfl, rfl, rfl, rfl, rfl⟩

end Sys2Proof.Machine


/-! # Going up: A1 and A2 -/

namespace Sys2Proof.Machine

open Sys2Proof

/-! ## A1 (R479) -/

/-- The state with SRAM initialised and the control clock on, before the ports and units start. -/
def a1Ready (s : State) : State :=
  { modPower (memStart (sramInit s)) (fun p => { p with mode := .idle }) with
    bus := { (sramInit s).bus with ctrlClk := true, ctrlStart := false } }

theorem sramInit_power (s : State) : (sramInit s).power = { s.power with sramOn := true } := by
  unfold sramInit
  split
  · rename_i h
    rw [← h]
  · rfl

theorem a1Ready_power (s : State) : (a1Ready s).power = { s.power with sramOn := true, mode := .idle } := by
  change ({ (sramInit s).power with mode := .idle } : Power) = _
  rw [sramInit_power]

theorem sysStart_eq (s : State) : sysStart s = classifyStart (biasUpdate (scanStart (portsTo (a1Ready s) .acquire))) := rfl

/-- What CK_SYS's start leaves: the power state of A1, the control clock on and the scan running. -/
theorem sysStart_tells (s : State) : (sysStart s).power = { s.power with sramOn := true, mode := .idle } ∧
    (sysStart s).bus.ctrlClk = true ∧ (sysStart s).touch.scanning = true := by
  have hp := a1Ready_power s
  have hb : (a1Ready s).bus.ctrlClk = true := rfl
  rw [sysStart_eq, classifyStart_frame, biasUpdate_frame]
  generalize a1Ready s = t at hp hb ⊢
  obtain ⟨_, _, _, _, _, h⟩ := portsTo_lockTells t .acquire
  rw [h]
  exact ⟨hp, hb, rfl⟩

/-- The wake path at A1: out of LISTEN its clocks change, else they start. -/
def a1Tail (s u : State) : State :=
  if s.power.mode = .listen then clockDue (clockDue (endFetches u) 0 false s.bsn) 1 false s.bsn else clocksStart u false

theorem a1Tail_wakeTells (s u : State) : WakeTells u (a1Tail s u) := by
  unfold a1Tail
  split
  · exact clockDues_wakeTells u false s.bsn
  · exact clocksStart_wakeTells u false

theorem execIdleReached_due {s : State} {c : Change} (h : changeDue s .a1 = some c) :
    exec .idleReached s = .next (stepDone (a1Tail s (sysStart s)) c (bsnNext s)) := by
  change execIdleReached s = _
  rw [execIdleReached, h]
  unfold a1Tail
  simp only [beq_iff_eq]

theorem idleReached_last {s : State} {c : Change} (h : changeDue s .a1 = some c) (hc : c.steps = [.a1])
    (hw : s.power.heldWake = none) :
    ∃ t, exec .idleReached s = .next t ∧ t.bus.ctrlClk = true ∧ t.touch.scanning = true ∧ t.power = { s.power with
      mode := .idle, sramOn := true, change := none, lastChange := s.bsn } := by
  obtain ⟨hp, hb, hs⟩ := sysStart_tells s
  have hbsn := sysStart_bsn s
  refine ⟨_, execIdleReached_due h, ?_⟩
  rw [stepDone_last hc]
  generalize sysStart s = u at hp hb hs hbsn ⊢
  obtain ⟨_, _, _, _, _, hu⟩ := a1Tail_wakeTells s u
  obtain ⟨_, _, _, _, ht⟩ := completeChange_alone (s := a1Tail s u) (by rw [hu]; exact hp ▸ hw) (changeAfter c (bsnNext s))
  rw [ht, hu]
  exact ⟨hb, hs, by rw [hp, hbsn]⟩

/-! ## A2 (R477) -/

theorem a2Act_power (s : State) : (a2Act s).power = { s.power with fabricOn := true, mode := .active, firstA2 := false } := by
  simp [a2Act, modPower]

theorem fabricUngated_power (s : State) : (testsUngated (a2Act s)).power =
    { s.power with fabricOn := true, mode := .active, firstA2 := false } := by
  rw [testsUngated, serviceTests_power, modHealth_power, a2Act_power]

theorem fabricUngate_last {s : State} {c : Change} (h : changeDue s .a2 = some c) (hc : c.steps = [.a2])
    (hw : s.power.heldWake = none) :
    ∃ t, exec .fabricUngate s = .next t ∧ t.power = { s.power with
      mode := .active, fabricOn := true, firstA2 := false, change := none, lastChange := s.bsn } := by
  have hp := fabricUngated_power s
  have hb : (testsUngated (a2Act s)).bsn = s.bsn := by
    rw [bsn_of_stamp (testsUngated_stamp _), a2Act_bsn]
  refine ⟨stepDone (testsUngated (a2Act s)) c (bsnNext s), ?_, ?_⟩
  · change execFabricUngate s = _
    rw [execFabricUngate, h]
  rw [stepDone_last hc]
  generalize testsUngated (a2Act s) = u at hp hb ⊢
  obtain ⟨_, _, _, _, ht⟩ := completeChange_alone (s := u) (by rw [hp]; exact hw) (changeAfter c (bsnNext s))
  rw [ht]
  change ({ u.power with lastChange := u.bsn, change := none } : Power) = _
  rw [hp, hb]

/-! ## All the steps -/

/-- Settles O56: each row is its step and `stepDone`; a step that leaves others waits (`stepDone_more`), the last one ends the
change (`completeChange_alone`), and what the parts of a step leave of the power state is stated once for each part. -/
theorem modeRowsAct : Obligations.ModeRowsAct := by
  unfold Obligations.ModeRowsAct
  intro s
  refine ⟨fun c h => ?_, fun c h => execFabricGate_due h, fun c h => ?_, fun c h => ?_, fun c h => ?_, fun c h => ?_,
    fun c h => execIdleReached_due h, fun c x rest u h hc hx hu h32 => modeD1_more h hc hx hu h32,
    fun c h hc hw => fabricGate_last h hc hw, fun c rest h hc => fabricGate_more h hc, fun c h hc hw => modeD2_last h hc hw,
    fun c h hc hw => modeD3_last h hc hw, fun c w h hc hw hb hm => modeD3_woken h hc hw hb hm,
    fun c h hc hw => idleReached_last h hc hw, fun c h hc hw => fabricUngate_last h hc hw,
    fun c h hc hw => listenRetainSwitch_last h hc hw, fun h => ?_, fun h => ?_, fun h => ?_, fun h => ?_, fun h => ?_,
    fun h => ?_, fun h => ?_⟩
  · change execModeD1 s = _
    rw [execModeD1, h]
  · change execModeD2 s = _
    rw [execModeD2, h]
  · change execModeD3 s = _
    rw [execModeD3, h]
  · change execListenRetainSwitch s = _
    rw [execListenRetainSwitch, h]
  · change execFabricUngate s = _
    rw [execFabricUngate, h]
  · change execModeD1 s = _
    rw [execModeD1, h]
  · change execFabricGate s = _
    rw [execFabricGate, h]
  · change execModeD2 s = _
    rw [execModeD2, h]
  · change execModeD3 s = _
    rw [execModeD3, h]
  · change execIdleReached s = _
    rw [execIdleReached, h]
  · change execFabricUngate s = _
    rw [execFabricUngate, h]
  · change execListenRetainSwitch s = _
    rw [execListenRetainSwitch, h]

end Sys2Proof.Machine


/-! # The boot (R485, R486, R491) -/

namespace Sys2Proof.Machine

open Sys2Proof

/-! ## What a boot applies leaves the generation in force and the root -/

/-- The generation applied and the root's state are as before. -/
structure BootKeeps (s t : State) : Prop where
  applied : t.otp.applied = s.otp.applied
  root : t.clock.state = s.clock.state

theorem BootKeeps.refl (s : State) : BootKeeps s s := ⟨rfl, rfl⟩

theorem BootKeeps.trans {s t u : State} (h : BootKeeps s t) (h' : BootKeeps t u) : BootKeeps s u :=
  ⟨h'.applied.trans h.applied, h'.root.trans h.root⟩

theorem foldl_bootKeeps {α : Type} (f : State → α → State) (h : ∀ s x, BootKeeps s (f s x)) (l : List α) (s : State) :
    BootKeeps s (l.foldl f s) :=
  List.foldlRecOn (motive := BootKeeps s) l f (BootKeeps.refl s) (fun t ht x _ => ht.trans (h t x))

theorem applyLogEntry_bootKeeps (s : State) (w : Nat) : BootKeeps s (applyLogEntry s w) := by
  unfold applyLogEntry
  dsimp only
  split
  · split <;> exact ⟨rfl, rfl⟩
  split
  · split <;> exact ⟨rfl, rfl⟩
  · split <;> exact ⟨rfl, rfl⟩
  · split <;> exact ⟨rfl, rfl⟩
  all_goals exact ⟨rfl, rfl⟩

theorem applyFactory_bootKeeps (s : State) : BootKeeps s (applyFactory s) := by
  unfold applyFactory
  dsimp only
  split
  · exact .refl s
  · exact foldl_bootKeeps _ (fun t (w : Word) => applyLogEntry_bootKeeps t w.toNat) _ s

theorem applyLog_bootKeeps (s : State) : BootKeeps s (applyLog s) := foldl_bootKeeps _ applyLogEntry_bootKeeps _ s

theorem countGroup_bootKeeps (s : State) (b : Nat) (ok : Bool) : BootKeeps s (countGroup s b ok) := by
  unfold countGroup
  split
  · exact .refl s
  split <;> exact ⟨rfl, rfl⟩

theorem applyGroup_bootKeeps (s : State) (b : Nat) (ok : Bool) {f : State → State} (h : BootKeeps s (f s)) :
    BootKeeps s (applyGroup s b ok f) := by
  refine BootKeeps.trans ?_ (countGroup_bootKeeps _ b ok)
  split
  · exact h
  · exact .refl s

theorem applyBootGroup_bootKeeps (s : State) : BootKeeps s (applyBootGroup s) := by
  unfold applyBootGroup
  dsimp only
  refine applyGroup_bootKeeps s _ _ ?_
  exact ⟨rfl, rfl⟩

theorem applyWakeGroup_bootKeeps (s : State) : BootKeeps s (applyWakeGroup s) := by
  unfold applyWakeGroup
  dsimp only
  refine applyGroup_bootKeeps s _ _ ?_
  exact ⟨rfl, rfl⟩

theorem PortsOnly.bootKeeps {s t : State} (h : PortsOnly s t) : BootKeeps s t := by
  obtain ⟨_, _, _, rfl⟩ := h
  exact ⟨rfl, rfl⟩

theorem setClasses_bootKeeps (s : State) (cs : List Nat) : BootKeeps s (setClasses s cs) :=
  foldl_bootKeeps _ (fun t p => (modPort_portsOnly t p _).bootKeeps) _ s

theorem setBootClasses_bootKeeps (s : State) (cs : List Nat) : BootKeeps s (setBootClasses s cs) :=
  foldl_bootKeeps _ (fun t p => (modPort_portsOnly t p _).bootKeeps) _ s

theorem applyClassGroup_bootKeeps (s : State) : BootKeeps s (applyClassGroup s) := by
  unfold applyClassGroup
  dsimp only
  refine BootKeeps.trans ?_ (setBootClasses_bootKeeps _ _)
  refine BootKeeps.trans ?_ (setClasses_bootKeeps _ _)
  refine BootKeeps.trans (t := { s with otp := { s.otp with locks := bootLocks s.otp } }) ⟨rfl, rfl⟩ ?_
  refine applyGroup_bootKeeps _ _ _ ?_
  exact ⟨rfl, rfl⟩

theorem twInForce_bootKeeps (s : State) : BootKeeps s (twInForce s) := ⟨rfl, rfl⟩

theorem memberUpdate_bootKeeps (s : State) : BootKeeps s (memberUpdate s) := ⟨rfl, rfl⟩

theorem applyTwoWireGroup_bootKeeps (s : State) (straps : Straps) : BootKeeps s (applyTwoWireGroup s straps) := by
  unfold applyTwoWireGroup
  dsimp only
  refine BootKeeps.trans ?_ (twInForce_bootKeeps _)
  refine BootKeeps.trans (t := setAddrs s (addrOf 0x38 straps)) ⟨rfl, rfl⟩ (applyGroup_bootKeeps _ _ _ ?_)
  exact ⟨rfl, rfl⟩

theorem applyJackGroup_bootKeeps (s : State) : BootKeeps s (applyJackGroup s) := by
  unfold applyJackGroup
  dsimp only
  refine applyGroup_bootKeeps s _ _ ?_
  exact ⟨rfl, rfl⟩

theorem applyPairGroup_bootKeeps (s : State) : BootKeeps s (applyPairGroup s) := by
  unfold applyPairGroup
  dsimp only
  refine BootKeeps.trans ?_ (memberUpdate_bootKeeps _)
  refine applyGroup_bootKeeps s _ _ ?_
  exact ⟨rfl, rfl⟩

theorem applyDiagGroup_bootKeeps (s : State) : BootKeeps s (applyDiagGroup s) := by
  unfold applyDiagGroup
  dsimp only
  refine applyGroup_bootKeeps s _ _ (foldl_bootKeeps _ (fun t x => ?_) _ s)
  exact ⟨rfl, rfl⟩

theorem applyHealthGroup_bootKeeps (s : State) : BootKeeps s (applyHealthGroup s) := by
  unfold applyHealthGroup
  dsimp only
  refine applyGroup_bootKeeps s _ _ ?_
  exact ⟨rfl, rfl⟩

/-- The state with the generation that the boot applies. -/
def generationTaken (s : State) : State :=
  { s with otp := { s.otp with applied := bootSlot s.otp }, power := { s.power with wake := {} } }

theorem applyOtp_bootKeeps (s : State) (straps : Straps) : BootKeeps (generationTaken s) (applyOtp s straps) := by
  unfold applyOtp
  dsimp only
  change BootKeeps (generationTaken s) (applyHealthGroup (applyDiagGroup (applyPairGroup (applyJackGroup (applyTwoWireGroup
    (applyClassGroup (applyWakeGroup (applyBootGroup (applyLog (applyFactory (generationTaken s)))))) straps)))))
  generalize generationTaken s = t
  exact (applyFactory_bootKeeps t).trans (applyLog_bootKeeps _) |>.trans (applyBootGroup_bootKeeps _)
    |>.trans (applyWakeGroup_bootKeeps _) |>.trans (applyClassGroup_bootKeeps _)
    |>.trans (applyTwoWireGroup_bootKeeps _ straps) |>.trans (applyJackGroup_bootKeeps _)
    |>.trans (applyPairGroup_bootKeeps _) |>.trans (applyDiagGroup_bootKeeps _) |>.trans (applyHealthGroup_bootKeeps _)

/-! ## CORE_RELEASE (R485, C) -/

/-- The state at C with what the OTP gives. -/
def coreReleased (t : State) (pressed : List Bool) : State :=
  a1Begin (modPower { bootKeys t pressed with diag := { t.diag with bootDue := t.power.bootDiag } }
    (fun p => { p with boot := .released }))

theorem rootStart_frame (s : State) : rootStart s = { s with clock := (rootStart s).clock } := by
  unfold rootStart
  split <;> rfl

theorem coreReleased_frame (t : State) (pressed : List Bool) : coreReleased t pressed = { bootKeys t pressed with
    diag := { t.diag with bootDue := t.power.bootDiag }, power := { t.power with boot := .released, pwrEn1 := true },
    clock := (coreReleased t pressed).clock } := rootStart_frame _

theorem coreReleased_phase {t : State} (h : t.clock.state = .off) (pressed : List Bool) :
    (coreReleased t pressed).clock.phase = .waitSafe := by
  unfold coreReleased a1Begin rootStart
  rw [if_pos (by exact h)]
  rfl

theorem execCoreRelease_started {s : State} (straps : Straps) (pressed : List Bool) (h : s.power.boot = .started)
    (hx : s.clock.xtalFault = false) :
    exec (.coreRelease straps pressed) s = .next (coreReleased (applyOtp s straps) pressed) := by
  change execCoreRelease straps pressed s = _
  unfold execCoreRelease
  rw [if_neg (by simp [h, hx])]
  rfl

/-! ## BOOT_COMPLETE (R485, R482) -/

theorem detectionEvent_pathOn (s : State) (w : Csn) : (detectionEvent s w).wake.pathOn = s.wake.pathOn := by
  unfold detectionEvent
  dsimp only
  split
  · rfl
  split
  · rfl
  · rw [raise_wake]
    rfl

theorem detectionLeft_pathOn (s t : State) : (detectionLeft s t).wake.pathOn = t.wake.pathOn := by
  unfold detectionLeft
  split
  · split
    · exact detectionEvent_pathOn t _
    · rfl
  · rfl

theorem detUpdate_pathOn (s : State) (again : Bool) : (detUpdate s again).wake.pathOn = s.wake.pathOn :=
  detectionLeft_pathOn s _

theorem endFetches_wake (s : State) : (endFetches s).wake = s.wake := by
  obtain ⟨_, _, _, h⟩ := endFetches_portsOnly s
  rw [h]

theorem captureUpdate_pathOn (s : State) : (captureUpdate s).wake.pathOn = s.wake.pathOn := by
  unfold captureUpdate
  split
  · rw [detUpdate_pathOn]
    rfl
  · rw [endFetches_wake]
    rfl
  · rfl

theorem pathStart_pathOn (s : State) : (pathStart s).wake.pathOn = true := by
  unfold pathStart
  rw [captureUpdate_pathOn, detUpdate_pathOn]
  rfl

theorem clocksStart_pathOn (s : State) (listen : Bool) : (clocksStart s listen).wake.pathOn = true := pathStart_pathOn _

/-- The device is in IDLE: the boot has told of it. -/
def bootDone (s : State) : State :=
  let t := clocksStart (modPower (sysStart s) (fun p => { p with boot := .complete, accepting := true, lastChange := s.bsn }))
    false
  powerEvent t .idle .ship 3 t.power.bootWake

theorem bootDone_tells (s : State) : (bootDone s).power = { s.power with
      boot := .complete, accepting := true, lastChange := s.bsn, mode := .idle, sramOn := true } ∧
    (bootDone s).bus.ctrlClk = true ∧ (bootDone s).touch.scanning = true ∧ (bootDone s).wake.pathOn = true := by
  obtain ⟨hp, hb, hs⟩ := sysStart_tells s
  unfold bootDone
  dsimp only
  rw [powerEvent, raise_frame]
  generalize sysStart s = u at hp hb hs ⊢
  have hw := clocksStart_pathOn (modPower u (fun p => { p with boot := .complete, accepting := true, lastChange := s.bsn })) false
  obtain ⟨_, _, _, _, w, h⟩ := clocksStart_wakeTells
    (modPower u (fun p => { p with boot := .complete, accepting := true, lastChange := s.bsn })) false
  rw [h] at hw ⊢
  refine ⟨?_, hb, hs, hw⟩
  change ({ u.power with boot := .complete, accepting := true, lastChange := s.bsn } : Power) = _
  rw [hp]

theorem execBootComplete_due {s : State} (h1 : s.power.boot = .released) (h2 : s.cycle = 0) (h3 : rootRuns s = true)
    (h4 : s.clock.xtalFault = false) : exec .bootComplete s = .next (bootChange (bootDone s)) := by
  change execBootComplete s = _
  unfold execBootComplete
  rw [if_neg (by simp [h1, h2, h3, h4])]
  rfl

/-- The change that ends a boot into ACTIVE. -/
def bootA2 (s : State) : Change where
  steps := [.a2]
  target := .active
  start := .idle
  reason := 3
  source := 0
  keepSram := false
  notBefore := bsnNext s
  begun := true
  cmd := none
  replied := none
  asked := (s.bsn, s.cycle)

theorem bootChange_active {s : State} (h1 : (s.power.bootPor && s.power.porShip) = false) (h2 : s.power.bootActive = true) :
    bootChange s = { s with power := { s.power with change := some (bootA2 s) } } := by
  unfold bootChange
  dsimp only
  rw [if_neg (by simp [h1]), if_pos h2]
  rfl

/-! ## BOOT_FAIL (R485, R488) -/

theorem bootFailed_tells (s : State) : (bootFailed s).record = { s.record with bootFail := true } ∧
    (bootFailed s).clock.state = .off ∧ (bootFailed s).power = { s.power with
      mode := .ship, boot := .complete, pwrEn0 := false, pwrEn1 := false, isoGate := false, sramOn := false } := by
  have hr := rootStop_state s
  have hf := rootStop_frame s
  unfold bootFailed
  dsimp only
  generalize rootStop s = t at hr hf ⊢
  refine ⟨?_, hr, ?_⟩ <;> rw [hf]

theorem execBootFail_fails {s : State}
    (h : s.power.boot = .started ∨ s.power.boot = .thermalHold ∨ (s.power.boot = .released ∧ s.clock.state = .off)) :
    exec .bootFail s = .next (bootFailed s) := by
  change execBootFail s = _
  rcases h with h | h | ⟨h, hc⟩
  · simp only [execBootFail, h]
  · simp only [execBootFail, h]
  · simp only [execBootFail, h, hc, if_true]

/-- Settles O55: what the boot applies leaves the generation, the root and the BSN (`BootKeeps`), and each row is one update
of the state it finds. -/
theorem bootRowsAct : Obligations.BootRowsAct := by
  unfold Obligations.BootRowsAct
  intro s
  refine ⟨fun h => ?_, fun h => ?_, fun h => ?_, fun h => ?_, fun straps pressed h hx => ?_, fun straps pressed h => ?_,
    fun h1 h2 h3 h4 ha hs => ?_, fun h1 h2 h3 h4 ha hs => ?_, fun h => ?_, fun h => ?_, fun h => ?_⟩
  · change execBootStart s = _
    rw [execBootStart, if_neg (by simp [h])]
    rfl
  · change execBootStart s = _
    rw [execBootStart, if_pos h]
  · change execBootThermalRelease s = _
    rw [execBootThermalRelease, if_pos h]
    rfl
  · change execBootThermalRelease s = _
    rw [execBootThermalRelease, if_neg h]
  · refine ⟨_, execCoreRelease_started straps pressed h hx, ?_⟩
    have hk := applyOtp_bootKeeps s straps
    have hb := bsn_of_stamp (applyOtp_stamp s straps)
    generalize applyOtp s straps = t at hk hb ⊢
    have hp (hoff : s.clock.state = .off) := coreReleased_phase (hk.root.trans hoff) pressed
    have hf := coreReleased_frame t pressed
    generalize coreReleased t pressed = v at hp hf ⊢
    rw [hf]
    rw [hf] at hp
    exact ⟨rfl, rfl, hk.applied, rfl, hb, hp, rfl⟩
  · change execCoreRelease straps pressed s = _
    rw [execCoreRelease, if_pos (.inl h)]
  · refine ⟨_, execBootComplete_due h1 h2 h3 h4, ?_⟩
    obtain ⟨hp, hbus, hscan, hpath⟩ := bootDone_tells s
    have hc : bootChange (bootDone s) = bootDone s := by
      simp only [bootChange, hp, hs, ha, Bool.false_eq_true, if_false]
    rw [hc]
    exact ⟨hp, hbus, hscan, hpath⟩
  · obtain ⟨hp, -⟩ := bootDone_tells s
    have hact : (bootDone s).power.bootActive = true := by rw [hp]; exact ha
    have hship : ((bootDone s).power.bootPor && (bootDone s).power.porShip) = false := by rw [hp]; exact hs
    refine ⟨_, _, (execBootComplete_due h1 h2 h3 h4).trans (congrArg _ (bootChange_active hship hact)), rfl, rfl, rfl, ?_⟩
    change (bootDone s).power.accepting = true
    rw [hp]
  · change execBootComplete s = _
    rw [execBootComplete, if_pos (.inl h)]
  · exact ⟨_, execBootFail_fails h, bootFailed_tells s⟩
  · change execBootFail s = _
    rcases h with h | h <;> simp only [execBootFail, h]

end Sys2Proof.Machine


/-! # Wakes, the sensors, and the boundary scan -/

namespace Sys2Proof.Machine

open Sys2Proof

/-! ## Wakes (R483, R484) -/

theorem execWakeSource_eq {s u v : State} {c : Fin 7}
    (hu : u = (if c.val = 5 then chargerTo s s.power.wake.chgPol else s))
    (hv : v = (if c.val = 6 ∧ u.power.mode = .listen then { u with wake := { u.wake with srcFired := false } } else u)) :
    exec (.wakeSource c) s = .next (if wakeMasked u c then wakeAct v c else v) := by
  subst hu
  subst hv
  rfl

/-- A wake source leaves the time as it is. -/
theorem wakeSource_time {s u v : State} {c : Fin 7}
    (hu : u = (if c.val = 5 then chargerTo s s.power.wake.chgPol else s))
    (hv : v = (if c.val = 6 ∧ u.power.mode = .listen then { u with wake := { u.wake with srcFired := false } } else u)) :
    v.bsn = s.bsn ∧ v.cycle = s.cycle := by
  have h : u.stamp = s.stamp := by
    rw [hu]
    split
    · exact chargerTo_stamp s _
    · rfl
  have hv' : v.stamp = s.stamp := by
    rw [hv, ← h]
    split <;> rfl
  exact ⟨congrArg Stamp.bsn hv', congrArg Stamp.cycle hv'⟩

theorem not_inShip_of_modeLow {v : State} (h : modeLow v = true) : inShip v = false := by
  unfold modeLow at h
  unfold inShip shipMode
  cases hm : v.power.mode <;> simp_all

theorem not_inShip_of_modeHigh {v : State} (h : modeHigh v = true) : inShip v = false := by
  unfold modeHigh at h
  unfold inShip shipMode
  cases hm : v.power.mode <;> simp_all

/-- After a boot and outside SHIP a wake joins the one of its tick, is held, starts a change, or finds the device awake. -/
theorem wakeAct_complete {v : State} (c : Nat) (hs : inShip v = false) (hb : v.power.boot = .complete) : wakeAct v c =
    if wokenNow v then
      modPower v (fun p => { p with change := p.change.map (fun k => { k with source := min c k.source }) })
    else if v.power.change.isSome then modPower v (fun p => { p with heldWake := some (min c (p.heldWake.getD c)) })
    else if modeLow v then
      if v.clock.xtalFault then modPower v (fun p => { p with heldWake := some (min c (p.heldWake.getD c)) })
      else startChange v v.power.wake.target 2 c false none
    else v := by
  unfold wakeAct
  dsimp only
  rw [if_neg (by simp [hs]), if_neg (by simp [hb]), if_neg (by simp [hb])]

theorem wokenNow_none {v : State} (h : v.power.change = none) : wokenNow v = false := by
  simp only [wokenNow, h]

theorem wakeAct_idle {v : State} (c : Nat) (hs : inShip v = false) (hb : v.power.boot = .complete)
    (hc : v.power.change = none) : wakeAct v c =
    if modeLow v then
      if v.clock.xtalFault then modPower v (fun p => { p with heldWake := some (min c (p.heldWake.getD c)) })
      else startChange v v.power.wake.target 2 c false none
    else v := by
  rw [wakeAct_complete c hs hb, if_neg (by simp [wokenNow_none hc]), if_neg (by simp [hc])]

/-- The change that a wake starts in RETAIN and LISTEN. -/
def wakeChange (v : State) (steps : List ModeStep) (c : Nat) : Change where
  steps := steps
  target := v.power.wake.target
  start := v.power.mode
  reason := 2
  source := c
  keepSram := false
  notBefore := bsnNext v
  begun := true
  cmd := none
  replied := none
  asked := (v.bsn, v.cycle)

theorem startChange_up {v : State} {rest : List ModeStep}
    (h : changeSteps v.power.mode v.power.wake.target = .a1 :: rest) (c : Nat) :
    startChange v v.power.wake.target 2 c false none =
      a1Begin (modPower v (fun p => { p with change := some (wakeChange v (.a1 :: rest) c) })) := by
  unfold startChange
  dsimp only
  rw [h]
  rfl

/-- A wake's change begins with A1: PWR_EN1 rises, and a stopped root waits for its rails. -/
theorem startChange_up_tells {v : State} {rest : List ModeStep}
    (h : changeSteps v.power.mode v.power.wake.target = .a1 :: rest) (c : Nat) :
    startChange v v.power.wake.target 2 c false none = { v with
      power := { v.power with pwrEn1 := true, change := some (wakeChange v (.a1 :: rest) c) },
      clock := (startChange v v.power.wake.target 2 c false none).clock } ∧
    (v.clock.state = .off → (startChange v v.power.wake.target 2 c false none).clock.phase = .waitSafe) := by
  rw [startChange_up h]
  refine ⟨?_, fun hoff => ?_⟩
  · unfold a1Begin
    rw [rootStart_frame]
    rfl
  · unfold a1Begin rootStart
    rw [if_pos (by exact hoff)]
    rfl

theorem changeSteps_low_active {v : State} (h : modeLow v = true) : changeSteps v.power.mode .active = [.a1, .a2] := by
  unfold modeLow at h
  cases hm : v.power.mode <;> simp_all [changeSteps]

theorem changeSteps_low_idle {v : State} (h : modeLow v = true) : changeSteps v.power.mode .idle = [.a1] := by
  unfold modeLow at h
  cases hm : v.power.mode <;> simp_all [changeSteps]

/-! ## The charger and the core die (R482) -/

theorem chargerTo_ne {s : State} {level : Bool} (h : s.power.charger ≠ some level) : chargerTo s level =
    if modeHigh s then powerEvent { s with power := { s.power with charger := some level } } s.power.mode s.power.mode 5 0
    else { s with power := { s.power with charger := some level } } := by
  unfold chargerTo
  rw [if_neg h]
  rfl

/-- EV127 that carries the present mode twice. -/
theorem powerEvent_same (s : State) (m : Mode) (reason : Nat) : powerEvent s m m reason 0 =
    raise s 127 (modeCode m * 17 + reason * 256 + ofSigned 16 s.power.coreTemp * 65536) := by
  unfold powerEvent
  congr 1
  omega

/-- Settles O57: a wake source acts as the state it finds says (`wakeAct_complete`), and the sensors' rows are one update and
one event. -/
theorem wakeAndSensorRowsAct : Obligations.WakeAndSensorRowsAct := by
  unfold Obligations.WakeAndSensorRowsAct
  intro s
  refine ⟨fun c u v hu hv => ?_, fun level h => ?_, fun level h hm => ?_, fun level h hm => ?_,
    fun temp h1 h2 h3 h4 => ?_, fun temp h => ?_, fun n h1 h2 => ?_, fun n h => ?_⟩
  · have he := execWakeSource_eq hu hv
    obtain ⟨hb, hcy⟩ := wakeSource_time hu hv
    have hon (hm : wakeMasked u c = true) : exec (.wakeSource c) s = .next (wakeAct v c) := by rw [he, hm]; rfl
    refine ⟨fun hm => by rw [he, hm]; rfl, fun hm hs => ⟨shipExit c v, ?_, rfl, rfl, rfl⟩,
      fun k hm hbo hk hr hka hs => ?_, fun k hm hs hbo hk hr => ?_, fun hm hs hbo hl => ?_, fun hm hs hbo hl => ?_,
      fun hm hlow hbo hch hx => ?_, fun hm hlow hbo hch hx => ?_, fun hm hlow hbo hch hx ht => ?_,
      fun hm hlow hbo hch hx ht => ?_, fun hm hhigh hbo hch => ?_⟩
    · rw [hon hm]
      unfold wakeAct
      rw [if_pos hs]
    · have hw : wokenNow v = true := by simp [wokenNow, hk, hr, hka, hb, hcy]
      rw [hon hm, wakeAct_complete c hs hbo, if_pos hw, modPower, hk]
      rfl
    · have hw : wokenNow v = false := by
        simp only [wokenNow, hk, hb, hcy]
        rcases hr with hr | hr <;> simp [hr]
      rw [hon hm, wakeAct_complete c hs hbo, if_neg (by simp [hw]), if_pos (by simp [hk])]
      rfl
    · rw [hon hm]
      unfold wakeAct
      dsimp only
      rw [if_neg (by simp [hs]), if_pos ⟨hbo, hl⟩]
    · rw [hon hm]
      unfold wakeAct
      dsimp only
      rw [if_neg (by simp [hs]), if_neg (by tauto), if_pos hbo]
    · rw [hon hm, wakeAct_idle c (not_inShip_of_modeLow hlow) hbo hch, if_pos hlow, if_pos hx]
      rfl
    · rw [hon hm, wakeAct_idle c (not_inShip_of_modeLow hlow) hbo hch, if_pos hlow, if_neg (by simp [hx])]
    · have hsteps : changeSteps v.power.mode v.power.wake.target = [.a1, .a2] := by rw [ht, changeSteps_low_active hlow]
      obtain ⟨hf, -⟩ := startChange_up_tells hsteps c
      have hrun : exec (.wakeSource c) s = .next (startChange v v.power.wake.target 2 c false none) := by
        rw [hon hm, wakeAct_idle c (not_inShip_of_modeLow hlow) hbo hch, if_pos hlow, if_neg (by simp [hx])]
      refine ⟨_, wakeChange v [.a1, .a2] c, hrun, ?_, ?_, rfl, ht, rfl, rfl, rfl⟩
      · generalize startChange v v.power.wake.target 2 c false none = t at hf ⊢
        rw [hf]
      · rw [hf]
    · have hsteps : changeSteps v.power.mode v.power.wake.target = [.a1] := by rw [ht, changeSteps_low_idle hlow]
      obtain ⟨hf, hph⟩ := startChange_up_tells hsteps c
      have hrun : exec (.wakeSource c) s = .next (startChange v v.power.wake.target 2 c false none) := by
        rw [hon hm, wakeAct_idle c (not_inShip_of_modeLow hlow) hbo hch, if_pos hlow, if_neg (by simp [hx])]
      refine ⟨_, wakeChange v [.a1] c, hrun, ?_, ?_, rfl, ht, rfl, rfl, rfl, hph⟩
      · generalize startChange v v.power.wake.target 2 c false none = t at hf ⊢
        rw [hf]
      · rw [hf]
    · have hlow : modeLow v = false := by
        unfold modeHigh at hhigh
        unfold modeLow
        cases hmo : v.power.mode <;> simp_all
      rw [hon hm, wakeAct_idle c (not_inShip_of_modeHigh hhigh) hbo hch, if_neg (by simp [hlow])]
  · change Host.Outcome.next (chargerTo s level) = _
    rw [chargerTo, if_pos h]
  · change Host.Outcome.next (chargerTo s level) = _
    rw [chargerTo_ne h, if_neg (by simp [hm])]
  · change Host.Outcome.next (chargerTo s level) = _
    rw [chargerTo_ne h, if_pos hm, powerEvent_same]
  · change execCoreTemp120 temp s = _
    unfold execCoreTemp120
    rw [if_neg (by simp [h1, h2, h3, h4])]
    exact congrArg _ (powerEvent_same _ _ 4)
  · change execCoreTemp120 temp s = _
    unfold execCoreTemp120
    rw [if_pos (by simpa [or_assoc] using h)]
  · change execShipClockMeasure n s = _
    rw [execShipClockMeasure, if_pos (by simp [h1, h2])]
    rfl
  · change execShipClockMeasure n s = _
    rw [execShipClockMeasure, if_neg (by rcases h with h | h <;> simp [h])]

/-! ## The boundary scan (R526) -/

/-- A running half-bridge channel is Hi-Z and OFF. -/
def freed (x : Chan) : Chan := if running x then hiZ .off x else x

/-- What a test instruction does to one channel. -/
def freeChan (u : State) (c : Nat) : State := if running (chan u c) then modChan u c (hiZ .off) else u

theorem freeChan_eq (u : State) (c : Nat) : freeChan u c = modChan u c freed := by
  unfold freeChan
  split
  · rename_i h
    refine congrArg (fun l => { u with stage := { u.stage with chans := l } }) (modAt_agree (d := {}) ?_)
    exact (if_pos h).symm
  · rename_i h
    exact (modChan_chan_self u c freed (if_neg h)).symm

theorem freeChans_eq (u : State) (l : List Nat) : l.foldl freeChan u = modEach l (fun _ => freed) u := by
  unfold modEach
  exact congrArg (fun f => List.foldl f u l) (funext fun t => funext fun c => freeChan_eq t c)

/-- Settles O60: EXTEST, CLAMP and HIGHZ free the channels one by one (`freeChans_eq`). -/
theorem boundaryScanActs : Obligations.BoundaryScanActs := by
  unfold Obligations.BoundaryScanActs
  intro s code k hk
  have hrun (hp : s.power.pwrEn0 = true) : exec (.testInstructionUpdate code) s =
      if !testMode { s with jtag := k } then .next { s with jtag := k }
      else .next ((List.range 16).foldl freeChan (sweepLeave { s with jtag := k })) := by
    change execTestInstructionUpdate code s = _
    unfold execTestInstructionUpdate
    rw [if_neg (by simp [hp]), hk]
    rfl
  have ht : testMode { s with jtag := k } = true ↔ k ∈ [0#4, 2#4, 3#4] := by
    simp [testMode, or_assoc]
  refine ⟨fun hp => ?_, fun hp hnot => ?_, fun u hp hin hu h32 => ?_⟩
  · change execTestInstructionUpdate code s = _
    rw [execTestInstructionUpdate, if_pos (by simp [hp])]
  · rw [hrun hp, if_pos (by rw [Bool.not_eq_true', ← Bool.not_eq_true, ht]; exact hnot)]
  · refine ⟨_, (hrun hp).trans (if_neg (by simp [ht.mpr hin])), ?_⟩
    rw [← hu, freeChans_eq]
    refine ⟨?_, fun c => ?_⟩
    · have hf := modEach_frame (List.range 16) (fun _ => freed) u
      generalize modEach (List.range 16) (fun _ => freed) u = t at hf ⊢
      rw [hf]
    · rw [chan_modEach (fun c hc => by rw [h32]; have := List.mem_range.mp hc; omega) List.nodup_range]
      by_cases hc : c.val < 16
      · rw [if_pos (List.mem_range.mpr hc), freed]
        simp only [hc, true_and]
      · rw [if_neg (by simpa using hc), if_neg (by simp [hc])]

end Sys2Proof.Machine


/-! # The Cooler's lanes (R299) -/

namespace Sys2Proof.Machine

open Sys2Proof

/-- Store a halfword, low byte first. -/
def halfPut (m : Memory) (a v : Nat) : Memory :=
  memoryWrite (memoryWrite m a (BitVec.ofNat 8 v)) (a + 1) (BitVec.ofNat 8 (v / 256))

theorem halfPut_wf (m : Memory) (a v : Nat) (h : Memory.wf m = true) : Memory.wf (halfPut m a v) = true :=
  memoryWrite_wf _ _ _ (memoryWrite_wf _ _ _ h)

theorem memoryRead_halfPut_low (m : Memory) (a v : Nat) (h : Memory.wf m = true) :
    memoryRead (halfPut m a v) a = BitVec.ofNat 8 v := by
  rw [halfPut, memoryRead_write_other _ _ _ _ (by omega), memoryRead_write_self _ _ _ h]

theorem memoryRead_halfPut_high (m : Memory) (a v : Nat) (h : Memory.wf m = true) :
    memoryRead (halfPut m a v) (a + 1) = BitVec.ofNat 8 (v / 256) := by
  rw [halfPut, memoryRead_write_self _ _ _ (memoryWrite_wf _ _ _ h)]

theorem memoryRead_halfPut_other (m : Memory) {a b : Nat} (v : Nat) (h1 : b ≠ a) (h2 : b ≠ a + 1) :
    memoryRead (halfPut m a v) b = memoryRead m b := by
  rw [halfPut, memoryRead_write_other _ _ _ _ h2, memoryRead_write_other _ _ _ _ h1]

/-- Store a list of lanes of slot `k`, with their values. -/
def lanesPut (k : Nat) (m : Memory) (l : List (Nat × Int)) : Memory :=
  l.foldl (fun m x => halfPut m ((k * 5 + x.1) * 2) (ofSigned 16 x.2)) m

theorem lanesPut_cons (k : Nat) (m : Memory) (x : Nat × Int) (l : List (Nat × Int)) :
    lanesPut k m (x :: l) = lanesPut k (halfPut m ((k * 5 + x.1) * 2) (ofSigned 16 x.2)) l := rfl

theorem lanesPut_wf (k : Nat) (l : List (Nat × Int)) (m : Memory) (h : Memory.wf m = true) :
    Memory.wf (lanesPut k m l) = true :=
  List.foldlRecOn (motive := fun m => Memory.wf m = true) l _ h (fun m hm _ _ => halfPut_wf m _ _ hm)

/-- A byte outside the lanes stays. -/
theorem memoryRead_lanesPut_other (k : Nat) (l : List (Nat × Int)) {b : Nat}
    (h : ∀ x ∈ l, b ≠ (k * 5 + x.1) * 2 ∧ b ≠ (k * 5 + x.1) * 2 + 1) (m : Memory) :
    memoryRead (lanesPut k m l) b = memoryRead m b := by
  induction l generalizing m with
  | nil => rfl
  | cons x l ih =>
    obtain ⟨h1, h2⟩ := h x List.mem_cons_self
    rw [lanesPut_cons, ih (fun y hy => h y (List.mem_cons_of_mem _ hy)), memoryRead_halfPut_other m _ h1 h2]

/-- Each lane of a list that names it once reads back. -/
theorem memoryRead_lanesPut (k : Nat) (l : List (Nat × Int)) (hnd : (l.map Prod.fst).Nodup) (m : Memory)
    (h : Memory.wf m = true) : ∀ x ∈ l,
      memoryRead (lanesPut k m l) ((k * 5 + x.1) * 2) = BitVec.ofNat 8 (ofSigned 16 x.2) ∧
      memoryRead (lanesPut k m l) ((k * 5 + x.1) * 2 + 1) = BitVec.ofNat 8 (ofSigned 16 x.2 / 256) := by
  induction l generalizing m with
  | nil => simp
  | cons y l ih =>
    obtain ⟨hy, hnd⟩ := List.nodup_cons.mp hnd
    intro x hx
    rw [lanesPut_cons]
    rcases List.mem_cons.mp hx with rfl | hx
    · have hne : ∀ z ∈ l, z.1 ≠ x.1 := fun z hz he => hy (List.mem_map.mpr ⟨z, hz, he⟩)
      rw [memoryRead_lanesPut_other k l (fun z hz => by have := hne z hz; omega),
        memoryRead_lanesPut_other k l (fun z hz => by have := hne z hz; omega)]
      exact ⟨memoryRead_halfPut_low m _ _ h, memoryRead_halfPut_high m _ _ h⟩
    · exact ih hnd _ (halfPut_wf m _ _ h) x hx

/-- The five lanes of an instant. -/
def instantLanes (s : State) (ys : List Int) (n : Csn) : List (Nat × Int) :=
  (List.range 5).map (fun l => (l, laneValue s ys l n))

theorem wakeInstant_capturing {s : State} {n : Csn} {ys : List Int}
    (hys : ys = ((List.zip (List.range 4) s.wake.beams).map (fun x => beamStep s x.1 x.2 n)).map (fun x => x.2))
    (h : s.wake.capturing = true) :
    (wakeInstant s n).wake.cooler = lanesPut (n.toNat % 32768) s.wake.cooler (instantLanes s ys n) := by
  unfold wakeInstant
  dsimp only
  rw [← hys, if_neg (by simpa [modWake] using h)]
  rfl

/-- Settles O13: the instant's lanes are five halfwords of its slot (`memoryRead_lanesPut`). -/
theorem coolerStoresItsLanes : Obligations.CoolerStoresItsLanes := by
  unfold Obligations.CoolerStoresItsLanes
  intro s n ys k hwf hk hys
  refine ⟨?_, fun hc => ?_, fun hc => ?_⟩
  · unfold wakeInstant
    dsimp only
    split <;> rfl
  · have hfst : (instantLanes s ys n).map Prod.fst = List.range 5 := rfl
    have hread := memoryRead_lanesPut k (instantLanes s ys n) (by rw [hfst]; exact List.nodup_range) s.wake.cooler hwf
    have hlane (x : Nat × Int) (hx : x ∈ instantLanes s ys n) : x.1 < 5 := by
      simpa [hfst] using List.mem_map_of_mem (f := Prod.fst) hx
    rw [wakeInstant_capturing hys hc, ← hk]
    refine ⟨fun l => ?_, fun a ha => ?_, lanesPut_wf k _ _ hwf⟩
    · obtain ⟨h1, h2⟩ := hread (l.val, laneValue s ys l n) (List.mem_map.mpr ⟨l.val, List.mem_range.mpr l.isLt, rfl⟩)
      rw [show (k * 5 + l.val) * 2 = 10 * k + 2 * l.val by omega] at h1 h2
      exact ⟨h1, h2⟩
    · exact memoryRead_lanesPut_other k _ (fun x hx => by have := hlane x hx; omega) _
  · unfold wakeInstant
    dsimp only
    rw [if_pos (by simpa [modWake] using hc)]
    rfl

end Sys2Proof.Machine


namespace Sys2Proof.Machine

open Sys2Proof

/-! ## A commit to the METER of a slot that takes over (R111, R213) -/

/-- A device whose slot 0, ARMED with one METER operator, takes over with the block that begins (R58). -/
def meterTaking : State :=
  { State.reset with
    bsn := 1
    graph := { State.reset.graph with
      slots := [{ phase := .armed, image := [(0x40, BitVec.ofNat 8 tMETER)] }, {}]
      act := some { slot := some 0, fade := false, f := 0, n := 0, falls := false } } }

/-- A change of the METER's word 2, which a commit to it clears (R111). -/
def meterChange : CommitEntry := { slot := 0, addr := 0x10000002, value := 1, interp := none }

/-- Refutes O58: a word of a slot that is not ACTIVE also notes the METER to clear where an activation lets the slot take over
with the block that begins, and the statement leaves `cleared` as it was. -/
theorem not_registerRowsAct : ¬ Obligations.RegisterRowsAct := by
  intro h
  obtain ⟨-, -, -, -, -, -, -, -, -, -, -, -, hword, -⟩ := h meterTaking
  have happly := hword meterChange (by decide +kernel) (by decide +kernel)
  have hcleared := congrArg (fun t : State => t.graph.cleared) happly
  exact absurd hcleared (by decide +kernel)

end Sys2Proof.Machine


/-! # Register writes read back (R201, R202) -/

namespace Sys2Proof.Machine

open Sys2Proof

/-! ## Numbers of the registers of a table -/

/-- The unit numbers that the tables list for the registers of ports, converters, channels and synthesizers. -/
def unitListed : Reg → Prop
  | .tpCfg n => n < 4
  | .spiCfg n => n < 2
  | .ainCfg n => n < 4
  | .micCfg n => n < 2
  | .hbCfg n => n < 16
  | .xpCfg n => n < 16
  | .auxInt n | .auxNum n | .auxDen n => n < 4
  | _ => True

theorem fieldAt_all {P : Reg → Prop} {l : List (Nat × Reg)} (hl : ∀ x ∈ l, P x.2) {f : Nat} {r : Reg}
    (h : fieldAt l f = some r) : P r := by
  obtain ⟨x, hx, rfl⟩ := Option.map_eq_some_iff.mp h
  exact hl x (List.mem_of_find?_eq_some hx)

theorem listed_of_some {x r : Reg} (h : some x = some r) (hx : unitListed x) : unitListed r := Option.some.inj h ▸ hx

theorem regSpace0_listed {u f : Nat} {r : Reg} (h : regSpace0 u f = some r) : unitListed r := by
  unfold regSpace0 at h
  split at h
  · split at h
    · rename_i r' hr
      exact listed_of_some h (fieldAt_all (by simp [unitListed]) hr)
    · split_ifs at h <;> exact listed_of_some h trivial
  · split_ifs at h
    · exact listed_of_some h trivial
    · exact listed_of_some h trivial
    · exact listed_of_some h trivial
    · exact listed_of_some h trivial
    · exact fieldAt_all (by simp [unitListed]) h
    · exact fieldAt_all (by simp [unitListed]) h

theorem regSpace2_listed {u f : Nat} {r : Reg} (h : regSpace2 u f = some r) : unitListed r := by
  unfold regSpace2 at h
  split_ifs at h <;> exact listed_of_some h trivial

theorem regSpace3_listed {u f : Nat} {r : Reg} (h : regSpace3 u f = some r) : unitListed r := by
  unfold regSpace3 at h
  dsimp only at h
  split_ifs at h with h1 h2 h3 h4 h5 h6
  · exact fieldAt_all (by simp [unitListed, h1]) h
  · exact listed_of_some h trivial
  · exact listed_of_some h trivial
  · exact fieldAt_all (by rcases h2 with rfl | rfl <;> simp [unitListed]) h
  · exact listed_of_some h trivial
  · exact fieldAt_all (by simp [unitListed]) h
  · exact listed_of_some h trivial
  · exact listed_of_some h trivial

theorem regSpace4_listed {u f : Nat} {r : Reg} (h : regSpace4 u f = some r) : unitListed r := by
  unfold regSpace4 at h
  split_ifs at h with h1 h2
  · exact fieldAt_all (by simp [unitListed, h1]) h
  · exact fieldAt_all (by rcases h2 with rfl | rfl <;> simp [unitListed]) h
  all_goals exact fieldAt_all (by simp [unitListed]) h

theorem regSpace5_listed {u f : Nat} {r : Reg} (h : regSpace5 u f = some r) : unitListed r := by
  unfold regSpace5 at h
  split_ifs at h with h1 h2
  · exact fieldAt_all (by simp [unitListed, h1]) h
  · exact fieldAt_all (by simp [unitListed]; omega) h
  · exact fieldAt_all (by simp [unitListed]) h

theorem regSpace6_listed {u f : Nat} {r : Reg} (h : regSpace6 u f = some r) : unitListed r := by
  unfold regSpace6 at h
  dsimp only at h
  split_ifs at h with h1 h2 h3
  · exact fieldAt_all (by simp [unitListed]) h
  · exact listed_of_some h trivial
  · exact listed_of_some h trivial
  · exact fieldAt_all (by simp [unitListed]; omega) h
  · exact fieldAt_all (by simp [unitListed]) h

theorem regSpace7_listed {u f : Nat} {r : Reg} (h : regSpace7 u f = some r) : unitListed r := by
  unfold regSpace7 at h
  dsimp only at h
  split_ifs at h
  · exact fieldAt_all (by simp [unitListed]) h
  · exact fieldAt_all (by simp [unitListed]) h
  · exact listed_of_some h trivial
  · exact listed_of_some h trivial
  · exact listed_of_some h trivial
  · exact listed_of_some h trivial
  · exact fieldAt_all (by simp [unitListed]) h
  · exact fieldAt_all (by simp [unitListed]) h
  · exact listed_of_some h trivial
  · exact listed_of_some h trivial

theorem regSpace8_listed {u f : Nat} {r : Reg} (h : regSpace8 u f = some r) : unitListed r := by
  unfold regSpace8 at h
  split_ifs at h <;> exact fieldAt_all (by simp [unitListed]) h

theorem regSpace9_listed {u f : Nat} {r : Reg} (h : regSpace9 u f = some r) : unitListed r := by
  unfold regSpace9 at h
  split_ifs at h <;> exact fieldAt_all (by simp [unitListed]) h

theorem paddrReg_listed {a : Nat} {r : Reg} (h : paddrReg a = some r) : unitListed r := by
  unfold paddrReg at h
  dsimp only at h
  split at h
  · exact regSpace0_listed h
  · exact regSpace2_listed h
  · exact regSpace3_listed h
  · exact regSpace4_listed h
  · exact regSpace5_listed h
  · exact regSpace6_listed h
  · exact regSpace7_listed h
  · exact regSpace8_listed h
  · exact regSpace9_listed h
  · exact absurd h (by simp)

/-! ## The writable words -/

/-- Every register but the root's counts reads as before. -/
def Stores (s t : State) : Prop := ∀ x : Reg, x.addr ≠ Reg.rootCount.addr → rd t x = rd s x

theorem Stores.refl (s : State) : Stores s s := fun _ _ => rfl

theorem Stores.trans {s t u : State} (h : Stores s t) (h' : Stores t u) : Stores s u :=
  fun x hx => (h' x hx).trans (h x hx)

theorem stores_of_regs {s t : State} (h : t.regs = s.regs) : Stores s t := by
  intro x _
  rw [rd, rd, regGet, regGet, h]

theorem Stores.ite {s t u : State} (c : Prop) [Decidable c] (h : Stores s t) (h' : Stores s u) :
    Stores s (if c then t else u) := by
  split
  · exact h
  · exact h'

theorem stores_rootCount (s : State) (hi lo k : Nat) : Stores s (addCount s .rootCount hi lo k) :=
  fun _ hx => rd_addCount_other hx hi lo k

/-- What a register reads after a write of any. -/
theorem rd_wr {s : State} (hwf : regsWf s.regs = true) (r x : Reg) {v : Nat} (hv : v < 2 ^ 32) :
    rd (wr s r v) x = if x.addr = r.addr then v else rd s x := by
  split
  · rename_i he
    have hself := rd_wr_self s r v hwf hv
    rw [rd] at hself ⊢
    rw [he]
    exact hself
  · rename_i he
    exact rd_wr_other s r x v he

/-! ## What a register's chapter does keeps the words -/

theorem refLost_stores (s : State) : Stores s (refLost s) := by
  have hcoast (f : Clock → Clock) (hi lo : Nat) : Stores s (modClock (addCount s .rootCount hi lo 1) f) :=
    (stores_rootCount s hi lo 1).trans (stores_of_regs rfl)
  unfold refLost
  dsimp only
  split
  · exact stores_of_regs rfl
  split
  · exact (hcoast _ 7 0).trans (stores_of_regs (by rw [raise_regs, setRoot_frame]))
  · exact (hcoast _ 7 0).trans (stores_of_regs (by rw [raise_regs, setRoot_frame]))
  · exact (hcoast _ 7 0).trans (stores_of_regs (by rw [raise_regs, setRoot_frame]))
  · split
    · exact (hcoast _ 7 0).trans (stores_of_regs (raise_regs _ _ _))
    · exact Stores.refl s
  · exact stores_of_regs rfl

theorem refPortCheck_stores (s : State) (p : Nat) : Stores s (refPortCheck s p) :=
  Stores.ite _ (refLost_stores s) (Stores.refl s)

theorem restartRoot_stores (s : State) : Stores s (restartRoot s) := by
  unfold restartRoot
  dsimp only
  split
  · exact Stores.refl s
  · exact (stores_rootCount s 15 8 1).trans (stores_of_regs (by rw [setRoot_frame]; rfl))

theorem portLose_regs (s : State) (p : Nat) (clockLeft : Bool) : (portLose s p clockLeft).regs = s.regs := by
  unfold portLose
  dsimp only
  split
  · rfl
  split
  · rfl
  · exact enterLock_regs s p _

theorem portRestartWord_regs (s : State) (p old : Nat) : (portRestartWord s p old).regs = s.regs := by
  unfold portRestartWord
  dsimp only
  split
  · rfl
  · rw [portLose_regs]
    rfl

theorem portStart_regs (s : State) (p : Nat) : (portStart s p).regs = s.regs := by
  rw [portStart, enterLock_regs]
  rfl

theorem applyPortCfg_stores (s : State) (p v : Nat) : Stores (wr s (portCfg p) v) (applyPortCfg s p v) := by
  refine (refPortCheck_stores _ p).trans ?_
  unfold applyPortCfg
  dsimp only
  split
  · exact Stores.refl _
  split
  · exact Stores.refl _
  · exact stores_of_regs (portStart_regs _ p)
  · exact stores_of_regs (portStop_regs _ p)
  · exact stores_of_regs (portRestartWord_regs _ p _)

theorem applyAdcCfg_regs (s : State) (a v : Nat) : (applyAdcCfg s a v).regs = (wr s (adcCfg a) v).regs := by
  unfold applyAdcCfg
  dsimp only
  generalize wr s (adcCfg a) v = t
  split_ifs <;> rfl

theorem applyMicbias_regs (s : State) (v : Nat) : (applyMicbias s v).regs = (wr s .micbiasCfg v).regs := by
  rw [applyMicbias, biasUpdate_frame]

theorem hpTryUp_regs (s : State) : (hpTryUp s).regs = s.regs := by
  unfold hpTryUp
  split <;> rfl

theorem loTryUp_regs (s : State) : (loTryUp s).regs = s.regs := by
  unfold loTryUp
  split <;> rfl

theorem applyHpCfg_regs (s : State) (v : Nat) : (applyHpCfg s v).regs = (wr s .hpCfg v).regs := by
  unfold applyHpCfg
  dsimp only
  generalize wr s .hpCfg v = t
  split_ifs
  · rw [hpTryUp_regs]
    rfl
  all_goals rfl

theorem applyLoCfg_regs (s : State) (v : Nat) : (applyLoCfg s v).regs = (wr s .loCfg v).regs := by
  unfold applyLoCfg
  dsimp only
  generalize wr s .loCfg v = t
  split_ifs
  · rw [loTryUp_regs]
    rfl
  all_goals rfl

theorem enChange_regs (s : State) (c lag : Nat) (a b : Bool) : (enChange s c lag a b).regs = s.regs := by
  unfold enChange
  split
  · rfl
  · dsimp only
    split <;> rfl

theorem applyChanCfg_regs (s : State) (c v : Nat) : (applyChanCfg s c v).regs = (wr s (chanReg c) v).regs := by
  have h := enChange_regs (wr s (chanReg c) v) c 0 (bit (rd s (chanReg c)) 0) (bit v 0)
  unfold applyChanCfg
  dsimp only
  generalize enChange (wr s (chanReg c) v) c 0 (bit (rd s (chanReg c)) 0) (bit v 0) = t at h ⊢
  rw [← h]
  split_ifs <;> rfl

theorem foldl_regs {α : Type} (f : State → α → State) (h : ∀ s x, (f s x).regs = s.regs) (l : List α) (s : State) :
    (l.foldl f s).regs = s.regs :=
  List.foldlRecOn (motive := fun t : State => t.regs = s.regs) l f rfl (fun t ht x _ => (h t x).trans ht)

theorem auxPins_regs (s : State) (a : Nat) : (auxPins s a).regs = s.regs := foldl_regs portPins (fun _ _ => rfl) _ s

theorem applyAuxCfg_regs (s : State) (a v : Nat) : (applyAuxCfg s a v).regs = (wr s (.auxCfg a) v).regs := by
  unfold applyAuxCfg
  dsimp only
  split
  · rw [auxPins_regs]
    rfl
  · rfl

theorem applySync_stores (s : State) (v : Nat) : Stores (wr s .syncCfg v) (applySync s v) :=
  Stores.ite _ (refLost_stores _) (Stores.refl _)

theorem applyPdmCfg_regs (s : State) (v : Nat) : (applyPdmCfg s v).regs = (wr s .pdmCfg v).regs := by
  unfold applyPdmCfg
  dsimp only
  refine foldl_regs _ (fun t c => ?_) _ _
  split_ifs <;> rfl

theorem wakeMoved_regs (s : State) (before : List Nat) : (wakeMoved s before).regs = s.regs := by
  unfold wakeMoved
  dsimp only
  split
  · rw [(bridgeMics_wake s _).1]
  · rfl

theorem WakeTells.regs {s t : State} (h : WakeTells s t) : t.regs = s.regs := by
  obtain ⟨_, _, _, _, _, rfl⟩ := h
  rfl

theorem recalDone_regs (s : State) : (recalDone s).regs = s.regs := by
  obtain ⟨_, _, _, h⟩ := recalDone_portsOnly s
  rw [h]

theorem elRelease_regs (s : State) (n : Nat) : (elRelease s n).regs = s.regs := by rw [elRelease_events s n]

theorem sliderLeft_regs (s : State) : (sliderLeft s).regs = s.regs := by
  obtain ⟨_, _, h⟩ := sliderLeft_only s
  rw [h]

theorem sliderRelease_regs (s : State) : (sliderRelease s).regs = s.regs := by
  obtain ⟨_, _, h⟩ := sliderRelease_only s
  rw [h]

theorem applyTchCfg_regs (s : State) (n v : Nat) : (applyTchCfg s n v).regs = (wr s (.tchCfg n) v).regs := by
  have hrel : (modEl (elRelease (wr s (.tchCfg n) v) n) n (fun _ => {})).regs = (wr s (.tchCfg n) v).regs :=
    elRelease_regs _ n
  unfold applyTchCfg
  dsimp only
  generalize modEl (elRelease (wr s (.tchCfg n) v) n) n (fun _ => {}) = u at hrel ⊢
  split_ifs
  · rfl
  · rw [recalDone_regs, sliderLeft_regs, hrel]
  · rw [recalDone_regs, hrel]
  · rfl
  · rfl

theorem portsLose_regs (l : List Nat) (t : State) :
    (l.foldl (fun u p => if portIs u p .locked then portLose u p true else u) t).regs = t.regs :=
  foldl_regs _ (fun u p => by
    split
    · exact portLose_regs u p true
    · rfl) l t

theorem applyAuxRatio_regs (s : State) (a int num den : Nat) : (applyAuxRatio s a int num den).regs =
    (wr (wr (wr s (.auxInt a) int) (.auxNum a) num) (.auxDen a) den).regs := by
  unfold applyAuxRatio
  dsimp only
  split
  · rfl
  · rw [portsLose_regs]
    rfl

/-! ## A register write -/

/-- The register takes the value, and every other writable register of the tables reads as before. -/
structure Writes (s : State) (r : Reg) (v : Nat) (t : State) : Prop where
  self : rd t r = v
  other : ∀ x : Reg, paddrReg x.addr = some x → x.access = .rw → x.addr ≠ r.addr → rd t x = rd s x

/-- A writable register of the tables is not the root's counts. -/
theorem addr_ne_rootCount {x : Reg} (hx : paddrReg x.addr = some x) (ha : x.access = .rw) :
    x.addr ≠ Reg.rootCount.addr := by
  intro he
  rw [he] at hx
  obtain rfl := Option.some.inj ((show paddrReg Reg.rootCount.addr = some .rootCount by decide).symm.trans hx)
  exact absurd ha (by decide)

theorem writes_of_stores {s t : State} (hwf : regsWf s.regs = true) {r : Reg} {v : Nat} (hv : v < 2 ^ 32)
    (hr : r.addr ≠ Reg.rootCount.addr) (h : Stores (wr s r v) t) : Writes s r v t where
  self := (h r hr).trans (rd_wr_self s r v hwf hv)
  other x hx ha he := (h x (addr_ne_rootCount hx ha)).trans (rd_wr_other s r x v he)

theorem writes_of_regs {s t : State} (hwf : regsWf s.regs = true) {r : Reg} {v : Nat} (hv : v < 2 ^ 32)
    (h : t.regs = (wr s r v).regs) : Writes s r v t := by
  have hrd (x : Reg) : rd t x = rd (wr s r v) x := by rw [rd, rd, regGet, regGet, h]
  exact ⟨(hrd r).trans (rd_wr_self s r v hwf hv), fun x _ _ he => (hrd x).trans (rd_wr_other s r x v he)⟩

/-- A register that has the value already. -/
theorem writes_same {s t : State} {r : Reg} {v : Nat} (hv : rd s r = v) (h : t.regs = s.regs) : Writes s r v t := by
  have hrd (x : Reg) : rd t x = rd s x := by rw [rd, rd, regGet, regGet, h]
  exact ⟨(hrd r).trans hv, fun x _ _ _ => hrd x⟩

theorem applyMap_writes {s : State} (hwf : regsWf s.regs = true) (output : Bool) (c : Nat) {v : Nat} (hv : v < 2 ^ 32) :
    Writes s (if output then .outMap c else .inMap c) v (applyMap s output c v) := by
  unfold applyMap
  dsimp only
  by_cases h : rd s (if output then .outMap c else .inMap c) = v
  · rw [if_pos h]
    exact writes_same h rfl
  · rw [if_neg h]
    exact writes_of_regs hwf hv rfl

theorem applyVfs_writes {s : State} (hwf : regsWf s.regs = true) (h : Nat) {v : Nat} (hv : v < 2 ^ 32) :
    Writes s (.vfs h) v (applyVfs s h v) := by
  unfold applyVfs
  dsimp only
  split
  · rename_i h
    exact writes_same h rfl
  · exact writes_of_regs hwf hv rfl

theorem applySldCfg_writes {s : State} (hwf : regsWf s.regs = true) {v : Nat} (hv : v < 2 ^ 32) :
    Writes s .sldCfg v (applySldCfg s v) := by
  unfold applySldCfg
  split
  · rename_i h
    exact writes_same h rfl
  · refine writes_of_regs hwf hv ?_
    rw [wr, wr, regSet, regSet]
    simp only [sliderRelease_regs]

/-- One word of a synthesizer's ratio is written and the others take what they have. -/
theorem applyAuxRatio_writes {s : State} (hwf : regsWf s.regs = true) (a int num den : Nat) {r : Reg} {v : Nat}
    (h1 : int < 2 ^ 32) (h2 : num < 2 ^ 32) (h3 : den < 2 ^ 32)
    (hr : r = .auxInt a ∧ v = int ∧ num = rd s (.auxNum a) ∧ den = rd s (.auxDen a) ∨
      r = .auxNum a ∧ v = num ∧ int = rd s (.auxInt a) ∧ den = rd s (.auxDen a) ∨
      r = .auxDen a ∧ v = den ∧ int = rd s (.auxInt a) ∧ num = rd s (.auxNum a)) :
    Writes s r v (applyAuxRatio s a int num den) := by
  have hrd (x : Reg) : rd (applyAuxRatio s a int num den) x =
      if x.addr = (Reg.auxDen a).addr then den else if x.addr = (Reg.auxNum a).addr then num
      else if x.addr = (Reg.auxInt a).addr then int else rd s x := by
    rw [rd, regGet, applyAuxRatio_regs, ← regGet, ← rd, rd_wr (wr_wf _ _ _ (wr_wf _ _ _ hwf)) _ _ h3,
      rd_wr (wr_wf _ _ _ hwf) _ _ h2, rd_wr hwf _ _ h1]
  have hcongr {x q : Reg} (h : x.addr = q.addr) : rd s x = rd s q := by rw [rd, rd, h]
  have hin : (Reg.auxInt a).addr ≠ (Reg.auxNum a).addr := by simp [Reg.addr]
  have hid : (Reg.auxInt a).addr ≠ (Reg.auxDen a).addr := by simp [Reg.addr]
  have hnd : (Reg.auxNum a).addr ≠ (Reg.auxDen a).addr := by simp [Reg.addr]
  rcases hr with ⟨rfl, rfl, hn, hd⟩ | ⟨rfl, rfl, hi, hd⟩ | ⟨rfl, rfl, hi, hn⟩
  · refine ⟨by rw [hrd, if_neg hid, if_neg hin, if_pos rfl], fun x _ _ hx => ?_⟩
    rw [hrd]
    split_ifs with c1 c2
    · rw [hd, hcongr c1]
    · rw [hn, hcongr c2]
    · rfl
  · refine ⟨by rw [hrd, if_neg hnd, if_pos rfl], fun x _ _ hx => ?_⟩
    rw [hrd]
    split_ifs with c1 c2
    · rw [hd, hcongr c1]
    · rw [hi, hcongr c2]
    · rfl
  · refine ⟨by rw [hrd, if_pos rfl], fun x _ _ hx => ?_⟩
    rw [hrd, if_neg hx]
    split_ifs with c1 c2
    · rw [hn, hcongr c1]
    · rw [hi, hcongr c2]
    · rfl

theorem auxWord_lt {n : Nat} (hn : n < 4) (s : State) :
    rd s (.auxInt n) < 2 ^ 32 ∧ rd s (.auxNum n) < 2 ^ 32 ∧ rd s (.auxDen n) < 2 ^ 32 := by
  have hreset : ∀ k : Fin 4, regResetAt (Reg.auxInt k).addr < 2 ^ 32 ∧ regResetAt (Reg.auxNum k).addr < 2 ^ 32 ∧
      regResetAt (Reg.auxDen k).addr < 2 ^ 32 := by decide
  obtain ⟨h1, h2, h3⟩ := hreset ⟨n, hn⟩
  exact ⟨rd_lt s _ h1, rd_lt s _ h2, rd_lt s _ h3⟩

theorem portCfg_ne_rootCount (p : Fin 7) : (portCfg p).addr ≠ Reg.rootCount.addr := by
  revert p
  decide

/-- A register's write, with all that its chapter does, stores the word and keeps the others. -/
theorem applyReg_writes {s : State} (hwf : regsWf s.regs = true) {r : Reg} (hl : unitListed r) {v : Nat}
    (hv : v < 2 ^ 32) : Writes s r v (applyReg s r v) := by
  have hport (p : Fin 7) : Writes s (portCfg p) v (applyPortCfg s p v) :=
    writes_of_stores hwf hv (portCfg_ne_rootCount p) (applyPortCfg_stores s p v)
  cases r with
  | tpCfg n =>
    have hn : n < 4 := hl
    have h := hport ⟨n, by omega⟩
    rwa [portCfg, if_pos hn] at h
  | spiCfg n =>
    have hn : n < 2 := hl
    have h := hport ⟨4 + n, by omega⟩
    rwa [portCfg, if_neg (by simp), if_pos (by simpa [Nat.add_comm] using (by omega : n + 4 < 6)),
      Nat.add_sub_cancel_left] at h
  | spoCfg => exact hport 6
  | inMap c => exact applyMap_writes hwf false c hv
  | outMap c => exact applyMap_writes hwf true c hv
  | ainCfg n =>
    have h : adcCfg n = .ainCfg n := if_pos hl
    exact writes_of_regs hwf hv ((applyAdcCfg_regs s n v).trans (by rw [h]))
  | micCfg n =>
    have h : adcCfg (4 + n) = .micCfg n := by rw [adcCfg, if_neg (by omega), Nat.add_sub_cancel_left]
    exact writes_of_regs hwf hv ((applyAdcCfg_regs s (4 + n) v).trans (by rw [h]))
  | micbiasCfg => exact writes_of_regs hwf hv (applyMicbias_regs s v)
  | hpCfg => exact writes_of_regs hwf hv (applyHpCfg_regs s v)
  | loCfg => exact writes_of_regs hwf hv (applyLoCfg_regs s v)
  | hbCfg n =>
    have h : chanReg n = .hbCfg n := if_pos hl
    exact writes_of_regs hwf hv ((applyChanCfg_regs s n v).trans (by rw [h]))
  | xpCfg n =>
    have h : chanReg (16 + n) = .xpCfg n := by rw [chanReg, if_neg (by omega), Nat.add_sub_cancel_left]
    exact writes_of_regs hwf hv ((applyChanCfg_regs s (16 + n) v).trans (by rw [h]))
  | vfs n => exact applyVfs_writes hwf n hv
  | pairCfg => exact writes_of_regs hwf hv rfl
  | auxCfg n => exact writes_of_regs hwf hv (applyAuxCfg_regs s n v)
  | auxInt n =>
    obtain ⟨-, h2, h3⟩ := auxWord_lt hl s
    exact applyAuxRatio_writes hwf n v _ _ hv h2 h3 (.inl ⟨rfl, rfl, rfl, rfl⟩)
  | auxNum n =>
    obtain ⟨h1, -, h3⟩ := auxWord_lt hl s
    exact applyAuxRatio_writes hwf n _ v _ h1 hv h3 (.inr (.inl ⟨rfl, rfl, rfl, rfl⟩))
  | auxDen n =>
    obtain ⟨h1, h2, -⟩ := auxWord_lt hl s
    exact applyAuxRatio_writes hwf n _ _ v h1 h2 hv (.inr (.inr ⟨rfl, rfl, rfl, rfl⟩))
  | syncCfg => exact writes_of_stores hwf hv (by decide) (applySync_stores s v)
  | pdmCfg => exact writes_of_regs hwf hv (applyPdmCfg_regs s v)
  | pmicCfg n => exact writes_of_regs hwf hv (wakeMoved_regs _ _)
  | beamCfg n => exact writes_of_regs hwf hv (detUpdate_wakeTells _ false).regs
  | coolerCfg => exact writes_of_regs hwf hv (captureUpdate_wakeTells _).regs
  | tchCfg n => exact writes_of_regs hwf hv (applyTchCfg_regs s n v)
  | sldCfg => exact applySldCfg_writes hwf hv
  | rootCfg => exact writes_of_stores hwf hv (by decide) (restartRoot_stores _)
  | refFreq => exact writes_of_stores hwf hv (by decide) (restartRoot_stores _)
  | _ => exact writes_of_regs hwf hv rfl

/-- Settles O12: a register write reads back and leaves the other words (`applyReg_writes`). -/
theorem registerWritesReadBack : Obligations.RegisterWritesReadBack := by
  unfold Obligations.RegisterWritesReadBack
  intro s a v r hs hon ha hrw hsp hdrv hrange hcommit hstage
  have hv : maskTo r v.toNat < 2 ^ 32 := lt_of_le_of_lt Nat.and_le_left v.isLt
  obtain ⟨hself, hother⟩ := applyReg_writes hs.regs (paddrReg_listed ha) hv
  refine ⟨applyReg s r (maskTo r v.toNat), ?_, hself, hother⟩
  change execRegisterWrite a v s = _
  unfold execRegisterWrite
  rw [ha]
  dsimp only
  rw [if_neg (by simp [hrw, hsp, hdrv]), if_pos (by simp [hrange, hcommit, hstage]), fieldStep, if_pos hon]

end Sys2Proof.Machine

namespace Sys2Proof.Machine

open Sys2Proof

/-! ## What passes a block unchanged -/

/-- The power state, the test port's instruction, the order of the commands, the reset record and the OTP's words:
what no operation of a block or of its boundary writes (R12, R22). -/
structure Fixed where
  power  : Power
  jtag   : BitVec 4
  seq    : Nat
  record : ResetRecord
  words  : List (Nat × Word)

/-- What passes a block unchanged. -/
def State.fixed (s : State) : Fixed := ⟨s.power, s.jtag, s.seq, s.record, s.otp.words⟩

/-- An update that names none of these fields keeps them. -/
@[simp] theorem fixed_update (s : State) (pending bsn cycle mapDue spi addrA addrB bus events clock dports asrc analog
    wake stage diag touch graph drover health params regs sramClean rcNow free) :
    (State.mk pending bsn cycle s.seq mapDue spi addrA addrB bus events s.power s.record s.otp clock dports asrc analog
      wake stage diag touch graph drover health params regs s.jtag sramClean rcNow free).fixed = s.fixed := by
  simp only [State.fixed]

/-- So does one that changes the OTP's state and none of its words. -/
@[simp] theorem fixed_update_otp (s : State) (pending bsn cycle mapDue spi addrA addrB bus events weak applied openGen
    groups rejected fails locks service jobs clock dports asrc analog wake stage diag touch graph drover health params
    regs sramClean rcNow free) :
    (State.mk pending bsn cycle s.seq mapDue spi addrA addrB bus events s.power s.record
      (Otp.mk s.otp.words weak applied openGen groups rejected fails locks service jobs) clock dports asrc analog wake
      stage diag touch graph drover health params regs s.jtag sramClean rcNow free).fixed = s.fixed := by
  simp only [State.fixed]

@[simp] theorem fixed_ite (c : Prop) [Decidable c] (a b : State) :
    (if c then a else b).fixed = if c then a.fixed else b.fixed := by
  split <;> rfl

/-- A fold of operations that keep these fields keeps them. -/
@[simp] theorem foldl_fixed {α : Type} (f : State → α → State) (h : ∀ s x, (f s x).fixed = s.fixed) (l : List α)
    (s : State) : (l.foldl f s).fixed = s.fixed :=
  List.foldlRecOn (motive := fun t : State => t.fixed = s.fixed) l f rfl (fun t ht x _ => (h t x).trans ht)

/-!
The operations that a block and its boundary run, in the model's order: each writes other fields, and runs operations
that do.
-/

@[simp] theorem regSet_fixed (s : State) (reset : Nat → Nat) (a v : Nat) : (regSet s reset a v).fixed = s.fixed := by
  simp [regSet]

@[simp] theorem setPort_fixed (s : State) (p : PortId) (v : Port) : (setPort s p v).fixed = s.fixed := by
  unfold setPort
  split <;> simp

@[simp] theorem modPort_fixed (s : State) (p : PortId) (f : Port → Port) : (modPort s p f).fixed = s.fixed := by
  simp [modPort]

@[simp] theorem finalReply_fixed (s : State) (p : PortId) (tag op : Byte) (st : Status) (payload : List Byte) :
    (finalReply s p tag op st payload).fixed = s.fixed := by
  simp [finalReply]

@[simp] theorem completeJob_fixed (s : State) (f : Job → Bool) (st : Status) (payload : List Byte) :
    (completeJob s f st payload).fixed = s.fixed := by
  unfold completeJob
  split <;> simp

@[simp] theorem completeJobs_fixed (s : State) (f : Job → Bool) (reply : Job → Status × List Byte) :
    (completeJobs s f reply).fixed = s.fixed := by
  simp [completeJobs]

@[simp] theorem evEnter_fixed (s : State) (r : EvRecord) : (evEnter s r).fixed = s.fixed := by
  unfold evEnter
  dsimp only
  (repeat' split) <;> simp

@[simp] theorem evQueue_fixed (s : State) (r : EvRecord) : (evQueue s r).fixed = s.fixed := by
  unfold evQueue
  dsimp only
  (repeat' split) <;> simp

@[simp] theorem drainAon_fixed (s : State) : (drainAon s).fixed = s.fixed := by simp [drainAon]

@[simp] theorem raiseAt_fixed (s : State) (num payload : Nat) (bsn : Bsn) (cycle : Nat) :
    (raiseAt s num payload bsn cycle).fixed = s.fixed := by
  simp [raiseAt]

@[simp] theorem raise_fixed (s : State) (num payload : Nat) : (raise s num payload).fixed = s.fixed := by simp [raise]

@[simp] theorem nextFree_fixed (s : State) : (nextFree s).fixed = s.fixed := by simp [nextFree]

@[simp] theorem wr_fixed (s : State) (r : Reg) (v : Nat) : (wr s r v).fixed = s.fixed := by simp [wr]

@[simp] theorem rcNote_fixed (s : State) (r : Reg) (old fresh : Nat) : (rcNote s r old fresh).fixed = s.fixed := by
  simp [rcNote]

@[simp] theorem rcUpdate_fixed (s : State) (r : Reg) (f : Nat → Nat) : (rcUpdate s r f).fixed = s.fixed := by
  simp [rcUpdate]

@[simp] theorem addCount_fixed (s : State) (r : Reg) (hi lo k : Nat) : (addCount s r hi lo k).fixed = s.fixed := by
  simp [addCount]

@[simp] theorem raisePeak_fixed (s : State) (r : Reg) (v : Nat) : (raisePeak s r v).fixed = s.fixed := by
  simp [raisePeak]

@[simp] theorem countPlaced_fixed (s : State) (p : Nat) (spilled : Bool) :
    (countPlaced s p spilled).fixed = s.fixed := by
  simp [countPlaced]

@[simp] theorem makeReady_fixed (m : Memory) (c : Nat) (s : State) (t : Task) :
    (makeReady m c s t).fixed = s.fixed := by
  unfold makeReady
  dsimp only
  (repeat' split) <;> simp

@[simp] theorem computeStart_fixed (s : State) (k : Bsn) : (computeStart s k).fixed = s.fixed := by simp [computeStart]

@[simp] theorem strayWrites_fixed (s : State) (m : Memory) (k : Bsn) (t : Task) (done fault : Bool) :
    (strayWrites s m k t done fault).fixed = s.fixed := by
  simp [strayWrites]

@[simp] theorem guardFrame_fixed (s : State) (f : Nat) : (guardFrame s f).fixed = s.fixed := by
  unfold guardFrame
  exact foldl_fixed _ (fun t k => by split <;> simp) _ _

@[simp] theorem countCycles_fixed (s : State) (r : Ready) (since : Nat) : (countCycles s r since).fixed = s.fixed := by
  simp [countCycles]

@[simp] theorem comeReady_fixed (s : State) : (comeReady s).fixed = s.fixed := by simp [comeReady]

@[simp] theorem sendReport_fixed (s : State) (r : FaultReport) (injected : Bool) (t : Option Task) :
    (sendReport s r injected t).fixed = s.fixed := by
  simp [sendReport]

@[simp] theorem strayAll_fixed (s : State) (m : Memory) (k : Bsn) : (strayAll s m k).fixed = s.fixed := by
  unfold strayAll
  exact foldl_fixed _ (fun t e => by split <;> simp) _ _

@[simp] theorem cancelBlock_fixed (s : State) : (cancelBlock s).fixed = s.fixed := by
  unfold cancelBlock
  split
  · rfl
  · simp only [fixed_update, foldl_fixed, addCount_fixed, strayAll_fixed, implies_true]

@[simp] theorem modHealth_fixed (s : State) (f : Health → Health) : (modHealth s f).fixed = s.fixed := by
  simp [modHealth]

@[simp] theorem modBank_fixed (s : State) (b : Nat) (f : Bank → Bank) : (modBank s b f).fixed = s.fixed := by
  simp [modBank]

@[simp] theorem setFlips_fixed (s : State) (b w : Nat) (l : List Nat) : (setFlips s b w l).fixed = s.fixed := by
  simp [setFlips]

@[simp] theorem poison_fixed (s : State) (b w : Nat) : (poison s b w).fixed = s.fixed := by simp [poison]

@[simp] theorem upset_fixed (s : State) (x : Nat × Nat × Nat) : (upset s x).fixed = s.fixed := by simp [upset]

@[simp] theorem setClasses_fixed (s : State) (cs : List Nat) : (setClasses s cs).fixed = s.fixed := by simp [setClasses]

@[simp] theorem setBootClasses_fixed (s : State) (cs : List Nat) : (setBootClasses s cs).fixed = s.fixed := by
  simp [setBootClasses]

@[simp] theorem dropService_fixed (s : State) : (dropService s).fixed = s.fixed := by simp [dropService]

@[simp] theorem applyLock_fixed (s : State) (cs : List Nat) (fl : Nat) : (applyLock s cs fl).fixed = s.fixed := by
  simp [applyLock]

@[simp] theorem mapChange_fixed (s : State) (due : MappingDue) : (mapChange s due).fixed = s.fixed := by
  unfold mapChange
  split <;> simp

@[simp] theorem mapApply_fixed (s : State) : (mapApply s).fixed = s.fixed := by simp [mapApply]

@[simp] theorem modClock_fixed (s : State) (f : Clock → Clock) : (modClock s f).fixed = s.fixed := by simp [modClock]

@[simp] theorem setRoot_fixed (s : State) (r : RootState) : (setRoot s r).fixed = s.fixed := by simp [setRoot]

@[simp] theorem modDport_fixed (s : State) (p : Nat) (f : DPort → DPort) : (modDport s p f).fixed = s.fixed := by
  simp [modDport]

@[simp] theorem dropHold_fixed (s : State) (p : Nat) : (dropHold s p).fixed = s.fixed := by simp [dropHold]

@[simp] theorem enterLock_fixed (s : State) (p : Nat) (l : LockState) : (enterLock s p l).fixed = s.fixed := by
  simp [enterLock]

@[simp] theorem rampPortOut_fixed (s : State) (p : Nat) : (rampPortOut s p).fixed = s.fixed := by simp [rampPortOut]

@[simp] theorem portCutoff_fixed (s : State) (p : Nat) : (portCutoff s p).fixed = s.fixed := by simp [portCutoff]

@[simp] theorem portLose_fixed (s : State) (p : Nat) (clockLeft : Bool) : (portLose s p clockLeft).fixed = s.fixed := by
  simp [portLose]

@[simp] theorem portFrame_fixed (s : State) : (portFrame s).fixed = s.fixed := by
  unfold portFrame
  exact foldl_fixed _ (fun t x => by split <;> simp) _ _

@[simp] theorem parityCheck_fixed (s : State) (p : Nat) : (parityCheck s p).fixed = s.fixed := by simp [parityCheck]

@[simp] theorem asrcRestart_fixed (s : State) : (asrcRestart s).fixed = s.fixed := by simp [asrcRestart]

@[simp] theorem takeInputs_fixed (s : State) (i : BlockInput) : (takeInputs s i).fixed = s.fixed := by simp [takeInputs]

@[simp] theorem sendPorts_fixed (s : State) (i : BlockInput) : (sendPorts s i).fixed = s.fixed := by simp [sendPorts]

@[simp] theorem countValidity_fixed (s : State) (i : BlockInput) (p : Nat) : (countValidity s i p).fixed = s.fixed := by
  unfold countValidity
  (repeat' split) <;> simp

@[simp] theorem portBlock_fixed (s : State) (i : BlockInput) : (portBlock s i).fixed = s.fixed := by simp [portBlock]

@[simp] theorem portReading_fixed (i : BlockInput) (s : State) (p : Nat) : (portReading i s p).fixed = s.fixed := by
  simp [portReading]

@[simp] theorem portReadings_fixed (s : State) (i : BlockInput) : (portReadings s i).fixed = s.fixed := by
  simp [portReadings]

@[simp] theorem modAdc_fixed (s : State) (a : Nat) (f : Adc → Adc) : (modAdc s a f).fixed = s.fixed := by simp [modAdc]

@[simp] theorem biasUpdate_fixed (s : State) : (biasUpdate s).fixed = s.fixed := by
  unfold biasUpdate
  split <;> simp

@[simp] theorem modHp_fixed (s : State) (f : Output → Output) : (modHp s f).fixed = s.fixed := by simp [modHp]

@[simp] theorem modLo_fixed (s : State) (f : Output → Output) : (modLo s f).fixed = s.fixed := by simp [modLo]

@[simp] theorem hpTryUp_fixed (s : State) : (hpTryUp s).fixed = s.fixed := by simp [hpTryUp]

@[simp] theorem loTryUp_fixed (s : State) : (loTryUp s).fixed = s.fixed := by simp [loTryUp]

@[simp] theorem analogFrame_fixed (s : State) : (analogFrame s).fixed = s.fixed := by simp [analogFrame]

@[simp] theorem dacBlock_fixed (s : State) : (dacBlock s).fixed = s.fixed := by simp [dacBlock]

@[simp] theorem limitBlock_fixed (s : State) (l r : Bool) : (limitBlock s l r).fixed = s.fixed := by simp [limitBlock]

@[simp] theorem modJack_fixed (s : State) (f : Jacks → Jacks) : (modJack s f).fixed = s.fixed := by simp [modJack]

@[simp] theorem measureContacts_fixed (a b : Bool) (s : State) : (measureContacts a b s).fixed = s.fixed := by
  simp [measureContacts]

@[simp] theorem jackBlock_fixed (s : State) (mv : Option Nat) : (jackBlock s mv).fixed = s.fixed := by
  unfold jackBlock
  split <;> simp

@[simp] theorem modWake_fixed (s : State) (f : Wake → Wake) : (modWake s f).fixed = s.fixed := by simp [modWake]

@[simp] theorem pushFeeds_fixed (s : State) (feeds : List (Nat × List Int)) : (pushFeeds s feeds).fixed = s.fixed := by
  simp [pushFeeds]

@[simp] theorem wakeInstant_fixed (s : State) (n : Csn) : (wakeInstant s n).fixed = s.fixed := by simp [wakeInstant]

@[simp] theorem coolerErrors_fixed (s : State) (words : List (List (Nat × Nat))) :
    (coolerErrors s words).fixed = s.fixed := by
  simp [coolerErrors]

@[simp] theorem wakeBlock_fixed (s : State) (feeds : List (Nat × List Int)) (words : List (List (Nat × Nat))) :
    (wakeBlock s feeds words).fixed = s.fixed := by
  simp [wakeBlock]

@[simp] theorem micFrame_fixed (s : State) : (micFrame s).fixed = s.fixed := by simp [micFrame]

@[simp] theorem modChan_fixed (s : State) (c : Nat) (f : Chan → Chan) : (modChan s c f).fixed = s.fixed := by
  simp [modChan]

@[simp] theorem chanFrame_fixed (s : State) : (chanFrame s).fixed = s.fixed := by simp [chanFrame]

@[simp] theorem warnNow_fixed (s : State) (c w : Nat) : (warnNow s c w).fixed = s.fixed := by simp [warnNow]

@[simp] theorem sagBlock_fixed (s : State) (c : Nat) (ps : List Nat) : (sagBlock s c ps).1.fixed = s.fixed := by
  unfold sagBlock
  dsimp only
  (repeat' split) <;> simp

@[simp] theorem diagBlock_fixed (s : State) (c : Nat) (senses : List SensePair) :
    (diagBlock s c senses).fixed = s.fixed := by
  unfold diagBlock
  dsimp only
  (repeat' split) <;> simp

@[simp] theorem diagMeasure_fixed (s : State) (raw : List (Nat × List SensePair)) :
    (diagMeasure s raw).fixed = s.fixed := by
  unfold diagMeasure
  dsimp only
  (repeat' split) <;> simp

@[simp] theorem pathBlock_fixed (s : State) (c : Nat) (gains : List Nat) (k : Sensed) :
    (pathBlock s c gains k).fixed = s.fixed := by
  simp [pathBlock]

@[simp] theorem chanBoundary_fixed (i : BlockInput) (ps : List Nat) (s : State) (c : Nat) :
    (chanBoundary i ps s c).fixed = s.fixed := by
  unfold chanBoundary
  dsimp only
  (repeat' split) <;> simp

@[simp] theorem latchEvent_fixed (s : State) (c : Nat) : (latchEvent s c).fixed = s.fixed := by simp [latchEvent]

@[simp] theorem releaseChan_fixed (s : State) (c : Nat) : (releaseChan s c).fixed = s.fixed := by simp [releaseChan]

@[simp] theorem releaseChans_fixed (s : State) : (releaseChans s).fixed = s.fixed := by simp [releaseChans]

@[simp] theorem linkTo_fixed (s : State) (down : Bool) : (linkTo s down).fixed = s.fixed := by simp [linkTo]

@[simp] theorem thermalRead_fixed (s : State) (temps : List Int) : (thermalRead s temps).fixed = s.fixed := by
  simp [thermalRead]

@[simp] theorem stageBoundary_fixed (s : State) (i : BlockInput) : (stageBoundary s i).fixed = s.fixed := by
  simp [stageBoundary]

@[simp] theorem stopsDone_fixed (s : State) : (stopsDone s).fixed = s.fixed := by
  unfold stopsDone
  exact foldl_fixed _ (fun t x => by split <;> simp) _ _

@[simp] theorem loadRatios_fixed (s : State) (d : Int) : (loadRatios s d).fixed = s.fixed := by simp [loadRatios]

@[simp] theorem realignFrame_fixed (s : State) : (realignFrame s).fixed = s.fixed := by simp [realignFrame]

@[simp] theorem realignEnd_fixed (s : State) : (realignEnd s).fixed = s.fixed := by simp [realignEnd]

@[simp] theorem clockReadings_fixed (s : State) (i : BlockInput) : (clockReadings s i).fixed = s.fixed := by
  simp [clockReadings]

@[simp] theorem syncBoundary_fixed (s : State) (mark : Bool) : (syncBoundary s mark).fixed = s.fixed := by
  simp [syncBoundary]

@[simp] theorem logRepair_fixed (s : State) (kind : Nat) (spareFail : Bool) (unit finger cause promoted : Nat)
    (want : Bool) :
    (logRepair s kind spareFail unit finger cause promoted want).fixed = s.fixed := by simp [logRepair]

@[simp] theorem dropMigration_fixed (s : State) : (dropMigration s).fixed = s.fixed := by
  unfold dropMigration
  split <;> simp

@[simp] theorem bankTrigger_fixed (s : State) (b : Nat) (trig : BankTrigger) (cause : Nat) :
    (bankTrigger s b trig cause).fixed = s.fixed := by
  unfold bankTrigger
  split <;> simp

@[simp] theorem triggerOnce_fixed (s : State) (b : Nat) (trig : BankTrigger) (cause : Nat) :
    (triggerOnce s b trig cause).fixed = s.fixed := by
  simp [triggerOnce]

@[simp] theorem ce2Outcome_fixed (s : State) (b : Nat) : (ce2Outcome s b).fixed = s.fixed := by simp [ce2Outcome]

@[simp] theorem ueOutcome_fixed (s : State) (b : Nat) : (ueOutcome s b).fixed = s.fixed := by simp [ueOutcome]

@[simp] theorem taskRead_fixed (s : State) (x : Nat × Nat × List Nat) : (taskRead s x).fixed = s.fixed := by
  simp [taskRead]

@[simp] theorem taskErrors_fixed (s : State) (i : BlockInput) : (taskErrors s i).fixed = s.fixed := by simp [taskErrors]

@[simp] theorem injectSpent_fixed (s : State) (x : Injection) : (injectSpent s x).fixed = s.fixed := by
  simp [injectSpent]

@[simp] theorem stopTask_fixed (s : State) (u : Option UnitRef) (replay : Bool) :
    (stopTask s u replay).1.fixed = s.fixed := by
  unfold stopTask
  dsimp only
  (repeat' split) <;> simp

@[simp] theorem blankLine_fixed (s : State) (inst : Nat) : (blankLine s inst).fixed = s.fixed := by
  unfold blankLine
  dsimp only
  (repeat' split) <;> simp

@[simp] theorem wordFault_fixed (s : State) (u : Option UnitRef) (w : WordKind) :
    (wordFault s u w).1.fixed = s.fixed := by
  unfold wordFault
  split <;> simp

@[simp] theorem readLeaves_fixed (s : State) (r : FaultReport) (cls : FaultClass) :
    (readLeaves s r cls).fixed = s.fixed := by
  unfold readLeaves
  split <;> simp

@[simp] theorem faultFound_fixed (s : State) (r : FaultReport) (injected : Bool) :
    (faultFound s r injected).fixed = s.fixed := by
  unfold faultFound
  dsimp only
  (repeat' split) <;> simp

@[simp] theorem injectWatchdog_fixed (s : State) : (injectWatchdog s).fixed = s.fixed := by simp [injectWatchdog]

@[simp] theorem injectFrame_fixed (s : State) : (injectFrame s).fixed = s.fixed := by simp [injectFrame]

@[simp] theorem serviceTests_fixed (s : State) : (serviceTests s).fixed = s.fixed := by
  unfold serviceTests
  exact foldl_fixed _ (fun t x => by split <;> simp) _ _

@[simp] theorem injectExpire_fixed (s : State) : (injectExpire s).fixed = s.fixed := by simp [injectExpire]

@[simp] theorem healthBoundary_fixed (s : State) : (healthBoundary s).fixed = s.fixed := by simp [healthBoundary]

@[simp] theorem frameTick_fixed (s : State) : (frameTick s).fixed = s.fixed := by simp [frameTick]

@[simp] theorem cycleTick_fixed (s : State) : (cycleTick s).fixed = s.fixed := by simp [cycleTick]

@[simp] theorem catchUp_fixed (s : State) : (catchUp s).fixed = s.fixed := by simp [catchUp]

@[simp] theorem blockRest_fixed (s : State) : (blockRest s).fixed = s.fixed := by
  unfold blockRest
  split <;> simp

@[simp] theorem modSrc_fixed (s : State) (c : Nat) (f : Adc → Adc) : (modSrc s c f).fixed = s.fixed := by simp [modSrc]

@[simp] theorem captureSrc_fixed (i : BlockInput) (s : State) (c : Nat) : (captureSrc i s c).fixed = s.fixed := by
  simp [captureSrc]

@[simp] theorem capture_fixed (s : State) (i : BlockInput) : (capture s i).fixed = s.fixed := by simp [capture]

@[simp] theorem meterBlock_fixed (s : State) (k : Bsn) (late : Bool) : (meterBlock s k late).fixed = s.fixed := by
  simp [meterBlock]

@[simp] theorem mendBuffers_fixed (s : State) (m : Memory) (k : Bsn) : (mendBuffers s m k).fixed = s.fixed := by
  simp [mendBuffers]

@[simp] theorem playSinks_fixed (s : State) (b : Bsn) (late : Bool) : (playSinks s b late).1.fixed = s.fixed := by
  simp [playSinks]

@[simp] theorem deadline_fixed (s : State) : (deadline s).fixed = s.fixed := by
  unfold deadline
  split <;> simp

@[simp] theorem readings_fixed (s : State) (i : BlockInput) : (readings s i).fixed = s.fixed := by simp [readings]

@[simp] theorem sysBoundary_fixed (s : State) (i : BlockInput) : (sysBoundary s i).fixed = s.fixed := by
  simp [sysBoundary]

@[simp] theorem edgesBlock_fixed (s : State) (i : BlockInput) : (edgesBlock s i).fixed = s.fixed := by
  simp [edgesBlock]

/-! ## What the boundary of a block leaves while the fabric clock stands -/

/-- What neither the change of the mapping nor the health, wake and jack parts of a block boundary write (R26). -/
structure Gated where
  clock : Clock
  stage : PStage
  graph : Graph
  regs  : RegFile

/-- What a block leaves while the fabric clock stands. -/
def State.gated (s : State) : Gated := ⟨s.clock, s.stage, s.graph, s.regs⟩

/-- An update that names none of these fields keeps them. -/
@[simp] theorem gated_update (s : State) (pending bsn cycle seq mapDue spi addrA addrB bus events power record otp dports
    asrc analog wake diag touch drover health params jtag sramClean rcNow free) :
    (State.mk pending bsn cycle seq mapDue spi addrA addrB bus events power record otp s.clock dports asrc analog wake
      s.stage diag touch s.graph drover health params s.regs jtag sramClean rcNow free).gated = s.gated := by
  simp only [State.gated]

@[simp] theorem gated_ite (c : Prop) [Decidable c] (a b : State) :
    (if c then a else b).gated = if c then a.gated else b.gated := by
  split <;> rfl

/-- A fold of operations that keep these fields keeps them. -/
@[simp] theorem foldl_gated {α : Type} (f : State → α → State) (h : ∀ s x, (f s x).gated = s.gated) (l : List α)
    (s : State) : (l.foldl f s).gated = s.gated :=
  List.foldlRecOn (motive := fun t : State => t.gated = s.gated) l f rfl (fun t ht x _ => (h t x).trans ht)

@[simp] theorem setPort_gated (s : State) (p : PortId) (v : Port) : (setPort s p v).gated = s.gated := by
  unfold setPort
  split <;> simp

@[simp] theorem modPort_gated (s : State) (p : PortId) (f : Port → Port) : (modPort s p f).gated = s.gated := by
  simp [modPort]

@[simp] theorem finalReply_gated (s : State) (p : PortId) (tag op : Byte) (st : Status) (payload : List Byte) :
    (finalReply s p tag op st payload).gated = s.gated := by
  simp [finalReply]

@[simp] theorem completeJob_gated (s : State) (f : Job → Bool) (st : Status) (payload : List Byte) :
    (completeJob s f st payload).gated = s.gated := by
  unfold completeJob
  split <;> simp

@[simp] theorem completeJobs_gated (s : State) (f : Job → Bool) (reply : Job → Status × List Byte) :
    (completeJobs s f reply).gated = s.gated := by
  simp [completeJobs]

@[simp] theorem evEnter_gated (s : State) (r : EvRecord) : (evEnter s r).gated = s.gated := by
  unfold evEnter
  dsimp only
  (repeat' split) <;> simp

@[simp] theorem evQueue_gated (s : State) (r : EvRecord) : (evQueue s r).gated = s.gated := by
  unfold evQueue
  dsimp only
  (repeat' split) <;> simp

@[simp] theorem drainAon_gated (s : State) : (drainAon s).gated = s.gated := by simp [drainAon]

@[simp] theorem raiseAt_gated (s : State) (num payload : Nat) (bsn : Bsn) (cycle : Nat) :
    (raiseAt s num payload bsn cycle).gated = s.gated := by
  simp [raiseAt]

@[simp] theorem raise_gated (s : State) (num payload : Nat) : (raise s num payload).gated = s.gated := by simp [raise]

@[simp] theorem modHealth_gated (s : State) (f : Health → Health) : (modHealth s f).gated = s.gated := by
  simp [modHealth]

@[simp] theorem setClasses_gated (s : State) (cs : List Nat) : (setClasses s cs).gated = s.gated := by simp [setClasses]

@[simp] theorem setBootClasses_gated (s : State) (cs : List Nat) : (setBootClasses s cs).gated = s.gated := by
  simp [setBootClasses]

@[simp] theorem dropService_gated (s : State) : (dropService s).gated = s.gated := by simp [dropService]

@[simp] theorem applyLock_gated (s : State) (cs : List Nat) (fl : Nat) : (applyLock s cs fl).gated = s.gated := by
  simp [applyLock]

@[simp] theorem mapChange_gated (s : State) (due : MappingDue) : (mapChange s due).gated = s.gated := by
  unfold mapChange
  split <;> simp

@[simp] theorem mapApply_gated (s : State) : (mapApply s).gated = s.gated := by simp [mapApply]

@[simp] theorem modAdc_gated (s : State) (a : Nat) (f : Adc → Adc) : (modAdc s a f).gated = s.gated := by simp [modAdc]

@[simp] theorem biasUpdate_gated (s : State) : (biasUpdate s).gated = s.gated := by
  unfold biasUpdate
  split <;> simp

@[simp] theorem modJack_gated (s : State) (f : Jacks → Jacks) : (modJack s f).gated = s.gated := by simp [modJack]

@[simp] theorem measureContacts_gated (a b : Bool) (s : State) : (measureContacts a b s).gated = s.gated := by
  simp [measureContacts]

@[simp] theorem jackBlock_gated (s : State) (mv : Option Nat) : (jackBlock s mv).gated = s.gated := by
  unfold jackBlock
  split <;> simp

@[simp] theorem modWake_gated (s : State) (f : Wake → Wake) : (modWake s f).gated = s.gated := by simp [modWake]

@[simp] theorem pushFeeds_gated (s : State) (feeds : List (Nat × List Int)) : (pushFeeds s feeds).gated = s.gated := by
  simp [pushFeeds]

@[simp] theorem wakeInstant_gated (s : State) (n : Csn) : (wakeInstant s n).gated = s.gated := by simp [wakeInstant]

@[simp] theorem coolerErrors_gated (s : State) (words : List (List (Nat × Nat))) :
    (coolerErrors s words).gated = s.gated := by
  simp [coolerErrors]

@[simp] theorem wakeBlock_gated (s : State) (feeds : List (Nat × List Int)) (words : List (List (Nat × Nat))) :
    (wakeBlock s feeds words).gated = s.gated := by
  simp [wakeBlock]

@[simp] theorem serviceTests_gated (s : State) : (serviceTests s).gated = s.gated := by
  unfold serviceTests
  exact foldl_gated _ (fun t x => by split <;> simp) _ _

@[simp] theorem injectExpire_gated (s : State) : (injectExpire s).gated = s.gated := by simp [injectExpire]

@[simp] theorem healthBoundary_gated (s : State) : (healthBoundary s).gated = s.gated := by simp [healthBoundary]

/-! ## The boundary of a block (R12, R15) -/

/-- The state that a block boundary hands to its parts: the next block's first instant, with its readings (R12, R15). -/
def nextBlock (s : State) (i : BlockInput) : State :=
  { s with bsn := s.bsn + 1#40, cycle := 0, power := { s.power with coreTemp := i.coreTemp, vstby := i.vstby },
           clock := { s.clock with shipTick := s.clock.shipTick && s.clock.xtalFault },
           record := { s.record with supplyAges := s.record.supplyAges.map (fun a => a + 1) } }

/-- The parts of a block boundary, in their order: those of the system where the fabric runs, that of health elsewhere,
then the wake path's and the jacks'. -/
def boundaryParts (high : Bool) (i : BlockInput) (s : State) : State :=
  jackBlock (wakeBlock ((if high then fun v => sysBoundary v i else healthBoundary) s) i.feeds i.badWords) i.contact

theorem execBlockBoundary_eq {s : State} (h : counting s = true) (i : BlockInput) :
    execBlockBoundary i s = .next (boundaryParts (modeHigh s) i
      (nextBlock (if modeHigh s then edgesBlock (mapApply s) i else mapApply s) i)) := by
  have hm : modeHigh (mapApply s) = modeHigh s :=
    congrArg (fun p : Power => p.mode == .idle || p.mode == .active) (congrArg Fixed.power (mapApply_fixed s))
  rw [← hm]
  refine (if_neg (by simp [h])).trans ?_
  dsimp only
  cases modeHigh (mapApply s) <;> rfl

@[simp] theorem boundaryParts_fixed (high : Bool) (i : BlockInput) (s : State) :
    (boundaryParts high i s).fixed = s.fixed := by
  cases high <;> simp [boundaryParts]

@[simp] theorem boundaryParts_gated (i : BlockInput) (s : State) : (boundaryParts false i s).gated = s.gated := by
  simp [boundaryParts]

theorem nextBlock_fixed {s t : State} (h : t.fixed = s.fixed) (i : BlockInput) :
    (nextBlock t i).fixed = (nextBlock s i).fixed := by
  simp only [State.fixed, Fixed.mk.injEq] at h
  obtain ⟨hp, hj, hq, hr, hw⟩ := h
  simp only [State.fixed, nextBlock, hp, hj, hq, hr, hw]

theorem nextBlock_gated {s t : State} (h : t.gated = s.gated) (i : BlockInput) :
    (nextBlock t i).gated = (nextBlock s i).gated := by
  simp only [State.gated, Gated.mk.injEq] at h
  obtain ⟨hc, hs, hg, hr⟩ := h
  simp only [State.gated, nextBlock, hc, hs, hg, hr]

/-- Settles O59: every operation that a boundary runs leaves the power state but for the two readings, and where the
fabric clock stands only the health, wake and jack parts run, which leave the graph, the stage and the registers. -/
theorem blockBoundaryActs : Obligations.BlockBoundaryActs := by
  unfold Obligations.BlockBoundaryActs
  rintro s i w u rfl
  refine ⟨fun h hu => hu ▸ execBlockBoundary_eq h i, fun h => ?_, execBlockBoundary_stopped i s⟩
  obtain ⟨t, ht, hstamp⟩ := execBlockBoundary_counting i s h
  have hparts := Host.Outcome.next.inj (ht.symm.trans (execBlockBoundary_eq h i))
  have hfixed : t.fixed = (nextBlock s i).fixed := by
    rw [hparts, boundaryParts_fixed]
    exact nextBlock_fixed (by simp) i
  simp only [State.fixed, Fixed.mk.injEq] at hfixed
  obtain ⟨hpower, hjtag, hseq, hrecord, hwords⟩ := hfixed
  refine ⟨t, ht, congrArg Stamp.bsn hstamp, congrArg Stamp.cycle hstamp, congrArg Power.coreTemp hpower,
    congrArg Power.vstby hpower, (congrArg Power.mode hpower).trans rfl, hjtag, hseq,
    (congrArg ResetRecord.last hrecord).trans rfl, hwords, fun hm => ?_⟩
  have hgated : t.gated = (nextBlock s i).gated := by
    rw [hparts, hm, boundaryParts_gated]
    exact nextBlock_gated (mapApply_gated s) i
  simp only [State.gated, Gated.mk.injEq] at hgated
  obtain ⟨hclock, hstage, hgraph, hregs⟩ := hgated
  exact ⟨hgraph, hstage, hregs, hclock⟩

end Sys2Proof.Machine

namespace Sys2Proof.Machine

open Sys2Proof

/-!
# Every step keeps a sound state sound

One lemma for each operation of the model. Most of them are the operation's own composition, read with the rules
of the first section: an update of fields that `State.Sound` does not speak of, a choice, and a fold.
-/

/-! ## The rules -/

/-- An update that leaves the ports, the register file and the cycle, and of the other fields what `State.Sound` speaks
of. -/
theorem sound_update {s : State} (h : s.Sound) {otp : Otp} {wake : Wake} {graph : Graph} {events : Events}
    (hk : (otp.words, wake.cooler, graph.slots, events.fifo, events.aonQueue) =
      (s.otp.words, s.wake.cooler, s.graph.slots, s.events.fifo, s.events.aonQueue))
    {pending bsn seq mapDue bus power record clock dports asrc analog stage diag touch drover health params jtag
      sramClean rcNow free} :
    (State.mk pending bsn s.cycle seq mapDue s.spi s.addrA s.addrB bus events power record otp clock dports asrc
      analog wake stage diag touch graph drover health params s.regs jtag sramClean rcNow free).Sound := by
  simp only [Prod.mk.injEq] at hk
  obtain ⟨ho, hw, hg, hf, hq⟩ := hk
  exact ⟨h.regs, ho ▸ h.otp, hw ▸ h.cooler, hg ▸ h.images, h.spi, h.addrA, h.addrB, hf ▸ h.fifo, hq ▸ h.aon,
    h.cycle⟩

theorem ite_sound {c : Prop} [Decidable c] {a b : State} (ha : a.Sound) (hb : b.Sound) :
    (if c then a else b).Sound := by
  split
  · exact ha
  · exact hb

/-- A step that is taken in one case, on the state that stands in the other. -/
theorem ite_then_sound {c : Prop} [Decidable c] {a b : State} (hb : b.Sound) (ha : b.Sound → a.Sound) :
    (if c then a else b).Sound :=
  ite_sound (ha hb) hb

theorem ite_else_sound {c : Prop} [Decidable c] {a b : State} (ha : a.Sound) (hb : a.Sound → b.Sound) :
    (if c then a else b).Sound :=
  ite_sound ha (hb ha)

theorem ite_fst_sound {α : Type} {c : Prop} [Decidable c] {a b : State × α} (ha : a.1.Sound) (hb : b.1.Sound) :
    (if c then a else b).1.Sound := by
  split
  · exact ha
  · exact hb

/-- A fold of operations that keep a state sound. -/
theorem foldl_sound {α : Type} {f : State → α → State} {l : List α} {s : State} (h : s.Sound)
    (hf : ∀ t x, t.Sound → (f t x).Sound) : (l.foldl f s).Sound :=
  List.foldlRecOn (motive := State.Sound) l f h (fun t ht x _ => hf t x ht)

theorem leavesIte_sound {c : Prop} [Decidable c] {v w : Verdict} (hv : v.Leaves State.Sound)
    (hw : w.Leaves State.Sound) : (if c then v else w).Leaves State.Sound := by
  split
  · exact hv
  · exact hw

/-! ## The stores, each written alone -/

theorem sound_cycle {s : State} (h : s.Sound) {bsn : Bsn} {n : Nat} (hn : n < 294912) {bus power record clock} :
    { s with bsn := bsn, cycle := n, bus := bus, power := power, record := record, clock := clock }.Sound where
  regs := h.regs
  otp := h.otp
  cooler := h.cooler
  images := h.images
  spi := h.spi
  addrA := h.addrA
  addrB := h.addrB
  fifo := h.fifo
  aon := h.aon
  cycle := hn

theorem sound_events {s : State} (h : s.Sound) {e : Events} (hf : e.fifo.length ≤ 64) (hq : e.aonQueue.length ≤ 8) :
    { s with events := e }.Sound where
  regs := h.regs
  otp := h.otp
  cooler := h.cooler
  images := h.images
  spi := h.spi
  addrA := h.addrA
  addrB := h.addrB
  fifo := hf
  aon := hq
  cycle := h.cycle

theorem sound_graph {s : State} (h : s.Sound) {g : Graph} (hg : imagesWf g.slots = true) :
    { s with graph := g }.Sound where
  regs := h.regs
  otp := h.otp
  cooler := h.cooler
  images := hg
  spi := h.spi
  addrA := h.addrA
  addrB := h.addrB
  fifo := h.fifo
  aon := h.aon
  cycle := h.cycle

theorem imagesWf_map {l : List Slot} (hl : imagesWf l = true) {f : Slot → Slot}
    (hf : ∀ x, assocRising x.image = true → assocRising (f x).image = true) : imagesWf (l.map f) = true :=
  List.all_eq_true.mpr fun y hy => by
    obtain ⟨x, hx, rfl⟩ := List.mem_map.mp hy
    exact hf x (List.all_eq_true.mp hl x hx)

theorem imagesWf_modAt {l : List Slot} (hl : imagesWf l = true) {i : Nat} {f : Slot → Slot}
    (hf : ∀ x, assocRising x.image = true → assocRising (f x).image = true) : imagesWf (modAt l i f) = true :=
  List.all_eq_true.mpr fun y hy => by
    obtain ⟨j, hj, hy⟩ := List.mem_iff_getElem.mp hy
    have hx := List.all_eq_true.mp hl _ (List.getElem_mem (by simpa [modAt] using hj))
    rw [← hy]
    simp only [modAt, List.getElem_modify]
    split
    · exact hf _ hx
    · exact hx

theorem imagesWf_modSlot {g : Graph} (hg : imagesWf g.slots = true) {i : Nat} {f : Slot → Slot}
    (hf : ∀ x, assocRising x.image = true → assocRising (f x).image = true) :
    imagesWf (modSlot g i f).slots = true :=
  imagesWf_modAt hg hf

theorem imagesWf_getD {l : List Slot} (hl : imagesWf l = true) (i : Nat) : assocRising (l.getD i {}).image = true := by
  rw [List.getD_eq_getElem?_getD]
  cases hx : l[i]? with
  | none => rfl
  | some x => exact List.all_eq_true.mp hl x (List.mem_of_getElem? hx)

theorem switchSlots_images {g : Graph} (hg : imagesWf g.slots = true) (a : Activation) :
    imagesWf (switchSlots g a).slots = true := by
  have hold := imagesWf_map hg
    (f := fun x => if x.phase = .active then { x with phase := .ready, n := 0#40, noGuar := false, sat := 0 } else x)
    fun x hx => by split <;> exact hx
  unfold switchSlots
  dsimp only
  split
  · exact imagesWf_modAt hold fun _ hx => hx
  · exact hold

theorem commitOp_images {g : Graph} (hg : imagesWf g.slots = true) {m k t c muted} :
    imagesWf (commitOp g m k t c muted).1.slots = true := by
  unfold commitOp
  dsimp only
  split
  · exact hg
  · split
    · exact imagesWf_modAt hg fun _ hx => hx
    · exact hg

theorem commitMoveOut_slots (s : State) (m : Memory) (inst : Nat) :
    (commitMoveOut s m inst).slots = s.graph.slots :=
  List.foldlRecOn (motive := fun g : Graph => g.slots = s.graph.slots) _ _ rfl fun _ hg _ _ => hg

theorem otpClose_words (o : Otp) (k : OtpKind) : (otpClose o k).words = o.words := by cases k <;> rfl

theorem portOff_places (p : Port) : placesOk (portOff p) = true := rfl

theorem sound_wake {s : State} (h : s.Sound) {w : Wake} (hw : Memory.wf w.cooler = true) :
    { s with wake := w }.Sound where
  regs := h.regs
  otp := h.otp
  cooler := hw
  images := h.images
  spi := h.spi
  addrA := h.addrA
  addrB := h.addrB
  fifo := h.fifo
  aon := h.aon
  cycle := h.cycle

theorem sound_otp {s : State} (h : s.Sound) {o : Otp} (ho : otpWf o.words = true) : { s with otp := o }.Sound where
  regs := h.regs
  otp := ho
  cooler := h.cooler
  images := h.images
  spi := h.spi
  addrA := h.addrA
  addrB := h.addrB
  fifo := h.fifo
  aon := h.aon
  cycle := h.cycle

theorem coolerPut_wf {m : Memory} (hm : Memory.wf m = true) {n vals} : Memory.wf (coolerPut m n vals) = true :=
  List.foldlRecOn (motive := fun m => Memory.wf m = true) _ _ hm fun _ ht _ _ =>
    memoryWrite_wf _ _ _ (memoryWrite_wf _ _ _ ht)

theorem sound_port {s : State} (h : s.Sound) (p : PortId) : placesOk (getPort s p) = true := by
  cases p
  · exact h.spi
  · exact h.addrA
  · exact h.addrB

/-! ## The operations, file by file in the model's order -/

section

variable {s : State} (h : s.Sound)
include h

theorem setPort_sound {p v} (hv : placesOk v = true) : (setPort s p v).Sound := by
  obtain ⟨hregs, hotp, hcooler, himages, hspi, haddrA, haddrB, hfifo, haon, hcycle⟩ := h
  cases p
  · exact ⟨hregs, hotp, hcooler, himages, hv, haddrA, haddrB, hfifo, haon, hcycle⟩
  · exact ⟨hregs, hotp, hcooler, himages, hspi, hv, haddrB, hfifo, haon, hcycle⟩
  · exact ⟨hregs, hotp, hcooler, himages, hspi, haddrA, hv, hfifo, haon, hcycle⟩

/-- A change of a port that takes no place (R397). -/
theorem modPort_sound {p f} (hf : ∀ v : Port, (f v).outstanding.length ≤ v.outstanding.length) :
    (modPort s p f).Sound :=
  setPort_sound h (decide_eq_true ((hf _).trans (of_decide_eq_true (sound_port h p))))

/-- A change of the wake path that leaves the Cooler. -/
theorem modWake_sound {f} (hf : ∀ w : Wake, (f w).cooler = w.cooler) : (modWake s f).Sound :=
  sound_wake h (by rw [hf]; exact h.cooler)

theorem wr_sound {r v} : (wr s r v).Sound where
  regs := wr_wf s r v h.regs
  otp := h.otp
  cooler := h.cooler
  images := h.images
  spi := h.spi
  addrA := h.addrA
  addrB := h.addrB
  fifo := h.fifo
  aon := h.aon
  cycle := h.cycle

/-! ### Ops -/

theorem finalReply_sound {p tag op st payload} : (finalReply s p tag op st payload).Sound :=
  modPort_sound h fun _ => (List.length_map _).le

theorem answerNow_sound {p tag op st payload} : (answerNow s p tag op st payload).Sound :=
  modPort_sound h fun _ => (List.length_map _).le

theorem earlyReply_sound {p tag op payload} : (earlyReply s p tag op payload).Sound :=
  modPort_sound h fun _ => by exact le_rfl

theorem completeJob_sound {f st payload} : (completeJob s f st payload).Sound := by
  unfold completeJob
  split
  · exact h
  · exact finalReply_sound h

theorem completeSeq_sound {n st payload} : (completeSeq s n st payload).Sound := by
  unfold completeSeq
  split
  · exact h
  · exact finalReply_sound h

theorem completeJobs_sound {f reply} : (completeJobs s f reply).Sound :=
  foldl_sound h fun _ _ ht => finalReply_sound ht

theorem evEnter_sound {r} : (evEnter s r).Sound := by
  obtain ⟨hfifo, haon⟩ := evEnter_bounds s r h.fifo
  have he : evEnter s r = { s with events := (evEnter s r).events } := by
    unfold evEnter
    dsimp only
    (repeat' split) <;> rfl
  rw [he]
  exact sound_events h hfifo (haon ▸ h.aon)

theorem evQueue_sound {r} : (evQueue s r).Sound := by
  obtain ⟨haon, hfifo⟩ := evQueue_bounds s r h.aon
  have he : evQueue s r = { s with events := (evQueue s r).events } := by
    unfold evQueue
    dsimp only
    split <;> rfl
  rw [he]
  exact sound_events h (hfifo ▸ h.fifo) haon

theorem drainAon_sound : (drainAon s).Sound := sound_events h (drainAon_fifo s h.fifo) (Nat.zero_le 8)

theorem raiseAt_sound {num payload bsn cycle} : (raiseAt s num payload bsn cycle).Sound :=
  ite_sound (ite_sound (evEnter_sound (drainAon_sound h)) (evQueue_sound h)) h

theorem raise_sound {num payload} : (raise s num payload).Sound := raiseAt_sound h

theorem nextFree_sound : (nextFree s).Sound := sound_update h (by rfl)

theorem dropPacket_sound {p reason op tag} : (dropPacket s p reason op tag).Sound :=
  raise_sound (modPort_sound h fun _ => by exact le_rfl)

/-! ### Regs -/

theorem rcNote_sound {r old fresh} : (rcNote s r old fresh).Sound := sound_update h (by rfl)

theorem rcUpdate_sound {r f} : (rcUpdate s r f).Sound := wr_sound (rcNote_sound h)

theorem rcClear_sound {r} : (rcClear s r).Sound := wr_sound (rcNote_sound h)

theorem addCount_sound {r hi lo k} : (addCount s r hi lo k).Sound := rcUpdate_sound h

theorem raisePeak_sound {r v} : (raisePeak s r v).Sound := rcUpdate_sound h

/-! ### Fabric -/

theorem countPlaced_sound {p spilled} : (countPlaced s p spilled).Sound :=
  raisePeak_sound (raisePeak_sound (ite_sound (addCount_sound h) h))

theorem makeReady_sound {m c t} : (makeReady m c s t).Sound := by
  unfold makeReady
  dsimp only
  refine ite_sound ?_ ?_
  · exact sound_update h (by rfl)
  · refine ite_sound ?_ ?_
    · exact addCount_sound (sound_update h (by rfl))
    · refine ite_sound ?_ ?_
      · exact addCount_sound (sound_update h (by rfl))
      · split
        · exact addCount_sound (sound_update h (by rfl))
        · exact ite_sound (addCount_sound (sound_update h (by rfl))) (countPlaced_sound (sound_update h (by rfl)))

theorem computeStart_sound {k} : (computeStart s k).Sound :=
  foldl_sound (sound_update h (by rfl)) fun _ _ ht => makeReady_sound ht

theorem commitTask_sound {m k t} : (commitTask s m k t).Sound := by
  unfold commitTask
  dsimp only
  split
  · exact sound_update h (by rfl)
  · exact sound_graph h (commitMoveOut_slots s m _ ▸ h.images)
  · exact foldl_sound (sound_graph h (commitOp_images h.images)) fun _ _ ht => raise_sound ht

theorem strayWrites_sound {m k t done fault} : (strayWrites s m k t done fault).Sound :=
  foldl_sound h fun _ _ ht => sound_update ht (by rfl)

theorem guardFrame_sound {f} : (guardFrame s f).Sound := by
  unfold guardFrame
  refine foldl_sound h fun _ _ ht => ?_
  split
  · exact ite_sound (raise_sound (sound_update ht (by rfl))) ht
  · exact ht

/-! ### Drover -/

theorem grantOp_sound {p i src} : (grantOp s p i src).Sound := by
  unfold grantOp
  dsimp only
  split
  · exact h
  · split
    · exact raisePeak_sound (sound_update (nextFree_sound h) (by rfl))
    · exact sound_update (nextFree_sound h) (by rfl)

theorem grantMe_sound {p i r} : (grantMe s p i r).Sound :=
  raisePeak_sound (sound_update (nextFree_sound (ite_sound h (sound_update h (by rfl)))) (by rfl))

theorem countCycles_sound {r since} : (countCycles s r since).Sound :=
  ite_sound (ite_sound h (sound_update h (by rfl))) (sound_update h (by rfl))

theorem retireTask_sound {k me i r since} : (retireTask s k me i r since).Sound :=
  addCount_sound (sound_update (commitTask_sound (countCycles_sound h)) (by rfl))

theorem comeReady_sound : (comeReady s).Sound :=
  ite_sound h (foldl_sound (sound_update h (by rfl)) fun _ _ ht => makeReady_sound ht)

theorem sendReport_sound {r injected t} : (sendReport s r injected t).Sound := sound_update h (by rfl)

theorem strayAll_sound {m k} : (strayAll s m k).Sound := by
  unfold strayAll
  refine foldl_sound h fun _ _ ht => ?_
  split
  · exact strayWrites_sound ht
  · exact ht

theorem cancelBlock_sound : (cancelBlock s).Sound := by
  unfold cancelBlock
  split
  · exact h
  · exact sound_update (foldl_sound (addCount_sound (addCount_sound (sound_update (strayAll_sound h) (by rfl))))
      fun _ _ ht => addCount_sound ht) (by rfl)

/-! ### Banks -/

theorem modHealth_sound {f} : (modHealth s f).Sound := sound_update h (by rfl)

theorem modBank_sound {b f} : (modBank s b f).Sound := modHealth_sound h

theorem setFlips_sound {b w l} : (setFlips s b w l).Sound := ite_sound h (modBank_sound h)

theorem poison_sound {b w} : (poison s b w).Sound := modBank_sound h

theorem upset_sound {x} : (upset s x).Sound := ite_sound (setFlips_sound h) h

/-! ### Engine -/

theorem reservedReply_sound {p op tag st} : (reservedReply s p op tag st).Sound :=
  ite_sound (dropPacket_sound h) (modPort_sound h fun _ => by exact le_rfl)

/-- A place is taken only where one of the 32 is free (R397). -/
theorem takePlace_sound {p op tag} (hfree : ¬placesFull s p = true) : (takePlace s p op tag).Sound := by
  refine setPort_sound (sound_update h (by rfl)) (decide_eq_true ?_)
  have hlen : (getPort s p).outstanding.length < 32 := by simpa [placesFull] using hfree
  have hport : getPort { s with seq := s.seq + 1 } p = getPort s p := by cases p <;> rfl
  rw [hport, List.length_append, List.length_singleton]
  omega

theorem noteSlot_sound {q op} : (noteSlot s q op).Sound :=
  ite_sound (modPort_sound h fun _ => (List.length_map _).le) h

theorem setJob_sound {p tag j} : (setJob s p tag j).Sound := modPort_sound h fun _ => (List.length_map _).le

/-- Acceptance adds a reply to what the verdict leaves. -/
theorem settle_sound {q op} {v : Verdict} (hv : v.Leaves State.Sound) : (settle s q op v).Sound := by
  cases v with
  | refuse st payload => exact answerNow_sound h
  | done u payload => exact noteSlot_sound (answerNow_sound hv)
  | fail u st payload => exact answerNow_sound hv
  | silent u => exact hv
  | pend u j early =>
    have hu : (noteSlot (setJob u q.port q.tag j) q op).Sound := noteSlot_sound (setJob_sound hv)
    cases early with
    | none => exact hu
    | some payload => exact ite_sound (earlyReply_sound hu) hu

/-- What an opcode's own effect keeps sound, its packet keeps sound (R395). -/
theorem runOp_sound {op lenOk body q} (hb : ∀ t : State, t.Sound → (body t q).Leaves State.Sound) :
    (runOp op lenOk body q s).Sound := by
  unfold runOp judge
  dsimp only
  refine ite_sound h (ite_sound (dropPacket_sound h) ?_)
  split
  · exact reservedReply_sound h
  · next hfree =>
    have ht := takePlace_sound h (op := BitVec.ofNat 8 op) (tag := q.tag) hfree
    refine settle_sound ht ?_
    exact leavesIte_sound trivial (leavesIte_sound trivial (leavesIte_sound trivial (hb _ ht)))

theorem badOpcode_sound {q op} : (badOpcode q op s).Sound := by
  unfold badOpcode
  refine ite_sound h (ite_sound (dropPacket_sound h) ?_)
  split
  · exact reservedReply_sound h
  · next hfree => exact answerNow_sound (takePlace_sound h hfree)

/-! ### Events -/

theorem doEventStatus_sound {q} : (doEventStatus q s).Sound := runOp_sound h fun _ ht => ht

theorem takeRecords_sound {n clear} : (takeRecords s n clear).Sound := by
  have hfifo : (s.events.fifo.drop n).length ≤ 64 := by
    rw [List.length_drop]
    exact (Nat.sub_le _ _).trans h.fifo
  unfold takeRecords
  extract_lets got rest gone off _ e
  refine ite_sound (raise_sound (sound_events h ?_ ?_)) (sound_events h ?_ ?_)
  · exact hfifo
  · exact h.aon
  · exact hfifo
  · exact h.aon

theorem doEventRead_sound {q} : (doEventRead q s).Sound :=
  runOp_sound h fun _ ht => leavesIte_sound trivial (takeRecords_sound ht)

theorem peekRecords_sound {f n} : (peekRecords s f n).Sound := by
  refine sound_events h ?_ h.aon
  have hfifo := h.fifo
  simp only [List.length_append, List.length_map, List.length_take, List.length_drop]
  omega

theorem doEventPeek_sound {q} : (doEventPeek q s).Sound :=
  runOp_sound h fun _ ht => leavesIte_sound trivial (peekRecords_sound ht)

theorem clearEvents_sound {mask flush} : { s with events := clearEvents s mask flush }.Sound := by
  cases flush
  · exact sound_update h (by rfl)
  · exact sound_events h (Nat.zero_le 64) (Nat.zero_le 8)

theorem doEventClear_sound {q} : (doEventClear q s).Sound := runOp_sound h fun _ ht => clearEvents_sound ht

/-! ### Otp -/

theorem doOtpStatus_sound {q} : (doOtpStatus q s).Sound := runOp_sound h fun _ ht => ht

theorem doOtpRead_sound {q} : (doOtpRead q s).Sound := runOp_sound h fun _ ht => leavesIte_sound trivial ht

theorem otpQueue_sound {q k ws} : (otpQueue s q k ws).Sound := sound_update h (by rfl)

theorem otpAccept_sound {q k ws} : (otpAccept s q k ws).Leaves State.Sound := leavesIte_sound h (otpQueue_sound h)

theorem doOtpGenBegin_sound {q} : (doOtpGenBegin q s).Sound := by
  refine runOp_sound h fun _ ht => ?_
  refine leavesIte_sound ?_ ?_
  · exact trivial
  · split
    · exact trivial
    · exact sound_update (otpQueue_sound ht) (by rfl)

theorem doOtpGenData_sound {q} : (doOtpGenData q s).Sound := by
  refine runOp_sound h fun _ ht => ?_
  dsimp only
  refine leavesIte_sound ?_ ?_
  · exact trivial
  · split
    · exact trivial
    · refine leavesIte_sound ?_ ?_
      · exact trivial
      · refine otpAccept_sound ?_
        exact ht

theorem doOtpGenCommit_sound {q} : (doOtpGenCommit q s).Sound := by
  refine runOp_sound h fun _ ht => ?_
  split
  · exact trivial
  · exact leavesIte_sound trivial (leavesIte_sound trivial (otpQueue_sound ht))

theorem doOtpLock_sound {q} : (doOtpLock q s).Sound := by
  refine runOp_sound h fun _ ht => ?_
  dsimp only
  refine leavesIte_sound ?_ ?_
  · exact trivial
  · refine leavesIte_sound ?_ ?_
    · exact trivial
    · split
      · exact trivial
      · exact otpQueue_sound ht

theorem doOtpFactoryWrite_sound {q} : (doOtpFactoryWrite q s).Sound := by
  refine runOp_sound h fun _ ht => ?_
  dsimp only
  refine leavesIte_sound ?_ ?_
  · exact trivial
  · refine leavesIte_sound ?_ ?_
    · exact trivial
    · refine otpAccept_sound ?_
      exact ht

theorem setClasses_sound {cs} : (setClasses s cs).Sound :=
  foldl_sound h fun _ _ ht => modPort_sound ht fun _ => by exact le_rfl

theorem setBootClasses_sound {cs} : (setBootClasses s cs).Sound :=
  foldl_sound h fun _ _ ht => modPort_sound ht fun _ => by exact le_rfl

theorem dropService_sound : (dropService s).Sound :=
  foldl_sound h fun _ _ ht => modPort_sound ht fun _ => by exact le_rfl

theorem applyLock_sound {cs fl} : (applyLock s cs fl).Sound :=
  ite_then_sound (ite_then_sound (sound_update h (by rfl)) fun ht => setBootClasses_sound (setClasses_sound ht))
    fun ht => dropService_sound ht

theorem mapChange_sound {x} : (mapChange s x).Sound := by
  unfold mapChange
  split
  · exact setClasses_sound h
  · exact applyLock_sound h

theorem mapApply_sound : (mapApply s).Sound := foldl_sound (sound_update h (by rfl)) fun _ _ ht => mapChange_sound ht

theorem otpFinish_sound {k} : (otpFinish s k).1.Sound := by
  cases k
  case commit g => exact sound_update h (by rfl)
  case lock i cs fl => exact sound_update h (by rfl)
  all_goals exact h

theorem programmed_sound {w verified} : (programmed s w verified).Sound :=
  ite_sound (sound_otp h (otpPut_wf _ _ _ h.otp)) (sound_otp (nextFree_sound h) (otpPut_wf _ _ _ h.otp))

/-! ### Session -/

theorem doPing_sound {q} : (doPing q s).Sound := runOp_sound h fun _ ht => ht

theorem doIdentify_sound {q} : (doIdentify q s).Sound := runOp_sound h fun _ ht => ht

theorem doGetStatus_sound {q} : (doGetStatus q s).Sound := runOp_sound h fun _ ht => ht

theorem doPortClassGet_sound {q} : (doPortClassGet q s).Sound := runOp_sound h fun _ ht => ht

theorem doPortClassSet_sound {q} : (doPortClassSet q s).Sound :=
  runOp_sound h fun _ ht => leavesIte_sound trivial (leavesIte_sound trivial (sound_update ht (by rfl)))

/-! ### Root -/

theorem modClock_sound {f} : (modClock s f).Sound := sound_update h (by rfl)

theorem setRoot_sound {r} : (setRoot s r).Sound := ite_sound h (raise_sound (modClock_sound h))

theorem restartRoot_sound : (restartRoot s).Sound := ite_sound h (setRoot_sound (modClock_sound (addCount_sound h)))

theorem refLost_sound : (refLost s).Sound := by
  unfold refLost
  dsimp only
  refine ite_sound ?_ ?_
  · exact modClock_sound h
  · split
    · exact raise_sound (setRoot_sound (modClock_sound (addCount_sound h)))
    · exact raise_sound (setRoot_sound (modClock_sound (addCount_sound h)))
    · exact raise_sound (setRoot_sound (modClock_sound (addCount_sound h)))
    · exact ite_sound (raise_sound (modClock_sound (addCount_sound h))) h
    · exact modClock_sound h

theorem refPortCheck_sound {p} : (refPortCheck s p).Sound := ite_sound (refLost_sound h) h

/-! ### Ports -/

theorem modDport_sound {p f} : (modDport s p f).Sound := sound_update h (by rfl)

theorem portPins_sound {p} : (portPins s p).Sound := modDport_sound h

theorem dropHold_sound {p} : (dropHold s p).Sound := modDport_sound h

theorem enterLock_sound {p l} : (enterLock s p l).Sound :=
  ite_sound (modDport_sound (dropHold_sound h)) (ite_sound (completeJobs_sound (ite_then_sound (modDport_sound
    (dropHold_sound h)) fun ht => raise_sound ht)) (ite_then_sound (ite_then_sound (modDport_sound (dropHold_sound
    h)) fun ht => raise_sound ht) fun ht => completeJobs_sound ht))

theorem rampPortOut_sound {p} : (rampPortOut s p).Sound := modDport_sound h

theorem portCutoff_sound {p} : (portCutoff s p).Sound := modDport_sound h

theorem portLose_sound {p clockLeft} : (portLose s p clockLeft).Sound :=
  ite_sound (modDport_sound h) (ite_sound (modDport_sound (portCutoff_sound (rampPortOut_sound h))) (enterLock_sound
    h))

theorem portFrame_sound : (portFrame s).Sound := by
  unfold portFrame
  refine foldl_sound h fun _ _ ht => ?_
  split
  · exact ite_sound (enterLock_sound ht) ht
  · exact ht

theorem portStart_sound {p} : (portStart s p).Sound := enterLock_sound (modDport_sound h)

theorem portStop_sound {p} : (portStop s p).Sound := modDport_sound (enterLock_sound h)

theorem portRestartWord_sound {p old} : (portRestartWord s p old).Sound :=
  ite_sound (portPins_sound (dropHold_sound (modDport_sound h))) (portLose_sound (modDport_sound h))

theorem applyPortCfg_sound {p v} : (applyPortCfg s p v).Sound := by
  unfold applyPortCfg
  dsimp only
  refine ite_sound ?_ ?_
  · exact refPortCheck_sound (wr_sound h)
  · split
    · exact refPortCheck_sound (wr_sound h)
    · exact portStart_sound (refPortCheck_sound (wr_sound h))
    · exact portStop_sound (refPortCheck_sound (wr_sound h))
    · exact portRestartWord_sound (refPortCheck_sound (wr_sound h))

theorem portAdd_sound {p hi lo} : (portAdd s p hi lo).Sound := by
  unfold portAdd
  split
  · exact addCount_sound h
  · exact h

theorem parityCheck_sound {p} : (parityCheck s p).Sound := ite_sound (portLose_sound h) h

theorem nonpcmMute_sound {p} : (nonpcmMute s p).Sound :=
  ite_sound (enterLock_sound (portCutoff_sound (rampPortOut_sound h))) h

theorem applyMap_sound {output c v} : (applyMap s output c v).Sound :=
  ite_sound h (sound_update (wr_sound h) (by rfl))

theorem asrcRestart_sound : (asrcRestart s).Sound := sound_update h (by rfl)

theorem takeInputs_sound {i} : (takeInputs s i).Sound := sound_update h (by rfl)

theorem sendPorts_sound {i} : (sendPorts s i).Sound :=
  sound_update (foldl_sound (sound_update h (by rfl)) fun _ _ ht => modDport_sound ht) (by rfl)

theorem countValidity_sound {i p} : (countValidity s i p).Sound := by
  unfold countValidity
  refine ite_sound ?_ ?_
  · exact h
  · dsimp only
    split
    · exact parityCheck_sound (modDport_sound (addCount_sound h))
    · exact h

theorem portBlock_sound {i} : (portBlock s i).Sound := countValidity_sound (countValidity_sound (sendPorts_sound h))

theorem portReading_sound {i p} : (portReading i s p).Sound :=
  ite_else_sound (modDport_sound h) fun ht => ite_then_sound (modDport_sound ht) fun hu => portLose_sound hu

theorem portReadings_sound {i} : (portReadings s i).Sound := foldl_sound h fun _ _ ht => portReading_sound ht

theorem doPortStatus_sound {q} : (doPortStatus q s).Sound := runOp_sound h fun _ ht => ht

theorem doSpdifCsRead_sound {q} : (doSpdifCsRead q s).Sound :=
  runOp_sound h fun _ ht => leavesIte_sound trivial (leavesIte_sound trivial ht)

theorem doRouteRead_sound {q} : (doRouteRead q s).Sound := runOp_sound h fun _ ht => ht

theorem doPortRestart_sound {q} : (doPortRestart q s).Sound :=
  runOp_sound h fun _ ht => leavesIte_sound trivial (leavesIte_sound trivial (leavesIte_sound ht (leavesIte_sound
    (portLose_sound ht) (enterLock_sound ht))))

theorem portsTo_sound {l} : (portsTo s l).Sound :=
  foldl_sound h fun _ _ ht => ite_sound (enterLock_sound (ite_sound (modDport_sound ht) ht)) ht

/-! ### Analog -/

theorem modAdc_sound {a f} : (modAdc s a f).Sound := sound_update h (by rfl)

theorem pgaTo_sound {m gain} : (pgaTo s m gain).Sound := sound_update h (by rfl)

theorem applyAdcCfg_sound {a v} : (applyAdcCfg s a v).Sound :=
  ite_then_sound (ite_then_sound (ite_sound (modAdc_sound (wr_sound h)) (ite_sound (modAdc_sound (wr_sound h))
    (modAdc_sound (wr_sound h)))) fun ht => pgaTo_sound ht) fun ht => sound_update (modAdc_sound ht) (by rfl)

theorem biasUpdate_sound : (biasUpdate s).Sound := by
  unfold biasUpdate
  split
  · exact modAdc_sound (modAdc_sound (sound_update h (by rfl)))
  · exact sound_update h (by rfl)
  · exact h

theorem applyMicbias_sound {v} : (applyMicbias s v).Sound := biasUpdate_sound (wr_sound h)

theorem modHp_sound {f} : (modHp s f).Sound := sound_update h (by rfl)

theorem modLo_sound {f} : (modLo s f).Sound := sound_update h (by rfl)

theorem hpTryUp_sound : (hpTryUp s).Sound := ite_sound (modHp_sound h) h

theorem loTryUp_sound : (loTryUp s).Sound := ite_sound (modLo_sound h) h

theorem applyHpCfg_sound {v} : (applyHpCfg s v).Sound :=
  ite_sound (hpTryUp_sound (modHp_sound (modHp_sound (wr_sound h)))) (ite_sound (modHp_sound (modHp_sound (wr_sound
    h))) (modHp_sound (ite_then_sound (modHp_sound (wr_sound h)) fun ht => modHp_sound ht)))

theorem applyLoCfg_sound {v} : (applyLoCfg s v).Sound :=
  ite_sound (loTryUp_sound (modLo_sound (wr_sound h))) (ite_sound (modLo_sound (wr_sound h)) (ite_then_sound
    (wr_sound h) fun ht => modLo_sound ht))

theorem analogFrame_sound : (analogFrame s).Sound :=
  ite_then_sound (ite_then_sound (sound_update h (by rfl)) fun ht => modHp_sound (hpTryUp_sound ht)) fun ht =>
    modLo_sound (loTryUp_sound ht)

theorem dacBlock_sound : (dacBlock s).Sound := sound_update h (by rfl)

theorem limitBlock_sound {l r} : (limitBlock s l r).Sound := by
  unfold limitBlock
  exact modHp_sound h

theorem modJack_sound {f} : (modJack s f).Sound := sound_update h (by rfl)

theorem jackEvent_sound : (jackEvent s).Sound := raise_sound h

theorem standKind_sound {k mvA mvB} : (standKind s k mvA mvB).Sound :=
  biasUpdate_sound (sound_update (modJack_sound h) (by rfl))

theorem measureContacts_sound {a b} : (measureContacts a b s).Sound := modJack_sound h

theorem classifyStart_sound : (classifyStart s).Sound :=
  ite_sound (biasUpdate_sound (measureContacts_sound (modJack_sound (sound_update h (by rfl))))) h

theorem jackBlock_sound {mv} : (jackBlock s mv).Sound := by
  unfold jackBlock
  dsimp only
  split
  · exact ite_then_sound (ite_sound h (ite_sound (biasUpdate_sound (measureContacts_sound (sound_update h (by rfl))))
      (ite_sound h (measureContacts_sound h)))) fun ht => modJack_sound ht
  · exact ite_sound h (ite_sound (biasUpdate_sound (measureContacts_sound (sound_update h (by rfl)))) (ite_sound h
      (measureContacts_sound h)))

/-! ### Wake -/

theorem modSrcs_sound {c f} : (modSrcs s c f).Sound := modWake_sound h fun _ => by rfl

theorem noteBridge_sound : (noteBridge s).Sound := by
  unfold noteBridge
  exact modWake_sound h fun _ => by rfl

theorem bridgeMics_sound {ms} : (bridgeMics s ms).Sound := by
  unfold bridgeMics
  exact modWake_sound (ite_sound h (noteBridge_sound h)) fun _ => by rfl

theorem pushFeeds_sound {feeds} : (pushFeeds s feeds).Sound := by
  unfold pushFeeds
  exact modWake_sound h fun _ => by rfl

theorem wakeInstant_sound {n} : (wakeInstant s n).Sound :=
  ite_sound (modWake_sound h fun _ => by rfl) (sound_wake (modWake_sound h fun _ => by rfl) (coolerPut_wf h.cooler))

/-- A word that reads with an error is written with zeros (R301). -/
theorem coolerErrors_sound {words} : (coolerErrors s words).Sound :=
  foldl_sound h fun _ _ ht => ite_sound ht (raise_sound (sound_wake ht
    (List.foldlRecOn (motive := fun m => Memory.wf m = true) _ _ ht.cooler fun _ hm _ _ =>
      memoryWrite_wf _ _ _ (memoryWrite_wf _ _ _ hm))))

theorem wakeBlock_sound {feeds words} : (wakeBlock s feeds words).Sound :=
  ite_else_sound (coolerErrors_sound h) fun ht => ite_then_sound (pushFeeds_sound ht) fun hu => foldl_sound hu
    fun _ _ hv => wakeInstant_sound hv

theorem endFetches_sound : (endFetches s).Sound := completeJobs_sound h

theorem doCoolerFetch_sound {q} : (doCoolerFetch q s).Sound := by
  refine runOp_sound h fun _ ht => ?_
  dsimp only
  refine leavesIte_sound ?_ ?_
  · exact trivial
  · split
    · exact trivial
    · exact leavesIte_sound trivial (leavesIte_sound ht ht)

theorem detectionEvent_sound {w} : (detectionEvent s w).Sound := by
  unfold detectionEvent
  dsimp only
  refine ite_sound ?_ ?_
  · exact h
  · split
    · exact h
    · exact raise_sound (modWake_sound h fun _ => by rfl)

/-- The event that a window's end leaves, raised on the state that stands. -/
theorem detectionLeft_sound {u} : (detectionLeft u s).Sound := by
  unfold detectionLeft
  split
  · exact ite_sound (detectionEvent_sound h) h
  · exact h

theorem detUpdate_sound {again} : (detUpdate s again).Sound := by
  unfold detUpdate
  exact detectionLeft_sound (modWake_sound h fun _ => by rfl)

theorem captureUpdate_sound : (captureUpdate s).Sound := by
  unfold captureUpdate
  split
  · exact detUpdate_sound (sound_wake h rfl)
  · exact endFetches_sound (modWake_sound h fun _ => by rfl)
  · exact h

theorem pathStart_sound : (pathStart s).Sound :=
  captureUpdate_sound (detUpdate_sound (modWake_sound h fun _ => by rfl))

theorem pathStop_sound : (pathStop s).Sound := detUpdate_sound (captureUpdate_sound (modWake_sound h fun _ => by rfl))

theorem clockTo_sound {c listen} : (clockTo s c listen).Sound := modWake_sound h fun _ => by rfl

theorem clockDue_sound {c listen b} : (clockDue s c listen b).Sound := modWake_sound h fun _ => by rfl

theorem clocksStop_sound : (clocksStop s).Sound := modWake_sound h fun _ => by rfl

theorem abandonSwaps_sound {c} : (abandonSwaps s c).Sound := sound_update h (by rfl)

theorem doWakeStatus_sound {q} : (doWakeStatus q s).Sound := runOp_sound h fun _ ht => ht

theorem doWakeRearm_sound {q} : (doWakeRearm q s).Sound := by
  unfold doWakeRearm
  exact runOp_sound h fun _ ht => leavesIte_sound trivial (detectionLeft_sound (modWake_sound ht fun _ => by rfl))

theorem applyPdmCfg_sound {v} : (applyPdmCfg s v).Sound :=
  foldl_sound (wr_sound h) fun _ _ ht => ite_sound ht (ite_sound (clockDue_sound (modSrcs_sound ht)) (ite_sound
    (clockDue_sound ht) ht))

theorem applyPmicCfg_sound {m v} : (applyPmicCfg s m v).Sound := by
  unfold applyPmicCfg
  exact modWake_sound (wr_sound h) fun _ => by rfl

theorem wakeMoved_sound {before} : (wakeMoved s before).Sound := ite_sound (bridgeMics_sound h) h

theorem applyBeamCfg_sound {b v} : (applyBeamCfg s b v).Sound := detUpdate_sound (wr_sound h)

theorem applyCoolerCfg_sound {v} : (applyCoolerCfg s v).Sound := captureUpdate_sound (wr_sound h)

theorem micFrame_sound : (micFrame s).Sound := modWake_sound h fun _ => by rfl

/-! ### PStage -/

theorem modChan_sound {c f} : (modChan s c f).Sound := sound_update h (by rfl)

theorem beginStart_sound {c} : (beginStart s c).Sound := modChan_sound h

theorem beginStop_sound {c ms lag dest} : (beginStop s c ms lag dest).Sound := modChan_sound h

theorem chanFrame_sound : (chanFrame s).Sound := sound_update h (by rfl)

theorem enChange_sound {c lag a b} : (enChange s c lag a b).Sound := by
  unfold enChange
  refine ite_sound ?_ ?_
  · exact h
  · dsimp only
    refine modChan_sound ?_
    split
    · exact beginStop_sound h
    · exact beginStop_sound h
    · exact modChan_sound h
    · exact modChan_sound h
    · exact modChan_sound h
    · exact h

theorem applyChanCfg_sound {c v} : (applyChanCfg s c v).Sound :=
  ite_then_sound (enChange_sound (wr_sound h)) fun ht => ite_sound (modChan_sound ht) (modChan_sound ht)

theorem applyVfs_sound {k v} : (applyVfs s k v).Sound := ite_sound h (modChan_sound (wr_sound h))

theorem memberUpdate_sound : (memberUpdate s).Sound := sound_update h (by rfl)

theorem shutdown_sound {c cause} : (shutdown s c cause).Sound :=
  ite_sound (raise_sound (addCount_sound (modChan_sound h))) (addCount_sound (modChan_sound h))

theorem warnNow_sound {c w} : (warnNow s c w).Sound := ite_then_sound (modChan_sound h) fun ht => raise_sound ht

theorem sagBlock_sound {c ps} : (sagBlock s c ps).1.Sound := by
  unfold sagBlock
  extract_lets x xs alpha b r t u y
  have ht : t.Sound := modChan_sound h
  have hu : u.Sound := ite_then_sound ht fun ht => modChan_sound (addCount_sound ht)
  split
  · split
    · exact hu
    · exact raiseAt_sound (modChan_sound hu)
  · exact hu

theorem limitCount_sound {c sp} : (limitCount s c sp).Sound :=
  ite_else_sound (modChan_sound h) fun ht => addCount_sound ht

theorem diagLimited_sound {c r} : (diagLimited s c r).Sound :=
  ite_sound (sound_update h (by rfl)) (ite_sound (sound_update h (by rfl)) h)

theorem atFrame_sound {b f} (hf : f < 24) : (atFrame s b f).Sound :=
  sound_cycle h (by simp only [Config.frameCycles]; omega)

theorem diagBlock_sound {c senses} : (diagBlock s c senses).Sound := by
  unfold diagBlock
  dsimp only
  refine ite_sound ?_ ?_
  · exact modChan_sound h
  · refine ite_sound ?_ ?_
    · split
      · exact modChan_sound (modChan_sound h)
      · exact modChan_sound (modChan_sound h)
      · exact ite_sound (modChan_sound (modChan_sound h)) (modChan_sound (modChan_sound h))
      · exact modChan_sound h
    · exact ite_else_sound (modChan_sound h) fun ht => ite_sound (modChan_sound ht) (ite_sound (modChan_sound ht)
        (ite_sound (modChan_sound ht) ht))

theorem diagMeasure_sound {raw} : (diagMeasure s raw).Sound := by
  unfold diagMeasure
  dsimp only
  split
  · exact ite_sound (sound_update h (by rfl)) h
  · exact h

theorem pathBlock_sound {c gains k} : (pathBlock s c gains k).Sound :=
  ite_then_sound (modChan_sound (modChan_sound h)) fun ht => modChan_sound ht

theorem chanBoundary_sound {i ps c} : (chanBoundary i ps s c).Sound := by
  unfold chanBoundary
  extract_lets x k r t
  have hr : r.1.Sound := by
    unfold r
    split
    · exact sagBlock_sound h
    · exact h
  exact modChan_sound (ite_sound (pathBlock_sound hr) (ite_then_sound hr fun hr => diagBlock_sound hr))

theorem latchEvent_sound {c} : (latchEvent s c).Sound := raise_sound h

theorem releaseChan_sound {c} : (releaseChan s c).Sound :=
  ite_sound h (ite_sound (latchEvent_sound (modChan_sound h)) (modChan_sound h))

theorem releaseChans_sound : (releaseChans s).Sound := ite_sound (foldl_sound h fun _ _ ht => releaseChan_sound ht) h

theorem linkTo_sound {down} : (linkTo s down).Sound :=
  ite_sound (foldl_sound (sound_update h (by rfl)) fun _ _ ht => ite_sound (modChan_sound ht) ht) (ite_then_sound
    (sound_update h (by rfl)) fun ht => releaseChans_sound ht)

theorem thermalRead_sound {temps} : (thermalRead s temps).Sound := by
  unfold thermalRead
  extract_lets _ t gf was now _ u b
  have hu : u.Sound := sound_update (s := t) (sound_update h (by rfl)) (by rfl)
  exact ite_sound (raise_sound hu) (ite_sound (raise_sound hu) hu)

theorem stageBoundary_sound {i} : (stageBoundary s i).Sound := by
  unfold stageBoundary
  extract_lets ps t
  have ht : t.Sound := foldl_sound (diagMeasure_sound h) fun _ _ ht => chanBoundary_sound ht
  exact thermalRead_sound (linkTo_sound (sound_update ht (by rfl)))

theorem doPstageStatus_sound {q} : (doPstageStatus q s).Sound := runOp_sound h fun _ ht => ht

theorem doPstageClear_sound {q} : (doPstageClear q s).Sound := runOp_sound h fun _ ht => ht

theorem clearChan_sound {c} : (clearChan s c).1.Sound := by
  unfold clearChan
  extract_lets x t
  have ht : t.Sound := modChan_sound h
  split
  · exact ite_then_sound ht fun ht => beginStart_sound ht
  · split
    · exact modChan_sound h
    · exact h

theorem clearChans_sound {mask} : (clearChans s mask).1.Sound :=
  List.foldlRecOn (motive := fun a : State × Nat => a.1.Sound) _ _ h fun _ ha _ _ => clearChan_sound ha

theorem doPstageSenseRead_sound {q} : (doPstageSenseRead q s).Sound :=
  runOp_sound h fun _ ht => leavesIte_sound trivial (leavesIte_sound trivial ht)

/-! ### Diag -/

theorem modDiag_sound {f} : (modDiag s f).Sound := sound_update h (by rfl)

theorem doDiagRun_sound {q} : (doDiagRun q s).Sound :=
  runOp_sound h fun _ ht => leavesIte_sound trivial (leavesIte_sound trivial (modDiag_sound (foldl_sound ht
    fun _ _ ht => ite_sound ht (beginStop_sound ht))))

theorem sweepStart_sound {mask} : (sweepStart s mask).Sound := by
  unfold sweepStart
  exact modDiag_sound (foldl_sound h fun _ _ ht => modChan_sound ht)

theorem nextSlot_sound {b} : (nextSlot s b).Sound := by
  unfold nextSlot
  split
  · exact modDiag_sound h
  · exact modDiag_sound h

theorem slotEnd_sound : (slotEnd s).Sound := by
  unfold slotEnd
  split
  · exact nextSlot_sound (modDiag_sound h)
  · exact h

theorem sweepFinish_sound {b} : (sweepFinish s b).Sound :=
  completeJob_sound (raise_sound (foldl_sound (modDiag_sound (foldl_sound h fun _ _ ht => modChan_sound ht))
    fun _ _ ht => ite_sound (latchEvent_sound ht) ht))

theorem sweepCut_sound {code} : (sweepCut s code).Sound := by
  unfold sweepCut
  dsimp only
  refine modDiag_sound ?_
  split
  · exact modDiag_sound h
  · exact h

theorem sweepDrop_sound {st} : (sweepDrop s st).Sound := completeJob_sound (modDiag_sound h)

theorem sweepAbort_sound : (sweepAbort s).Sound := by
  unfold sweepAbort
  split
  · exact h
  · exact sweepDrop_sound h
  · exact modDiag_sound h
  · exact modDiag_sound (modDiag_sound (sweepCut_sound h))

theorem sweepLeave_sound : (sweepLeave s).Sound := by
  unfold sweepLeave
  split
  · exact h
  · exact sweepDrop_sound h
  · exact sweepFinish_sound (modDiag_sound (sweepCut_sound h))

theorem sweepFail_sound : (sweepFail s).Sound := by
  unfold sweepFail
  split
  · exact h
  · exact sweepDrop_sound h
  · exact modDiag_sound (sweepCut_sound h)

theorem sweepSkip_sound {k} : (sweepSkip s k).Sound :=
  ite_sound (nextSlot_sound (modDiag_sound h)) (ite_sound (modDiag_sound h) h)

theorem sweepCutOff_sound {c} : (sweepCutOff s c).Sound := ite_then_sound (modDiag_sound h) fun ht => modDiag_sound ht

theorem fingerLatch_sound {k} : (fingerLatch s k).Sound :=
  ite_sound (raise_sound (addCount_sound (modChan_sound (modDiag_sound (sweepCutOff_sound h))))) (shutdown_sound h)

theorem doDiagResult_sound {q} : (doDiagResult q s).Sound := runOp_sound h fun _ ht => ht

/-! ### Bridge -/

theorem linkFail_sound : (linkFail s).Sound :=
  sweepFail_sound (linkTo_sound (foldl_sound (sound_update h (by rfl)) fun _ _ ht => ite_sound (shutdown_sound ht)
    ht))

theorem setStage_sound {pv thermal mv} : (setStage s pv thermal mv).Sound :=
  ite_else_sound (sound_update h (by rfl)) fun ht => ite_then_sound (raise_sound ht) fun hu => sweepFail_sound hu

theorem stopChan_sound {imm c} : (stopChan imm s c).Sound :=
  ite_else_sound (enChange_sound (wr_sound h)) fun ht => ite_sound (modChan_sound ht) (ite_sound (sweepSkip_sound ht)
    ht)

theorem stopsDone_sound : (stopsDone s).Sound := by
  unfold stopsDone
  refine foldl_sound h fun _ _ ht => ?_
  split
  · exact ite_sound (finalReply_sound ht) ht
  · exact ht

theorem doPstageStop_sound {q} : (doPstageStop q s).Sound :=
  runOp_sound h fun _ ht => leavesIte_sound (foldl_sound ht fun _ _ ht => stopChan_sound ht) (foldl_sound ht
    fun _ _ ht => stopChan_sound ht)

/-! ### Clock -/

theorem lockAt_sound {point} : (lockAt s point).Sound := modClock_sound h

theorem newLock_sound : (newLock s).Sound := lockAt_sound h

theorem oldLock_sound : (oldLock s).Sound := lockAt_sound h

theorem switchBack_sound : (switchBack s).Sound := by
  unfold switchBack
  exact completeJobs_sound (setRoot_sound (ite_then_sound (modClock_sound h) fun ht => newLock_sound ht))

theorem loadRatios_sound {d} : (loadRatios s d).Sound := sound_update h (by rfl)

theorem realignFrame_sound : (realignFrame s).Sound := ite_sound (loadRatios_sound (modClock_sound h)) h

theorem realignEnd_sound : (realignEnd s).Sound :=
  ite_sound h (ite_sound (modClock_sound h) (setRoot_sound (modClock_sound (addCount_sound h))))

theorem clockReadings_sound {i} : (clockReadings s i).Sound := modClock_sound h

theorem syncBoundary_sound {mark} : (syncBoundary s mark).Sound := ite_sound (modClock_sound h) h

theorem applySync_sound {v} : (applySync s v).Sound := ite_then_sound (wr_sound h) fun ht => refLost_sound ht

theorem crystalStop_sound : (crystalStop s).Sound :=
  sound_cycle (modClock_sound (clocksStop_sound (pathStop_sound h))) (by decide)

theorem modAux_sound {a f} : (modAux s a f).Sound := modClock_sound h

theorem auxPins_sound {a} : (auxPins s a).Sound := foldl_sound h fun _ _ ht => portPins_sound ht

theorem applyAuxCfg_sound {a v} : (applyAuxCfg s a v).Sound :=
  ite_sound (auxPins_sound (modAux_sound (wr_sound h))) (modAux_sound (wr_sound h))

theorem mclkCommit_sound {a v} : (mclkCommit a v s).Sound := ite_sound (applyAuxCfg_sound h) h

theorem applyAuxRatio_sound {a int num den} : (applyAuxRatio s a int num den).Sound :=
  ite_else_sound (wr_sound (wr_sound (wr_sound h))) fun ht => foldl_sound (modAux_sound ht) fun _ _ hu => ite_sound
    (portLose_sound hu) hu

theorem applyAuxWords_sound {a cfg int num den} : (applyAuxWords s a cfg int num den).Sound :=
  ite_sound (applyAuxRatio_sound (applyAuxCfg_sound h)) (wr_sound (wr_sound (wr_sound (applyAuxCfg_sound h))))

theorem enterSegment_sound {a k from_} : (enterSegment s a k from_).Sound := modAux_sound h

theorem profileAct_sound {a start} : (profileAct s a start).Sound := ite_sound (enterSegment_sound h) (modAux_sound h)

theorem doAuxProfile_sound {q} : (doAuxProfile q s).Sound :=
  runOp_sound h fun _ ht => leavesIte_sound trivial (leavesIte_sound trivial (leavesIte_sound trivial
    (leavesIte_sound trivial ht)))

theorem doClockStatus_sound {q} : (doClockStatus q s).Sound := runOp_sound h fun _ ht => ht

theorem doRootRestart_sound {q} : (doRootRestart q s).Sound :=
  runOp_sound h fun _ ht => leavesIte_sound trivial (restartRoot_sound ht)

theorem rootStop_sound : (rootStop s).Sound := setRoot_sound (modClock_sound h)

theorem rootStart_sound : (rootStart s).Sound := ite_sound (modClock_sound h) h

/-! ### Touch -/

theorem modEl_sound {n f} : (modEl s n f).Sound := sound_update h (by rfl)

theorem touchEnd_sound {c swiped pos b cyc} : (touchEnd s c swiped pos b cyc).Sound :=
  ite_then_sound (raise_sound h) fun ht => raise_sound ht

theorem elRelease_sound {n} : (elRelease s n).Sound := ite_sound (touchEnd_sound h) h

theorem sliderRelease_sound : (sliderRelease s).Sound := ite_sound (touchEnd_sound (sound_update h (by rfl))) h

theorem scanIdle_sound {n} : (scanIdle s n).Sound :=
  ite_sound (ite_else_sound (modEl_sound h) fun ht => raise_sound ht) (ite_sound (raise_sound (modEl_sound h))
    (modEl_sound h))

theorem scanTouched_sound {n} : (scanTouched s n).Sound := ite_sound (modEl_sound (elRelease_sound h)) (modEl_sound h)

theorem scanCal_sound {n} : (scanCal s n).Sound := modEl_sound h

theorem scanTakes_sound {n} : (scanTakes s n).Sound :=
  ite_sound (modEl_sound h) (ite_sound (ite_then_sound (modEl_sound (elRelease_sound h)) fun ht => raise_sound ht) h)

theorem scanRead_sound {n raw} : (scanRead s n raw).Sound := by
  unfold scanRead
  dsimp only
  refine ite_sound ?_ ?_
  · exact ite_then_sound (modEl_sound h) fun ht => modEl_sound ht
  · refine ite_sound ?_ ?_
    · exact raise_sound (modEl_sound (modEl_sound h))
    · split
      · exact scanCal_sound (modEl_sound h)
      · exact scanIdle_sound (modEl_sound h)
      · exact scanTouched_sound (modEl_sound h)
      · exact modEl_sound h

theorem scanEl_sound {n raw} : (scanEl s n raw).Sound :=
  ite_else_sound (scanTakes_sound h) fun ht => scanRead_sound ht

theorem swipe_sound {up} : (swipe s up).Sound := raise_sound (sound_update h (by rfl))

theorem scanSlider_sound : (scanSlider s).Sound :=
  ite_sound (sound_update h (by rfl)) (ite_sound (sliderRelease_sound h) (ite_sound (raise_sound (sound_update h (by
    rfl))) (ite_then_sound (ite_then_sound (sound_update h (by rfl)) fun ht => swipe_sound ht) fun ht => swipe_sound
    ht)))

theorem sliderLeft_sound : (sliderLeft s).Sound := ite_sound h (sliderRelease_sound h)

theorem recalDone_sound : (recalDone s).Sound := by
  unfold recalDone
  refine foldl_sound h fun _ _ ht => ?_
  split
  · exact ite_sound (finalReply_sound ht) ht
  · exact ht

theorem applyTchCfg_sound {n v} : (applyTchCfg s n v).Sound :=
  ite_else_sound (wr_sound h) fun ht => ite_sound (recalDone_sound (ite_then_sound (modEl_sound (elRelease_sound ht))
    fun hu => sliderLeft_sound hu)) (ite_sound (modEl_sound ht) (modEl_sound ht))

theorem applySldCfg_sound {v} : (applySldCfg s v).Sound :=
  ite_sound h (wr_sound (sound_update (sliderRelease_sound h) (by rfl)))

theorem scanStop_sound : (scanStop s).Sound := by
  unfold scanStop
  extract_lets t u
  have hu : u.Sound := sliderRelease_sound (foldl_sound h fun _ _ ht => elRelease_sound ht)
  exact ite_sound h (sound_update hu (by rfl))

theorem scanStart_sound : (scanStart s).Sound := sound_update h (by rfl)

theorem modKey_sound {k f} : (modKey s k f).Sound := sound_update h (by rfl)

theorem doTouchStatus_sound {q} : (doTouchStatus q s).Sound := runOp_sound h fun _ ht => ht

theorem doTouchRecal_sound {q} : (doTouchRecal q s).Sound :=
  runOp_sound h fun _ ht => leavesIte_sound trivial (leavesIte_sound trivial (foldl_sound ht fun _ _ ht =>
    modEl_sound ht))

theorem doKeyStatus_sound {q} : (doKeyStatus q s).Sound := runOp_sound h fun _ ht => ht

/-! ### Health -/

theorem modDec_sound {d f} : (modDec s d f).Sound := modHealth_sound h

theorem logRepair_sound {kind spareFail unit finger cause promoted want} : (logRepair s kind spareFail unit finger
  cause promoted want).Sound :=
  ite_then_sound (raise_sound (ite_sound (modHealth_sound h) h)) fun ht => raise_sound (modHealth_sound ht)

theorem forcedDone_sound {f} : (forcedDone s f).Sound := by
  unfold forcedDone
  split
  · exact completeJob_sound h
  · exact h

theorem forcedLost_sound {f} : (forcedLost s f).Sound := by
  unfold forcedLost
  split
  · exact completeJob_sound h
  · exact h

theorem dropMigration_sound : (dropMigration s).Sound := by
  unfold dropMigration
  split
  · exact h
  · exact ite_else_sound (modHealth_sound h) fun ht => raise_sound ht

theorem bankTrigger_sound {b trig cause} : (bankTrigger s b trig cause).Sound := by
  unfold bankTrigger
  dsimp only
  refine ite_sound ?_ ?_
  · exact ite_else_sound (raise_sound h) fun ht => modHealth_sound ht
  · refine ite_sound ?_ ?_
    · exact h
    · split
      · exact ite_then_sound (logRepair_sound (raise_sound (modBank_sound h))) fun ht => modHealth_sound
          (dropMigration_sound ht)
      · exact logRepair_sound (raise_sound (modBank_sound h))

theorem triggerOnce_sound {b trig cause} : (triggerOnce s b trig cause).Sound :=
  ite_sound h (bankTrigger_sound (modBank_sound h))

theorem memStop_sound : (memStop s).Sound := modHealth_sound h

theorem memStart_sound : (memStart s).Sound := modHealth_sound h

theorem ce2Outcome_sound {b} : (ce2Outcome s b).Sound :=
  ite_then_sound (modBank_sound h) fun ht => triggerOnce_sound (nextFree_sound ht)

theorem ueOutcome_sound {b} : (ueOutcome s b).Sound := modBank_sound h

theorem taskRead_sound {x} : (taskRead s x).Sound :=
  ite_sound h (ite_sound (modBank_sound (setFlips_sound h)) (ite_sound (ce2Outcome_sound (setFlips_sound h))
    (setFlips_sound h)))

theorem taskErrors_sound {i} : (taskErrors s i).Sound :=
  foldl_sound (sound_update (foldl_sound h fun _ _ ht => taskRead_sound ht) (by rfl)) fun _ _ ht => upset_sound ht

theorem scrubNext_sound {b errors} : (scrubNext s b errors).Sound :=
  ite_then_sound (modBank_sound h) fun ht => triggerOnce_sound (nextFree_sound ht)

theorem injectSpent_sound {x} : (injectSpent s x).Sound := completeJob_sound (modHealth_sound h)

theorem scrubParity_sound {b x2} : (scrubParity s b x2).Sound := sendReport_sound (injectSpent_sound h)

theorem scrubOutcome_sound {b w l} : (scrubOutcome s b w l).Sound := by
  unfold scrubOutcome
  dsimp only
  refine ite_sound ?_ ?_
  · refine sendReport_sound ?_
    refine ueOutcome_sound ?_
    split
    · exact injectSpent_sound (scrubNext_sound (poison_sound h))
    · exact scrubNext_sound (poison_sound h)
  · exact ite_then_sound (scrubNext_sound (setFlips_sound h)) fun ht => ce2Outcome_sound ht

theorem stopTask_sound {u replay} : (stopTask s u replay).1.Sound := by
  unfold stopTask
  split
  · exact h
  · dsimp only
    split
    · exact sound_update (countCycles_sound (strayWrites_sound h)) (by rfl)
    · exact h

theorem blankLine_sound {inst} : (blankLine s inst).Sound := by
  unfold blankLine
  dsimp only
  split
  · exact nextFree_sound (nextFree_sound (sound_update h (by rfl)))
  · exact h

theorem wordFault_sound {u w} : (wordFault s u w).1.Sound := by
  unfold wordFault
  split
  · exact stopTask_sound h
  · exact stopTask_sound (sound_update h (by rfl))
  · refine stopTask_sound (nextFree_sound (sound_graph h ?_))
    exact imagesWf_modSlot h.images fun _ hx => hx
  · exact blankLine_sound h
  · exact h

theorem readLeaves_sound {r cls} : (readLeaves s r cls).Sound := by
  unfold readLeaves
  split
  · exact ite_sound (poison_sound h) (ite_sound (setFlips_sound h) h)
  · exact h

theorem faultFound_sound {r injected} : (faultFound s r injected).Sound := by
  unfold faultFound
  extract_lets t u x v _ w
  have ht : t.Sound := readLeaves_sound h
  have hu : u.Sound := ite_then_sound ht fun ht => ueOutcome_sound ht
  have hx : x.1.Sound := by
    unfold x
    split
    · exact stopTask_sound hu
    · split
      · exact wordFault_sound hu
      · exact hu
  have hv : v.Sound := ite_then_sound hx fun hx => modHealth_sound hx
  have hw : w.Sound := by
    unfold w
    split
    · exact sound_update hv (by rfl)
    · exact sound_update hv (by rfl)
    · exact hv
  exact sendReport_sound hw

theorem detect_sound {r} : (detect s r).Sound := by
  unfold detect
  dsimp only
  refine ite_sound ?_ ?_
  · exact h
  · split
    · exact faultFound_sound h
    · exact faultFound_sound (injectSpent_sound h)
    · exact h

theorem retireRunning_sound {k me i r since} : (retireRunning s k me i r since).Sound :=
  ite_sound (retireTask_sound h) h

theorem injectWatchdog_sound : (injectWatchdog s).Sound :=
  foldl_sound h fun _ _ ht => ite_sound (faultFound_sound (injectSpent_sound ht)) ht

theorem injectFrame_sound : (injectFrame s).Sound :=
  ite_sound h (foldl_sound h fun _ _ ht => faultFound_sound (injectSpent_sound ht))

theorem refillOne_sound {bad i} : (refillOne bad s i).Sound := by
  unfold refillOne
  dsimp only
  split
  · exact sendReport_sound (injectSpent_sound (nextFree_sound h))
  · exact ite_then_sound (nextFree_sound h) fun ht => sendReport_sound ht

theorem spareFails_sound {u} : (spareFails s u).Sound :=
  logRepair_sound (ite_sound (modHealth_sound (sound_update (sendReport_sound h) (by rfl))) (modHealth_sound
    (modDec_sound (sendReport_sound h))))

theorem fingerFailed_sound {hb f} : (fingerFailed s hb f).Sound :=
  ite_else_sound (sendReport_sound h) fun ht => ite_then_sound (modHealth_sound ht) fun hu => fingerLatch_sound hu

theorem testReport_sound {r} : (testReport s r).Sound := ite_sound (spareFails_sound h) h

theorem enterTable_sound {r rs} : (enterTable s r rs).Sound := by
  unfold enterTable
  dsimp only
  split
  · exact modHealth_sound h
  · split
    · exact raiseAt_sound (modHealth_sound h)
    · exact ite_else_sound (modHealth_sound h) fun ht => raiseAt_sound ht

theorem limitReached_sound {u cls} : (limitReached s u cls).Sound := by
  unfold limitReached
  split
  · exact ite_sound (sound_update h (by rfl)) h
  · exact ite_sound (sound_update h (by rfl)) h
  · exact ite_sound h (triggerOnce_sound h)
  · exact ite_sound (modHealth_sound h) h
  · exact h

theorem incident_sound {u cls b} : (incident s u cls b).Sound :=
  ite_else_sound (modHealth_sound h) fun ht => ite_then_sound (ite_then_sound (modHealth_sound ht) fun hu =>
    modBank_sound hu) fun hu => limitReached_sound hu

theorem portReset_sound {b} : (portReset s b).Sound := ite_sound h (modBank_sound h)

theorem joinReplays_sound {ts} : (joinReplays s ts).Sound := sound_update h (by rfl)

theorem portAction_sound {b real} : (portAction s b real).Sound :=
  ite_sound (portReset_sound h) (ite_sound (portReset_sound (modBank_sound h)) (ite_sound h (sound_update h (by
    rfl))))

theorem enterKey_sound {r rs ts} : (enterKey s r rs ts).Sound := by
  unfold enterKey
  exact modHealth_sound (ite_then_sound (ite_then_sound (ite_then_sound (enterTable_sound h) fun ht => incident_sound
    ht) fun ht => portAction_sound ht) fun ht => triggerOnce_sound ht)

theorem enterKeys_sound {n rs ts} : (enterKeys n s rs ts).Sound := by
  induction n generalizing s rs ts with
  | zero => exact joinReplays_sound (modHealth_sound h)
  | succ n ih =>
    cases rs with
    | nil => exact joinReplays_sound h
    | cons r rs => exact ih (enterKey_sound h)

theorem retireOe_sound {i cause floor log} : (retireOe s i cause floor log).1.Sound := by
  unfold retireOe
  split
  · exact logRepair_sound (modHealth_sound (sound_update h (by rfl)))
  · exact ite_fst_sound h (logRepair_sound (sound_update h (by rfl)))

theorem retireMe_sound {i cause floor log} : (retireMe s i cause floor log).1.Sound :=
  ite_fst_sound h (logRepair_sound (sound_update h (by rfl)))

theorem retireStruck_sound {me} : (retireStruck s me).Sound := by
  unfold retireStruck
  refine foldl_sound h fun _ _ ht => ?_
  split
  · exact sound_update (ite_fst_sound ht (ite_fst_sound (retireMe_sound ht) (retireOe_sound ht))) (by rfl)
  · exact ht

theorem retireForced_sound : (retireForced s).Sound :=
  foldl_sound (modHealth_sound h) fun _ _ ht => ite_sound (forcedDone_sound (ite_fst_sound ht (ite_fst_sound
    (retireMe_sound ht) (retireOe_sound ht)))) (forcedLost_sound (ite_fst_sound ht (ite_fst_sound (retireMe_sound ht)
    (retireOe_sound ht))))

theorem swapStart_sound {x} : (swapStart s x).Sound := by
  unfold swapStart
  refine ite_sound ?_ ?_
  · exact h
  · refine ite_sound ?_ ?_
    · exact modHealth_sound h
    · split
      · exact modHealth_sound h
      · exact forcedLost_sound (modHealth_sound h)

theorem swapEnd_sound {x} : (swapEnd s x).Sound := by
  unfold swapEnd
  split
  · exact ite_sound (forcedDone_sound (logRepair_sound (modHealth_sound (modDec_sound (modDec_sound h))))) h
  · exact h

theorem testOver_sound {x} : (testOver s x).Sound := by
  unfold testOver
  exact modHealth_sound h

theorem serviceTests_sound : (serviceTests s).Sound := by
  unfold serviceTests
  refine foldl_sound h fun _ _ ht => ?_
  split
  · exact ite_sound (finalReply_sound ht) (ite_sound ht (modHealth_sound ht))
  · exact ht

theorem injectExpire_sound : (injectExpire s).Sound :=
  ite_sound h (foldl_sound (modHealth_sound h) fun _ _ ht => completeJob_sound ht)

theorem healthBoundary_sound : (healthBoundary s).Sound :=
  serviceTests_sound (modHealth_sound (injectExpire_sound (completeJobs_sound (modHealth_sound h))))

theorem doHealthStatus_sound {q} : (doHealthStatus q s).Sound := runOp_sound h fun _ ht => ht

theorem doFaultTableRead_sound {q} : (doFaultTableRead q s).Sound :=
  runOp_sound h fun _ ht => leavesIte_sound trivial ht

theorem doFaultTableClear_sound {q} : (doFaultTableClear q s).Sound :=
  runOp_sound h fun _ ht => leavesIte_sound trivial (modHealth_sound ht)

theorem doRepairLogRead_sound {q} : (doRepairLogRead q s).Sound := runOp_sound h fun _ ht => ht

theorem doBankCounters_sound {q} : (doBankCounters q s).Sound := runOp_sound h fun _ ht => ht

theorem doHealthCfg_sound {q} : (doHealthCfg q s).Sound :=
  runOp_sound h fun _ ht => leavesIte_sound ht (leavesIte_sound trivial (modHealth_sound ht))

theorem doRepairForce_sound {q} : (doRepairForce q s).Sound :=
  runOp_sound h fun _ ht => leavesIte_sound trivial (leavesIte_sound trivial (leavesIte_sound trivial
    (modHealth_sound ht)))

theorem forceAbort_sound {id} : (forceAbort s id).Sound := by
  unfold forceAbort
  exact modHealth_sound (ite_sound (dropMigration_sound h) h)

theorem doFaultInject_sound {q} : (doFaultInject q s).Sound := by
  refine runOp_sound h fun _ ht => ?_
  split
  · exact leavesIte_sound trivial (leavesIte_sound trivial (modHealth_sound ht))
  · exact trivial

theorem doSvcRawRead_sound {q} : (doSvcRawRead q s).Sound := runOp_sound h fun _ ht => leavesIte_sound trivial ht

theorem doSvcSpareTest_sound {q} : (doSvcSpareTest q s).Sound :=
  runOp_sound h fun _ ht => leavesIte_sound trivial (leavesIte_sound trivial ht)

theorem applyLogEntry_sound {w} : (applyLogEntry s w).Sound := by
  unfold applyLogEntry
  dsimp only
  refine ite_sound ?_ ?_
  · split
    · exact modHealth_sound (sound_update h (by rfl))
    · exact modBank_sound h
    · exact modDec_sound h
    · exact h
  · split
    · split
      · exact sound_update h (by rfl)
      · exact sound_update h (by rfl)
    · split
      · exact modBank_sound (modBank_sound h)
      · exact modBank_sound h
    · split
      · exact modHealth_sound (modDec_sound (modDec_sound h))
      · exact modDec_sound h
    · exact modHealth_sound h
    · exact sound_update h (by rfl)
    · exact h

theorem applyFactory_sound : (applyFactory s).Sound :=
  ite_sound h (foldl_sound h fun _ _ ht => applyLogEntry_sound ht)

theorem applyLog_sound : (applyLog s).Sound := foldl_sound h fun _ _ ht => applyLogEntry_sound ht

/-! ### Params -/

theorem rawRegs_sound {es} : (rawRegs s es).Sound := by
  unfold rawRegs
  refine foldl_sound h fun _ _ ht => ?_
  split
  · exact ite_sound (wr_sound ht) ht
  · exact ht

theorem applyReg_sound {r v} : (applyReg s r v).Sound := by
  unfold applyReg
  split
  · exact applyPortCfg_sound h
  · exact applyPortCfg_sound h
  · exact applyPortCfg_sound h
  · exact applyMap_sound h
  · exact applyMap_sound h
  · exact applyAdcCfg_sound h
  · exact applyAdcCfg_sound h
  · exact applyMicbias_sound h
  · exact applyHpCfg_sound h
  · exact applyLoCfg_sound h
  · exact applyChanCfg_sound h
  · exact applyChanCfg_sound h
  · exact applyVfs_sound h
  · exact memberUpdate_sound (wr_sound h)
  · exact applyAuxCfg_sound h
  · exact applyAuxRatio_sound h
  · exact applyAuxRatio_sound h
  · exact applyAuxRatio_sound h
  · exact applySync_sound h
  · exact applyPdmCfg_sound h
  · exact wakeMoved_sound (applyPmicCfg_sound h)
  · exact applyBeamCfg_sound h
  · exact applyCoolerCfg_sound h
  · exact applyTchCfg_sound h
  · exact applySldCfg_sound h
  · exact restartRoot_sound (wr_sound h)
  · exact restartRoot_sound (wr_sound h)
  · exact wr_sound h

theorem applyImmediate_sound {es} : (applyImmediate s es).Sound :=
  ite_then_sound (rawRegs_sound h) fun ht => restartRoot_sound ht

theorem schedule_sound {c} : (schedule s c).Sound := sound_update h (by rfl)

theorem modHamper_sound {k f} : (modHamper s k f).Sound := sound_update h (by rfl)

theorem doParamWrite_sound {q} : (doParamWrite q s).Sound := by
  refine runOp_sound h fun _ ht => ?_
  dsimp only
  refine leavesIte_sound ?_ ?_
  · exact trivial
  · split
    · exact trivial
    · exact leavesIte_sound (applyImmediate_sound ht) (schedule_sound (applyImmediate_sound ht))

theorem readClear_sound {a} : (readClear s a).Sound := by
  unfold readClear
  refine ite_sound ?_ ?_
  · exact h
  · split
    · exact ite_sound (rcClear_sound h) h
    · exact ite_sound (rcClear_sound h) h
    · exact h

theorem doParamRead_sound {q} : (doParamRead q s).Sound := by
  refine runOp_sound h fun _ ht => ?_
  dsimp only
  refine leavesIte_sound ?_ ?_
  · exact trivial
  · split
    · exact trivial
    · exact foldl_sound ht fun _ _ ht => readClear_sound ht

theorem doHamperOpen_sound {q} : (doHamperOpen q s).Sound := by
  refine runOp_sound h fun _ ht => ?_
  dsimp only
  refine leavesIte_sound ?_ ?_
  · exact trivial
  · refine leavesIte_sound ?_ ?_
    · exact trivial
    · split
      · exact trivial
      · exact modHamper_sound ht

theorem doHamperStage_sound {q} : (doHamperStage q s).Sound :=
  runOp_sound h fun _ ht => leavesIte_sound trivial (leavesIte_sound trivial (leavesIte_sound trivial
    (leavesIte_sound trivial (leavesIte_sound trivial (leavesIte_sound trivial (leavesIte_sound trivial
    (leavesIte_sound trivial (modHamper_sound ht))))))))

theorem doHamperCommit_sound {q} : (doHamperCommit q s).Sound :=
  runOp_sound h fun _ ht => leavesIte_sound trivial (leavesIte_sound trivial (leavesIte_sound trivial
    (modHamper_sound (schedule_sound ht))))

theorem doHamperDiscard_sound {q} : (doHamperDiscard q s).Sound :=
  runOp_sound h fun _ ht => leavesIte_sound trivial (leavesIte_sound trivial (leavesIte_sound trivial
    (modHamper_sound ht)))

theorem doHamperStatus_sound {q} : (doHamperStatus q s).Sound := runOp_sound h fun _ ht => ht

theorem slotGone_sound {i} : (slotGone s i).Sound := sound_update h (by rfl)

theorem putWord_sound {slot inst i v} : (putWord s slot inst i v).Sound :=
  sound_graph h (imagesWf_modSlot h.images fun _ hx => imageWrite_rising _ _ _ hx)

theorem rawAll_sound {slot es} : (rawAll s slot es).Sound :=
  foldl_sound h fun _ _ ht => ite_sound (putWord_sound ht) (rawRegs_sound ht)

theorem endCommit_sound {c ok} : (endCommit s c ok).Sound := by
  unfold endCommit
  dsimp only
  split
  · exact modHamper_sound (sound_update h (by rfl))
  · exact sound_update h (by rfl)

theorem failCommit_sound {c st} : (failCommit s c st).Sound := completeJob_sound (endCommit_sound h)

theorem applyWord_sound {x} : (applyWord s x).Sound := by
  unfold applyWord
  extract_lets c sl m inst i e t u taking clear _ v
  have ht : t.Sound := putWord_sound h
  have hu : u.Sound := sound_graph ht (imagesWf_modSlot ht.images fun _ hx => hx)
  have hv : v.Sound := ite_then_sound hu fun hu => sound_update hu (by rfl)
  exact ite_sound hv (sound_update hv (by rfl))

theorem applyRoute_sound {r unit v} : (applyRoute s r unit v).Sound :=
  ite_else_sound (wr_sound h) fun ht => ite_else_sound (sound_update ht (by rfl)) fun hu => sound_update hu (by rfl)

theorem applyChange_sound {x} : (applyChange s x).Sound := by
  unfold applyChange
  refine ite_sound ?_ ?_
  · exact applyWord_sound h
  · split
    · exact h
    · exact applyPmicCfg_sound h
    · exact ite_sound (applyRoute_sound h) (applyReg_sound h)

theorem applyAuxChanges_sound {l} : (applyAuxChanges s l).Sound :=
  foldl_sound h fun _ _ ht => ite_sound (applyAuxWords_sound ht) ht

theorem applyChanges_sound {l} : (applyChanges s l).Sound :=
  wakeMoved_sound (foldl_sound (applyAuxChanges_sound h) fun _ _ ht => applyChange_sound ht)

/-! ### Slots -/

theorem slotAt_rising (i : Nat) : assocRising (slotAt s i).image = true := imagesWf_getD h.images i

theorem setSlot_sound {i} {x : Slot} (hx : assocRising x.image = true) : (setSlot s i x).Sound :=
  sound_graph h (imagesWf_modSlot h.images fun _ _ => hx)

theorem doGraphBegin_sound {q} : (doGraphBegin q s).Sound := by
  refine runOp_sound h fun _ ht => ?_
  refine leavesIte_sound trivial (leavesIte_sound trivial (leavesIte_sound trivial (leavesIte_sound ?_ ?_)))
  · exact slotGone_sound (setSlot_sound ht rfl)
  · exact sound_update (slotGone_sound (setSlot_sound ht rfl)) (by rfl)

theorem doGraphData_sound {q} : (doGraphData q s).Sound :=
  runOp_sound h fun _ ht => leavesIte_sound trivial (leavesIte_sound trivial (leavesIte_sound trivial
    (setSlot_sound ht (imageWrite_rising _ _ _ (slotAt_rising ht _)))))

theorem doGraphEnd_sound {q} : (doGraphEnd q s).Sound :=
  runOp_sound h fun _ ht => leavesIte_sound trivial (leavesIte_sound trivial (leavesIte_sound trivial
    (setSlot_sound ht (slotAt_rising ht _))))

theorem doGraphUnload_sound {q} : (doGraphUnload q s).Sound :=
  runOp_sound h fun _ ht => leavesIte_sound trivial (leavesIte_sound trivial (leavesIte_sound ht
    (leavesIte_sound trivial (slotGone_sound (setSlot_sound ht rfl)))))

theorem armed_sound {a} : { s with graph := { s.graph with act := a } }.Sound := sound_update h (by rfl)

theorem doGraphActivate_sound {q} : (doGraphActivate q s).Sound :=
  runOp_sound h fun _ ht => leavesIte_sound trivial (leavesIte_sound trivial
    (armed_sound (ite_sound ht (setSlot_sound ht (by exact slotAt_rising ht _)))))

theorem disarm_sound {a} : (disarm s a).Sound := by
  unfold disarm
  dsimp only
  split
  · exact setSlot_sound (sound_update h (by rfl)) (slotAt_rising (sound_update h (by rfl)) _)
  · exact sound_update h (by rfl)

theorem switchGraph_sound {a} : (switchGraph s a).Sound := sound_graph h (switchSlots_images h.images a)

theorem doGraphStatus_sound {q} : (doGraphStatus q s).Sound := runOp_sound h fun _ ht => ht

theorem doLoadMeter_sound {q} : (doLoadMeter q s).Sound := runOp_sound h fun _ ht => ht

theorem doLoadMeterSet_sound {q} : (doLoadMeterSet q s).Sound :=
  runOp_sound h fun _ ht => leavesIte_sound trivial (sound_update ht (by rfl))

theorem doMemRead_sound {q} : (doMemRead q s).Sound :=
  runOp_sound h fun _ ht => leavesIte_sound trivial (leavesIte_sound trivial (leavesIte_sound ht ht))

theorem doMemWrite_sound {q} : (doMemWrite q s).Sound :=
  runOp_sound h fun _ ht => leavesIte_sound trivial (leavesIte_sound trivial
    (setSlot_sound ht (imageWrite_rising _ _ _ (slotAt_rising ht _))))

theorem sramLost_sound : (sramLost s).Sound := by
  unfold sramLost
  extract_lets t u keep
  have hu : u.Sound := slotGone_sound (slotGone_sound (completeJobs_sound h))
  exact ⟨hu.regs, hu.otp, hu.cooler, rfl, hu.spi, hu.addrA, hu.addrB, hu.fifo, hu.aon, hu.cycle⟩

/-! ### Power -/

theorem modPower_sound {f} : (modPower s f).Sound := sound_update h (by rfl)

/-- A reset keeps of the stores the OTP array alone (R489). -/
theorem deviceReset_sound {code} : (deviceReset code s).Sound where
  regs := resetStateIsSound.1.regs
  otp := h.otp
  cooler := rfl
  images := rfl
  spi := rfl
  addrA := rfl
  addrB := rfl
  fifo := Nat.zero_le 64
  aon := Nat.zero_le 8
  cycle := (by decide : 0 < 294912)

theorem shipExit_sound {code} : (shipExit code s).Sound := sound_update (deviceReset_sound h) (by rfl)

theorem powerEvent_sound {new prev reason source} : (powerEvent s new prev reason source).Sound := raise_sound h

theorem a1Begin_sound : (a1Begin s).Sound := rootStart_sound (modPower_sound h)

theorem startChange_sound {target reason source keep cmd} : (startChange s target reason source keep cmd).Sound :=
  ite_then_sound (modPower_sound h) fun ht => a1Begin_sound ht

theorem actHeld_sound : (actHeld s).Sound := by
  unfold actHeld
  split
  · exact h
  · exact ite_sound h (ite_sound (ite_then_sound (modPower_sound h) fun ht => shipExit_sound ht) (ite_sound
      (startChange_sound (modPower_sound h)) (ite_then_sound (modPower_sound h) fun ht => startChange_sound ht)))

theorem completeChange_sound {c} : (completeChange s c).Sound :=
  actHeld_sound (completeJob_sound (modPower_sound (powerEvent_sound h)))

theorem d3Begin_sound {c} : (d3Begin s c).Sound := completeJob_sound (modPower_sound h)

theorem stepDone_sound {c b} : (stepDone s c b).Sound := by
  unfold stepDone
  dsimp only
  split
  · exact completeChange_sound h
  · exact ite_then_sound (modPower_sound h) fun ht => d3Begin_sound ht

theorem d1Act_sound : (d1Act s).Sound := by
  unfold d1Act
  dsimp only
  refine modLo_sound ?_
  refine modHp_sound ?_
  refine foldl_sound (sweepLeave_sound h) fun _ _ ht => ?_
  split
  · exact beginStop_sound ht
  · exact beginStop_sound ht
  · exact ht

theorem testsGated_sound : (testsGated s).Sound := modHealth_sound h

theorem clocksStart_sound {listen} : (clocksStart s listen).Sound :=
  pathStart_sound (modWake_sound (modSrcs_sound (modSrcs_sound (clockTo_sound (clockTo_sound h)))) fun _ => by rfl)

theorem anaOff_sound : (anaOff s).Sound := sound_update h (by rfl)

theorem d2Act_sound {c} : (d2Act s c).Sound := by
  unfold d2Act
  extract_lets listen t u v
  have ht : t.Sound := memStop_sound (scanStop_sound (rootStop_sound (portsTo_sound h)))
  have hu : u.Sound := anaOff_sound (modPower_sound ht)
  have hv : v.Sound := ite_else_sound hu fun hu => sramLost_sound hu
  exact ite_sound (crystalStop_sound hv) (ite_sound (clockDue_sound (clockDue_sound (endFetches_sound hv)))
    (clocksStop_sound (pathStop_sound hv)))

theorem routingLost_events {pend newBits lost lostSince alert} :
    { s with events := { s.events with fifo := [], pend := pend, newBits := newBits, lost := lost,
                                       lostSince := lostSince, alert := alert } }.Sound :=
  sound_events h (Nat.zero_le 64) h.aon

theorem routingLost_sound : (routingLost s).Sound :=
  foldl_sound (wr_sound (routingLost_events h)) fun _ _ ht => wr_sound ht

theorem shipEnter_sound : (shipEnter s).Sound := by
  unfold shipEnter
  have ht := routingLost_sound (sramLost_sound (rootStop_sound (clocksStop_sound (pathStop_sound h))))
  generalize routingLost _ = t at ht
  obtain ⟨hregs, hotp, -, himages, -, -, -, hfifo, haon, hcycle⟩ := ht
  exact ⟨hregs, hotp, rfl, himages, portOff_places _, portOff_places _, portOff_places _, hfifo, haon, hcycle⟩

theorem swapAct_sound {c} : (swapAct s c).Sound :=
  ite_sound (clocksStart_sound (ite_else_sound (modPower_sound h) fun ht => sramLost_sound ht)) (clocksStop_sound
    (pathStop_sound (ite_else_sound (modPower_sound h) fun ht => sramLost_sound ht)))

theorem sramInit_sound : (sramInit s).Sound := ite_sound h (sound_update h (by rfl))

theorem sysStart_sound : (sysStart s).Sound :=
  classifyStart_sound (biasUpdate_sound (scanStart_sound (portsTo_sound (sound_update (modPower_sound (memStart_sound
    (sramInit_sound h))) (by rfl)))))

theorem bootPlay_sound : (bootPlay s).Sound := foldl_sound h fun _ _ ht => ite_sound (applyChanCfg_sound ht) ht

theorem testsUngated_sound : (testsUngated s).Sound := serviceTests_sound (modHealth_sound h)

theorem a2Act_sound : (a2Act s).Sound :=
  loTryUp_sound (hpTryUp_sound (ite_then_sound (ite_then_sound (sound_update (modPower_sound h) (by rfl)) fun ht =>
    computeStart_sound ht) fun ht => bootPlay_sound ht))

theorem chargerTo_sound {level} : (chargerTo s level).Sound :=
  ite_sound h (ite_then_sound (modPower_sound h) fun ht => powerEvent_sound ht)

theorem wakeAct_sound {c} : (wakeAct s c).Sound :=
  ite_sound (shipExit_sound h) (ite_sound (sound_update h (by rfl)) (ite_sound h (ite_sound (modPower_sound h)
    (ite_else_sound (modPower_sound h) fun ht => ite_sound (ite_sound ht (startChange_sound h)) h))))

theorem doPowerStatus_sound {q} : (doPowerStatus q s).Sound := runOp_sound h fun _ ht => nextFree_sound ht

theorem doPowerModeSet_sound {q} : (doPowerModeSet q s).Sound := by
  refine runOp_sound h fun _ ht => ?_
  split
  · exact trivial
  · exact leavesIte_sound trivial (leavesIte_sound ht (leavesIte_sound (modPower_sound (startChange_sound ht))
      (startChange_sound ht)))

theorem changeAbort_sound : (changeAbort s).Sound := actHeld_sound (completeJob_sound (modPower_sound h))

theorem doWakeCfg_sound {q} : (doWakeCfg q s).Sound := by
  refine runOp_sound h fun _ ht => ?_
  refine leavesIte_sound ?_ ?_
  · exact ht
  · split
    · exact trivial
    · exact modPower_sound ht

theorem doResetInfo_sound {q} : (doResetInfo q s).Sound := runOp_sound h fun _ ht => ht

/-! ### Boot -/

theorem bootFailed_sound : (bootFailed s).Sound := sound_update (rootStop_sound h) (by rfl)

theorem doResetDevice_sound {q} : (doResetDevice q s).Sound := runOp_sound h fun _ ht => deviceReset_sound ht

theorem countGroup_sound {b ok} : (countGroup s b ok).Sound :=
  ite_sound h (ite_sound (sound_update h (by rfl)) (sound_update h (by rfl)))

theorem applyGroup_sound {b ok} {f : State → State} (hf : ∀ t : State, t.Sound → (f t).Sound) :
    (applyGroup s b ok f).Sound :=
  countGroup_sound (ite_sound (hf s h) h)

theorem applyBootGroup_sound : (applyBootGroup s).Sound := by
  unfold applyBootGroup
  exact applyGroup_sound h fun _ ht => sound_update ht (by rfl)

theorem applyWakeGroup_sound : (applyWakeGroup s).Sound := by
  unfold applyWakeGroup
  exact applyGroup_sound h fun _ ht => modPower_sound ht

theorem applyClassGroup_sound : (applyClassGroup s).Sound := by
  unfold applyClassGroup
  exact setBootClasses_sound (setClasses_sound
    (applyGroup_sound (sound_update h (by rfl)) fun _ ht => sound_update ht (by rfl)))

theorem setAddrs_sound {a} : (setAddrs s a).Sound := sound_update h (by rfl)

theorem twInForce_sound : (twInForce s).Sound := sound_update h (by rfl)

theorem applyTwoWireGroup_sound {straps} : (applyTwoWireGroup s straps).Sound := by
  unfold applyTwoWireGroup
  exact twInForce_sound (applyGroup_sound (setAddrs_sound h) fun _ ht => setAddrs_sound (wr_sound (wr_sound ht)))

theorem applyJackGroup_sound : (applyJackGroup s).Sound := by
  unfold applyJackGroup
  exact applyGroup_sound h fun _ ht => wr_sound (wr_sound ht)

theorem applyPairGroup_sound : (applyPairGroup s).Sound := by
  unfold applyPairGroup
  exact memberUpdate_sound (applyGroup_sound h fun _ ht => wr_sound ht)

theorem applyDiagGroup_sound : (applyDiagGroup s).Sound := by
  unfold applyDiagGroup
  exact applyGroup_sound h fun _ ht => foldl_sound ht fun _ _ hu => wr_sound hu

theorem applyHealthGroup_sound : (applyHealthGroup s).Sound := by
  unfold applyHealthGroup
  exact applyGroup_sound h fun _ ht => modHealth_sound ht

theorem applyOtp_sound {straps} : (applyOtp s straps).Sound :=
  applyHealthGroup_sound (applyDiagGroup_sound (applyPairGroup_sound (applyJackGroup_sound (applyTwoWireGroup_sound
    (applyClassGroup_sound (applyWakeGroup_sound (applyBootGroup_sound (applyLog_sound (applyFactory_sound
    (sound_update h (by rfl)))))))))))

theorem bootKeys_sound {pressed} : (bootKeys s pressed).Sound := sound_update h (by rfl)

theorem bootChange_sound : (bootChange s).Sound := ite_sound (modPower_sound h) (ite_sound (modPower_sound h) h)

/-! ### Block -/

theorem frameTick_sound : (frameTick s).Sound :=
  stopsDone_sound (chanFrame_sound (micFrame_sound (analogFrame_sound (portFrame_sound (realignFrame_sound
    (injectFrame_sound (guardFrame_sound h)))))))

/-- The frames of a block begin before its end (R15). -/
theorem catchUp_sound : (catchUp s).Sound := by
  refine List.foldlRecOn (motive := State.Sound) _ _ h fun t ht f hf => frameTick_sound (sound_cycle ht ?_)
  have hf : f < 24 := List.mem_range.mp (List.mem_of_mem_drop hf)
  simp only [Config.frameCycles]
  omega

theorem cycleTick_sound : (cycleTick s).Sound := injectExpire_sound (injectWatchdog_sound (comeReady_sound h))

/-- A cycle of the block that is left, and what falls due in it (R15). -/
theorem nextCycle_sound (hc : s.cycle + 1 < Config.blockCycles) :
    (cycleTick { s with cycle := s.cycle + 1 }).Sound :=
  cycleTick_sound (sound_cycle h hc)

theorem blockRest_sound : (blockRest s).Sound := by
  unfold blockRest
  dsimp only
  split
  next hc =>
    have ht := nextCycle_sound h hc
    exact cycleTick_sound (sound_cycle (catchUp_sound (ite_then_sound ht fun ht => frameTick_sound ht)) (by decide))
  next => exact h

theorem tick_sound : (tick s).Sound := by
  have hm := mapApply_sound h
  unfold tick
  dsimp only
  refine ite_sound hm (ite_sound ?_ (ite_sound hm ?_))
  · split
    next hc => exact ite_then_sound (nextCycle_sound hm hc) fun ht => frameTick_sound ht
    next => exact hm
  · split
    next hc => exact injectExpire_sound (sound_cycle hm hc)
    next => exact hm

theorem modSrc_sound {c f} : (modSrc s c f).Sound := ite_sound (modAdc_sound h) (modWake_sound h fun _ => by rfl)

theorem captureSrc_sound {i c} : (captureSrc i s c).Sound :=
  ite_sound h (ite_else_sound (modSrc_sound h) fun ht => sound_update ht (by rfl))

theorem capture_sound {i} : (capture s i).Sound := by
  unfold capture
  exact modHealth_sound (foldl_sound (sound_update h (by rfl)) fun _ _ ht => captureSrc_sound ht)

theorem meterBlock_sound {k late} : (meterBlock s k late).Sound :=
  ite_then_sound (sound_update h (by rfl)) fun ht => raise_sound ht

theorem mendBuffers_sound {m k} : (mendBuffers s m k).Sound := sound_update h (by rfl)

theorem playSinks_sound {b late} : (playSinks s b late).1.Sound := addCount_sound (sound_update h (by rfl))

theorem deadline_sound : (deadline s).Sound := by
  unfold deadline
  split
  · exact playSinks_sound h
  · exact ite_then_sound (playSinks_sound (cancelBlock_sound (meterBlock_sound (mendBuffers_sound h)))) fun ht =>
      raise_sound ht

theorem readings_sound {i} : (readings s i).Sound := clockReadings_sound (limitBlock_sound (portReadings_sound h))

theorem edgesBlock_sound {i} : (edgesBlock s i).Sound :=
  dacBlock_sound (portBlock_sound (capture_sound (takeInputs_sound (blockRest_sound h))))

theorem sysBoundary_sound {i} : (sysBoundary s i).Sound :=
  ite_then_sound (syncBoundary_sound (frameTick_sound (asrcRestart_sound (realignEnd_sound (healthBoundary_sound
    (readings_sound (deadline_sound (stageBoundary_sound (taskErrors_sound h))))))))) fun ht => computeStart_sound ht

/-! ### Abort -/

theorem stopOtpJob_sound {p tag} : (stopOtpJob s p tag).Sound := sound_update h (by rfl)

theorem abortSweep_sound : (abortSweep s).Sound := completeJob_sound (sweepAbort_sound h)

theorem abortCommand_sound {p o} : (abortCommand s p o).Sound := by
  unfold abortCommand
  dsimp only
  split
  · exact finalReply_sound (setSlot_sound h rfl)
  · refine finalReply_sound ?_
    split
    · exact disarm_sound h
    · exact h
  · refine finalReply_sound ?_
    split
    · exact endCommit_sound h
    · exact h
  · exact changeAbort_sound h
  · exact abortSweep_sound h
  · exact finalReply_sound (stopOtpJob_sound h)
  · exact finalReply_sound (forceAbort_sound h)
  · exact finalReply_sound (modHealth_sound h)
  · exact finalReply_sound h

theorem doAbort_sound {q} : (doAbort q s).Sound := by
  refine runOp_sound h fun _ ht => ?_
  split
  · exact trivial
  · split
    · exact trivial
    · exact leavesIte_sound trivial (leavesIte_sound trivial (abortCommand_sound ht))

/-! ### Transport -/

theorem dispatch_sound {op q} : (dispatch op q s).Sound := by
  unfold dispatch
  split
  · exact doPing_sound h
  · exact doIdentify_sound h
  · exact doGetStatus_sound h
  · exact doAbort_sound h
  · exact doResetDevice_sound h
  · exact doPortClassGet_sound h
  · exact doPortClassSet_sound h
  · exact doParamWrite_sound h
  · exact doParamRead_sound h
  · exact doHamperOpen_sound h
  · exact doHamperStage_sound h
  · exact doHamperCommit_sound h
  · exact doHamperDiscard_sound h
  · exact doHamperStatus_sound h
  · exact doGraphBegin_sound h
  · exact doGraphData_sound h
  · exact doGraphEnd_sound h
  · exact doGraphActivate_sound h
  · exact doGraphUnload_sound h
  · exact doGraphStatus_sound h
  · exact doLoadMeter_sound h
  · exact doLoadMeterSet_sound h
  · exact doPortStatus_sound h
  · exact doSpdifCsRead_sound h
  · exact doRouteRead_sound h
  · exact doPortRestart_sound h
  · exact doPowerStatus_sound h
  · exact doPowerModeSet_sound h
  · exact doWakeCfg_sound h
  · exact doResetInfo_sound h
  · exact doClockStatus_sound h
  · exact doRootRestart_sound h
  · exact doAuxProfile_sound h
  · exact doEventStatus_sound h
  · exact doEventRead_sound h
  · exact doEventPeek_sound h
  · exact doEventClear_sound h
  · exact doPstageStatus_sound h
  · exact doPstageClear_sound h
  · exact doPstageSenseRead_sound h
  · exact doPstageStop_sound h
  · exact doDiagRun_sound h
  · exact doDiagResult_sound h
  · exact doOtpStatus_sound h
  · exact doOtpRead_sound h
  · exact doOtpGenBegin_sound h
  · exact doOtpGenData_sound h
  · exact doOtpGenCommit_sound h
  · exact doOtpLock_sound h
  · exact doOtpFactoryWrite_sound h
  · exact doHealthStatus_sound h
  · exact doFaultTableRead_sound h
  · exact doFaultTableClear_sound h
  · exact doRepairLogRead_sound h
  · exact doBankCounters_sound h
  · exact doHealthCfg_sound h
  · exact doRepairForce_sound h
  · exact doFaultInject_sound h
  · exact doWakeStatus_sound h
  · exact doCoolerFetch_sound h
  · exact doWakeRearm_sound h
  · exact doTouchStatus_sound h
  · exact doTouchRecal_sound h
  · exact doKeyStatus_sound h
  · exact doMemRead_sound h
  · exact doMemWrite_sound h
  · exact doSvcRawRead_sound h
  · exact doSvcSpareTest_sound h
  · exact badOpcode_sound h

theorem badPacket_sound {p op tag st} : (badPacket s p op tag st).Sound := by
  unfold badPacket
  exact modPort_sound (reservedReply_sound h) fun _ => by exact le_rfl

theorem takePacket_sound {p t} (ht : takePacket s p = some t) : t.Sound := by
  unfold takePacket at ht
  split at ht
  · cases ht
  dsimp only at ht
  split at ht
  · cases ht
  split at ht
  · exact Option.some.inj ht ▸ badPacket_sound h
  split at ht
  · cases ht
  split at ht
  · exact Option.some.inj ht ▸ badPacket_sound h
  · exact Option.some.inj ht ▸ dispatch_sound (modPort_sound h fun _ => by exact le_rfl)

theorem takePackets_sound {p fuel} : (takePackets p fuel s).Sound := by
  induction fuel generalizing s with
  | zero => exact h
  | succ fuel ih =>
    unfold takePackets
    refine ite_sound (modPort_sound h fun _ => by exact le_rfl) ?_
    split
    next t ht => exact ih (takePacket_sound h ht)
    next => exact modPort_sound h fun _ => by exact le_rfl

theorem touchPorts_sound : (touchPorts s).Sound := sound_update h (by rfl)

theorem feedPort_sound {p bytes} : (feedPort s p bytes).Sound :=
  ite_sound h (takePackets_sound (modPort_sound (touchPorts_sound h) fun _ => by exact le_rfl))

theorem dropPartial_sound {p reason} : (dropPartial s p reason).Sound := by
  unfold dropPartial
  split
  · exact h
  · exact dropPacket_sound (modPort_sound h fun _ => by exact le_rfl)

theorem deliver_sound {p} : (deliver s p).Sound := by
  unfold deliver
  split
  · exact h
  · refine modPort_sound (touchPorts_sound h) fun v => ?_
    dsimp only
    split
    · exact List.length_filter_le _ _
    · exact le_rfl

theorem sendBytes_sound {p bs} : (sendBytes s p bs).Sound := modPort_sound h fun _ => by exact le_rfl

theorem takeBytes_sound {p fuel n old gaps} : (takeBytes p fuel n old gaps s).Sound := by
  induction fuel generalizing s n old gaps with
  | zero => exact sendBytes_sound h
  | succ fuel ih =>
    unfold takeBytes
    split
    · exact sendBytes_sound h
    · exact ite_sound (modPort_sound (sendBytes_sound h) fun _ => by exact le_rfl)
        (ih (deliver_sound (sendBytes_sound h)))

theorem readPort_sound {p r} : (readPort s p r).Sound :=
  ite_sound h (takeBytes_sound (modPort_sound (touchPorts_sound h) fun _ => by exact le_rfl))

theorem shiftStatus_sound {p} : (shiftStatus s p).Sound := by
  unfold shiftStatus
  exact modPort_sound h fun _ => by exact le_rfl

theorem endTransaction_sound {p} : (endTransaction s p).Sound := modPort_sound h fun _ => by exact le_rfl

theorem startBackoff_sound {wait} : (startBackoff s wait).Sound := sound_update h (by rfl)

theorem busStop_sound : (busStop s).Sound := startBackoff_sound (sound_update h (by rfl))

theorem busIdle_sound : (busIdle s).Sound := startBackoff_sound (sound_update h (by rfl))

theorem busStart_sound : (busStart s).Sound := sound_update h (by rfl)

theorem twAddress_sound {a read} : (twAddress s a read).Sound := by
  unfold twAddress
  split
  · exact h
  · exact ite_sound (addCount_sound (sound_update (touchPorts_sound h) (by rfl))) (ite_else_sound (touchPorts_sound
      h) fun ht => ite_then_sound (sound_update ht (by rfl)) fun hu => shiftStatus_sound hu)

theorem twEnds_sound {stop} : (twEnds s stop).Sound := ite_sound (busStop_sound h) (busStart_sound h)

theorem modAlert_sound {f} : (modAlert s f).Sound := sound_update h (by rfl)

theorem releaseBus_sound : (releaseBus s).Sound := sound_update h (by rfl)

theorem alertBackoff_sound : (alertBackoff s).Sound := modAlert_sound (nextFree_sound h)

theorem failStop_sound {why} : (failStop why s).Sound := ite_sound (busStop_sound h) h

theorem busStuck_sound {scl} : (busStuck s scl).Sound :=
  raise_sound (addCount_sound (sound_update (releaseBus_sound (ite_sound (modAlert_sound h) h)) (by rfl)))

end

end Sys2Proof.Machine

namespace Sys2Proof.Machine

open Sys2Proof

/-! ## Rows: the next state that a row answers is sound -/

theorem next_sound {t : State} (h : t.Sound) : Answers State.Sound (.next t) := ⟨t, rfl, h⟩

theorem stepIte_sound {c : Prop} [Decidable c] {x y : Step} (hx : Answers State.Sound x) (hy : Answers State.Sound y) :
    Answers State.Sound (if c then x else y) := by
  split
  · exact hx
  · exact hy

section

variable {s : State} (h : s.Sound)
include h

theorem fieldStep_sound {t : State} (ht : t.Sound) : Answers State.Sound (fieldStep s t) :=
  next_sound (ite_sound ht h)

/-! ### Drover -/

theorem execTaskGrant_sound {p} : Answers State.Sound (execTaskGrant p s) := by
  unfold execTaskGrant
  refine stepIte_sound ?_ ?_
  · exact next_sound h
  · split
    · exact next_sound h
    · refine stepIte_sound ?_ ?_
      · exact next_sound h
      · split
        · exact next_sound (grantOp_sound h)
        · exact next_sound (grantMe_sound h)

theorem execHeldAdmit_sound : Answers State.Sound (execHeldAdmit s) := by
  unfold execHeldAdmit
  split
  · exact next_sound h
  · exact next_sound (countPlaced_sound (sound_update h (by rfl)))

theorem execEngineStopEnd_sound {u} : Answers State.Sound (execEngineStopEnd u s) := by
  unfold execEngineStopEnd
  split
  · exact next_sound h
  · exact stepIte_sound (next_sound (sound_update h (by rfl))) (next_sound h)

/-! ### Events -/

theorem execAlertCompose_sound : Answers State.Sound (execAlertCompose s) := by
  unfold execAlertCompose
  refine stepIte_sound (next_sound h) ?_
  split
  · exact next_sound h
  · split
    · exact next_sound h
    · exact next_sound (sound_events h (List.length_set.trans_le h.fifo) h.aon)

/-! ### Otp -/

theorem execOtpReadDone_sound : Answers State.Sound (execOtpReadDone s) := by
  unfold execOtpReadDone
  split
  · split
    · exact next_sound (finalReply_sound h)
    · exact next_sound h
  · exact next_sound h

theorem execOtpWordProgrammed_sound {verified} : Answers State.Sound (execOtpWordProgrammed verified s) := by
  have jobs : ∀ {t : State} {o : Otp}, t.Sound → o.words = t.otp.words → { t with otp := o }.Sound :=
    fun ht ho => sound_otp ht (ho ▸ ht.otp)
  unfold execOtpWordProgrammed
  split
  · exact next_sound h
  dsimp only
  split
  · exact next_sound (jobs h rfl)
  next w ws _ =>
    have ht : (programmed s w verified).Sound := programmed_sound h
    refine stepIte_sound (next_sound ?_) (stepIte_sound (next_sound (jobs ht rfl)) (stepIte_sound (next_sound ?_)
      (next_sound (jobs ht rfl))))
    · exact ite_else_sound (jobs ht (otpClose_words _ _)) fun hu => finalReply_sound hu
    · refine finalReply_sound (otpFinish_sound (jobs ht ?_))
      rfl

/-! ### Ports -/

theorem execPortLock_sound {p rate ppm delayNs} : Answers State.Sound (execPortLock p rate ppm delayNs s) :=
  stepIte_sound (next_sound h) (stepIte_sound (next_sound (enterLock_sound (modDport_sound h))) (next_sound
    (modDport_sound h)))

theorem execPortLockLoss_sound {p why clockLeft} : Answers State.Sound (execPortLockLoss p why clockLeft s) := by
  unfold execPortLockLoss
  refine stepIte_sound ?_ ?_
  · exact next_sound h
  · dsimp only
    refine next_sound ?_
    refine portLose_sound ?_
    split
    · exact portAdd_sound h
    · exact ite_sound h (portAdd_sound h)
    · exact h

theorem execFramingError_sound {p consecutive} : Answers State.Sound (execFramingError p consecutive s) :=
  stepIte_sound (next_sound h) (stepIte_sound (next_sound (portLose_sound (portAdd_sound h))) (next_sound
    (portAdd_sound h)))

theorem execSpdifParityError_sound {r biphase} : Answers State.Sound (execSpdifParityError r biphase s) :=
  stepIte_sound (next_sound h) (next_sound (parityCheck_sound (modDport_sound (ite_sound (portAdd_sound h)
    (portAdd_sound h)))))

theorem execSpdifNonpcm_sound {r preamble} : Answers State.Sound (execSpdifNonpcm r preamble s) :=
  stepIte_sound (next_sound h) (next_sound (nonpcmMute_sound (modDport_sound h)))

theorem execSpdifNonpcmExit_sound {r} : Answers State.Sound (execSpdifNonpcmExit r s) :=
  stepIte_sound (next_sound (enterLock_sound (modDport_sound h))) (next_sound h)

theorem execSpdifBlockCapture_sound {r csA csB} : Answers State.Sound (execSpdifBlockCapture r csA csB s) := by
  unfold execSpdifBlockCapture
  dsimp only
  refine stepIte_sound ?_ ?_
  · exact next_sound h
  · split
    · exact next_sound (raise_sound (ite_then_sound (modDport_sound h) fun ht => nonpcmMute_sound ht))
    · exact next_sound (ite_then_sound (modDport_sound h) fun ht => nonpcmMute_sound ht)

/-! ### Analog -/

theorem execMicbiasEnable_sound : Answers State.Sound (execMicbiasEnable s) :=
  stepIte_sound (next_sound (biasUpdate_sound h)) (fieldStep_sound h (applyMicbias_sound h))

theorem execMicbiasOverload_sound : Answers State.Sound (execMicbiasOverload s) :=
  stepIte_sound (next_sound (raise_sound (sound_update h (by rfl)))) (next_sound h)

theorem execHpPowerUp_sound : Answers State.Sound (execHpPowerUp s) :=
  stepIte_sound (stepIte_sound (next_sound (modHp_sound (hpTryUp_sound h))) (next_sound h)) (fieldStep_sound h
    (applyHpCfg_sound h))

theorem execHpMute_sound {line mute} : Answers State.Sound (execHpMute line mute s) :=
  stepIte_sound (fieldStep_sound h (applyLoCfg_sound h)) (fieldStep_sound h (applyHpCfg_sound h))

theorem execHpFaultRetry_sound : Answers State.Sound (execHpFaultRetry s) :=
  stepIte_sound (next_sound (hpTryUp_sound (modHp_sound h))) (next_sound h)

theorem execJackLevelChange_sound {inserted} : Answers State.Sound (execJackLevelChange inserted s) :=
  stepIte_sound (next_sound h) (stepIte_sound (next_sound (modJack_sound h)) (stepIte_sound (next_sound (modHp_sound
    (modJack_sound h))) (next_sound (modHp_sound (modJack_sound h)))))

theorem execJackInsert_sound {aux} : Answers State.Sound (execJackInsert aux s) :=
  stepIte_sound (stepIte_sound (next_sound (raise_sound (modJack_sound h))) (next_sound h)) (stepIte_sound
    (next_sound h) (stepIte_sound (next_sound (classifyStart_sound (jackEvent_sound (modJack_sound (modJack_sound
    (addCount_sound h)))))) (next_sound (jackEvent_sound (standKind_sound (modJack_sound (addCount_sound h)))))))

theorem execJackRemove_sound {aux} : Answers State.Sound (execJackRemove aux s) :=
  stepIte_sound (stepIte_sound (next_sound (raise_sound (modJack_sound h))) (next_sound h)) (stepIte_sound
    (next_sound h) (next_sound (jackEvent_sound (biasUpdate_sound (sound_update (modJack_sound (modHp_sound h)) (by
    rfl))))))

theorem execClassifyMeasure_sound {mv} : Answers State.Sound (execClassifyMeasure mv s) := by
  unfold execClassifyMeasure
  dsimp only
  refine stepIte_sound ?_ ?_
  · exact next_sound h
  · split
    · exact next_sound (measureContacts_sound (modJack_sound h))
    · exact stepIte_sound (next_sound (measureContacts_sound (modJack_sound h))) (next_sound (jackEvent_sound
        (standKind_sound h)))

theorem execClassifyRetry_sound : Answers State.Sound (execClassifyRetry s) := by
  unfold execClassifyRetry
  split
  · exact stepIte_sound (next_sound (classifyStart_sound h)) (next_sound h)
  · exact next_sound h

theorem execThreePoleRepeat_sound {mvA mvB} : Answers State.Sound (execThreePoleRepeat mvA mvB s) := by
  unfold execThreePoleRepeat
  dsimp only
  split
  · exact next_sound h
  · exact stepIte_sound (next_sound h) (stepIte_sound (next_sound (jackEvent_sound (standKind_sound h)))
      (stepIte_sound (next_sound (modJack_sound h)) (next_sound (biasUpdate_sound (sound_update h (by rfl))))))

theorem execHeadsetMicSwitch_sound : Answers State.Sound (execHeadsetMicSwitch s) :=
  stepIte_sound (next_sound h) (next_sound (modAdc_sound (modJack_sound (wr_sound h))))

theorem execHsButtonPress_sound {mv} : Answers State.Sound (execHsButtonPress mv s) := by
  unfold execHsButtonPress
  dsimp only
  refine stepIte_sound ?_ ?_
  · exact next_sound h
  · split
    · exact next_sound h
    · exact next_sound (ite_then_sound (raise_sound (modJack_sound (addCount_sound h))) fun ht => modAdc_sound ht)

theorem execHsButtonRelease_sound : Answers State.Sound (execHsButtonRelease s) :=
  stepIte_sound (next_sound h) (next_sound (ite_then_sound (raise_sound (modJack_sound h)) fun ht => modAdc_sound ht))

/-! ### Wake -/

theorem execPdmClockChange_sound {c} : Answers State.Sound (execPdmClockChange c s) := by
  unfold execPdmClockChange
  dsimp only
  refine stepIte_sound ?_ ?_
  · exact next_sound h
  · split
    · exact next_sound (modWake_sound h fun _ => by rfl)
    · exact stepIte_sound (next_sound (modSrcs_sound (abandonSwaps_sound (bridgeMics_sound (modWake_sound
        (modWake_sound h fun _ => by rfl) fun _ => by rfl))))) (next_sound (modWake_sound (ite_then_sound
        (modSrcs_sound (abandonSwaps_sound (bridgeMics_sound (modWake_sound (modWake_sound h fun _ => by rfl)
        fun _ => by rfl)))) fun ht => noteBridge_sound ht) fun _ => by rfl))

theorem execSetACrossfade_sound {b} : Answers State.Sound (execSetACrossfade b s) := by
  unfold execSetACrossfade
  split
  · exact next_sound h
  · exact stepIte_sound (next_sound h) (next_sound (modWake_sound h fun _ => by rfl))

theorem execRoosterWindow_sound {b x} : Answers State.Sound (execRoosterWindow b x s) := by
  unfold execRoosterWindow
  dsimp only
  split
  · exact next_sound h
  · exact stepIte_sound (next_sound h) (next_sound (detectionEvent_sound (modWake_sound h fun _ => by rfl)))

/-! ### PStage -/

theorem execChannelRetry_sound {c} : Answers State.Sound (execChannelRetry c s) :=
  stepIte_sound (next_sound (modChan_sound (beginStart_sound h))) (next_sound h)

theorem execLoopOpen_sound {k} : Answers State.Sound (execLoopOpen k s) :=
  stepIte_sound (next_sound (warnNow_sound (modChan_sound h))) (next_sound h)

theorem execXfault_sound {q} : Answers State.Sound (execXfault q s) :=
  stepIte_sound (next_sound h) (stepIte_sound (next_sound (foldl_sound (sound_update h (by rfl)) fun _ _ ht =>
    shutdown_sound ht)) (next_sound (raise_sound (foldl_sound (sound_update h (by rfl)) fun _ _ ht => shutdown_sound
    ht))))

theorem execLimitedCycle_sound {k consecutive} : Answers State.Sound (execLimitedCycle k consecutive s) :=
  stepIte_sound (next_sound h) (stepIte_sound (next_sound (diagLimited_sound (limitCount_sound h))) (stepIte_sound
    (next_sound h) (next_sound (warnNow_sound (ite_else_sound (limitCount_sound h) fun ht => modChan_sound ht)))))

theorem execPstageClearApply_sound : Answers State.Sound (execPstageClearApply s) := by
  unfold execPstageClearApply
  refine stepIte_sound ?_ ?_
  · exact next_sound h
  · refine next_sound ?_
    refine foldl_sound h fun _ _ ht => ?_
    split
    · exact ite_sound ht (finalReply_sound (clearChans_sound ht))
    · exact ht

/-! ### Diag -/

theorem execDiagSweepStart_sound : Answers State.Sound (execDiagSweepStart s) :=
  stepIte_sound (next_sound h) (stepIte_sound (stepIte_sound (next_sound (sweepStart_sound h)) (next_sound h))
    (stepIte_sound (next_sound (modDiag_sound (sweepStart_sound h))) (next_sound h)))

theorem execDiagSweepEnd_sound : Answers State.Sound (execDiagSweepEnd s) :=
  stepIte_sound (next_sound (sweepFinish_sound (slotEnd_sound h))) (next_sound h)

/-! ### Bridge -/

theorem execChannelShutdown_sound {c why} : Answers State.Sound (execChannelShutdown c why s) := by
  unfold execChannelShutdown
  refine stepIte_sound ?_ ?_
  · split
    · exact stepIte_sound (next_sound (sweepCutOff_sound h)) (next_sound h)
    · exact next_sound (linkFail_sound h)
    · exact next_sound h
  · refine stepIte_sound ?_ ?_
    · exact next_sound h
    · split
      · exact stepIte_sound (next_sound (shutdown_sound h)) (next_sound h)
      · exact stepIte_sound (next_sound (shutdown_sound h)) (next_sound h)
      · exact next_sound (shutdown_sound h)
      · exact next_sound (linkFail_sound h)

theorem execPvddFault_sound {mv} : Answers State.Sound (execPvddFault mv s) := by
  unfold execPvddFault
  dsimp only
  split
  · exact next_sound h
  · exact next_sound (sound_update (setStage_sound h) (by rfl))

theorem execPvddAvailable_sound {mv} : Answers State.Sound (execPvddAvailable mv s) :=
  stepIte_sound (next_sound h) (next_sound (releaseChans_sound (setStage_sound (sound_update h (by rfl)))))

theorem execThermalShutdown_sound : Answers State.Sound (execThermalShutdown s) :=
  stepIte_sound (next_sound h) (next_sound (raise_sound (foldl_sound (setStage_sound h) fun _ _ ht => ite_sound
    (modChan_sound (beginStop_sound ht)) ht)))

theorem execThermalRecover_sound : Answers State.Sound (execThermalRecover s) :=
  stepIte_sound (next_sound h) (next_sound (releaseChans_sound (setStage_sound h)))

/-! ### Clock -/

theorem execRootConfigWrite_sound {freq value} : Answers State.Sound (execRootConfigWrite freq value s) :=
  stepIte_sound (fieldStep_sound h (restartRoot_sound (wr_sound h))) (next_sound h)

theorem execRefQualify_sound {ppm100} : Answers State.Sound (execRefQualify ppm100 s) := by
  unfold execRefQualify
  dsimp only
  refine stepIte_sound ?_ ?_
  · exact next_sound h
  · split
    · exact next_sound (modClock_sound h)
    · exact next_sound (setRoot_sound (newLock_sound (modClock_sound h)))
    · exact stepIte_sound (next_sound (setRoot_sound (newLock_sound (modClock_sound h)))) (stepIte_sound
        (stepIte_sound (next_sound (modClock_sound h)) (next_sound (modClock_sound (modClock_sound h)))) (next_sound
        (setRoot_sound (oldLock_sound (modClock_sound h)))))
    · exact next_sound h

theorem execTrackLock_sound : Answers State.Sound (execTrackLock s) :=
  stepIte_sound (next_sound (setRoot_sound (modClock_sound h))) (next_sound h)

theorem execCoastTimeout_sound : Answers State.Sound (execCoastTimeout s) :=
  stepIte_sound (next_sound (setRoot_sound (modClock_sound h))) (next_sound h)

theorem execRealignBlock_sound : Answers State.Sound (execRealignBlock s) := by
  unfold execRealignBlock
  split
  · exact stepIte_sound (next_sound (modClock_sound h)) (next_sound h)
  · exact next_sound h

theorem execXtalFaultSet_sound : Answers State.Sound (execXtalFaultSet s) :=
  stepIte_sound (next_sound h) (next_sound (raise_sound (ite_then_sound (modClock_sound h) fun ht =>
    crystalStop_sound ht)))

theorem execAuxLock_sound {a} : Answers State.Sound (execAuxLock a s) :=
  stepIte_sound (next_sound (auxPins_sound (modAux_sound h))) (next_sound h)

theorem execAuxRampEnd_sound {a} : Answers State.Sound (execAuxRampEnd a s) := by
  unfold execAuxRampEnd
  dsimp only
  refine stepIte_sound ?_ ?_
  · refine next_sound ?_
    refine modAux_sound ?_
    split
    · exact ite_sound (modAux_sound h) h
    · exact h
  · refine next_sound ?_
    split
    · exact ite_sound (modAux_sound h) h
    · exact h

theorem execAuxSegmentEnd_sound {a} : Answers State.Sound (execAuxSegmentEnd a s) :=
  stepIte_sound (next_sound h) (stepIte_sound (next_sound (enterSegment_sound h)) (stepIte_sound (next_sound
    (enterSegment_sound h)) (next_sound (modAux_sound h))))

theorem execAuxProfileBegin_sound {a} : Answers State.Sound (execAuxProfileBegin a s) := by
  unfold execAuxProfileBegin
  refine stepIte_sound ?_ ?_
  · exact next_sound h
  · refine next_sound ?_
    refine foldl_sound h fun _ _ ht => ?_
    split
    · exact finalReply_sound (profileAct_sound ht)
    · exact ht

theorem execPllSafeLock_sound : Answers State.Sound (execPllSafeLock s) :=
  stepIte_sound (next_sound (setRoot_sound (modClock_sound (addCount_sound h)))) (next_sound h)

/-! ### Touch -/

theorem execTouchScan_sound {raws} : Answers State.Sound (execTouchScan raws s) :=
  stepIte_sound (next_sound h) (next_sound (recalDone_sound (sound_update (scanSlider_sound (foldl_sound h
    fun _ _ ht => scanEl_sound ht)) (by rfl))))

theorem execGestureHold_sound {e} : Answers State.Sound (execGestureHold e s) :=
  stepIte_sound (stepIte_sound (next_sound (raise_sound (sound_update h (by rfl)))) (next_sound h)) (stepIte_sound
    (next_sound (raise_sound (modEl_sound h))) (next_sound h))

theorem execTouchMaxOn_sound {e} : Answers State.Sound (execTouchMaxOn e s) :=
  stepIte_sound (next_sound (raise_sound (ite_then_sound (modEl_sound (elRelease_sound h)) fun ht => sliderLeft_sound
    ht))) (next_sound h)

theorem execKeyPress_sound {k} : Answers State.Sound (execKeyPress k s) :=
  stepIte_sound (next_sound h) (stepIte_sound (next_sound (raise_sound (modKey_sound h))) (next_sound (modKey_sound
    h)))

theorem execKeyRelease_sound {k} : Answers State.Sound (execKeyRelease k s) :=
  stepIte_sound (next_sound h) (stepIte_sound (next_sound (raise_sound (modKey_sound h))) (next_sound (modKey_sound
    h)))

/-! ### Health -/

theorem execRepairLogWrite_sound {verified} : Answers State.Sound (execRepairLogWrite verified s) := by
  unfold execRepairLogWrite
  split
  · exact stepIte_sound (next_sound h) (stepIte_sound (next_sound (modHealth_sound (programmed_sound h))) (next_sound
      (sound_update (programmed_sound h) (by rfl))))
  · exact next_sound h

theorem execMigrationBegin_sound : Answers State.Sound (execMigrationBegin s) := by
  unfold execMigrationBegin
  split
  · exact stepIte_sound (next_sound h) (next_sound (modHealth_sound h))
  · refine stepIte_sound ?_ ?_
    · exact next_sound h
    · refine stepIte_sound ?_ ?_
      · exact next_sound (forcedLost_sound (modHealth_sound h))
      · split
        · exact next_sound (forcedLost_sound (modHealth_sound h))
        · exact next_sound (raise_sound (modHealth_sound h))

theorem execMigrationCopyEnd_sound : Answers State.Sound (execMigrationCopyEnd s) := by
  unfold execMigrationCopyEnd
  split
  · exact stepIte_sound (next_sound (raise_sound (modHealth_sound (modBank_sound h)))) (next_sound h)
  · exact next_sound h

theorem execMigrationSwitch_sound : Answers State.Sound (execMigrationSwitch s) := by
  unfold execMigrationSwitch
  split
  · exact stepIte_sound (next_sound h) (next_sound (forcedDone_sound (logRepair_sound (modHealth_sound (modBank_sound
      (modBank_sound h))))))
  · exact next_sound h

theorem execScrubRead_sound {bank flips} : Answers State.Sound (execScrubRead bank flips s) := by
  unfold execScrubRead
  dsimp only
  split
  · exact next_sound h
  · split
    · exact next_sound (scrubParity_sound h)
    · exact next_sound (scrubOutcome_sound (modBank_sound h))

theorem execTaskRetire_sound {u} : Answers State.Sound (execTaskRetire u s) := by
  unfold execTaskRetire
  split
  · dsimp only
    split
    · refine stepIte_sound ?_ ?_
      · split
        · exact next_sound (retireRunning_sound (faultFound_sound (injectSpent_sound (nextFree_sound h))))
        · exact next_sound (retireTask_sound h)
      · exact next_sound h
    · exact next_sound h
  · exact next_sound h

theorem execPenRefill_sound {p bad} : Answers State.Sound (execPenRefill p bad s) :=
  stepIte_sound (next_sound h) (next_sound (foldl_sound (sound_update h (by rfl)) fun _ _ ht => refillOne_sound ht))

theorem execFaultDetect_sound {r} : Answers State.Sound (execFaultDetect r s) := by
  unfold execFaultDetect
  refine stepIte_sound ?_ ?_
  · exact next_sound h
  · refine stepIte_sound ?_ ?_
    · split
      · exact stepIte_sound (next_sound (fingerFailed_sound h)) (next_sound h)
      · exact next_sound h
    · exact stepIte_sound (next_sound (testReport_sound h)) (next_sound (detect_sound h))

theorem execWatchdogExpire_sound {oe} : Answers State.Sound (execWatchdogExpire oe s) :=
  stepIte_sound (next_sound (faultFound_sound h)) (stepIte_sound (next_sound (detect_sound h)) (next_sound h))

theorem execBankWaitTimeout_sound {bank engine} : Answers State.Sound (execBankWaitTimeout bank engine s) := by
  unfold execBankWaitTimeout
  dsimp only
  split
  · exact stepIte_sound (next_sound (detect_sound h)) (next_sound h)
  · exact next_sound h

theorem execFaultTableEntry_sound : Answers State.Sound (execFaultTableEntry s) := by
  unfold execFaultTableEntry
  split
  · exact next_sound h
  · exact next_sound (enterKeys_sound (modHealth_sound h))

theorem execPortResetDone_sound {bank} : Answers State.Sound (execPortResetDone bank s) := by
  unfold execPortResetDone
  split
  · exact stepIte_sound (next_sound (sound_update (modBank_sound h) (by rfl))) (next_sound h)
  · exact next_sound h

theorem execEngineRetire_sound : Answers State.Sound (execEngineRetire s) := by
  unfold execEngineRetire
  extract_lets t
  have ht : t.Sound := retireForced_sound (retireStruck_sound (retireStruck_sound h))
  clear_value t
  exact stepIte_sound (next_sound h) (next_sound (sound_update ht (by rfl)))

theorem execDecimatorParallelStart_sound : Answers State.Sound (execDecimatorParallelStart s) :=
  stepIte_sound (next_sound h) (next_sound (foldl_sound h fun _ _ ht => swapStart_sound ht))

theorem execDecimatorSwitch_sound : Answers State.Sound (execDecimatorSwitch s) :=
  stepIte_sound (next_sound h) (next_sound (foldl_sound h fun _ _ ht => swapEnd_sound ht))

theorem execFingerRetire_sound : Answers State.Sound (execFingerRetire s) :=
  next_sound (foldl_sound (modHealth_sound h) fun _ _ ht => forcedDone_sound (logRepair_sound (modHealth_sound ht)))

theorem execSelfTestEnd_sound {unit pass} : Answers State.Sound (execSelfTestEnd unit pass s) := by
  unfold execSelfTestEnd
  split
  · exact next_sound h
  · refine stepIte_sound ?_ ?_
    · exact next_sound h
    · dsimp only
      split
      · exact next_sound (completeSeq_sound (ite_sound (spareFails_sound (testOver_sound h)) (ite_sound
          (modHealth_sound (testOver_sound h)) (modDec_sound (testOver_sound h)))))
      · exact next_sound (ite_sound (spareFails_sound (testOver_sound h)) (ite_sound (modHealth_sound (testOver_sound
          h)) (modDec_sound (testOver_sound h))))

theorem execSvcRawReadDone_sound : Answers State.Sound (execSvcRawReadDone s) := by
  unfold execSvcRawReadDone
  split
  · exact next_sound h
  · split
    · exact next_sound (finalReply_sound h)
    · exact next_sound h

/-! ### Params -/

omit h in
theorem commitOne_sound {a : CommitAcc} {c} (ha : a.real.Sound) : (commitOne a c).real.Sound := by
  unfold commitOne
  dsimp only
  split
  · exact sound_update ha (by rfl)
  · split
    · exact failCommit_sound ha
    · exact completeJob_sound (endCommit_sound ha)

theorem execCommitApply_sound : Answers State.Sound (execCommitApply s) := by
  unfold execCommitApply
  refine stepIte_sound (next_sound h) (next_sound (applyChanges_sound ?_))
  exact List.foldlRecOn (motive := fun a : CommitAcc => a.real.Sound) _ _ h fun _ ha _ _ => commitOne_sound ha

theorem execPortEnable_sound {p} : Answers State.Sound (execPortEnable p s) :=
  stepIte_sound (next_sound h) (stepIte_sound (fieldStep_sound h (applyPortCfg_sound h)) (next_sound h))

theorem execRegisterWrite_sound {paddr value} : Answers State.Sound (execRegisterWrite paddr value s) := by
  unfold execRegisterWrite
  split
  · exact next_sound h
  · exact stepIte_sound (next_sound h) (stepIte_sound (fieldStep_sound h (applyReg_sound h)) (next_sound h))

/-! ### Slots -/

theorem checkSlot_rising {i fault} : assocRising (checkSlot s i fault).1.image = true := by
  unfold checkSlot
  dsimp only
  (repeat' split)
  · rfl
  · rfl
  · rfl
  · exact slotAt_rising h i

theorem execGraphCheckDone_sound {copyFault} : Answers State.Sound (execGraphCheckDone copyFault s) := by
  unfold execGraphCheckDone
  split
  · split
    · exact next_sound (finalReply_sound (setSlot_sound (nextFree_sound h) (checkSlot_rising h)))
    · exact next_sound h
  · exact next_sound h

theorem execGraphSwitch_sound : Answers State.Sound (execGraphSwitch s) := by
  unfold execGraphSwitch
  split
  · exact next_sound h
  · exact stepIte_sound (next_sound h) (stepIte_sound (next_sound (computeStart_sound (sound_update
      (completeJobs_sound (switchGraph_sound h)) (by rfl)))) (next_sound (sound_update (completeJobs_sound
      (switchGraph_sound h)) (by rfl))))

theorem execMemReadSnapshot_sound : Answers State.Sound (execMemReadSnapshot s) := by
  unfold execMemReadSnapshot
  refine stepIte_sound ?_ ?_
  · exact next_sound h
  · refine next_sound ?_
    refine foldl_sound h fun _ _ ht => ?_
    split
    · exact ite_sound ht (finalReply_sound ht)
    · exact ht

/-! ### Power -/

theorem execModeD1_sound : Answers State.Sound (execModeD1 s) := by
  unfold execModeD1
  split
  · exact next_sound (stepDone_sound (d1Act_sound h))
  · exact next_sound h

theorem execFabricGate_sound : Answers State.Sound (execFabricGate s) := by
  unfold execFabricGate
  split
  · exact next_sound (stepDone_sound (modPower_sound (testsGated_sound (cancelBlock_sound h))))
  · exact next_sound h

theorem execModeD2_sound : Answers State.Sound (execModeD2 s) := by
  unfold execModeD2
  split
  · exact next_sound (stepDone_sound (d2Act_sound h))
  · exact next_sound h

theorem execModeD3_sound : Answers State.Sound (execModeD3 s) := by
  unfold execModeD3
  split
  · exact next_sound (stepDone_sound (shipEnter_sound h))
  · exact next_sound h

theorem execListenRetainSwitch_sound : Answers State.Sound (execListenRetainSwitch s) := by
  unfold execListenRetainSwitch
  split
  · exact next_sound (stepDone_sound (swapAct_sound h))
  · exact next_sound h

theorem execIdleReached_sound : Answers State.Sound (execIdleReached s) := by
  unfold execIdleReached
  split
  · exact next_sound (stepDone_sound (ite_sound (clockDue_sound (clockDue_sound (endFetches_sound (sysStart_sound
      h)))) (clocksStart_sound (sysStart_sound h))))
  · exact next_sound h

theorem execFabricUngate_sound : Answers State.Sound (execFabricUngate s) := by
  unfold execFabricUngate
  split
  · exact next_sound (stepDone_sound (testsUngated_sound (a2Act_sound h)))
  · exact next_sound h

theorem execXtalFaultClear_sound : Answers State.Sound (execXtalFaultClear s) :=
  stepIte_sound (next_sound h) (next_sound (ite_then_sound (ite_then_sound (ite_then_sound (modClock_sound h)
    fun ht => refLost_sound ht) fun ht => clocksStart_sound ht) fun ht => actHeld_sound ht))

theorem execWakeSource_sound {code} : Answers State.Sound (execWakeSource code s) :=
  next_sound (ite_then_sound (ite_then_sound (ite_sound (chargerTo_sound h) h) fun ht => modWake_sound ht fun _ => by
    rfl) fun ht => wakeAct_sound ht)

theorem execCoreTemp120_sound {temp} : Answers State.Sound (execCoreTemp120 temp s) :=
  stepIte_sound (next_sound h) (next_sound (powerEvent_sound (modPower_sound h)))

/-! ### Boot -/

theorem execSupplyReset_sound {rails} : Answers State.Sound (execSupplyReset rails s) :=
  stepIte_sound (next_sound h) (next_sound (ite_then_sound (sound_update (deviceReset_sound h) (by rfl)) fun ht =>
    bootFailed_sound ht))

theorem execBootStart_sound : Answers State.Sound (execBootStart s) :=
  stepIte_sound (next_sound h) (next_sound (modPower_sound (modClock_sound h)))

theorem execCoreRelease_sound {straps pressed} : Answers State.Sound (execCoreRelease straps pressed s) :=
  stepIte_sound (next_sound h) (next_sound (a1Begin_sound (modPower_sound (sound_update (bootKeys_sound
    (applyOtp_sound h)) (by rfl)))))

theorem execBootComplete_sound : Answers State.Sound (execBootComplete s) :=
  stepIte_sound (next_sound h) (next_sound (bootChange_sound (powerEvent_sound (clocksStart_sound (modPower_sound
    (sysStart_sound h))))))

theorem execBootFail_sound : Answers State.Sound (execBootFail s) := by
  unfold execBootFail
  split
  · exact next_sound h
  · exact next_sound h
  · exact stepIte_sound (next_sound (bootFailed_sound h)) (next_sound h)
  · exact next_sound (bootFailed_sound h)

/-! ### Block -/

theorem nextBlock_sound {i} : (nextBlock s i).Sound := sound_cycle h (by decide)

theorem execBlockBoundary_sound {i} : Answers State.Sound (execBlockBoundary i s) := by
  cases hc : counting s with
  | false => exact execBlockBoundary_stopped i s hc ▸ next_sound h
  | true =>
    rw [execBlockBoundary_eq hc]
    have hm := mapApply_sound h
    have hn : ∀ b : Bool, (nextBlock (if b then edgesBlock (mapApply s) i else mapApply s) i).Sound :=
      fun b => nextBlock_sound (ite_sound (edgesBlock_sound hm) hm)
    refine next_sound (jackBlock_sound (wakeBlock_sound ?_))
    cases modeHigh s
    · exact healthBoundary_sound (hn false)
    · exact sysBoundary_sound (hn true)

theorem execTestInstructionUpdate_sound {code} : Answers State.Sound (execTestInstructionUpdate code s) :=
  stepIte_sound (next_sound h) (stepIte_sound (next_sound (sound_update h (by rfl))) (next_sound (foldl_sound
    (sweepLeave_sound (sound_update h (by rfl))) fun _ _ ht => ite_sound (modChan_sound ht) ht)))

/-! ### Transport -/

theorem execSpiTransactionStart_sound {sclkHigh} : Answers State.Sound (execSpiTransactionStart sclkHigh s) :=
  stepIte_sound (next_sound h) (stepIte_sound (next_sound (shiftStatus_sound (sound_update h (by rfl)))) (next_sound
    (sound_update (sound_update h (by rfl)) (by rfl))))

theorem execSpiTransactionEnd_sound {bytes extraBits gaps} : Answers State.Sound (execSpiTransactionEnd bytes
  extraBits gaps s) :=
  stepIte_sound (next_sound h) (stepIte_sound (next_sound (modPort_sound (ite_else_sound (sound_update h (by rfl))
    fun ht => touchPorts_sound ht) fun _ => by exact le_rfl)) (next_sound (endTransaction_sound (ite_else_sound
    (readPort_sound (feedPort_sound (ite_else_sound (sound_update h (by rfl)) fun ht => touchPorts_sound ht)))
    fun ht => addCount_sound (dropPartial_sound ht)))))

theorem execRxFifoOverflow_sound {_byte} : Answers State.Sound (execRxFifoOverflow _byte s) :=
  stepIte_sound (next_sound h) (next_sound (addCount_sound (dropPacket_sound (modPort_sound h fun _ => by exact
    le_rfl))))

theorem execTwTargetAddress_sound {addr read} : Answers State.Sound (execTwTargetAddress addr read s) :=
  stepIte_sound (next_sound h) (next_sound (twAddress_sound (busStart_sound h)))

theorem execTwTransactionEnd_sound {bytes how} : Answers State.Sound (execTwTransactionEnd bytes how s) := by
  unfold execTwTransactionEnd
  split
  · exact stepIte_sound (next_sound h) (next_sound (twEnds_sound h))
  · exact stepIte_sound (next_sound (readPort_sound (twEnds_sound (sound_update h (by rfl))))) (next_sound
      (endTransaction_sound (ite_then_sound (feedPort_sound (twEnds_sound (sound_update h (by rfl)))) fun ht =>
      dropPartial_sound ht)))

theorem execStretchTimeout_sound {how} : Answers State.Sound (execStretchTimeout how s) := by
  unfold execStretchTimeout
  split
  · exact next_sound h
  · exact next_sound (raise_sound (addCount_sound (endTransaction_sound (dropPartial_sound (ite_then_sound
      (sound_update h (by rfl)) fun ht => readPort_sound ht)))))

theorem execAlertWrite_sound : Answers State.Sound (execAlertWrite s) :=
  stepIte_sound (next_sound (modAlert_sound (sound_update h (by rfl)))) (next_sound h)

theorem execAlertDelivered_sound : Answers State.Sound (execAlertDelivered s) :=
  stepIte_sound (next_sound (sound_update (busStop_sound (releaseBus_sound h)) (by rfl))) (next_sound h)

theorem execAlertAttemptFail_sound {why} : Answers State.Sound (execAlertAttemptFail why s) := by
  unfold execAlertAttemptFail
  refine stepIte_sound ?_ ?_
  · exact next_sound h
  · dsimp only
    split
    · exact next_sound (modAlert_sound (addCount_sound (releaseBus_sound h)))
    · exact stepIte_sound (next_sound (raise_sound (addCount_sound (failStop_sound (sound_update (modAlert_sound
        (addCount_sound (releaseBus_sound h))) (by rfl)))))) (next_sound (failStop_sound (alertBackoff_sound
        (modAlert_sound (addCount_sound (releaseBus_sound h))))))

theorem execAlertBackoffEnd_sound : Answers State.Sound (execAlertBackoffEnd s) := by
  unfold execAlertBackoffEnd
  split
  · split
    · exact stepIte_sound (next_sound (modAlert_sound h)) (next_sound h)
    · exact next_sound h
  · exact next_sound h

theorem execArbitrationLost_sound {winner} : Answers State.Sound (execArbitrationLost winner s) := by
  unfold execArbitrationLost
  refine stepIte_sound ?_ ?_
  · exact next_sound h
  · dsimp only
    split
    · exact next_sound (twAddress_sound (alertBackoff_sound (addCount_sound (releaseBus_sound h))))
    · exact next_sound (alertBackoff_sound (addCount_sound (releaseBus_sound h)))

theorem execArbLate_sound : Answers State.Sound (execArbLate s) :=
  stepIte_sound (next_sound h) (next_sound (raise_sound (alertBackoff_sound (addCount_sound (releaseBus_sound h)))))

theorem execBusStuck_sound {recovered} : Answers State.Sound (execBusStuck recovered s) :=
  stepIte_sound (next_sound h) (stepIte_sound (next_sound (busIdle_sound h)) (next_sound (busStuck_sound h)))

theorem execBusFree_sound : Answers State.Sound (execBusFree s) :=
  stepIte_sound (next_sound (ite_sound (modAlert_sound (sound_update h (by rfl))) h)) (next_sound (busIdle_sound
    (ite_sound (modAlert_sound (sound_update h (by rfl))) h)))

/-! ## O6 -/

/-- Every row leaves a sound state sound. -/
theorem exec_sound : (c : Instr) → Answers State.Sound (exec c s)
  | .commandPacket _ _ => next_sound (feedPort_sound h)
  | .replyDelivered _ => stepIte_sound (next_sound (deliver_sound h)) (next_sound h)
  | .spiTransactionStart _ => execSpiTransactionStart_sound h
  | .spiTransactionEnd _ _ _ => execSpiTransactionEnd_sound h
  | .rxFifoOverflow byte => execRxFifoOverflow_sound h (_byte := byte)
  | .twTargetAddress _ _ => execTwTargetAddress_sound h
  | .twTransactionEnd _ _ => execTwTransactionEnd_sound h
  | .stretchTimeout _ => execStretchTimeout_sound h
  | .controlClockStart => stepIte_sound (next_sound (sound_update h (by rfl))) (next_sound h)
  | .controlClockStop => stepIte_sound (next_sound (sound_update h (by rfl))) (next_sound h)
  | .twFieldApply => stepIte_sound (next_sound (twInForce_sound h)) (next_sound h)
  | .alertCompose => execAlertCompose_sound h
  | .alertWrite => execAlertWrite_sound h
  | .alertDelivered => execAlertDelivered_sound h
  | .alertAttemptFail _ => execAlertAttemptFail_sound h
  | .alertBackoffEnd => execAlertBackoffEnd_sound h
  | .arbitrationLost _ => execArbitrationLost_sound h
  | .arbLate => execArbLate_sound h
  | .busStuck _ => execBusStuck_sound h
  | .sclStuck => stepIte_sound (next_sound h) (next_sound (busStuck_sound h))
  | .busFree => execBusFree_sound h
  | .ping _ => next_sound (doPing_sound h)
  | .identify _ => next_sound (doIdentify_sound h)
  | .getStatus _ => next_sound (doGetStatus_sound h)
  | .abort _ => next_sound (doAbort_sound h)
  | .resetDevice _ => next_sound (doResetDevice_sound h)
  | .portClassGet _ => next_sound (doPortClassGet_sound h)
  | .portClassSet _ => next_sound (doPortClassSet_sound h)
  | .paramWrite _ => next_sound (doParamWrite_sound h)
  | .paramRead _ => next_sound (doParamRead_sound h)
  | .hamperOpen _ => next_sound (doHamperOpen_sound h)
  | .hamperStage _ => next_sound (doHamperStage_sound h)
  | .hamperCommit _ => next_sound (doHamperCommit_sound h)
  | .hamperDiscard _ => next_sound (doHamperDiscard_sound h)
  | .hamperStatus _ => next_sound (doHamperStatus_sound h)
  | .graphBegin _ => next_sound (doGraphBegin_sound h)
  | .graphData _ => next_sound (doGraphData_sound h)
  | .graphEnd _ => next_sound (doGraphEnd_sound h)
  | .graphCheckDone _ => execGraphCheckDone_sound h
  | .graphActivate _ => next_sound (doGraphActivate_sound h)
  | .graphSwitch => execGraphSwitch_sound h
  | .graphUnload _ => next_sound (doGraphUnload_sound h)
  | .graphStatus _ => next_sound (doGraphStatus_sound h)
  | .loadMeter _ => next_sound (doLoadMeter_sound h)
  | .loadMeterSet _ => next_sound (doLoadMeterSet_sound h)
  | .memRead _ => next_sound (doMemRead_sound h)
  | .memReadSnapshot => execMemReadSnapshot_sound h
  | .memWrite _ => next_sound (doMemWrite_sound h)
  | .portStatus _ => next_sound (doPortStatus_sound h)
  | .spdifCsRead _ => next_sound (doSpdifCsRead_sound h)
  | .routeRead _ => next_sound (doRouteRead_sound h)
  | .portRestart _ => next_sound (doPortRestart_sound h)
  | .powerStatus _ => next_sound (doPowerStatus_sound h)
  | .powerModeSet _ => next_sound (doPowerModeSet_sound h)
  | .wakeCfg _ => next_sound (doWakeCfg_sound h)
  | .resetInfo _ => next_sound (doResetInfo_sound h)
  | .clockStatus _ => next_sound (doClockStatus_sound h)
  | .rootRestart _ => next_sound (doRootRestart_sound h)
  | .auxProfile _ => next_sound (doAuxProfile_sound h)
  | .eventStatus _ => next_sound (doEventStatus_sound h)
  | .eventRead _ => next_sound (doEventRead_sound h)
  | .eventPeek _ => next_sound (doEventPeek_sound h)
  | .eventClear _ => next_sound (doEventClear_sound h)
  | .pstageStatus _ => next_sound (doPstageStatus_sound h)
  | .pstageClear _ => next_sound (doPstageClear_sound h)
  | .pstageClearApply => execPstageClearApply_sound h
  | .pstageSenseRead _ => next_sound (doPstageSenseRead_sound h)
  | .pstageStop _ => next_sound (doPstageStop_sound h)
  | .diagRun _ => next_sound (doDiagRun_sound h)
  | .diagResult _ => next_sound (doDiagResult_sound h)
  | .otpStatus _ => next_sound (doOtpStatus_sound h)
  | .otpRead _ => next_sound (doOtpRead_sound h)
  | .otpGenBegin _ => next_sound (doOtpGenBegin_sound h)
  | .otpGenData _ => next_sound (doOtpGenData_sound h)
  | .otpGenCommit _ => next_sound (doOtpGenCommit_sound h)
  | .otpLock _ => next_sound (doOtpLock_sound h)
  | .otpFactoryWrite _ => next_sound (doOtpFactoryWrite_sound h)
  | .otpWordProgrammed _ => execOtpWordProgrammed_sound h
  | .healthStatus _ => next_sound (doHealthStatus_sound h)
  | .faultTableRead _ => next_sound (doFaultTableRead_sound h)
  | .faultTableClear _ => next_sound (doFaultTableClear_sound h)
  | .repairLogRead _ => next_sound (doRepairLogRead_sound h)
  | .bankCounters _ => next_sound (doBankCounters_sound h)
  | .healthCfg _ => next_sound (doHealthCfg_sound h)
  | .repairForce _ => next_sound (doRepairForce_sound h)
  | .faultInject _ => next_sound (doFaultInject_sound h)
  | .wakeStatus _ => next_sound (doWakeStatus_sound h)
  | .coolerFetch _ => next_sound (doCoolerFetch_sound h)
  | .coolerFetchComplete => next_sound (completeJobs_sound h)
  | .wakeRearm _ => next_sound (doWakeRearm_sound h)
  | .touchStatus _ => next_sound (doTouchStatus_sound h)
  | .touchRecal _ => next_sound (doTouchRecal_sound h)
  | .keyStatus _ => next_sound (doKeyStatus_sound h)
  | .svcRawRead _ => next_sound (doSvcRawRead_sound h)
  | .svcSpareTest _ => next_sound (doSvcSpareTest_sound h)
  | .registerWrite _ _ => execRegisterWrite_sound h
  | .paddockSizeWrite _ => stepIte_sound (fieldStep_sound h (wr_sound h)) (next_sound h)
  | .commitApply => execCommitApply_sound h
  | .routeCrossfadeEnd _ _ => next_sound (sound_update h (by rfl))
  | .interpRampEnd _ _ => next_sound (sound_update h (by rfl))
  | .blockBoundary _ => execBlockBoundary_sound h
  | .selfTestEnd _ _ => execSelfTestEnd_sound h
  | .taskGrant _ => execTaskGrant_sound h
  | .taskRetire _ => execTaskRetire_sound h
  | .heldAdmit => execHeldAdmit_sound h
  | .penRefill _ _ => execPenRefill_sound h
  | .engineStopEnd _ => execEngineStopEnd_sound h
  | .faultDetect _ => execFaultDetect_sound h
  | .watchdogExpire _ => execWatchdogExpire_sound h
  | .bankWaitTimeout _ _ => execBankWaitTimeout_sound h
  | .faultTableEntry => execFaultTableEntry_sound h
  | .aonQueueDrain => stepIte_sound (next_sound (drainAon_sound h)) (next_sound h)
  | .portResetDone _ => execPortResetDone_sound h
  | .scrubRead _ _ => execScrubRead_sound h
  | .strikeExpire => next_sound (modHealth_sound h)
  | .engineRetire => execEngineRetire_sound h
  | .migrationBegin => execMigrationBegin_sound h
  | .migrationCopyEnd => execMigrationCopyEnd_sound h
  | .migrationSwitch => execMigrationSwitch_sound h
  | .decimatorParallelStart => execDecimatorParallelStart_sound h
  | .decimatorSwitch => execDecimatorSwitch_sound h
  | .fingerFail _ _ => stepIte_sound (next_sound (fingerFailed_sound h)) (next_sound h)
  | .fingerRetire => execFingerRetire_sound h
  | .repairLogWrite _ => execRepairLogWrite_sound h
  | .portEnable _ => execPortEnable_sound h
  | .portDisable _ => stepIte_sound (fieldStep_sound h (applyPortCfg_sound h)) (next_sound h)
  | .portConfigChange _ _ => stepIte_sound (fieldStep_sound h (applyPortCfg_sound h)) (next_sound h)
  | .channelMapChange _ _ _ => stepIte_sound (fieldStep_sound h (applyMap_sound h)) (next_sound h)
  | .portClockFound _ => stepIte_sound (next_sound (enterLock_sound h)) (next_sound h)
  | .portLock _ _ _ _ => execPortLock_sound h
  | .portLockLoss _ _ _ => execPortLockLoss_sound h
  | .framingError _ _ => execFramingError_sound h
  | .spdifParityError _ _ => execSpdifParityError_sound h
  | .spdifNonpcm _ _ => execSpdifNonpcm_sound h
  | .spdifNonpcmExit _ => execSpdifNonpcmExit_sound h
  | .spdifBlockCapture _ _ _ => execSpdifBlockCapture_sound h
  | .adcEnable _ => fieldStep_sound h (applyAdcCfg_sound h)
  | .adcSettleEnd _ => stepIte_sound (next_sound (modAdc_sound h)) (next_sound h)
  | .adcDisable _ => fieldStep_sound h (applyAdcCfg_sound h)
  | .adcMute _ => fieldStep_sound h (applyAdcCfg_sound h)
  | .adcUnmute _ => fieldStep_sound h (applyAdcCfg_sound h)
  | .pgaChange _ _ => fieldStep_sound h (applyAdcCfg_sound h)
  | .pgaStep _ => stepIte_sound (next_sound (sound_update h (by rfl))) (next_sound h)
  | .micbiasEnable => execMicbiasEnable_sound h
  | .micbiasOverload => execMicbiasOverload_sound h
  | .classGHigh => stepIte_sound (next_sound (modHp_sound h)) (next_sound h)
  | .classGLow => stepIte_sound (next_sound (modHp_sound h)) (next_sound h)
  | .hpPowerUp => execHpPowerUp_sound h
  | .hpPowerDown => fieldStep_sound h (applyHpCfg_sound h)
  | .hpMute _ _ => execHpMute_sound h
  | .loPowerUp => fieldStep_sound h (applyLoCfg_sound h)
  | .loPowerDown => fieldStep_sound h (applyLoCfg_sound h)
  | .hpOvercurrent _ _ => stepIte_sound (next_sound h) (next_sound (raise_sound (modHp_sound h)))
  | .hpFaultRetry => execHpFaultRetry_sound h
  | .jackLevelChange _ => execJackLevelChange_sound h
  | .jackInsert _ => execJackInsert_sound h
  | .jackRemove _ => execJackRemove_sound h
  | .classifyMeasure _ => execClassifyMeasure_sound h
  | .classifyRetry => execClassifyRetry_sound h
  | .threePoleRepeat _ _ => execThreePoleRepeat_sound h
  | .headsetMicSwitch => execHeadsetMicSwitch_sound h
  | .hsButtonPress _ => execHsButtonPress_sound h
  | .hsButtonRelease => execHsButtonRelease_sound h
  | .pdmClockChange _ => execPdmClockChange_sound h
  | .setACrossfade _ => execSetACrossfade_sound h
  | .roosterWindow _ filtered => execRoosterWindow_sound h (x := filtered)
  | .channelStart _ => stepIte_sound (next_sound (beginStart_sound h)) (next_sound h)
  | .channelStop _ => fieldStep_sound h (applyChanCfg_sound h)
  | .vfsChange _ _ => stepIte_sound (fieldStep_sound h (applyVfs_sound h)) (next_sound h)
  | .limitedCycle _ _ => execLimitedCycle_sound h
  | .channelShutdown _ _ => execChannelShutdown_sound h
  | .channelRetry _ => execChannelRetry_sound h
  | .retriesReset _ => stepIte_sound (next_sound (modChan_sound h)) (next_sound h)
  | .loopOpen _ => execLoopOpen_sound h
  | .dcDetect _ => stepIte_sound (next_sound (shutdown_sound h)) (next_sound h)
  | .pvddFault _ => execPvddFault_sound h
  | .pvddAvailable _ => execPvddAvailable_sound h
  | .thermalShutdown => execThermalShutdown_sound h
  | .thermalRecover => execThermalRecover_sound h
  | .xfault _ => execXfault_sound h
  | .dieLinkFail => stepIte_sound (next_sound (linkFail_sound h)) (next_sound h)
  | .diagSweepStart => execDiagSweepStart_sound h
  | .diagBiasRiseEnd _ => stepIte_sound (next_sound h) (next_sound (nextSlot_sound h))
  | .diagSlotEnd _ => next_sound (slotEnd_sound h)
  | .diagSweepEnd => execDiagSweepEnd_sound h
  | .rootConfigWrite _ _ => execRootConfigWrite_sound h
  | .pllSafeLock => execPllSafeLock_sound h
  | .pllRootLock => stepIte_sound (next_sound (modClock_sound h)) (next_sound h)
  | .rootSwitchBack => stepIte_sound (next_sound (switchBack_sound h)) (next_sound h)
  | .refQualify _ => execRefQualify_sound h
  | .trackLock => execTrackLock_sound h
  | .refLoss => next_sound (refLost_sound h)
  | .coastTimeout => execCoastTimeout_sound h
  | .realignBlock => execRealignBlock_sound h
  | .xtalFaultSet => execXtalFaultSet_sound h
  | .xtalFaultClear => execXtalFaultClear_sound h
  | .auxLock _ => execAuxLock_sound h
  | .auxRatioChange _ _ _ _ => stepIte_sound (fieldStep_sound h (applyAuxRatio_sound h)) (next_sound h)
  | .auxRampEnd _ => execAuxRampEnd_sound h
  | .auxProfileBegin _ => execAuxProfileBegin_sound h
  | .auxSegmentEnd _ => execAuxSegmentEnd_sound h
  | .mclkEnable _ => fieldStep_sound h (mclkCommit_sound h)
  | .mclkDisable _ => fieldStep_sound h (mclkCommit_sound h)
  | .syncPeriodWrite _ => stepIte_sound (fieldStep_sound h (applySync_sound h)) (next_sound h)
  | .powerOnReset => next_sound (deviceReset_sound h)
  | .pinReset => stepIte_sound (next_sound h) (next_sound (deviceReset_sound h))
  | .supplyReset _ => execSupplyReset_sound h
  | .thermalReset => stepIte_sound (next_sound h) (next_sound (deviceReset_sound h))
  | .bootStart => execBootStart_sound h
  | .bootThermalRelease => stepIte_sound (next_sound (modPower_sound h)) (next_sound h)
  | .bootComplete => execBootComplete_sound h
  | .bootFail => execBootFail_sound h
  | .modeD1 => execModeD1_sound h
  | .fabricGate => execFabricGate_sound h
  | .modeD2 => execModeD2_sound h
  | .modeD3 => execModeD3_sound h
  | .idleReached => execIdleReached_sound h
  | .fabricUngate => execFabricUngate_sound h
  | .listenRetainSwitch => execListenRetainSwitch_sound h
  | .wakeSource _ => execWakeSource_sound h
  | .coreTemp120 _ => execCoreTemp120_sound h
  | .chargerChange _ => next_sound (chargerTo_sound h)
  | .shipClockMeasure _ => stepIte_sound (next_sound (modPower_sound h)) (next_sound h)
  | .touchScan _ => execTouchScan_sound h
  | .gestureHold _ => execGestureHold_sound h
  | .touchMaxOn _ => execTouchMaxOn_sound h
  | .touchConfigChange _ _ => stepIte_sound (fieldStep_sound h (applyTchCfg_sound h)) (next_sound h)
  | .sliderConfigChange _ => stepIte_sound (fieldStep_sound h (applySldCfg_sound h)) (next_sound h)
  | .keyPress _ => execKeyPress_sound h
  | .keyRelease _ => execKeyRelease_sound h
  | .keyLong _ => stepIte_sound (next_sound (raise_sound (modKey_sound h))) (next_sound h)
  | .coreRelease _ _ => execCoreRelease_sound h
  | .micbiasOverloadEnd => next_sound (sound_update h (by rfl))
  | .portClockLost _ => stepIte_sound (next_sound (enterLock_sound h)) (next_sound h)
  | .otpReadDone => execOtpReadDone_sound h
  | .svcRawReadDone => execSvcRawReadDone_sound h
  | .testInstructionUpdate _ => execTestInstructionUpdate_sound h

end

/-- Settles O6: a row of the model is composed of operations each of which keeps a sound state sound, and so is the
passing of time. -/
theorem stepKeepsSound : Obligations.StepKeepsSound := by
  unfold Obligations.StepKeepsSound
  intro s t h hstep
  unfold step at hstep
  split at hstep
  next => exact Host.Outcome.next.inj hstep ▸ tick_sound h
  next c rest _ =>
    obtain ⟨u, hu, hsound⟩ := exec_sound (s := { s with pending := rest }) (sound_update h rfl) c
    exact Host.Outcome.next.inj (hu.symm.trans hstep) ▸ hsound

end Sys2Proof.Machine
